-- ==== Sys2Proof/Word.lean ====
section
/-! DEFINITION. Words of the part and the sparse table type that every numbered store uses. -/

namespace Sys2Proof

/-- A byte (00 R14). -/
abbrev Byte := BitVec 8
/-- A 32-bit general or predicate register of a leaf (03 R81). -/
abbrev Word := BitVec 32
/-- A CSR, an address or a ring time as bits (00 R17, 01 R26). -/
abbrev Dword := BitVec 64
/-- Ring time in ns, below 2^64 (00 R15). It is counted and compared, never masked, so it is a number. -/
abbrev Time := Nat
/-- A sparse table: key and value pairs, keys strictly rising, no entry equal to the table's default value. -/
abbrev Tab (α : Type) := List (Nat × α)

end Sys2Proof
end

