-- ==== Sys2Proof/Config.lean ====
section
/-! DEFINITION. What the spec leaves open: constants with no body, so that no proof can see a value. -/

namespace Sys2Proof

/-- The special-function unit's result bits for an input that 02 R78 gives only an error bound for
(function number 0 EXP, 1 LOG, 2 RCP, 3 RSQRT, 4 TANH, 5 ERF). Log entry 10. -/
opaque Config.special : Nat → Word → Word

/-- The n-th choice of a leaf-memory race at an address: which of the bytes that may be seen is seen (03 R91). Log entry 11. -/
opaque Config.racePick : Nat → Nat → Nat

/-- The root-of-trust key hash in the factory fuses (13 R452). Log entry 12. -/
opaque Config.fusedKeyHash : List Byte

/-- PCI device id of the part, "Fixed" with no value given (13 R464). Log entry 13. -/
opaque Config.deviceId : BitVec 16
/-- Nertomi's PCI vendor id, "Fixed" with no value given (13 R464). Log entry 13. -/
opaque Config.vendorId : BitVec 16

/-- Bytes of scan regions 4 and 5, whose scan maps the spec does not give (16 R538): stepping, region, branch, offset,
free choice. Log entry 15. -/
opaque Config.scanByte : Nat → Nat → Nat → Nat → Nat → Byte

/-- Cells of the boundary-scan register, which the BSDL description gives and the spec does not (16 R537). Log entry 15. -/
opaque Config.boundaryBits : Nat

/-- A byte of a request's output buffer after a request that did not end DONE (10 R351). Log entry 16. -/
opaque Config.freeByte : Nat → Nat → Byte
/-- A 32-bit value the spec does not state, at free choice n. Log entry 16. -/
opaque Config.freeWord : Nat → Word

/-- Journal bytes that the n-th map update takes, which the spec does not state (06 R223). Log entry 17. -/
opaque Config.journalBytes : Nat → Nat

/-- The part's own grove number, with which FORK_PEER 0 reads and the spec gives no source for (09 R309, R326). Log entry 32. -/
opaque Config.ownGrove : BitVec 16

end Sys2Proof
end

