-- ==== Sys2Proof/Machine/Tab.lean ====
section
/-! DEFINITION. Sparse tables: reading and writing one entry. A table lists its keys strictly rising and lists no entry
equal to its default value, so equal tables are equal data. -/

namespace Sys2Proof.Machine

/-- The entry of a table at a key, or the default where none is listed. -/
def tget {α : Type} (d : α) : Tab α → Nat → α
  | [], _ => d
  | (k, v) :: t, i => if i = k then v else tget d t i

/-- A table with an entry put in at its place. -/
def tput {α : Type} : Tab α → Nat → α → Tab α
  | [], i, v => [(i, v)]
  | (k, w) :: t, i, v =>
    if i < k then (i, v) :: (k, w) :: t
    else if i = k then (i, v) :: t
    else (k, w) :: tput t i v

/-- A table without an entry. -/
def tdel {α : Type} : Tab α → Nat → Tab α
  | [], _ => []
  | (k, w) :: t, i => if i = k then tdel t i else (k, w) :: tdel t i

/-- A table with one entry changed, in canonical form: writing the default removes the entry. -/
def tset {α : Type} [DecidableEq α] (d : α) (t : Tab α) (i : Nat) (v : α) : Tab α :=
  if v = d then tdel t i else tput t i v

/-- Every key of a table is above a bound, the keys rise strictly, and no entry is the default. -/
def tabWf {α : Type} [DecidableEq α] (d : α) : Nat → Tab α → Bool
  | _, [] => true
  | lo, (k, v) :: t => decide (lo ≤ k) && decide (v ≠ d) && tabWf d (k + 1) t

/-- Write consecutive entries from a key on. -/
def tsetAll {α : Type} [DecidableEq α] (d : α) (t : Tab α) (i : Nat) : List α → Tab α
  | [] => t
  | v :: vs => tsetAll d (tset d t i v) (i + 1) vs

/-- Read n consecutive entries from a key on. -/
def tgetAll {α : Type} (d : α) (t : Tab α) (i : Nat) : Nat → List α
  | 0 => []
  | n + 1 => tget d t i :: tgetAll d t (i + 1) n

/-- Update entry i by a function. -/
def tmod {α : Type} [DecidableEq α] (d : α) (t : Tab α) (i : Nat) (f : α → α) : Tab α :=
  tset d t i (f (tget d t i))

/-- The first element of a list that meets a test, and its position. -/
def findIdx {α : Type} (p : α → Bool) : List α → Nat → Option (Nat × α)
  | [], _ => none
  | a :: t, i => if p a then some (i, a) else findIdx p t (i + 1)

/-- Replace every element that meets a test by its image. -/
def mapIf {α : Type} (p : α → Bool) (f : α → α) (l : List α) : List α :=
  l.map (fun a => if p a then f a else a)

/-- Bits [hi:lo] of a number. -/
def fld (x hi lo : Nat) : Nat := (x >>> lo) % 2 ^ (hi - lo + 1)

/-- The little-endian number of some bytes (00 R14). -/
def leNat : List Byte → Nat
  | [] => 0
  | b :: t => b.toNat + 256 * leNat t

/-- The n little-endian bytes of a number (00 R14). -/
def leBytes : Nat → Nat → List Byte
  | 0, _ => []
  | n + 1, x => BitVec.ofNat 8 x :: leBytes n (x / 256)

/-- Bytes a to a + n - 1 of a list as a little-endian number; bytes beyond its end count as 0. -/
def fieldLE (bs : List Byte) (a n : Nat) : Nat := leNat ((bs.drop a).take n)

/-- Saturating count of a 32-bit counter. -/
def sat32 (n : Nat) : Nat := min n 0xFFFFFFFF

/-- Ceiling of a quotient. -/
def cdiv (a b : Nat) : Nat := (a + b - 1) / b

/-- The candidate with the smallest key. -/
def minBy {α : Type} (key : α → Nat) : List α → Option α
  | [] => none
  | a :: l => match minBy key l with
    | none => some a
    | some b => if key a ≤ key b then some a else some b

end Sys2Proof.Machine
end

