-- ==== Sys2Proof/Machine/NumFmt.lean ====
section
/-! DEFINITION. Number formats, conversions, block scaling and FP32 arithmetic of chapter 02, exactly: a finite value is a
sign, a magnitude and a power of two. -/

namespace Sys2Proof.Machine

/-- A value of chapter 02: NaN, an infinity, or (-1)^neg * m * 2^e. -/
inductive Val where
  | nan
  | inf (neg : Bool)
  | fin (neg : Bool) (m : Nat) (e : Int)
  deriving DecidableEq, Repr

/-- Sticky arithmetic flags of 02 R59 in the bit order of LEAF_FLAGS (03 R122). -/
abbrev FFlags := BitVec 4
def flInv : FFlags := 1
def flOvf : FFlags := 2
def flAccOvf : FFlags := 4
def flNanIn : FFlags := 8

/-- Which codes of the all-ones exponent are special (02 R44). -/
inductive NanRule where
  | ieee | e4m3 | none
  deriving DecidableEq, Repr

/-- A floating-point encoding of 02 R44. -/
structure FloatFmt where
  ebits : Nat
  mbits : Nat
  bias : Nat
  rule : NanRule
  deriving DecidableEq, Repr

def fmtFp32 : FloatFmt := ⟨8, 23, 127, .ieee⟩
def fmtBf16 : FloatFmt := ⟨8, 7, 127, .ieee⟩
def fmtFp16 : FloatFmt := ⟨5, 10, 15, .ieee⟩
def fmtE4m3 : FloatFmt := ⟨4, 3, 7, .e4m3⟩
def fmtE5m2 : FloatFmt := ⟨5, 2, 15, .ieee⟩
def fmtE3m2 : FloatFmt := ⟨3, 2, 3, .none⟩
def fmtE2m3 : FloatFmt := ⟨2, 3, 1, .none⟩
def fmtE2m1 : FloatFmt := ⟨2, 1, 1, .none⟩

/-- An element type: a float, an n-bit integer, or the INT8 of a block (value q / 64, 02 R48). -/
inductive Elem where
  | flt (f : FloatFmt)
  | int (bits : Nat)
  | blockInt8
  deriving DecidableEq, Repr

/-- How elements are scaled (02 R42, R50, R53). -/
inductive Scaling where
  | unscaled | mx | ts
  deriving DecidableEq, Repr

/-- What a format code names (02 R42). -/
inductive Format where
  | plain (e : Elem) (sc : Scaling)
  | acc96
  | reserved
  deriving DecidableEq, Repr

/-- The six block element types in the order of codes 0x08-0x0D and 0x10-0x15 (02 R42). -/
def blockElem : Nat → Elem
  | 0 => .flt fmtE4m3
  | 1 => .flt fmtE5m2
  | 2 => .flt fmtE3m2
  | 3 => .flt fmtE2m3
  | 4 => .flt fmtE2m1
  | _ => .blockInt8

/-- The format of a 5-bit code (02 R42). -/
def formatOf (code : Nat) : Format :=
  if code = 0 then .plain (.flt fmtFp32) .unscaled
  else if code = 1 then .plain (.flt fmtBf16) .unscaled
  else if code = 2 then .plain (.flt fmtFp16) .unscaled
  else if code = 3 then .plain (.flt fmtE4m3) .unscaled
  else if code = 4 then .plain (.flt fmtE5m2) .unscaled
  else if code = 5 then .plain (.int 8) .unscaled
  else if code = 6 then .plain (.int 4) .unscaled
  else if code = 7 then .plain (.int 32) .unscaled
  else if 8 ≤ code ∧ code ≤ 13 then .plain (blockElem (code - 8)) .mx
  else if 16 ≤ code ∧ code ≤ 21 then .plain (blockElem (code - 16)) .ts
  else if code = 30 then .acc96
  else .reserved

/-- Bits of one element (02 R42). -/
def elemBits : Elem → Nat
  | .flt f => 1 + f.ebits + f.mbits
  | .int b => b
  | .blockInt8 => 8

/-- Bits per element of a code in storage; 0 for a reserved code. -/
def codeBits (code : Nat) : Nat :=
  match formatOf code with
  | .plain e _ => elemBits e
  | .acc96 => 128
  | .reserved => 0

/-- Bytes per row of a tile (07 R242). -/
def rowBytes (code : Nat) : Nat := 4 * codeBits code

/-- Bytes of a tile with its header (07 R242). -/
def tileBytes (code : Nat) : Nat := 64 + 32 * rowBytes code

def isReservedCode (code : Nat) : Bool := formatOf code == .reserved

/-- A code whose elements carry block scales (MX or TS). -/
def isScaled (code : Nat) : Bool :=
  match formatOf code with
  | .plain _ .mx | .plain _ .ts => true
  | _ => false

/-- MX code (02 R42). -/
def isMx (code : Nat) : Bool :=
  match formatOf code with
  | .plain _ .mx => true
  | _ => false

/-- Wide group of 02 R60: BF16 and FP16. -/
def isWide (code : Nat) : Bool := code == 1 || code == 2

/-- Permitted as a matrix operand (02 R42). -/
def okMatrix (code : Nat) : Bool := !isReservedCode code && code != 0 && code != 7 && code != 30

/-- Permitted for vector load and store (02 R42). -/
def okVector (code : Nat) : Bool := !isReservedCode code && code != 30

/-- Permitted as EXA output (02 R42). -/
def okExaOut (code : Nat) : Bool := !isReservedCode code

/-- Permitted as canonical output (02 R42). -/
def okCanonOut (code : Nat) : Bool :=
  !isReservedCode code && code != 5 && code != 6 && code != 7 && code != 30

/-- m * 2^sh to the nearest integer, ties to even (02 R55). -/
def roundShift (m : Nat) (sh : Int) : Nat :=
  match sh with
  | .ofNat k => m * 2 ^ k
  | .negSucc k =>
    let d := 2 ^ (k + 1)
    let q := m / d
    let r := m % d
    if d < 2 * r ∨ (2 * r = d ∧ q % 2 = 1) then q + 1 else q

/-- m1 * 2^e1 compared with m2 * 2^e2. -/
def cmpMag (m1 : Nat) (e1 : Int) (m2 : Nat) (e2 : Int) : Ordering :=
  if e1 ≤ e2 then compare m1 (m2 * 2 ^ (e2 - e1).toNat) else compare (m1 * 2 ^ (e1 - e2).toNat) m2

/-- The value of a floating-point code (02 R44, R45: every NaN is one NaN). -/
def decFloat (f : FloatFmt) (raw : Nat) : Val :=
  let m := raw % 2 ^ f.mbits
  let e := (raw / 2 ^ f.mbits) % 2 ^ f.ebits
  let neg := (raw / 2 ^ (f.mbits + f.ebits)) % 2 == 1
  if e = 2 ^ f.ebits - 1 ∧ f.rule = .ieee then (if m = 0 then .inf neg else .nan)
  else if e = 2 ^ f.ebits - 1 ∧ f.rule = .e4m3 ∧ m = 2 ^ f.mbits - 1 then .nan
  else if e = 0 then .fin neg m (1 - (f.bias : Int) - f.mbits)
  else .fin neg (2 ^ f.mbits + m) ((e : Int) - f.bias - f.mbits)

def signBit (f : FloatFmt) (neg : Bool) : Nat := if neg then 2 ^ (f.mbits + f.ebits) else 0

/-- Code of the largest normal magnitude (02 R44). -/
def maxNormalCode (f : FloatFmt) : Nat :=
  match f.rule with
  | .ieee => (2 ^ f.ebits - 1) * 2 ^ f.mbits - 1
  | .e4m3 => 2 ^ (f.ebits + f.mbits) - 2
  | .none => 2 ^ (f.ebits + f.mbits) - 1

/-- The canonical NaN (02 R45); the formats without NaN never receive one (02 R58). -/
def canonNan (f : FloatFmt) : Nat :=
  match f.rule with
  | .ieee => (2 ^ f.ebits - 1) * 2 ^ f.mbits + 2 ^ (f.mbits - 1)
  | .e4m3 => 2 ^ (f.ebits + f.mbits) - 1
  | .none => 0

/-- Code of an infinity after overflow or of an infinity input (02 R56), with the INV of an infinity or overflow that
becomes an E4M3 NaN (02 R59). -/
def overflowCode (f : FloatFmt) (neg sat : Bool) : Nat × FFlags :=
  if f = fmtE4m3 then
    (if sat then (signBit f neg + maxNormalCode f, 0) else (canonNan f, flInv))
  else if f = fmtE5m2 ∧ sat = true then (signBit f neg + maxNormalCode f, 0)
  else match f.rule with
    | .none => (signBit f neg + maxNormalCode f, 0)
    | _ => (signBit f neg + (2 ^ f.ebits - 1) * 2 ^ f.mbits, 0)

/-- Convert a value to a floating-point format: one rounding to nearest even, overflow after rounding (02 R55-R57, R59). -/
def encFloat (f : FloatFmt) (sat : Bool) (v : Val) : Nat × FFlags :=
  match v with
  | .nan => (canonNan f, flNanIn)
  | .inf neg => overflowCode f neg sat
  | .fin neg m e =>
    if m = 0 then (signBit f neg, 0) else
    let emin : Int := 1 - f.bias
    let lead : Int := Nat.log2 m + e
    let q : Int := (if lead < emin then emin else lead) - f.mbits
    let n := roundShift m (e - q)
    if n < 2 ^ f.mbits then (signBit f neg + n, 0) else
    let n' := if n = 2 ^ (f.mbits + 1) then 2 ^ f.mbits else n
    let q' : Int := if n = 2 ^ (f.mbits + 1) then q + 1 else q
    let biased : Int := q' + f.mbits + f.bias
    let code := biased.toNat * 2 ^ f.mbits + (n' - 2 ^ f.mbits)
    if maxNormalCode f < code then
      let r := overflowCode f neg sat
      (r.1, r.2 ||| flOvf)
    else (signBit f neg + code, 0)

/-- Two's complement value of an n-bit code (02 R48). -/
def decInt (bits raw : Nat) : Val :=
  let x := raw % 2 ^ bits
  if 2 ^ (bits - 1) ≤ x then .fin true (2 ^ bits - x) 0 else .fin false x 0

/-- Convert a value to an n-bit integer (02 R56, R57, R59); scale is added to the exponent first. -/
def encInt (bits : Nat) (scale : Int) (v : Val) : Nat × FFlags :=
  match v with
  | .nan => (0, flInv ||| flNanIn)
  | .inf neg => (if neg then 2 ^ (bits - 1) else 2 ^ (bits - 1) - 1, 0)
  | .fin neg m e =>
    let n := roundShift m (e + scale)
    if neg then
      (if 2 ^ (bits - 1) < n then (2 ^ (bits - 1), flOvf) else ((2 ^ bits - n) % 2 ^ bits, 0))
    else
      (if 2 ^ (bits - 1) - 1 < n then (2 ^ (bits - 1) - 1, flOvf) else (n, 0))

/-- The value of an element code before block scaling (02 R44, R48). -/
def decElem (e : Elem) (raw : Nat) : Val :=
  match e with
  | .flt f => decFloat f raw
  | .int b => decInt b raw
  | .blockInt8 =>
    match decInt 8 raw with
    | .fin n m _ => .fin n m (-6)
    | v => v

/-- Convert to an unscaled element (02 R55-R57). -/
def encElem (e : Elem) (sat : Bool) (v : Val) : Nat × FFlags :=
  match e with
  | .flt f => encFloat f sat v
  | .int b => encInt b 0 v
  | .blockInt8 => encInt 8 6 v

/-- A value times 2^k. -/
def scaleVal (v : Val) (k : Int) : Val :=
  match v with
  | .fin n m e => .fin n m (e + k)
  | v => v

/-- Value of an element under an E8M0 scale (02 R51). -/
def scaledElem (e : Elem) (raw scale : Nat) : Val :=
  if scale = 255 then .nan else scaleVal (decElem e raw) ((scale : Int) - 127)

/-- Largest normal exponent of a block element type (02 R58). -/
def elemEmax : Elem → Int
  | .flt f => if f = fmtE4m3 then 8 else if f = fmtE5m2 then 15 else if f = fmtE3m2 then 4 else if f = fmtE2m3 then 2
      else if f = fmtE2m1 then 2 else if f = fmtFp16 then 15 else 127
  | _ => 0

def isNanV : Val → Bool
  | .nan => true
  | _ => false

def isInfV : Val → Bool
  | .inf _ => true
  | _ => false

def isZeroV : Val → Bool
  | .fin _ 0 _ => true
  | _ => false

/-- floor(log2 |v|) of a finite nonzero value. -/
def expOf : Val → Option Int
  | .fin _ m e => if m = 0 then none else some (Nat.log2 m + e)
  | _ => none

/-- The greatest exponent of a list of values. -/
def maxExp : List Val → Option Int
  | [] => none
  | v :: t =>
    match expOf v, maxExp t with
    | none, r => r
    | r, none => r
    | some a, some b => some (if a < b then b else a)

/-- One block of 02 R58: the scale, the element codes and the flags. -/
def encBlock (e : Elem) (vs : List Val) : Nat × List Nat × FFlags :=
  if vs.any isNanV then (255, vs.map (fun _ => 0), flNanIn)
  else if vs.any isInfV then (255, vs.map (fun _ => 0), flInv)
  else match maxExp vs with
    | none => (0, vs.map (fun _ => 0), 0)
    | some mx =>
      let x0 := mx - elemEmax e
      let x : Int := if x0 < -127 then -127 else if 127 < x0 then 127 else x0
      ((x + 127).toNat, vs.map (fun v => (encElem e true (scaleVal v (-x))).1), if 127 < x0 then flOvf else 0)

/-- FP32 of a value, rounded once (02 R55). -/
def toFp32 (v : Val) : Word × FFlags :=
  let r := encFloat fmtFp32 false v
  (BitVec.ofNat 32 r.1, r.2)

/-- The value an FP32 word holds. -/
def ofFp32 (w : Word) : Val := decFloat fmtFp32 w.toNat

def fp32Nan : Word := 0x7FC00000
def fp32PInf : Word := 0x7F800000
def fp32NInf : Word := 0xFF800000

/-- Signed integer of a finite value in units of 2^e. -/
def inUnits (neg : Bool) (m : Nat) (ev e : Int) : Int :=
  let n : Int := (m * 2 ^ (ev - e).toNat : Nat)
  if neg then -n else n

/-- Exact sum with the zero signs of IEEE 754 under round to nearest even (02 R44, R55). -/
def addVal (a b : Val) : Val × FFlags :=
  match a, b with
  | .nan, _ => (.nan, flNanIn)
  | _, .nan => (.nan, flNanIn)
  | .inf x, .inf y => if x = y then (.inf x, 0) else (.nan, flInv)
  | .inf x, _ => (.inf x, 0)
  | _, .inf y => (.inf y, 0)
  | .fin s1 m1 e1, .fin s2 m2 e2 =>
    let e := if e1 ≤ e2 then e1 else e2
    let t := inUnits s1 m1 e1 e + inUnits s2 m2 e2 e
    if t = 0 then (.fin (s1 && s2 && m1 == 0 && m2 == 0) 0 0, 0)
    else (.fin (decide (t < 0)) t.natAbs e, 0)

/-- Exact product (02 R64, R68: infinity times zero is NaN). -/
def mulVal (a b : Val) : Val × FFlags :=
  match a, b with
  | .nan, _ => (.nan, flNanIn)
  | _, .nan => (.nan, flNanIn)
  | .inf x, .inf y => (.inf (x != y), 0)
  | .inf x, .fin y m _ => if m = 0 then (.nan, flInv) else (.inf (x != y), 0)
  | .fin x m _, .inf y => if m = 0 then (.nan, flInv) else (.inf (x != y), 0)
  | .fin s1 m1 e1, .fin s2 m2 e2 => (.fin (s1 != s2) (m1 * m2) (e1 + e2), 0)

def negVal : Val → Val
  | .nan => .nan
  | .inf n => .inf (!n)
  | .fin n m e => .fin (!n) m e

/-- Round an exact result to FP32; a NaN that arose already carries its flag. -/
def finish32 (r : Val × FFlags) : Word × FFlags :=
  match r.1 with
  | .nan => (fp32Nan, r.2)
  | v => let w := toFp32 v; (w.1, w.2 ||| r.2)

/-- FP32 addition (02 R77). -/
def fp32Add (a b : Word) : Word × FFlags := finish32 (addVal (ofFp32 a) (ofFp32 b))
/-- FP32 subtraction (02 R77). -/
def fp32Sub (a b : Word) : Word × FFlags := finish32 (addVal (ofFp32 a) (negVal (ofFp32 b)))
/-- FP32 multiplication (02 R77). -/
def fp32Mul (a b : Word) : Word × FFlags := finish32 (mulVal (ofFp32 a) (ofFp32 b))
/-- Fused multiply-add, rounded once (02 R77). -/
def fp32Fma (a b c : Word) : Word × FFlags :=
  let p := mulVal (ofFp32 a) (ofFp32 b)
  match p.1, ofFp32 c with
  | .nan, .nan => (fp32Nan, flNanIn)
  | .nan, _ => (fp32Nan, p.2)
  | v, w => finish32 (addVal v w)

/-- Order of two values that are not NaN; +0 and -0 are equal (02 R47). -/
def cmpVal (a b : Val) : Ordering :=
  match a, b with
  | .inf true, .inf true => .eq
  | .inf false, .inf false => .eq
  | .inf true, _ => .lt
  | .inf false, _ => .gt
  | _, .inf true => .gt
  | _, .inf false => .lt
  | .fin s1 m1 e1, .fin s2 m2 e2 =>
    let e := if e1 ≤ e2 then e1 else e2
    compare (inUnits s1 m1 e1 e) (inUnits s2 m2 e2 e)
  | _, _ => .eq

/-- FP32 maximum: +0 for max(+0, -0), NaN if either is NaN (02 R47). -/
def fp32Max (a b : Word) : Word × FFlags :=
  let x := ofFp32 a
  let y := ofFp32 b
  if isNanV x || isNanV y then (fp32Nan, flNanIn)
  else if isZeroV x && isZeroV y then (if a = 0x80000000 ∧ b = 0x80000000 then a else 0, 0)
  else (if cmpVal x y == .lt then b else a, 0)

/-- FP32 minimum: -0 for min(+0, -0), NaN if either is NaN (02 R47). -/
def fp32Min (a b : Word) : Word × FFlags :=
  let x := ofFp32 a
  let y := ofFp32 b
  if isNanV x || isNanV y then (fp32Nan, flNanIn)
  else if isZeroV x && isZeroV y then (if a = 0x80000000 ∨ b = 0x80000000 then 0x80000000 else 0, 0)
  else (if cmpVal y x == .lt then b else a, 0)

/-- One level of the balanced tree of 02 R69. -/
def treeLevel : List Word → List Word × FFlags
  | a :: b :: t =>
    let s := fp32Add a b
    let r := treeLevel t
    (s.1 :: r.1, s.2 ||| r.2)
  | [a] => ([a], 0)
  | [] => ([], 0)

/-- n levels of the tree. -/
def treeLevels : Nat → List Word → List Word × FFlags
  | 0, l => (l, 0)
  | n + 1, l =>
    let r := treeLevel l
    let q := treeLevels n r.1
    (q.1, r.2 ||| q.2)

/-- Block sum of 32 values (02 R69). -/
def blockSum (l : List Word) : Word × FFlags :=
  let r := treeLevels 5 l
  (r.1.headD 0, r.2)

/-- Key of 02 R79's total order: true when candidate a (score, index) ranks before b. -/
def ranksBefore (a b : Val × Nat) : Bool :=
  match isNanV a.1, isNanV b.1 with
  | true, true => decide (a.2 < b.2)
  | true, false => false
  | false, true => true
  | false, false =>
    match cmpVal a.1 b.1 with
    | .gt => true
    | .lt => false
    | .eq => decide (a.2 < b.2)

/-- Insert a candidate in rank order, keeping at most k. -/
def rankInsert (k : Nat) (c : (Val × Nat) × Nat) (l : List ((Val × Nat) × Nat)) : List ((Val × Nat) × Nat) :=
  ((l.takeWhile (fun d => ranksBefore d.1 c.1)) ++ c :: l.dropWhile (fun d => ranksBefore d.1 c.1)).take k

/-- The first k candidates of a list in rank order (02 R79); a candidate is ((score, index), raw score). -/
def topK (k : Nat) (l : List ((Val × Nat) × Nat)) : List ((Val × Nat) × Nat) :=
  l.foldl (fun acc c => rankInsert k c acc) []

/-- Value of an FP32 bound written as n / d. -/
def ltRatio (v : Val) (n : Int) (d : Nat) : Bool :=
  match v with
  | .nan => false
  | .inf neg => neg
  | .fin s m e =>
    let e' : Int := if e < 0 then e else 0
    decide (inUnits s m e e' * d < n * (2 ^ (-e').toNat : Nat))

/-- |v| ≥ n / d. -/
def absGe (v : Val) (n d : Nat) : Bool :=
  match v with
  | .nan => false
  | .inf _ => true
  | .fin _ m e =>
    let e' : Int := if e < 0 then e else 0
    decide ((n : Int) * (2 ^ (-e').toNat : Nat) ≤ inUnits false m e e' * d)

/-- v > n / d. -/
def gtRatio (v : Val) (n : Int) (d : Nat) : Bool :=
  match v with
  | .nan => false
  | .inf neg => !neg
  | .fin s m e =>
    let e' : Int := if e < 0 then e else 0
    decide (n * (2 ^ (-e').toNat : Nat) < inUnits s m e e' * d)

/-- VCMP condition on two FP32 words (02 R77, 03 R109): 0 EQ, 1 NE, 2 LT, 3 LE, 4 GT, 5 GE, 6 UNORD. -/
def fp32Cond (cond : Nat) (a b : Word) : Bool :=
  let x := ofFp32 a
  let y := ofFp32 b
  if isNanV x || isNanV y then cond == 1 || cond == 6
  else
    let o := cmpVal x y
    if cond = 0 then o == .eq else if cond = 1 then o != .eq else if cond = 2 then o == .lt
    else if cond = 3 then o != .gt else if cond = 4 then o == .gt else if cond = 5 then o != .lt else false

/-- Element i of packed bytes, least significant bits first (02 R49): bits per element times i onwards. -/
def packedElem (bits : Nat) (bs : List Byte) (i : Nat) : Nat :=
  let bit := bits * i
  (leNat ((bs.drop (bit / 8)).take (bits / 8 + 2)) / 2 ^ (bit % 8)) % 2 ^ bits

/-- A row of elements packed into one number, then bytes (02 R49). -/
def packRow (bits : Nat) (raws : List Nat) : List Byte :=
  leBytes (bits * raws.length / 8) (raws.foldr (fun r acc => r % 2 ^ bits + 2 ^ bits * acc) 0)

/-- All n elements of packed bytes. -/
def unpackRow (bits : Nat) (bs : List Byte) (n : Nat) : List Nat :=
  (List.range n).map (packedElem bits bs)

end Sys2Proof.Machine
end

