-- ==== Sys2Proof/Syntax.lean ====
section
/-! DEFINITION. The commands of the part: one constructor per row of the opcode table. Leaf instructions carry the leaf that
issues them and the fields of their encoding (03 R119, R120); every other command carries the ring time t of its event and the
facts of the event the part does not hold in its own state. -/

namespace Sys2Proof

/-- The guard fields of a leaf instruction (03 R119). -/
structure Guard where
  ge : Bool
  gn : Bool
  gp : BitVec 3
  deriving DecidableEq, Repr

/-- The second operand of a scalar instruction: I selects IMM in place of register RB (03 R120). -/
structure Opd where
  i : Bool
  rb : BitVec 5
  imm : Word
  deriving DecidableEq, Repr

/-- Who issues a register or admin access (01 R36, R38). -/
inductive Source where
  | root
  | smbus
  | hostPort (fn : Nat)
  | stand (s : Nat)
  | remoteAdmin (pid : Nat)
  deriving DecidableEq, Repr

/-- A server of passes: an instance's, or a stand's KV_SHIP server (10 R344, 11 R381). -/
inductive Server where
  | inst (i : Nat)
  | ship (sd : Nat)
  deriving DecidableEq, Repr

/-- An Urren transaction (12 R410): its header fields (len is LEN: the bytes asked for by a READ, else those of data), its data and its virtual channel. stand is byte 20 (bits 5:0 stand, bit 7
MGMT), fn byte 21, leg bits 7:6 of byte 22, arg bytes 24-31. -/
structure Tx where
  op : Nat
  flags : Nat
  len : Nat
  src : Nat
  dst : Nat
  addr : Nat
  tag : Nat
  stand : Nat
  fn : Nat
  leg : Nat
  ttl : Nat
  reason : Nat
  arg : Nat
  data : List Byte
  vc : Nat
  deriving DecidableEq, Repr

/-- Errors of one sector as the memory devices deliver it: symbol and difference (06 R207, R215). -/
abbrev SectorErr := List (Nat × Nat)

/-- What bring-up meets outside the part (15 R511): how the seed store answers (0 octal DTR reads work, 1 no response, 2 no octal DTR read)
and its content, the clocks present (bits 7:2 of RST_CLK), the near stacks that train, each DIMM's channel, capacity in GiB, rate in
100 MT/s and whether it trains, each NAND channel's chip enables that train, those that fail and its rate in 100 MT/s, the devices'
pages per block, good data pages and blocks per channel, and whether a checkpoint (or blank flash) is readable. -/
structure BootFacts where
  store : Nat
  image : List Byte
  clocks : Nat
  nearUp : List Nat
  dimms : List (Nat × Nat × Nat × Bool)
  nand : List (Nat × Nat × Nat × Nat)
  pagesPerBlock : Nat
  goodPages : Nat
  superblocks : Nat
  checkpoint : Bool
  deriving DecidableEq, Repr

/-- The commands of the part (spec/opcode_table.json). -/
inductive Instr where
  -- leaf code (03 R119, R120): the leaf l, the guard, the operand fields
  | nop (l : Nat) (g : Guard)
  | add (l : Nat) (g : Guard) (rd ra : BitVec 5) (o : Opd)
  | sub (l : Nat) (g : Guard) (rd ra : BitVec 5) (o : Opd)
  | mul (l : Nat) (g : Guard) (rd ra : BitVec 5) (o : Opd)
  | and (l : Nat) (g : Guard) (rd ra : BitVec 5) (o : Opd)
  | or (l : Nat) (g : Guard) (rd ra : BitVec 5) (o : Opd)
  | xor (l : Nat) (g : Guard) (rd ra : BitVec 5) (o : Opd)
  | shl (l : Nat) (g : Guard) (rd ra : BitVec 5) (o : Opd)
  | shr (l : Nat) (g : Guard) (rd ra : BitVec 5) (o : Opd)
  | sar (l : Nat) (g : Guard) (rd ra : BitVec 5) (o : Opd)
  | min (l : Nat) (g : Guard) (rd ra : BitVec 5) (o : Opd)
  | max (l : Nat) (g : Guard) (rd ra : BitVec 5) (o : Opd)
  | minu (l : Nat) (g : Guard) (rd ra : BitVec 5) (o : Opd)
  | maxu (l : Nat) (g : Guard) (rd ra : BitVec 5) (o : Opd)
  | mov (l : Nat) (g : Guard) (rd : BitVec 5) (o : Opd)
  | cmp (l : Nat) (g : Guard) (pd cond : BitVec 3) (ra : BitVec 5) (o : Opd)
  | pmask (l : Nat) (g : Guard) (pd : BitVec 3) (ra : BitVec 5) (i : Bool) (imm : Word)
  | plog (l : Nat) (g : Guard) (pd pa pb : BitVec 3) (fn : BitVec 2)
  | pmov (l : Nat) (g : Guard) (p : BitVec 3) (r : BitVec 5) (dir : Bool)
  | ld (l : Nat) (g : Guard) (rd ra : BitVec 5) (imm : Word)
  | st (l : Nat) (g : Guard) (rd ra : BitVec 5) (imm : Word)
  | loop (l : Nat) (g : Guard) (c : BitVec 2) (len : BitVec 9) (eosp : BitVec 3) (ra : BitVec 5) (i : Bool) (imm : Word)
  | br (l : Nat) (g : Guard) (target : BitVec 9)
  | movc (l : Nat) (g : Guard) (rd : BitVec 5) (c : BitVec 2)
  | fence (l : Nat) (g : Guard) (units : BitVec 6)
  | endPass (l : Nat) (g : Guard)
  | unitCommandComplete (t l : Nat) (q : Nat × Nat) (bad : Option Nat)
  | red (l : Nat) (g : Guard) (vd : BitVec 4) (ra fi : BitVec 5) (fn : BitVec 2)
  | topk (l : Nat) (g : Guard) (rd ra fi : BitVec 5) (k : BitVec 4) (rn ro : BitVec 5) (t : Bool)
  | send (l : Nat) (g : Guard) (port : BitVec 3) (aw : BitVec 2) (ra rn : BitVec 5) (i : Bool) (imm : BitVec 16)
  | recv (l : Nat) (g : Guard) (port : BitVec 3) (ra rn : BitVec 5) (i : Bool) (imm : BitVec 16)
  | tsend (l : Nat) (g : Guard) (port : BitVec 3) (ra : BitVec 5) (i : Bool) (imm : BitVec 16)
  | trecv (l : Nat) (g : Guard) (rd : BitVec 5) (port : BitVec 3)
  | mma (l : Nat) (g : Guard) (ac : BitVec 2) (ra rb fa fb : BitVec 5) (init ms : Bool) (pm pn : BitVec 3) (wr : Bool)
      (rw : BitVec 5) (wlsb : BitVec 10)
  | accout (l : Nat) (g : Guard) (ac : BitVec 2) (rd fo : BitVec 5) (sat : Bool) (rs : BitVec 5)
  | accin (l : Nat) (g : Guard) (ac : BitVec 2) (ra fi : BitVec 5) (add : Bool)
  | thdr (l : Nat) (g : Guard) (ra fmt rs : BitVec 5) (pm pn : BitVec 3)
  | get (l : Nat) (g : Guard) (rl ra : BitVec 5) (len : BitVec 12)
  | put (l : Nat) (g : Guard) (rl ra : BitVec 5) (len : BitVec 12)
  | atom (l : Nat) (g : Guard) (rd ra rb rc : BitVec 5) (fn : BitVec 3)
  | vop (l : Nat) (g : Guard) (vd va vb vc fn : BitVec 4) (ps : BitVec 3)
  | vcmp (l : Nat) (g : Guard) (pd : BitVec 3) (va vb : BitVec 4) (cond : BitVec 3)
  | vsf (l : Nat) (g : Guard) (vd va fn : BitVec 4)
  | vldt (l : Nat) (g : Guard) (vd : BitVec 4) (ra fi rp : BitVec 5) (pr : Bool) (pair : BitVec 4)
  | vstt (l : Nat) (g : Guard) (vs : BitVec 4) (ra fo : BitVec 5) (sat : Bool) (rp : BitVec 5) (pr : Bool) (pair : BitVec 4)
  | vld (l : Nat) (g : Guard) (v : BitVec 4) (ra f : BitVec 5)
  | vst (l : Nat) (g : Guard) (v : BitVec 4) (ra f : BitVec 5) (sat : Bool)
  | vmov (l : Nat) (g : Guard) (v : BitVec 4) (r : BitVec 5) (dir : Bool) (lane : BitVec 6) (cvt : Bool)
  -- leaf control, passes, slot plane, packet plane
  | leafCtlSwitch (t : Nat) (src : Source) (l w : Nat)
  | leafCtlAbort (t : Nat) (src : Source) (l w : Nat)
  | passDispatch (t : Nat) (srv : Server)
  | bulkPassDispatch (t inst : Nat)
  | passComplete (t inst : Nat)
  | slotTransfer (t b : Nat)
  | creditReturn (t b src : Nat)
  | crossingLaneArrival (t b key : Nat)
  | steeringDecision (t b node unit : Nat)
  | sentinelFire (t b : Nat)
  | linkCycleVcSelect (t leaf out : Nat) (full : BitVec 4)
  | packetArbitration (t leaf : Nat) (port : Nat × Nat) (bad : Bool)
  | packetArrival (t : Nat) (x : Nat × Bool)
  -- canopy images and memory tiers
  | modelLoad (t : Nat) (src : Source) (m : List Byte)
  | manifestVerified (t id : Nat) (img man : List Nat)
  | preloadRun (t id : Nat)
  | seedBankFill (t b : Nat)
  | contextLoad (t b : Nat) (flips : List (Nat × Byte))
  | modelEvict (t : Nat) (src : Source) (m : List Byte)
  | imageRelease (t id : Nat)
  | nearAccess (t k : Nat) (errs : List (Nat × SectorErr))
  | nearPatrolScrub (t k : Nat) (errs : List (Nat × SectorErr))
  | stackMapOut (t k : Nat)
  | warmAccess (t c : Nat) (errs : List (Nat × SectorErr))
  | warmPatrolScrub (t c : Nat) (errs : SectorErr) (odecc rfm : Nat)
  | warmChannelMapOut (t c : Nat)
  | volumeRead (t block : Nat) (fails : List Nat)
  | volumeWrite (t block : Nat) (data : List Byte)
  | ftlReplayEnd (t : Nat)
  | stripeClose (t : Nat)
  | staticWearLevelMove (t : Nat)
  | readLimitRelocate (t id : Nat)
  | ftlPatrolRead (t id page : Nat) (fails : List Nat)
  | nandProgramFail (t id ch : Nat)
  | deepChannelLoss (t ch ce : Nat) (whole : Bool)
  | ftlRebuildEnd (t : Nat)
  | tierAccessLate (t id : Nat)
  -- movers, shards, grafts, fan-out groups
  | moverDescriptorFetch (t b m : Nat)
  | moverNop (t b m : Nat)
  | moverMove (t b m : Nat)
  | moverWait (t b m : Nat)
  | moveComplete (t b m i : Nat)
  | shardArrivalVerify (t : Nat) (near : Bool) (id : Nat)
  | digestScrub (t : Nat) (near : Bool) (id : Nat)
  | refetchComplete (t : Nat) (near : Bool) (id : Nat) (rx : Option (List Byte))
  | copyJobStart (t : Nat)
  | mcastShardSend (t id : Nat)
  | loadDeadlineExpiry (t id : Nat)
  | graftPut (t : Nat) (src : Source) (m : List Byte)
  | graftReady (t sd id ver : Nat)
  | graftCommit (t sd id ver : Nat)
  | graftRetire (t : Nat) (src : Source) (m : List Byte)
  | graftFetch (t : Nat)
  | forkDoorbell (t b step : Nat)
  | forkRelease (t b step : Nat)
  | groupTrigger (t b gstep : Nat)
  | groupRun (t b gstep : Nat)
  | triggerComplete (t b gstep : Nat)
  | returnedRowArrival (t : Nat)
  | join (t b step : Nat)
  -- requests, generation, Express, stands
  | descriptorFetch (t sd : Nat) (descs : List (List Byte))
  | infer (t sd : Nat)
  | prefill (t sd : Nat)
  | decodeStep (t sd : Nat)
  | verifyStep (t sd : Nat)
  | kvShip (t sd : Nat)
  | kvShipComplete (t sd : Nat)
  | seqRelease (t sd : Nat)
  | cancel (t sd : Nat)
  | deadlineGuard (t id : Nat)
  | expressCreditRefill (t sd c : Nat)
  | inletFrame (t num : Nat) (f : List Byte)
  | expressPassDispatch (t inst : Nat)
  | outletFrameSend (t inst : Nat)
  | pinEntryReload (t sd : Nat)
  | standReset (t : Nat) (src : Source) (m : List Byte)
  | stdResetGo (t : Nat) (src : Source) (sd w : Nat)
  | vfFlr (t k sd : Nat)
  | pfFlr (t k : Nat)
  | irqMaskWrite (t : Nat) (src : Source) (sd w : Nat)
  -- the Urren fabric
  | linkTraining (t n mine peer inverted : Nat) (reversed : Bool) (kind id port rate : Nat)
  | trainingAttemptTimeout (t n failed : Nat)
  | lnkCtlRetrain (t : Nat) (src : Source) (n w : Nat)
  | flitReceive (t n : Nat) (bytes : List Byte) (cs uc : Nat)
  | flitSlot (t n : Nat)
  | nakRetransmit (t n : Nat)
  | read (t port : Nat) (tx : Tx)
  | write (t port : Nat) (tx : Tx)
  | atomic (t port : Nat) (tx : Tx)
  | signal (t port : Nat) (tx : Tx)
  | mcastWrite (t n : Nat) (tx : Tx)
  | timeSync (t n : Nat) (tx : Tx) (sub : Nat)
  | fork (t port : Nat) (tx : Tx)
  | kvFetch (t port : Nat) (tx : Tx)
  | kvData (t port : Nat) (tx : Tx)
  | resp (t port : Nat) (tx : Tx)
  | transactionForward (t port : Nat) (tx : Tx)
  | responseTimeout (t dst tag : Nat)
  | routeEpochSwap (t : Nat)
  | shadowCopyDone (t : Nat)
  | rteCtlArm (t : Nat) (src : Source) (w : Nat)
  | rteCtlDisarm (t : Nat) (src : Source) (w : Nat)
  | quiesceRelease (t dst vc : Nat)
  | berTest (t : Nat) (src : Source) (m : List Byte)
  | berTestStart (t : Nat)
  | berTestEnd (t : Nat) (res : List (Nat × Nat × List Nat))
  | fecWindowCheck (t n : Nat)
  | linkMapOut (t n : Nat)
  | linkRestore (t : Nat) (src : Source) (m : List Byte)
  | partJoin (t : Nat) (src : Source) (m : List Byte)
  | partDrain (t : Nat) (src : Source) (m : List Byte)
  | drainComplete (t : Nat)
  | routeUpdate (t : Nat) (src : Source) (m : List Byte)
  | timeSyncRequest (t sub : Nat)
  | ppsInEdge (t : Nat)
  | ppsOutPulse (t : Nat)
  -- host ports and management
  | pcieInletWrite (t k sd n off : Nat) (data : List Byte)
  | apertureAccess (t k f bar off n tag : Nat) (wr : Option (List Byte))
  | adminRingFetch (t k f : Nat) (slot : List Byte)
  | setOffset (t off : Nat) (pec : Bool)
  | readCsr (t : Nat)
  | writeCsr (t v : Nat) (pec : Bool)
  | telem (t : Nat)
  | admPut (t : Nat) (data : List Byte) (pec : Bool)
  | admGo (t : Nat) (pec : Bool)
  | admGet (t : Nat)
  | admStat (t : Nat)
  | smbusWake (t : Nat) (pec : Bool)
  | alertResponse (t : Nat)
  -- registers, power and energy
  | capSet (t : Nat) (src : Source) (m : List Byte)
  | freeze (t : Nat) (src : Source) (m : List Byte)
  | thaw (t : Nat) (src : Source) (m : List Byte)
  | counterSnapshot (t : Nat) (src : Source) (m : List Byte)
  | csrWrite (t : Nat) (src : Source) (off : Nat) (data : List Byte)
  | ledgerTick (t input mv : Nat) (reports : List (Nat × Nat)) (other : Nat)
  | fixedWUpdate (t : Nat)
  | coefUpdate (t : Nat)
  | averagePowerCheck (t w : Nat)
  | ballastStep (t load : Nat) (falls : List (Nat × Nat))
  | floorStep (t w : Nat) (exceeds : Bool)
  | floorReleaseStep (t : Nat)
  | levelChangeComplete (t b : Nat)
  | nrgHbBeat (t : Nat) (src : Source) (w : Nat)
  | orphanTimeout (t : Nat)
  | inputSag (t mv : Nat)
  | sagRecovery (t mv : Nat)
  | lowInputStop (t mv : Nat)
  | brownOut (t mv : Nat)
  | overvoltageStop (t mv : Nat)
  | inputRecovery (t mv : Nat)
  | reversePolarity (t : Nat)
  | coolantFaultAssert (t : Nat)
  | coolantFaultRelease (t : Nat)
  | sensorUpdate (t : Nat) (reads : List (Nat × Nat))
  | overTemperatureRecovery (t : Nat)
  -- sleep, reset, clocks, bring-up
  | s1Entry (t b : Nat)
  | s2Entry (t b : Nat)
  | enterPartS2 (t : Nat) (src : Source) (w : Nat)
  | enterS3 (t : Nat) (src : Source) (w : Nat)
  | leavePartS2 (t : Nat) (src : Source) (w : Nat)
  | wakePin (t n : Nat) (level : Bool)
  | urrenSignalWake (t n : Nat)
  | standbyBrownout (t : Nat)
  | powerApplied (t mv : Nat)
  | resetNLow (t : Nat)
  | resetNRelease (t strap : Nat)
  | rstCtlRoot (t : Nat) (src : Source) (w : Nat)
  | watchdogExpiry (t : Nat)
  | rootclkLoss (t : Nat)
  | rootclkRecovery (t : Nat)
  | refclkLoss (t bit : Nat)
  | bringUpStep (t n : Nat) (f : BootFacts)
  -- freeze, debug port, faults
  | dbgCtlFreeze (t : Nat) (src : Source) (w : Nat)
  | dbgCtlThaw (t : Nat) (src : Source) (w : Nat)
  | freezeNFallingEdge (t high : Nat)
  | dbgDumpStart (t : Nat) (src : Source) (w : Nat)
  | dumpPieceEmit (t : Nat)
  | extest (t pins n v : Nat)
  | samplePreload (t pins n v : Nat)
  | idcode (t n v : Nat)
  | jtagFreeze (t : Nat)
  | jtagThaw (t : Nat)
  | scanSel (t n v : Nat)
  | scanData (t n v : Nat)
  | bypass (t n v : Nat)
  | counterSnapshotTick (t : Nat) (busy stall : List (Nat × Nat))
  | traceRecordSend (t : Nat)
  | freezeNStuckLow (t : Nat)
  | outputShortDetect (t cell : Nat) (rail : Bool)
  | linkLossOfLock (t n : Nat)
  | refclkReturn (t bit : Nat)
  | alertNReassert (t : Nat)
  | railOutOfLimits (t : Nat)
  | pllLockLoss (t : Nat)
  deriving DecidableEq, Repr

end Sys2Proof
end

