-- ==== Sys2Proof/WellFormed.lean ====
section
/-! DEFINITION. Well-formed commands: the field rules of leaf code that a loaded image obeys (03 R120, R121). -/

namespace Sys2Proof

open Sys2Proof.Machine

/-- The operand rules of leaf code (03 R121); every other command has none of its own. -/
def Instr.wf : Instr → Bool
  | .cmp _ _ _ cond _ _ => decide (cond.toNat ≤ 5)
  | .loop _ _ _ _ eosp _ _ _ => decide (eosp.toNat ≤ 4)
  | .red _ _ _ _ fi fn => okVector fi.toNat && decide (fn.toNat ≤ 2)
  | .topk _ _ _ _ fi k _ _ _ =>
    (fi.toNat == 0 || fi.toNat == 1 || fi.toNat == 2 || fi.toNat == 7) && decide (1 ≤ k.toNat) && decide (k.toNat ≤ 8)
  | .send _ _ port _ _ _ _ _ => decide (port.toNat ≤ 3)
  | .recv _ _ port _ _ _ _ => decide (port.toNat ≤ 3)
  | .tsend _ _ port _ _ _ => decide (port.toNat ≤ 3)
  | .trecv _ _ _ port => decide (port.toNat ≤ 3)
  | .mma _ _ _ _ _ fa fb _ _ _ _ wr _ wlsb =>
    okMatrix fa.toNat && okMatrix fb.toNat && (isWide fa.toNat == isWide fb.toNat) &&
    (if isScaled fa.toNat || isScaled fb.toNat then (wr || (decide (-288 ≤ wlsb.toInt) && decide (wlsb.toInt ≤ 192)))
     else (!wr && wlsb == 0))
  | .accout _ _ _ _ fo _ _ => okExaOut fo.toNat
  | .accin _ _ _ _ fi ad => (fi.toNat == 0 && !ad) || fi.toNat == 30
  | .thdr _ _ _ fmt _ _ _ => !isReservedCode fmt.toNat
  | .get _ _ _ ra _ => ra.toNat % 2 == 0
  | .put _ _ _ ra _ => ra.toNat % 2 == 0
  | .atom _ _ _ ra _ _ fn => ra.toNat % 2 == 0 && decide (fn.toNat ≤ 5)
  | .vop _ _ _ _ _ _ fn ps => decide (fn.toNat ≤ 7) && (fn.toNat != 6 || ps.toNat % 2 == 0)
  | .vcmp _ _ pd _ _ cond => decide (cond.toNat ≤ 6) && pd.toNat % 2 == 0
  | .vsf _ _ _ _ fn => decide (fn.toNat ≤ 5)
  | .vldt _ _ _ _ fi _ _ _ => okVector fi.toNat
  | .vstt _ _ _ _ fo _ _ _ _ => okVector fo.toNat
  | .vld _ _ _ _ f => okVector f.toNat && !isScaled f.toNat
  | .vst _ _ _ _ f _ => okVector f.toNat && !isScaled f.toNat
  | _ => true

/-- Leaf code: the commands that are instructions of a leaf (03 R119). -/
def Instr.isLeafCode : Instr → Bool
  | .nop .. | .add .. | .sub .. | .mul .. | .and .. | .or .. | .xor .. | .shl .. | .shr .. | .sar .. | .min .. | .max ..
  | .minu .. | .maxu .. | .mov .. | .cmp .. | .pmask .. | .plog .. | .pmov .. | .ld .. | .st .. | .loop .. | .br .. | .movc ..
  | .fence .. | .endPass .. | .red .. | .topk .. | .send .. | .recv .. | .tsend .. | .trecv .. | .mma .. | .accout ..
  | .accin .. | .thdr .. | .get .. | .put .. | .atom .. | .vop .. | .vcmp .. | .vsf .. | .vldt .. | .vstt .. | .vld ..
  | .vst .. | .vmov .. => true
  | _ => false

end Sys2Proof
end

