-- ==== Sys2Proof/Decode.lean ====
section
/-! DEFINITION. Leaf instruction words (03 R119, R120): an encoder and the decoder that checks a canopy image's leaf code (03
R121), the loop and branch rules (03 R98), and the host's word of a table row (no row of the table gives bits). -/

namespace Sys2Proof

/-- A Boolean as a bit. -/
def bitNat (b : Bool) : Nat := if b then 1 else 0

/-- The common fields of an instruction word (03 R119) with its operand fields. -/
def leafWord (op : Nat) (g : Guard) (fields : Nat) : Nat :=
  op * 2 ^ 58 + bitNat g.ge * 2 ^ 57 + bitNat g.gn * 2 ^ 56 + g.gp.toNat * 2 ^ 53 + fields

/-- Fields of the two-operand scalar shape (03 R120). -/
def aluFields (rd ra : BitVec 5) (o : Opd) : Nat :=
  rd.toNat * 2 ^ 48 + ra.toNat * 2 ^ 43 + o.rb.toNat * 2 ^ 38 + bitNat o.i * 2 ^ 32 + o.imm.toNat

/-- The word of a leaf instruction, 0 for any other command (03 R119, R120). -/
def encodeLeafWord : Instr → Nat
  | .nop _ g => leafWord 0x00 g 0
  | .add _ g rd ra o => leafWord 0x01 g (aluFields rd ra o)
  | .sub _ g rd ra o => leafWord 0x02 g (aluFields rd ra o)
  | .mul _ g rd ra o => leafWord 0x03 g (aluFields rd ra o)
  | .and _ g rd ra o => leafWord 0x04 g (aluFields rd ra o)
  | .or _ g rd ra o => leafWord 0x05 g (aluFields rd ra o)
  | .xor _ g rd ra o => leafWord 0x06 g (aluFields rd ra o)
  | .shl _ g rd ra o => leafWord 0x07 g (aluFields rd ra o)
  | .shr _ g rd ra o => leafWord 0x08 g (aluFields rd ra o)
  | .sar _ g rd ra o => leafWord 0x09 g (aluFields rd ra o)
  | .min _ g rd ra o => leafWord 0x0A g (aluFields rd ra o)
  | .max _ g rd ra o => leafWord 0x0B g (aluFields rd ra o)
  | .minu _ g rd ra o => leafWord 0x0C g (aluFields rd ra o)
  | .maxu _ g rd ra o => leafWord 0x0D g (aluFields rd ra o)
  | .mov _ g rd o => leafWord 0x0E g (aluFields rd 0 o)
  | .cmp _ g pd cond ra o => leafWord 0x10 g (pd.toNat * 2 ^ 50 + cond.toNat * 2 ^ 47 + ra.toNat * 2 ^ 42 + o.rb.toNat * 2 ^ 37 +
      bitNat o.i * 2 ^ 32 + o.imm.toNat)
  | .pmask _ g pd ra i imm => leafWord 0x11 g (pd.toNat * 2 ^ 50 + ra.toNat * 2 ^ 42 + bitNat i * 2 ^ 32 + imm.toNat)
  | .plog _ g pd pa pb fn => leafWord 0x12 g (pd.toNat * 2 ^ 50 + pa.toNat * 2 ^ 47 + pb.toNat * 2 ^ 44 + fn.toNat * 2 ^ 42)
  | .pmov _ g p r dir => leafWord 0x13 g (p.toNat * 2 ^ 50 + r.toNat * 2 ^ 45 + bitNat dir * 2 ^ 44)
  | .ld _ g rd ra imm => leafWord 0x14 g (rd.toNat * 2 ^ 48 + ra.toNat * 2 ^ 43 + imm.toNat)
  | .st _ g rd ra imm => leafWord 0x15 g (rd.toNat * 2 ^ 48 + ra.toNat * 2 ^ 43 + imm.toNat)
  | .loop _ g c len eosp ra i imm => leafWord 0x20 g (c.toNat * 2 ^ 51 + len.toNat * 2 ^ 42 + eosp.toNat * 2 ^ 39 +
      ra.toNat * 2 ^ 33 + bitNat i * 2 ^ 32 + imm.toNat)
  | .br _ g target => leafWord 0x21 g target.toNat
  | .movc _ g rd c => leafWord 0x22 g (rd.toNat * 2 ^ 48 + c.toNat * 2 ^ 46)
  | .fence _ g units => leafWord 0x23 g units.toNat
  | .endPass _ g => leafWord 0x24 g 0
  | .red _ g vd ra fi fn => leafWord 0x28 g (vd.toNat * 2 ^ 49 + ra.toNat * 2 ^ 42 + fi.toNat * 2 ^ 37 + fn.toNat * 2 ^ 35)
  | .topk _ g rd ra fi k rn ro t => leafWord 0x29 g (rd.toNat * 2 ^ 48 + ra.toNat * 2 ^ 42 + fi.toNat * 2 ^ 37 + k.toNat * 2 ^ 33 +
      rn.toNat * 2 ^ 27 + ro.toNat * 2 ^ 22 + bitNat t * 2 ^ 21)
  | .send _ g port aw ra rn i imm => leafWord 0x2C g (port.toNat * 2 ^ 50 + aw.toNat * 2 ^ 48 + ra.toNat * 2 ^ 42 +
      rn.toNat * 2 ^ 37 + bitNat i * 2 ^ 32 + imm.toNat)
  | .recv _ g port ra rn i imm => leafWord 0x2D g (port.toNat * 2 ^ 50 + ra.toNat * 2 ^ 42 + rn.toNat * 2 ^ 37 +
      bitNat i * 2 ^ 32 + imm.toNat)
  | .tsend _ g port ra i imm => leafWord 0x2E g (port.toNat * 2 ^ 50 + ra.toNat * 2 ^ 42 + bitNat i * 2 ^ 32 + imm.toNat)
  | .trecv _ g rd port => leafWord 0x2F g (rd.toNat * 2 ^ 48 + port.toNat * 2 ^ 45)
  | .mma _ g ac ra rb fa fb init ms pm pn wr rw wlsb => leafWord 0x30 g (ac.toNat * 2 ^ 51 + ra.toNat * 2 ^ 46 + rb.toNat * 2 ^ 41 +
      fa.toNat * 2 ^ 36 + fb.toNat * 2 ^ 31 + bitNat init * 2 ^ 30 + bitNat ms * 2 ^ 29 + pm.toNat * 2 ^ 26 + pn.toNat * 2 ^ 23 +
      bitNat wr * 2 ^ 22 + rw.toNat * 2 ^ 17 + wlsb.toNat * 2 ^ 7)
  | .accout _ g ac rd fo sat rs => leafWord 0x31 g (ac.toNat * 2 ^ 51 + rd.toNat * 2 ^ 46 + fo.toNat * 2 ^ 41 + bitNat sat * 2 ^ 40 +
      rs.toNat * 2 ^ 35)
  | .accin _ g ac ra fi add => leafWord 0x32 g (ac.toNat * 2 ^ 51 + ra.toNat * 2 ^ 46 + fi.toNat * 2 ^ 41 + bitNat add * 2 ^ 40)
  | .thdr _ g ra fmt rs pm pn => leafWord 0x33 g (ra.toNat * 2 ^ 46 + fmt.toNat * 2 ^ 41 + rs.toNat * 2 ^ 35 + pm.toNat * 2 ^ 26 +
      pn.toNat * 2 ^ 23)
  | .get _ g rl ra len => leafWord 0x34 g (rl.toNat * 2 ^ 48 + ra.toNat * 2 ^ 43 + len.toNat * 2 ^ 31)
  | .put _ g rl ra len => leafWord 0x35 g (rl.toNat * 2 ^ 48 + ra.toNat * 2 ^ 43 + len.toNat * 2 ^ 31)
  | .atom _ g rd ra rb rc fn => leafWord 0x36 g (rd.toNat * 2 ^ 48 + ra.toNat * 2 ^ 43 + rb.toNat * 2 ^ 38 + rc.toNat * 2 ^ 33 +
      fn.toNat * 2 ^ 30)
  | .vop _ g vd va vb vc fn ps => leafWord 0x38 g (vd.toNat * 2 ^ 49 + va.toNat * 2 ^ 45 + vb.toNat * 2 ^ 41 + vc.toNat * 2 ^ 37 +
      fn.toNat * 2 ^ 33 + ps.toNat * 2 ^ 30)
  | .vcmp _ g pd va vb cond => leafWord 0x39 g (pd.toNat * 2 ^ 50 + va.toNat * 2 ^ 45 + vb.toNat * 2 ^ 41 + cond.toNat * 2 ^ 38)
  | .vsf _ g vd va fn => leafWord 0x3A g (vd.toNat * 2 ^ 49 + va.toNat * 2 ^ 45 + fn.toNat * 2 ^ 33)
  | .vldt _ g vd ra fi rp pr pair => leafWord 0x3B g (vd.toNat * 2 ^ 49 + ra.toNat * 2 ^ 42 + fi.toNat * 2 ^ 37 + rp.toNat * 2 ^ 27 +
      bitNat pr * 2 ^ 26 + pair.toNat)
  | .vstt _ g vs ra fo sat rp pr pair => leafWord 0x3C g (vs.toNat * 2 ^ 49 + ra.toNat * 2 ^ 42 + fo.toNat * 2 ^ 37 +
      bitNat sat * 2 ^ 36 + rp.toNat * 2 ^ 27 + bitNat pr * 2 ^ 26 + pair.toNat)
  | .vld _ g v ra f => leafWord 0x3D g (v.toNat * 2 ^ 49 + ra.toNat * 2 ^ 42 + f.toNat * 2 ^ 37)
  | .vst _ g v ra f sat => leafWord 0x3E g (v.toNat * 2 ^ 49 + ra.toNat * 2 ^ 42 + f.toNat * 2 ^ 37 + bitNat sat * 2 ^ 36)
  | .vmov _ g v r dir lane cvt => leafWord 0x3F g (v.toNat * 2 ^ 49 + r.toNat * 2 ^ 44 + bitNat dir * 2 ^ 43 + lane.toNat * 2 ^ 37 +
      bitNat cvt * 2 ^ 36)
  | _ => 0

/-- n bits of a word from bit lo. -/
def bitsAt (w lo n : Nat) : BitVec n := BitVec.ofNat n (w / 2 ^ lo)
/-- One bit of a word. -/
def bitAt (w lo : Nat) : Bool := w / 2 ^ lo % 2 == 1
/-- The guard fields of a word. -/
def guardAt (w : Nat) : Guard := ⟨bitAt w 57, bitAt w 56, bitsAt w 53 3⟩
/-- The second operand of a scalar word, its register field at bit lo. -/
def opdAt (w lo : Nat) : Opd := ⟨bitAt w 32, bitsAt w lo 5, bitsAt w 0 32⟩

/-- The instruction whose opcode and fields a word holds, reserved bits not looked at (03 R120). -/
def parseLeafWord (l w : Nat) : Option Instr :=
  let g := guardAt w
  let rd := bitsAt w 48 5
  let ra := bitsAt w 43 5
  let ra42 := bitsAt w 42 5
  let ra46 := bitsAt w 46 5
  let o := opdAt w 38
  let v := bitsAt w 49 4
  let f37 := bitsAt w 37 5
  match w / 2 ^ 58 with
  | 0x00 => some (.nop l g)
  | 0x01 => some (.add l g rd ra o)
  | 0x02 => some (.sub l g rd ra o)
  | 0x03 => some (.mul l g rd ra o)
  | 0x04 => some (.and l g rd ra o)
  | 0x05 => some (.or l g rd ra o)
  | 0x06 => some (.xor l g rd ra o)
  | 0x07 => some (.shl l g rd ra o)
  | 0x08 => some (.shr l g rd ra o)
  | 0x09 => some (.sar l g rd ra o)
  | 0x0A => some (.min l g rd ra o)
  | 0x0B => some (.max l g rd ra o)
  | 0x0C => some (.minu l g rd ra o)
  | 0x0D => some (.maxu l g rd ra o)
  | 0x0E => some (.mov l g rd o)
  | 0x10 => some (.cmp l g (bitsAt w 50 3) (bitsAt w 47 3) ra42 (opdAt w 37))
  | 0x11 => some (.pmask l g (bitsAt w 50 3) ra42 (bitAt w 32) (bitsAt w 0 32))
  | 0x12 => some (.plog l g (bitsAt w 50 3) (bitsAt w 47 3) (bitsAt w 44 3) (bitsAt w 42 2))
  | 0x13 => some (.pmov l g (bitsAt w 50 3) (bitsAt w 45 5) (bitAt w 44))
  | 0x14 => some (.ld l g rd ra (bitsAt w 0 32))
  | 0x15 => some (.st l g rd ra (bitsAt w 0 32))
  | 0x20 => some (.loop l g (bitsAt w 51 2) (bitsAt w 42 9) (bitsAt w 39 3) (bitsAt w 33 5) (bitAt w 32) (bitsAt w 0 32))
  | 0x21 => some (.br l g (bitsAt w 0 9))
  | 0x22 => some (.movc l g rd (bitsAt w 46 2))
  | 0x23 => some (.fence l g (bitsAt w 0 6))
  | 0x24 => some (.endPass l g)
  | 0x28 => some (.red l g v ra42 f37 (bitsAt w 35 2))
  | 0x29 => some (.topk l g rd ra42 f37 (bitsAt w 33 4) (bitsAt w 27 5) (bitsAt w 22 5) (bitAt w 21))
  | 0x2C => some (.send l g (bitsAt w 50 3) (bitsAt w 48 2) ra42 f37 (bitAt w 32) (bitsAt w 0 16))
  | 0x2D => some (.recv l g (bitsAt w 50 3) ra42 f37 (bitAt w 32) (bitsAt w 0 16))
  | 0x2E => some (.tsend l g (bitsAt w 50 3) ra42 (bitAt w 32) (bitsAt w 0 16))
  | 0x2F => some (.trecv l g rd (bitsAt w 45 3))
  | 0x30 => some (.mma l g (bitsAt w 51 2) ra46 (bitsAt w 41 5) (bitsAt w 36 5) (bitsAt w 31 5) (bitAt w 30) (bitAt w 29)
      (bitsAt w 26 3) (bitsAt w 23 3) (bitAt w 22) (bitsAt w 17 5) (bitsAt w 7 10))
  | 0x31 => some (.accout l g (bitsAt w 51 2) ra46 (bitsAt w 41 5) (bitAt w 40) (bitsAt w 35 5))
  | 0x32 => some (.accin l g (bitsAt w 51 2) ra46 (bitsAt w 41 5) (bitAt w 40))
  | 0x33 => some (.thdr l g ra46 (bitsAt w 41 5) (bitsAt w 35 5) (bitsAt w 26 3) (bitsAt w 23 3))
  | 0x34 => some (.get l g rd ra (bitsAt w 31 12))
  | 0x35 => some (.put l g rd ra (bitsAt w 31 12))
  | 0x36 => some (.atom l g rd ra (bitsAt w 38 5) (bitsAt w 33 5) (bitsAt w 30 3))
  | 0x38 => some (.vop l g v (bitsAt w 45 4) (bitsAt w 41 4) (bitsAt w 37 4) (bitsAt w 33 4) (bitsAt w 30 3))
  | 0x39 => some (.vcmp l g (bitsAt w 50 3) (bitsAt w 45 4) (bitsAt w 41 4) (bitsAt w 38 3))
  | 0x3A => some (.vsf l g v (bitsAt w 45 4) (bitsAt w 33 4))
  | 0x3B => some (.vldt l g v ra42 f37 (bitsAt w 27 5) (bitAt w 26) (bitsAt w 0 4))
  | 0x3C => some (.vstt l g v ra42 f37 (bitAt w 36) (bitsAt w 27 5) (bitAt w 26) (bitsAt w 0 4))
  | 0x3D => some (.vld l g v ra42 f37)
  | 0x3E => some (.vst l g v ra42 f37 (bitAt w 36))
  | 0x3F => some (.vmov l g v (bitsAt w 44 5) (bitAt w 43) (bitsAt w 37 6) (bitAt w 36))
  | _ => none

/-- Decode a leaf instruction word (03 R119-R121): a reserved opcode, a nonzero reserved bit or a broken operand rule gives
none. -/
def decodeLeafWord (l w : Nat) : Option Instr :=
  match parseLeafWord l w with
  | none => none
  | some i => if encodeLeafWord i = w ∧ i.wf = true then some i else none

/-! ### Loop and branch rules of a context (03 R98) -/

/-- The loop bodies of a program from PC pc on: PC of the LOOP, first and last PC of the body, counter. -/
def loopBodies : Nat → List Instr → List (Nat × Nat × Nat × Nat)
  | _, [] => []
  | pc, .loop _ _ c len _ _ _ _ :: t => (pc, pc + 1, pc + 1 + len.toNat, c.toNat) :: loopBodies (pc + 1) t
  | pc, _ :: t => loopBodies (pc + 1) t

/-- A PC lies in a body. -/
def inBody (pc : Nat) (b : Nat × Nat × Nat × Nat) : Bool := decide (b.2.1 ≤ pc) && decide (pc ≤ b.2.2.1)

/-- Two bodies are nested, with different counters, or disjoint. -/
def bodiesOk (a b : Nat × Nat × Nat × Nat) : Bool :=
  decide (a.2.2.1 < b.2.1) || decide (b.2.2.1 < a.2.1) ||
  (a.2.2.2 != b.2.2.2 && ((decide (a.2.1 ≤ b.2.1) && decide (b.2.2.1 ≤ a.2.2.1)) || (decide (b.2.1 ≤ a.2.1) && decide (a.2.2.1 ≤ b.2.2.1))))

/-- The bodies that contain a PC. -/
def bodiesAt (bs : List (Nat × Nat × Nat × Nat)) (pc : Nat) : List Nat := (bs.filter (inBody pc)).map (·.1)

/-- A BR and its target lie in the same bodies (03 R98). -/
def branchesOk (bs : List (Nat × Nat × Nat × Nat)) : Nat → List Instr → Bool
  | _, [] => true
  | pc, .br _ _ target :: t => (bodiesAt bs pc == bodiesAt bs target.toNat) && branchesOk bs (pc + 1) t
  | pc, _ :: t => branchesOk bs (pc + 1) t

/-- The loop and branch rules of 03 R98. -/
def flowOk (prog : List Instr) : Bool :=
  let bs := loopBodies 0 prog
  bs.all (fun b => decide (b.2.2.1 ≤ 511)) && bs.all (fun a => bs.all (fun b => a.1 == b.1 || bodiesOk a b)) &&
  branchesOk bs 0 prog

/-- The checks of one context's 512 words (03 R121). -/
def contextOk (words : List Nat) : Bool :=
  let ds := words.map (decodeLeafWord 0)
  ds.all (·.isSome) && flowOk (ds.filterMap id)

/-- No row of the opcode table gives bits, so no word spells a command (log entry 2). -/
def decodeTableWord (_nbits _w : Nat) : Option Instr := none

end Sys2Proof
end

