-- ==== Sys2Proof/Machine/Crypto.lean ====
section
/-! DEFINITION. The hashes and the signature scheme that the spec names: SHA-256 (05 R184, 08 R272), SHA-384 and ECDSA on P-384 (05
R185, R186), as FIPS 180-4 and FIPS 186 define them (log entry 12). -/

namespace Sys2Proof.Machine.Crypto

/-! ### SHA-2 -/

/-- The integer k-th root of r, whose root has at most bits bits. -/
def iroot (k r bits : Nat) : Nat :=
  (List.range bits).foldl (fun n i => let m := n + 2 ^ (bits - 1 - i); if m ^ k ≤ r then m else n) 0
/-- The first primes. -/
def primes (n : Nat) : List Nat :=
  ((List.range 410).filter (fun p => decide (2 ≤ p) && (List.range p).all (fun d => decide (d < 2) || decide (p % d ≠ 0)))).take n

/-- One member of the SHA-2 family: word bits, rounds, message bytes of a block, rotations, and the constants taken from the fractional bits
of the roots of the first primes. -/
structure Sha where
  w : Nat
  rounds : Nat
  big0 : Nat × Nat × Nat
  big1 : Nat × Nat × Nat
  small0 : Nat × Nat × Nat
  small1 : Nat × Nat × Nat
  init : List Nat
  out : Nat

/-- Fractional bits of the k-th root of p. -/
def fracRoot (w k p : Nat) : Nat := iroot k (p * 2 ^ (k * w)) (w + 10) % 2 ^ w
/-- Rotate right. -/
def Sha.rotr (h : Sha) (n x : Nat) : Nat := (x / 2 ^ n + x * 2 ^ (h.w - n)) % 2 ^ h.w
def Sha.sigma (h : Sha) (r : Nat × Nat × Nat) (x : Nat) : Nat := h.rotr r.1 x ^^^ h.rotr r.2.1 x ^^^ h.rotr r.2.2 x
def Sha.shifted (h : Sha) (r : Nat × Nat × Nat) (x : Nat) : Nat := h.rotr r.1 x ^^^ h.rotr r.2.1 x ^^^ (x / 2 ^ r.2.2)
/-- The round constants. -/
def Sha.consts (h : Sha) : List Nat := (primes h.rounds).map (fracRoot h.w 3)
/-- Big-endian bytes of a number, and the number of big-endian bytes. -/
def beBytes (n v : Nat) : List (BitVec 8) := (List.range n).map (fun i => BitVec.ofNat 8 (v / 256 ^ (n - 1 - i)))
def beNat (bs : List (BitVec 8)) : Nat := bs.foldl (fun a b => a * 256 + b.toNat) 0
/-- The message with its padding and length. -/
def Sha.pad (h : Sha) (m : List (BitVec 8)) : List (BitVec 8) :=
  let blk := 2 * h.w
  let z := (2 * blk - 1 - (m.length + h.w / 4) % blk) % blk
  m ++ [0x80] ++ List.replicate z 0 ++ beBytes (h.w / 4) (8 * m.length)
/-- The message schedule, newest word first. -/
def Sha.schedule (h : Sha) (ws : List Nat) : Nat → List Nat
  | 0 => ws
  | k + 1 =>
    let l := h.schedule ws k
    ((h.shifted h.small1 (l.getD 1 0) + l.getD 6 0 + h.shifted h.small0 (l.getD 14 0) + l.getD 15 0) % 2 ^ h.w) :: l
/-- One round on the eight working words. -/
def Sha.round (h : Sha) (v : List Nat) (kw : Nat) : List Nat :=
  match v with
  | [a, b, c, d, e, f, g, x] =>
    let t1 := x + h.sigma h.big1 e + ((e &&& f) ^^^ ((2 ^ h.w - 1 - e) &&& g)) + kw
    let t2 := h.sigma h.big0 a + ((a &&& b) ^^^ (a &&& c) ^^^ (b &&& c))
    [(t1 + t2) % 2 ^ h.w, a, b, c, (d + t1) % 2 ^ h.w, e, f, g]
  | _ => v
/-- One block. -/
def Sha.block (h : Sha) (ks : List Nat) (st : List Nat) (blk : List (BitVec 8)) : List Nat :=
  let ws := (List.range 16).map (fun i => beNat ((blk.drop (h.w / 8 * i)).take (h.w / 8)))
  let sched := (h.schedule ws.reverse (h.rounds - 16)).reverse
  let v := (ks.zip sched).foldl (fun v p => h.round v (p.1 + p.2)) st
  (st.zip v).map (fun p => (p.1 + p.2) % 2 ^ h.w)
/-- The digest of a message. -/
def Sha.hash (h : Sha) (m : List (BitVec 8)) : List (BitVec 8) :=
  let p := h.pad m
  let ks := h.consts
  let st := (List.range (p.length / (2 * h.w))).foldl (fun st i => h.block ks st ((p.drop (2 * h.w * i)).take (2 * h.w))) h.init
  (st.flatMap (beBytes (h.w / 8))).take h.out

/-- SHA-256. -/
def sha256 (m : List (BitVec 8)) : List (BitVec 8) :=
  Sha.hash ⟨32, 64, (2, 13, 22), (6, 11, 25), (7, 18, 3), (17, 19, 10), (primes 8).map (fracRoot 32 2), 32⟩ m
/-- SHA-384: its start values come from the ninth to the sixteenth prime. -/
def sha384 (m : List (BitVec 8)) : List (BitVec 8) :=
  Sha.hash ⟨64, 80, (28, 34, 39), (14, 18, 41), (1, 8, 7), (19, 61, 6), ((primes 16).drop 8).map (fracRoot 64 2), 48⟩ m

/-! ### ECDSA on P-384 -/

/-- The field prime, the group order, the coefficient b and the base point of P-384; the coefficient a is -3. -/
def p384 : Nat := 2 ^ 384 - 2 ^ 128 - 2 ^ 96 + 2 ^ 32 - 1
def n384 : Nat := 0xFFFFFFFFFFFFFFFFFFFFFFFFFFFFFFFFFFFFFFFFFFFFFFFFC7634D81F4372DDF581A0DB248B0A77AECEC196ACCC52973
def b384 : Nat := 0xB3312FA7E23EE7E4988E056BE3F82D19181D9C6EFE8141120314088F5013875AC656398D8A2ED19D2A85C8EDD3EC2AEF
def g384 : Nat × Nat :=
  (0xAA87CA22BE8B05378EB1C71EF320AD746E1D3B628BA79B9859F741E082542A385502F25DBF55296C3A545E3872760AB7,
   0x3617DE4A96262C6F5D9E98BF9292DC29F8F41DBD289A147CE9DA3113B5F0B8C00A60B1CE1D7E819D7A431D7C90EA0E5F)

/-- a^e mod m for an exponent of at most k bits. -/
def powMod (m a e : Nat) : Nat → Nat
  | 0 => 1 % m
  | k + 1 => let h := powMod m (a * a % m) (e / 2) k
             if e % 2 = 1 then h * a % m else h
/-- The inverse modulo a prime. -/
def invMod (m a : Nat) : Nat := powMod m (a % m) (m - 2) 384
/-- Subtraction in the field. -/
def subP (a b : Nat) : Nat := (a + p384 - b % p384) % p384
/-- Addition of points; none is the point at infinity. -/
def addPt (p q : Option (Nat × Nat)) : Option (Nat × Nat) :=
  match p, q with
  | none, q => q
  | p, none => p
  | some (x1, y1), some (x2, y2) =>
    if x1 = x2 ∧ (y1 + y2) % p384 = 0 then none
    else
      let l := if x1 = x2 then subP (3 * x1 * x1) 3 * invMod p384 (2 * y1) % p384 else subP y2 y1 * invMod p384 (subP x2 x1) % p384
      let x3 := subP (l * l) (x1 + x2)
      some (x3, subP (l * subP x1 x3) y1)
/-- k times a point, for a k of at most j bits. -/
def mulPt (k : Nat) (p : Option (Nat × Nat)) : Nat → Option (Nat × Nat)
  | 0 => none
  | j + 1 => let h := mulPt (k / 2) (addPt p p) j
             if k % 2 = 1 then addPt p h else h
/-- A point on the curve. -/
def onCurve (q : Nat × Nat) : Bool :=
  decide (q.1 < p384) && decide (q.2 < p384) && decide (q.2 * q.2 % p384 = (subP (q.1 * q.1 * q.1 + b384) (3 * q.1)))

/-- A little-endian number. -/
def leInt (bs : List (BitVec 8)) : Nat := beNat bs.reverse
/-- ECDSA verification of a SHA-384 digest with little-endian key and signature values (05 R185, R186). -/
def ecdsaP384 (x y r s digest : List (BitVec 8)) : Bool :=
  let q := (leInt x, leInt y)
  let r := leInt r
  let s := leInt s
  let w := invMod n384 s
  decide (1 ≤ r ∧ r < n384) && decide (1 ≤ s ∧ s < n384) && onCurve q &&
  (match addPt (mulPt (beNat digest * w % n384) (some g384) 384) (mulPt (r * w % n384) (some q) 384) with
   | some p => decide (p.1 % n384 = r)
   | none => false)

end Sys2Proof.Machine.Crypto
end

