-- ==== Sys2Proof/Machine/Crc.lean ====
section
/-! DEFINITION. Check values: the CRC of 07 R261 and the record check of 10 R337. -/

namespace Sys2Proof.Machine

/-- The w low bits of x in reverse order. -/
def reflect : Nat → Nat → Nat
  | 0, _ => 0
  | w + 1, x => (x % 2) * 2 ^ w + reflect w (x / 2)

/-- One bit of the register (07 R261). -/
def crcBit (w poly crc : Nat) : Nat :=
  if crc.testBit (w - 1) then (crc * 2 ^^^ poly) % 2 ^ w else crc * 2 % 2 ^ w

/-- One byte of the message (07 R261). -/
def crcByte (w poly : Nat) (refin : Bool) (crc : Nat) (b : Byte) : Nat :=
  let v := if refin then reflect 8 b.toNat else b.toNat
  (List.range 8).foldl (fun c _ => crcBit w poly c) (crc ^^^ v * 2 ^ (w - 8))

/-- The CRC of a message (07 R261). -/
def crcOf (w poly init : Nat) (refin refout inv : Bool) (msg : List Byte) : Nat :=
  let c := msg.foldl (crcByte w (poly % 2 ^ w) refin) (init % 2 ^ w)
  let r := if refout then reflect w c else c
  if inv then 2 ^ w - 1 - r else r

/-- CRC-32C: profile 0 of 07 R264. -/
def crc32c (msg : List Byte) : Nat := crcOf 32 0x1EDC6F41 0xFFFFFFFF true true true msg
/-- The CHECK of a descriptor, completion record or inlet frame (10 R337). -/
def recCheck (tag : Nat) (msg : List Byte) : Nat :=
  crcOf 32 0x1EDC6F41 (0xFFFFFFFF ^^^ tag % 2 ^ 32) true true true msg

end Sys2Proof.Machine
end

