-- ==== Sys2Proof/Machine/CsrMap.lean ====
section
/-! DEFINITION. The register map: the offset of every register outside the branch and leaf blocks, and each field's bits, access
type and reset value, transcribed from the register tables of 00 R12, 01 R38, 06, 09, 10 R362, R363, 12, 13 R464, R465, 14 R502 to
R504, 15 and 16. Register names are the spec's in lower camel case; the arguments are its instance numbers. -/

namespace Sys2Proof.Machine

/-- Access types (01 R32). -/
inductive RegAcc where
  | ro | rw | rwl | w1c | wo | rc
  deriving DecidableEq, Repr

/-- A field: its bits [hi:lo], access type and reset value. -/
structure RegField where
  hi : Nat
  lo : Nat
  acc : RegAcc
  reset : Nat
  deriving DecidableEq, Repr

/-- A register, or an array of them with two instance numbers. -/
structure RegRow where
  base : Nat
  stride : Nat
  count : Nat
  stride2 : Nat
  count2 : Nat
  fields : List RegField
  deriving DecidableEq, Repr

/-! Offsets in SPACE 3. -/

namespace Reg
/-- `ID_PART`. -/
def idPart : Nat := 0x0
/-- `ROOT_STATUS`. -/
def rootStatus : Nat := 0x1000
/-- `ROOT_CSR_ERR`. -/
def rootCsrErr : Nat := 0x1008
/-- `ROOT_CSR_ERR_CNT`. -/
def rootCsrErrCnt : Nat := 0x1010
/-- `SEED_STATUS`. -/
def seedStatus : Nat := 0x2000
/-- `SEED_ID`. -/
def seedId : Nat := 0x2008
/-- `SEED_SIZE`. -/
def seedSize : Nat := 0x2010
/-- `SEED_READ_NS`. -/
def seedReadNs : Nat := 0x2050
/-- `SEED_DIGEST`. -/
def seedDigest (n : Nat) : Nat := 0x2020 + n * 0x8
/-- `TIME_NOW`. -/
def timeNow : Nat := 0x3000
/-- `TIME_STATUS`. -/
def timeStatus : Nat := 0x3008
/-- `TIME_CFG`. -/
def timeCfg : Nat := 0x3010
/-- `TIME_OFFSET`. -/
def timeOffset : Nat := 0x3018
/-- `TIME_HOLD`. -/
def timeHold : Nat := 0x3020
/-- `TIME_STEPS`. -/
def timeSteps : Nat := 0x3028
/-- `TIME_PPS`. -/
def timePps : Nat := 0x3030
/-- `PWR_STATUS`. -/
def pwrStatus : Nat := 0x4000
/-- `PWR_POLICY`. -/
def pwrPolicy : Nat := 0x4008
/-- `PWR_RAMP`. -/
def pwrRamp : Nat := 0x4010
/-- `PWR_WAKE_CFG`. -/
def pwrWakeCfg : Nat := 0x4018
/-- `PWR_STATE_REQ`. -/
def pwrStateReq : Nat := 0x4020
/-- `PWR_WAKE`. -/
def pwrWake : Nat := 0x4028
/-- `PWR_EVENT`. -/
def pwrEvent : Nat := 0x4040
/-- `PWR_EVENT_TIME`. -/
def pwrEventTime : Nat := 0x4048
/-- `PWR_BLEVEL`. -/
def pwrBlevel (n : Nat) : Nat := 0x4100 + n * 0x8
/-- `NRG_CAP`. -/
def nrgCap : Nat := 0x5000
/-- `NRG_CFG`. -/
def nrgCfg : Nat := 0x5008
/-- `NRG_HB`. -/
def nrgHb : Nat := 0x5010
/-- `NRG_LEDGER`. -/
def nrgLedger : Nat := 0x5018
/-- `NRG_MODEL`. -/
def nrgModel : Nat := 0x5020
/-- `NRG_REVOKE`. -/
def nrgRevoke : Nat := 0x5028
/-- `NRG_BALLAST`. -/
def nrgBallast : Nat := 0x5030
/-- `NRG_SHARE`. -/
def nrgShare (n : Nat) : Nat := 0x5100 + n * 0x8
/-- `NRG_BUCKET`. -/
def nrgBucket (n : Nat) : Nat := 0x5300 + n * 0x8
/-- `NRG_CHARGED`. -/
def nrgCharged (n : Nat) : Nat := 0x5500 + n * 0x8
/-- `THM_STATUS`. -/
def thmStatus : Nat := 0x6000
/-- `THM_CFG`. -/
def thmCfg : Nat := 0x6008
/-- `THM_T`. -/
def thmT (n : Nat) : Nat := 0x6100 + n * 0x8
/-- `ADM_STATUS`. -/
def admStatus : Nat := 0x7000
/-- `ADM_ALERT`. -/
def admAlert : Nat := 0x7008
/-- `ADM_ALERT_MASK`. -/
def admAlertMask : Nat := 0x7010
/-- `ADM_DEC_MAX`. -/
def admDecMax : Nat := 0x7018
/-- `RST_CAUSE`. -/
def rstCause : Nat := 0x8000
/-- `RST_COUNT`. -/
def rstCount : Nat := 0x8008
/-- `RST_CTL`. -/
def rstCtl : Nat := 0x8010
/-- `RST_WDOG`. -/
def rstWdog : Nat := 0x8018
/-- `RST_PINOPT`. -/
def rstPinopt : Nat := 0x8020
/-- `RST_BOOT_TIME`. -/
def rstBootTime : Nat := 0x8028
/-- `RST_CLK`. -/
def rstClk : Nat := 0x8030
/-- `DBG_STATUS`. -/
def dbgStatus : Nat := 0x9000
/-- `DBG_CTL`. -/
def dbgCtl : Nat := 0x9008
/-- `DBG_CFG`. -/
def dbgCfg : Nat := 0x9010
/-- `DBG_FRZ_TIME`. -/
def dbgFrzTime : Nat := 0x9018
/-- `DBG_FRZ_SPAN`. -/
def dbgFrzSpan : Nat := 0x9020
/-- `DBG_DUMP`. -/
def dbgDump : Nat := 0x9080
/-- `DBG_PEER`. -/
def dbgPeer (n : Nat) : Nat := 0x9040 + n * 0x8
/-- `TRC_CTL`. -/
def trcCtl : Nat := 0xA000
/-- `TRC_SRC`. -/
def trcSrc : Nat := 0xA008
/-- `TRC_STAND`. -/
def trcStand : Nat := 0xA010
/-- `TRC_STATUS`. -/
def trcStatus : Nat := 0xA018
/-- `TRC_SEQ`. -/
def trcSeq : Nat := 0xA030
/-- `TRC_RECORDS`. -/
def trcRecords : Nat := 0xA020
/-- `TRC_LOST`. -/
def trcLost : Nat := 0xA028
/-- `NTC_STATUS`. -/
def ntcStatus (n : Nat) : Nat := 0x10000 + n * 0x1000
/-- `NTC_CFG`. -/
def ntcCfg (n : Nat) : Nat := 0x10008 + n * 0x1000
/-- `NTC_SCRUB_POS`. -/
def ntcScrubPos (n : Nat) : Nat := 0x10010 + n * 0x1000
/-- `NTC_CE_CNT`. -/
def ntcCeCnt (n : Nat) : Nat := 0x10018 + n * 0x1000
/-- `NTC_UE_CNT`. -/
def ntcUeCnt (n : Nat) : Nat := 0x10020 + n * 0x1000
/-- `NTC_ERR_LOG`. -/
def ntcErrLog (n : Nat) : Nat := 0x10028 + n * 0x1000
/-- `NTC_ERR_TIME`. -/
def ntcErrTime (n : Nat) : Nat := 0x10030 + n * 0x1000
/-- `NTC_POOL_FRAMES`. -/
def ntcPoolFrames (n : Nat) : Nat := 0x10100 + n * 0x1000
/-- `NTC_POOL_FREE`. -/
def ntcPoolFree (n : Nat) : Nat := 0x10108 + n * 0x1000
/-- `NTC_POOL_EVICT`. -/
def ntcPoolEvict (n : Nat) : Nat := 0x10110 + n * 0x1000
/-- `NTC_LANE`. -/
def ntcLane (n m : Nat) : Nat := 0x10040 + n * 0x1000 + m * 0x8
/-- `WTC_STATUS`. -/
def wtcStatus (n : Nat) : Nat := 0x20000 + n * 0x800
/-- `WTC_CFG`. -/
def wtcCfg (n : Nat) : Nat := 0x20008 + n * 0x800
/-- `WTC_CE_CNT`. -/
def wtcCeCnt (n : Nat) : Nat := 0x20010 + n * 0x800
/-- `WTC_UE_CNT`. -/
def wtcUeCnt (n : Nat) : Nat := 0x20018 + n * 0x800
/-- `WTC_ODECC`. -/
def wtcOdecc (n : Nat) : Nat := 0x20020 + n * 0x800
/-- `WTC_RFM`. -/
def wtcRfm (n : Nat) : Nat := 0x20028 + n * 0x800
/-- `WTC_ERR_LOG`. -/
def wtcErrLog (n : Nat) : Nat := 0x20030 + n * 0x800
/-- `WTC_ERR_TIME`. -/
def wtcErrTime (n : Nat) : Nat := 0x20038 + n * 0x800
/-- `WTC_LAYOUT`. -/
def wtcLayout (n : Nat) : Nat := 0x20040 + n * 0x800
/-- `DTC_STATUS`. -/
def dtcStatus (n : Nat) : Nat := 0x30000 + n * 0x800
/-- `DTC_CW_READ`. -/
def dtcCwRead (n : Nat) : Nat := 0x30008 + n * 0x800
/-- `DTC_CW_SOFT`. -/
def dtcCwSoft (n : Nat) : Nat := 0x30010 + n * 0x800
/-- `DTC_CW_REBUILT`. -/
def dtcCwRebuilt (n : Nat) : Nat := 0x30018 + n * 0x800
/-- `DTC_CW_LOST`. -/
def dtcCwLost (n : Nat) : Nat := 0x30020 + n * 0x800
/-- `DTC_RETIRED`. -/
def dtcRetired (n : Nat) : Nat := 0x30028 + n * 0x800
/-- `FTL_STATUS`. -/
def ftlStatus : Nat := 0x40000
/-- `FTL_CFG`. -/
def ftlCfg : Nat := 0x40008
/-- `FTL_CAP`. -/
def ftlCap : Nat := 0x40010
/-- `FTL_FREE`. -/
def ftlFree : Nat := 0x40018
/-- `FTL_WEAR`. -/
def ftlWear : Nat := 0x40020
/-- `FTL_HOST_RD`. -/
def ftlHostRd : Nat := 0x40028
/-- `FTL_HOST_WR`. -/
def ftlHostWr : Nat := 0x40030
/-- `FTL_NAND_WR`. -/
def ftlNandWr : Nat := 0x40038
/-- `FTL_MOVED`. -/
def ftlMoved : Nat := 0x40040
/-- `FTL_JOURNAL`. -/
def ftlJournal : Nat := 0x40048
/-- `FTL_VOL_A`. -/
def ftlVolA (n : Nat) : Nat := 0x41000 + n * 0x10
/-- `FTL_VOL_B`. -/
def ftlVolB (n : Nat) : Nat := 0x41008 + n * 0x10
/-- `LNK_STATUS`. -/
def lnkStatus (n : Nat) : Nat := 0x50000 + n * 0x800
/-- `LNK_CFG`. -/
def lnkCfg (n : Nat) : Nat := 0x50008 + n * 0x800
/-- `LNK_HOST_STANDS`. -/
def lnkHostStands (n : Nat) : Nat := 0x50010 + n * 0x800
/-- `LNK_THRESH`. -/
def lnkThresh (n : Nat) : Nat := 0x50018 + n * 0x800
/-- `LNK_EVENT`. -/
def lnkEvent (n : Nat) : Nat := 0x50020 + n * 0x800
/-- `LNK_EVENT_TIME`. -/
def lnkEventTime (n : Nat) : Nat := 0x50028 + n * 0x800
/-- `LNK_TS_DELAY`. -/
def lnkTsDelay (n : Nat) : Nat := 0x50030 + n * 0x800
/-- `LNK_CTL`. -/
def lnkCtl (n : Nat) : Nat := 0x50038 + n * 0x800
/-- `LNK_FEC_CS`. -/
def lnkFecCs (n : Nat) : Nat := 0x50040 + n * 0x800
/-- `LNK_FEC_UC`. -/
def lnkFecUc (n : Nat) : Nat := 0x50048 + n * 0x800
/-- `LNK_CRC_ERR`. -/
def lnkCrcErr (n : Nat) : Nat := 0x50050 + n * 0x800
/-- `LNK_RETRY`. -/
def lnkRetry (n : Nat) : Nat := 0x50058 + n * 0x800
/-- `LNK_LOST`. -/
def lnkLost (n : Nat) : Nat := 0x50060 + n * 0x800
/-- `LNK_TX_FLITS`. -/
def lnkTxFlits (n m : Nat) : Nat := 0x50100 + n * 0x800 + m * 0x8
/-- `LNK_RX_FLITS`. -/
def lnkRxFlits (n m : Nat) : Nat := 0x50140 + n * 0x800 + m * 0x8
/-- `LNK_BER_BITS`. -/
def lnkBerBits (n : Nat) : Nat := 0x50200 + n * 0x800
/-- `LNK_BER_ERR`. -/
def lnkBerErr (n m : Nat) : Nat := 0x50208 + n * 0x800 + m * 0x8
/-- `LNK_BER_RESULT`. -/
def lnkBerResult (n : Nat) : Nat := 0x50248 + n * 0x800
/-- `RTE_STATUS`. -/
def rteStatus : Nat := 0x60000
/-- `RTE_PAGE`. -/
def rtePage : Nat := 0x60008
/-- `RTE_EPOCH`. -/
def rteEpoch : Nat := 0x60010
/-- `RTE_CTL`. -/
def rteCtl : Nat := 0x60018
/-- `RTE_CFG`. -/
def rteCfg : Nat := 0x60020
/-- `RTE_NOROUTE`. -/
def rteNoroute : Nat := 0x60040
/-- `RTE_TTL_DROP`. -/
def rteTtlDrop : Nat := 0x60048
/-- `RTE_REMOTE_DENY`. -/
def rteRemoteDeny : Nat := 0x60050
/-- `RTE_MC_DROP`. -/
def rteMcDrop : Nat := 0x60058
/-- `RTE_TIMEOUT`. -/
def rteTimeout : Nat := 0x60060
/-- `FORK_STATUS`. -/
def forkStatus : Nat := 0x70000
/-- `FORK_FAULT`. -/
def forkFault : Nat := 0x70008
/-- `FORK_FAULT_TIME`. -/
def forkFaultTime : Nat := 0x70010
/-- `FORK_CHOICES`. -/
def forkChoices : Nat := 0x70018
/-- `FORK_DROPPED`. -/
def forkDropped : Nat := 0x70020
/-- `FORK_TOKDROP`. -/
def forkTokdrop : Nat := 0x70028
/-- `FORK_REMOTE`. -/
def forkRemote : Nat := 0x70030
/-- `FORK_RUNS`. -/
def forkRuns : Nat := 0x70038
/-- `FORK_JOINS`. -/
def forkJoins : Nat := 0x70040
/-- `FORK_PEER`. -/
def forkPeer (n m : Nat) : Nat := 0x71000 + n * 0x80 + m * 0x8
/-- `HPT_PCI_ID`. -/
def hptPciId (n : Nat) : Nat := 0x80000 + n * 0x100
/-- `HPT_PORT_STATUS`. -/
def hptPortStatus (n : Nat) : Nat := 0x80008 + n * 0x100
/-- `HPT_PORT_CFG`. -/
def hptPortCfg (n : Nat) : Nat := 0x80010 + n * 0x100
/-- `HPT_AER_COR`. -/
def hptAerCor (n : Nat) : Nat := 0x80018 + n * 0x100
/-- `HPT_AER_UNCOR`. -/
def hptAerUncor (n : Nat) : Nat := 0x80020 + n * 0x100
/-- `HPT_FLR`. -/
def hptFlr (n : Nat) : Nat := 0x80028 + n * 0x100
/-- `HPT_DROP`. -/
def hptDrop (n : Nat) : Nat := 0x80030 + n * 0x100
/-- `HPT_AQ_BASE`. -/
def hptAqBase (n m : Nat) : Nat := 0x81000 + n * 0x1000 + m * 0x20
/-- `HPT_AQ_PTR`. -/
def hptAqPtr (n m : Nat) : Nat := 0x81008 + n * 0x1000 + m * 0x20
/-- `HPT_APER`. -/
def hptAper (n m : Nat) : Nat := 0x81010 + n * 0x1000 + m * 0x20
/-- `STD_CFG`. -/
def stdCfg (n : Nat) : Nat := 0x1000000 + n * 0x10000
/-- `STD_STATUS`. -/
def stdStatus (n : Nat) : Nat := 0x1000008 + n * 0x10000
/-- `STD_BRANCH_LO`. -/
def stdBranchLo (n : Nat) : Nat := 0x1000010 + n * 0x10000
/-- `STD_BRANCH_HI`. -/
def stdBranchHi (n : Nat) : Nat := 0x1000018 + n * 0x10000
/-- `STD_EXPRESS_LO`. -/
def stdExpressLo (n : Nat) : Nat := 0x1000020 + n * 0x10000
/-- `STD_EXPRESS_HI`. -/
def stdExpressHi (n : Nat) : Nat := 0x1000028 + n * 0x10000
/-- `STD_NEAR_REGION`. -/
def stdNearRegion (n : Nat) : Nat := 0x1000030 + n * 0x10000
/-- `STD_VIOL_LOST`. -/
def stdViolLost (n : Nat) : Nat := 0x1000900 + n * 0x10000
/-- `STD_RESET`. -/
def stdReset (n : Nat) : Nat := 0x1000A00 + n * 0x10000
/-- `STD_SEG_A`. -/
def stdSegA (n m : Nat) : Nat := 0x1000100 + n * 0x10000 + m * 0x10
/-- `STD_SEG_B`. -/
def stdSegB (n m : Nat) : Nat := 0x1000108 + n * 0x10000 + m * 0x10
/-- `STD_RING_SQ`. -/
def stdRingSq (n m : Nat) : Nat := 0x1000400 + n * 0x10000 + m * 0x20
/-- `STD_RING_CQ`. -/
def stdRingCq (n m : Nat) : Nat := 0x1000408 + n * 0x10000 + m * 0x20
/-- `STD_RING_CTL`. -/
def stdRingCtl (n m : Nat) : Nat := 0x1000410 + n * 0x10000 + m * 0x20
/-- `STD_RING_PTR`. -/
def stdRingPtr (n m : Nat) : Nat := 0x1000418 + n * 0x10000 + m * 0x20
/-- `STD_RING_ERR`. -/
def stdRingErr (n : Nat) : Nat := 0x1000500 + n * 0x10000
/-- `STD_RING_ERR_CNT`. -/
def stdRingErrCnt (n : Nat) : Nat := 0x1000508 + n * 0x10000
/-- `STD_XCON`. -/
def stdXcon (n m : Nat) : Nat := 0x1000600 + n * 0x10000 + m * 0x8
/-- `STD_IRQ_PEND`. -/
def stdIrqPend (n : Nat) : Nat := 0x1000700 + n * 0x10000
/-- `STD_IRQ_MASK`. -/
def stdIrqMask (n : Nat) : Nat := 0x1000708 + n * 0x10000
/-- `STD_IRQ_CFG`. -/
def stdIrqCfg (n : Nat) : Nat := 0x1000710 + n * 0x10000
/-- `STD_IRQ_ADDR`. -/
def stdIrqAddr (n : Nat) : Nat := 0x1000718 + n * 0x10000
/-- `STD_VIOL_A`. -/
def stdViolA (n m : Nat) : Nat := 0x1000800 + n * 0x10000 + m * 0x20
/-- `STD_VIOL_ADDR`. -/
def stdViolAddr (n m : Nat) : Nat := 0x1000808 + n * 0x10000 + m * 0x20
/-- `STD_VIOL_TIME`. -/
def stdViolTime (n m : Nat) : Nat := 0x1000810 + n * 0x10000 + m * 0x20
/-- `STD_VIOL_TAG`. -/
def stdViolTag (n m : Nat) : Nat := 0x1000818 + n * 0x10000 + m * 0x20
end Reg

/-- The `ID` block. -/
def idRegs : List RegRow := [
  ⟨0x0, 0x0, 1, 0x0, 1, [⟨63, 48, .ro, 0x5741⟩, ⟨47, 40, .ro, 0x0⟩, ⟨39, 32, .ro, 0x0⟩, ⟨31, 24, .ro, 0x0⟩, ⟨15, 0, .ro, 0x0⟩]⟩]

/-- The `ROOT` block. -/
def rootRegs : List RegRow := [
  ⟨0x1000, 0x0, 1, 0x0, 1, [⟨15, 8, .ro, 0x0⟩, ⟨2, 2, .ro, 0x0⟩, ⟨1, 1, .ro, 0x0⟩, ⟨0, 0, .ro, 0x0⟩]⟩,
  ⟨0x1008, 0x0, 1, 0x0, 1, [⟨63, 63, .w1c, 0x0⟩, ⟨62, 60, .ro, 0x0⟩, ⟨59, 56, .ro, 0x0⟩, ⟨55, 50, .ro, 0x0⟩, ⟨49, 49, .ro, 0x0⟩, ⟨28, 0, .ro, 0x0⟩]⟩,
  ⟨0x1010, 0x0, 1, 0x0, 1, [⟨31, 0, .rc, 0x0⟩]⟩]

/-- The `SEED` block. -/
def seedRegs : List RegRow := [
  ⟨0x2000, 0x0, 1, 0x0, 1, [⟨37, 32, .ro, 0x0⟩, ⟨31, 24, .ro, 0x0⟩, ⟨18, 16, .ro, 0x0⟩, ⟨15, 8, .ro, 0x0⟩, ⟨2, 0, .ro, 0x0⟩]⟩,
  ⟨0x2008, 0x0, 1, 0x0, 1, [⟨63, 0, .ro, 0x0⟩]⟩,
  ⟨0x2010, 0x0, 1, 0x0, 1, [⟨47, 40, .ro, 0x0⟩, ⟨39, 32, .ro, 0x0⟩, ⟨31, 0, .ro, 0x0⟩]⟩,
  ⟨0x2050, 0x0, 1, 0x0, 1, [⟨31, 0, .ro, 0x0⟩]⟩,
  ⟨0x2020, 0x8, 6, 0x0, 1, [⟨63, 0, .ro, 0x0⟩]⟩]

/-- The `TIME` block. -/
def timeRegs : List RegRow := [
  ⟨0x3000, 0x0, 1, 0x0, 1, [⟨63, 0, .ro, 0x0⟩]⟩,
  ⟨0x3008, 0x0, 1, 0x0, 1, [⟨12, 8, .ro, 0x1F⟩, ⟨5, 5, .ro, 0x0⟩, ⟨4, 4, .ro, 0x0⟩, ⟨2, 0, .ro, 0x0⟩]⟩,
  ⟨0x3010, 0x0, 1, 0x0, 1, [⟨1, 1, .rwl, 0x0⟩, ⟨0, 0, .rwl, 0x0⟩]⟩,
  ⟨0x3018, 0x0, 1, 0x0, 1, [⟨31, 0, .ro, 0x0⟩]⟩,
  ⟨0x3020, 0x0, 1, 0x0, 1, [⟨31, 0, .ro, 0x0⟩]⟩,
  ⟨0x3028, 0x0, 1, 0x0, 1, [⟨31, 0, .rc, 0x0⟩]⟩,
  ⟨0x3030, 0x0, 1, 0x0, 1, [⟨63, 0, .ro, 0x0⟩]⟩]

/-- The `PWR` block. -/
def pwrRegs : List RegRow := [
  ⟨0x4000, 0x0, 1, 0x0, 1, [⟨63, 48, .ro, 0x0⟩, ⟨47, 32, .ro, 0x0⟩, ⟨18, 16, .ro, 0x0⟩, ⟨15, 14, .ro, 0x0⟩, ⟨10, 8, .ro, 0x0⟩, ⟨5, 5, .ro, 0x0⟩, ⟨4, 4, .ro, 0x0⟩, ⟨3, 3, .ro, 0x0⟩, ⟨2, 2, .ro, 0x0⟩, ⟨1, 1, .ro, 0x0⟩, ⟨0, 0, .ro, 0x0⟩]⟩,
  ⟨0x4008, 0x0, 1, 0x0, 1, [⟨31, 24, .rwl, 0x64⟩, ⟨23, 8, .rwl, 0x32⟩, ⟨2, 0, .rwl, 0x0⟩]⟩,
  ⟨0x4010, 0x0, 1, 0x0, 1, [⟨63, 32, .rw, 0x3E8⟩, ⟨31, 0, .rw, 0x3E8⟩]⟩,
  ⟨0x4018, 0x0, 1, 0x0, 1, [⟨27, 8, .rwl, 0x0⟩, ⟨7, 4, .rwl, 0x0⟩, ⟨3, 0, .rwl, 0x0⟩]⟩,
  ⟨0x4020, 0x0, 1, 0x0, 1, [⟨1, 0, .wo, 0x0⟩]⟩,
  ⟨0x4028, 0x0, 1, 0x0, 1, [⟨15, 8, .ro, 0x0⟩, ⟨7, 7, .ro, 0x0⟩, ⟨2, 0, .ro, 0x0⟩]⟩,
  ⟨0x4040, 0x0, 1, 0x0, 1, [⟨63, 63, .w1c, 0x0⟩, ⟨62, 59, .ro, 0x0⟩, ⟨47, 32, .ro, 0x0⟩]⟩,
  ⟨0x4048, 0x0, 1, 0x0, 1, [⟨63, 0, .ro, 0x0⟩]⟩,
  ⟨0x4100, 0x8, 16, 0x0, 1, [⟨63, 0, .ro, 0x0⟩]⟩]

/-- The `NRG` block. -/
def nrgRegs : List RegRow := [
  ⟨0x5000, 0x0, 1, 0x0, 1, [⟨63, 48, .ro, 0x0⟩, ⟨47, 32, .ro, 0x0⟩, ⟨31, 16, .rwl, 0x0⟩, ⟨15, 0, .rwl, 0x0⟩]⟩,
  ⟨0x5008, 0x0, 1, 0x0, 1, [⟨63, 56, .rwl, 0x14⟩, ⟨47, 32, .rwl, 0x64⟩, ⟨31, 16, .rwl, 0xA⟩]⟩,
  ⟨0x5010, 0x0, 1, 0x0, 1, [⟨63, 32, .ro, 0x0⟩, ⟨0, 0, .wo, 0x0⟩]⟩,
  ⟨0x5018, 0x0, 1, 0x0, 1, [⟨63, 0, .ro, 0x0⟩]⟩,
  ⟨0x5020, 0x0, 1, 0x0, 1, [⟨63, 48, .ro, 0x0⟩, ⟨47, 32, .ro, 0x0⟩, ⟨31, 0, .ro, 0x10000⟩]⟩,
  ⟨0x5028, 0x0, 1, 0x0, 1, [⟨63, 0, .rc, 0x0⟩]⟩,
  ⟨0x5030, 0x0, 1, 0x0, 1, [⟨63, 0, .rc, 0x0⟩]⟩,
  ⟨0x5100, 0x8, 64, 0x0, 1, [⟨8, 0, .rw, 0x0⟩]⟩,
  ⟨0x5300, 0x8, 64, 0x0, 1, [⟨63, 0, .ro, 0x0⟩]⟩,
  ⟨0x5500, 0x8, 64, 0x0, 1, [⟨63, 0, .ro, 0x0⟩]⟩]

/-- The `THM` block. -/
def thmRegs : List RegRow := [
  ⟨0x6000, 0x0, 1, 0x0, 1, [⟨63, 48, .ro, 0x0⟩, ⟨47, 40, .ro, 0x0⟩, ⟨15, 13, .ro, 0x0⟩, ⟨3, 3, .ro, 0x0⟩, ⟨2, 2, .ro, 0x0⟩, ⟨1, 1, .ro, 0x0⟩, ⟨0, 0, .ro, 0x0⟩]⟩,
  ⟨0x6008, 0x0, 1, 0x0, 1, [⟨7, 0, .rwl, 0x5F⟩]⟩,
  ⟨0x6100, 0x8, 96, 0x0, 1, [⟨15, 0, .ro, 0x8000⟩]⟩]

/-- The `ADM` block. -/
def admRegs : List RegRow := [
  ⟨0x7000, 0x0, 1, 0x0, 1, [⟨7, 0, .ro, 0x0⟩]⟩,
  ⟨0x7008, 0x0, 1, 0x0, 1, [⟨63, 0, .ro, 0x0⟩]⟩,
  ⟨0x7010, 0x0, 1, 0x0, 1, [⟨63, 0, .rw, 0x0⟩]⟩,
  ⟨0x7018, 0x0, 1, 0x0, 1, [⟨63, 32, .rc, 0x0⟩, ⟨31, 0, .rc, 0x0⟩]⟩]

/-- The `RST` block. -/
def rstRegs : List RegRow := [
  ⟨0x8000, 0x0, 1, 0x0, 1, [⟨15, 12, .ro, 0x0⟩, ⟨2, 0, .ro, 0x0⟩]⟩,
  ⟨0x8008, 0x0, 1, 0x0, 1, [⟨63, 48, .ro, 0x0⟩, ⟨47, 24, .ro, 0x0⟩, ⟨23, 0, .ro, 0x0⟩]⟩,
  ⟨0x8010, 0x0, 1, 0x0, 1, [⟨0, 0, .wo, 0x0⟩]⟩,
  ⟨0x8018, 0x0, 1, 0x0, 1, [⟨31, 0, .rwl, 0x3E8⟩]⟩,
  ⟨0x8020, 0x0, 1, 0x0, 1, [⟨2, 2, .rwl, 0x1⟩, ⟨1, 1, .rwl, 0x0⟩, ⟨0, 0, .rwl, 0x0⟩]⟩,
  ⟨0x8028, 0x0, 1, 0x0, 1, [⟨63, 0, .ro, 0x0⟩]⟩,
  ⟨0x8030, 0x0, 1, 0x0, 1, [⟨63, 32, .rc, 0x0⟩, ⟨7, 6, .ro, 0x0⟩, ⟨5, 2, .ro, 0x0⟩, ⟨1, 1, .ro, 0x0⟩, ⟨0, 0, .ro, 0x0⟩]⟩]

/-- The `DBG` block. -/
def dbgRegs : List RegRow := [
  ⟨0x9000, 0x0, 1, 0x0, 1, [⟨15, 8, .ro, 0x0⟩, ⟨2, 0, .ro, 0x0⟩]⟩,
  ⟨0x9008, 0x0, 1, 0x0, 1, [⟨2, 2, .rw, 0x0⟩, ⟨1, 1, .wo, 0x0⟩, ⟨0, 0, .wo, 0x0⟩]⟩,
  ⟨0x9010, 0x0, 1, 0x0, 1, [⟨8, 8, .rw, 0x0⟩, ⟨4, 0, .rw, 0x0⟩]⟩,
  ⟨0x9018, 0x0, 1, 0x0, 1, [⟨63, 0, .ro, 0x0⟩]⟩,
  ⟨0x9020, 0x0, 1, 0x0, 1, [⟨31, 0, .ro, 0x0⟩]⟩,
  ⟨0x9080, 0x0, 1, 0x0, 1, [⟨63, 63, .wo, 0x0⟩, ⟨47, 40, .rw, 0x0⟩, ⟨39, 32, .rw, 0x0⟩, ⟨5, 0, .rw, 0x0⟩]⟩,
  ⟨0x9040, 0x8, 8, 0x0, 1, [⟨63, 63, .rw, 0x0⟩, ⟨15, 0, .rw, 0x0⟩]⟩]

/-- The `TRC` block. -/
def trcRegs : List RegRow := [
  ⟨0xA000, 0x0, 1, 0x0, 1, [⟨5, 4, .rw, 0x0⟩, ⟨0, 0, .rw, 0x0⟩]⟩,
  ⟨0xA008, 0x0, 1, 0x0, 1, [⟨5, 0, .rw, 0x0⟩]⟩,
  ⟨0xA010, 0x0, 1, 0x0, 1, [⟨63, 0, .rw, 0xFFFFFFFFFFFFFFFF⟩]⟩,
  ⟨0xA018, 0x0, 1, 0x0, 1, [⟨26, 16, .ro, 0x0⟩, ⟨2, 2, .ro, 0x0⟩, ⟨1, 1, .ro, 0x0⟩, ⟨0, 0, .ro, 0x0⟩]⟩,
  ⟨0xA030, 0x0, 1, 0x0, 1, [⟨31, 0, .ro, 0x0⟩]⟩,
  ⟨0xA020, 0x0, 1, 0x0, 1, [⟨63, 0, .rc, 0x0⟩]⟩,
  ⟨0xA028, 0x0, 1, 0x0, 1, [⟨63, 0, .rc, 0x0⟩]⟩]

/-- The `NTC` block. -/
def ntcRegs : List RegRow := [
  ⟨0x10000, 0x1000, 16, 0x0, 1, [⟨31, 24, .ro, 0x0⟩, ⟨15, 8, .ro, 0x0⟩, ⟨2, 0, .ro, 0x0⟩]⟩,
  ⟨0x10008, 0x1000, 16, 0x0, 1, [⟨23, 16, .rwl, 0x40⟩, ⟨15, 8, .rwl, 0x18⟩, ⟨1, 0, .rwl, 0x0⟩]⟩,
  ⟨0x10010, 0x1000, 16, 0x0, 1, [⟨63, 48, .ro, 0x0⟩, ⟨31, 0, .ro, 0x0⟩]⟩,
  ⟨0x10018, 0x1000, 16, 0x0, 1, [⟨31, 0, .rc, 0x0⟩]⟩,
  ⟨0x10020, 0x1000, 16, 0x0, 1, [⟨31, 0, .rc, 0x0⟩]⟩,
  ⟨0x10028, 0x1000, 16, 0x0, 1, [⟨63, 63, .w1c, 0x0⟩, ⟨62, 60, .ro, 0x0⟩, ⟨59, 54, .ro, 0x0⟩, ⟨53, 51, .ro, 0x0⟩, ⟨35, 0, .ro, 0x0⟩]⟩,
  ⟨0x10030, 0x1000, 16, 0x0, 1, [⟨63, 0, .ro, 0x0⟩]⟩,
  ⟨0x10100, 0x1000, 16, 0x0, 1, [⟨31, 0, .ro, 0x0⟩]⟩,
  ⟨0x10108, 0x1000, 16, 0x0, 1, [⟨31, 0, .ro, 0x0⟩]⟩,
  ⟨0x10110, 0x1000, 16, 0x0, 1, [⟨31, 0, .rc, 0x0⟩]⟩,
  ⟨0x10040, 0x1000, 16, 0x8, 8, [⟨33, 0, .ro, 0x0⟩]⟩]

/-- The `WTC` block. -/
def wtcRegs : List RegRow := [
  ⟨0x20000, 0x800, 24, 0x0, 1, [⟨47, 32, .ro, 0x0⟩, ⟨31, 24, .ro, 0x0⟩, ⟨23, 20, .ro, 0x0⟩, ⟨19, 16, .ro, 0x0⟩, ⟨8, 8, .ro, 0x0⟩, ⟨2, 0, .ro, 0x0⟩]⟩,
  ⟨0x20008, 0x800, 24, 0x0, 1, [⟨23, 16, .rwl, 0x80⟩, ⟨15, 8, .rwl, 0x18⟩]⟩,
  ⟨0x20010, 0x800, 24, 0x0, 1, [⟨31, 0, .rc, 0x0⟩]⟩,
  ⟨0x20018, 0x800, 24, 0x0, 1, [⟨31, 0, .rc, 0x0⟩]⟩,
  ⟨0x20020, 0x800, 24, 0x0, 1, [⟨31, 0, .ro, 0x0⟩]⟩,
  ⟨0x20028, 0x800, 24, 0x0, 1, [⟨31, 0, .rc, 0x0⟩]⟩,
  ⟨0x20030, 0x800, 24, 0x0, 1, [⟨63, 63, .w1c, 0x0⟩, ⟨62, 60, .ro, 0x0⟩, ⟨59, 59, .ro, 0x0⟩, ⟨58, 55, .ro, 0x0⟩, ⟨37, 0, .ro, 0x0⟩]⟩,
  ⟨0x20038, 0x800, 24, 0x0, 1, [⟨63, 0, .ro, 0x0⟩]⟩,
  ⟨0x20040, 0x800, 24, 0x0, 1, [⟨63, 56, .ro, 0x0⟩, ⟨55, 40, .ro, 0x0⟩, ⟨39, 24, .ro, 0x0⟩]⟩]

/-- The `DTC` block. -/
def dtcRegs : List RegRow := [
  ⟨0x30000, 0x800, 32, 0x0, 1, [⟨31, 24, .ro, 0x0⟩, ⟨23, 16, .ro, 0x0⟩, ⟨15, 8, .ro, 0x0⟩, ⟨2, 0, .ro, 0x0⟩]⟩,
  ⟨0x30008, 0x800, 32, 0x0, 1, [⟨31, 0, .rc, 0x0⟩]⟩,
  ⟨0x30010, 0x800, 32, 0x0, 1, [⟨31, 0, .rc, 0x0⟩]⟩,
  ⟨0x30018, 0x800, 32, 0x0, 1, [⟨31, 0, .rc, 0x0⟩]⟩,
  ⟨0x30020, 0x800, 32, 0x0, 1, [⟨31, 0, .rc, 0x0⟩]⟩,
  ⟨0x30028, 0x800, 32, 0x0, 1, [⟨31, 0, .rc, 0x0⟩]⟩]

/-- The `FTL` block. -/
def ftlRegs : List RegRow := [
  ⟨0x40000, 0x0, 1, 0x0, 1, [⟨23, 16, .ro, 0x0⟩, ⟨15, 8, .ro, 0x0⟩, ⟨2, 0, .ro, 0x0⟩]⟩,
  ⟨0x40008, 0x0, 1, 0x0, 1, [⟨63, 40, .rwl, 0xC350⟩, ⟨39, 24, .rwl, 0xC8⟩, ⟨23, 16, .rwl, 0x7⟩, ⟨7, 0, .rwl, 0x7⟩]⟩,
  ⟨0x40010, 0x0, 1, 0x0, 1, [⟨47, 0, .ro, 0x0⟩]⟩,
  ⟨0x40018, 0x0, 1, 0x0, 1, [⟨47, 0, .ro, 0x0⟩]⟩,
  ⟨0x40020, 0x0, 1, 0x0, 1, [⟨63, 32, .ro, 0x0⟩, ⟨31, 0, .ro, 0x0⟩]⟩,
  ⟨0x40028, 0x0, 1, 0x0, 1, [⟨63, 0, .rc, 0x0⟩]⟩,
  ⟨0x40030, 0x0, 1, 0x0, 1, [⟨63, 0, .rc, 0x0⟩]⟩,
  ⟨0x40038, 0x0, 1, 0x0, 1, [⟨63, 0, .rc, 0x0⟩]⟩,
  ⟨0x40040, 0x0, 1, 0x0, 1, [⟨63, 0, .rc, 0x0⟩]⟩,
  ⟨0x40048, 0x0, 1, 0x0, 1, [⟨31, 0, .ro, 0x0⟩]⟩,
  ⟨0x41000, 0x10, 256, 0x0, 1, [⟨63, 63, .ro, 0x0⟩, ⟨61, 56, .rwl, 0x0⟩, ⟨47, 0, .rwl, 0x0⟩]⟩,
  ⟨0x41008, 0x10, 256, 0x0, 1, [⟨47, 0, .rwl, 0x0⟩]⟩]

/-- The `LNK` block. -/
def lnkRegs : List RegRow := [
  ⟨0x50000, 0x800, 20, 0x0, 1, [⟨63, 48, .ro, 0x0⟩, ⟨47, 43, .ro, 0x0⟩, ⟨42, 40, .ro, 0x0⟩, ⟨39, 32, .ro, 0x0⟩, ⟨31, 24, .ro, 0x0⟩, ⟨23, 23, .ro, 0x0⟩, ⟨19, 16, .ro, 0x0⟩, ⟨3, 0, .ro, 0x0⟩]⟩,
  ⟨0x50008, 0x800, 20, 0x0, 1, [⟨63, 48, .rwl, 0x0⟩, ⟨47, 43, .rwl, 0x0⟩, ⟨42, 40, .rwl, 0x0⟩, ⟨39, 32, .rwl, 0x0⟩, ⟨9, 8, .rwl, 0x0⟩, ⟨7, 7, .rwl, 0x0⟩, ⟨2, 0, .rwl, 0x0⟩]⟩,
  ⟨0x50010, 0x800, 20, 0x0, 1, [⟨63, 0, .rwl, 0x0⟩]⟩,
  ⟨0x50018, 0x800, 20, 0x0, 1, [⟨63, 48, .rw, 0x3E8⟩, ⟨47, 40, .rw, 0x8⟩, ⟨31, 0, .rw, 0x33E140⟩]⟩,
  ⟨0x50020, 0x800, 20, 0x0, 1, [⟨63, 63, .w1c, 0x0⟩, ⟨62, 60, .ro, 0x0⟩, ⟨59, 52, .ro, 0x0⟩]⟩,
  ⟨0x50028, 0x800, 20, 0x0, 1, [⟨63, 0, .ro, 0x0⟩]⟩,
  ⟨0x50030, 0x800, 20, 0x0, 1, [⟨31, 0, .ro, 0x0⟩]⟩,
  ⟨0x50038, 0x800, 20, 0x0, 1, [⟨0, 0, .wo, 0x0⟩]⟩,
  ⟨0x50040, 0x800, 20, 0x0, 1, [⟨63, 0, .rc, 0x0⟩]⟩,
  ⟨0x50048, 0x800, 20, 0x0, 1, [⟨63, 0, .rc, 0x0⟩]⟩,
  ⟨0x50050, 0x800, 20, 0x0, 1, [⟨63, 0, .rc, 0x0⟩]⟩,
  ⟨0x50058, 0x800, 20, 0x0, 1, [⟨63, 0, .rc, 0x0⟩]⟩,
  ⟨0x50060, 0x800, 20, 0x0, 1, [⟨63, 0, .rc, 0x0⟩]⟩,
  ⟨0x50100, 0x800, 20, 0x8, 8, [⟨63, 0, .rc, 0x0⟩]⟩,
  ⟨0x50140, 0x800, 20, 0x8, 8, [⟨63, 0, .rc, 0x0⟩]⟩,
  ⟨0x50200, 0x800, 20, 0x0, 1, [⟨63, 0, .ro, 0x0⟩]⟩,
  ⟨0x50208, 0x800, 20, 0x8, 8, [⟨63, 0, .ro, 0x0⟩]⟩,
  ⟨0x50248, 0x800, 20, 0x0, 1, [⟨15, 8, .ro, 0x0⟩, ⟨7, 0, .ro, 0x0⟩]⟩]

/-- The `RTE` block. -/
def rteRegs : List RegRow := [
  ⟨0x60000, 0x0, 1, 0x0, 1, [⟨2, 2, .ro, 0x0⟩, ⟨1, 1, .ro, 0x0⟩, ⟨0, 0, .ro, 0x0⟩]⟩,
  ⟨0x60008, 0x0, 1, 0x0, 1, [⟨8, 8, .rw, 0x0⟩, ⟨4, 0, .rw, 0x0⟩]⟩,
  ⟨0x60010, 0x0, 1, 0x0, 1, [⟨63, 0, .rw, 0x0⟩]⟩,
  ⟨0x60018, 0x0, 1, 0x0, 1, [⟨1, 1, .wo, 0x0⟩, ⟨0, 0, .wo, 0x0⟩]⟩,
  ⟨0x60020, 0x0, 1, 0x0, 1, [⟨63, 48, .rwl, 0x0⟩, ⟨47, 32, .rw, 0x64⟩, ⟨31, 16, .rw, 0x7D0⟩, ⟨5, 0, .rw, 0x8⟩]⟩,
  ⟨0x60040, 0x0, 1, 0x0, 1, [⟨31, 0, .rc, 0x0⟩]⟩,
  ⟨0x60048, 0x0, 1, 0x0, 1, [⟨31, 0, .rc, 0x0⟩]⟩,
  ⟨0x60050, 0x0, 1, 0x0, 1, [⟨31, 0, .rc, 0x0⟩]⟩,
  ⟨0x60058, 0x0, 1, 0x0, 1, [⟨31, 0, .rc, 0x0⟩]⟩,
  ⟨0x60060, 0x0, 1, 0x0, 1, [⟨31, 0, .rc, 0x0⟩]⟩]

/-- The `FORK` block. -/
def forkRegs : List RegRow := [
  ⟨0x70000, 0x0, 1, 0x0, 1, [⟨31, 16, .ro, 0x0⟩, ⟨15, 0, .ro, 0x0⟩]⟩,
  ⟨0x70008, 0x0, 1, 0x0, 1, [⟨63, 63, .w1c, 0x0⟩, ⟨62, 60, .ro, 0x0⟩, ⟨59, 54, .ro, 0x0⟩, ⟨53, 48, .ro, 0x0⟩, ⟨47, 44, .ro, 0x0⟩, ⟨15, 0, .ro, 0x0⟩]⟩,
  ⟨0x70010, 0x0, 1, 0x0, 1, [⟨63, 0, .ro, 0x0⟩]⟩,
  ⟨0x70018, 0x0, 1, 0x0, 1, [⟨31, 0, .rc, 0x0⟩]⟩,
  ⟨0x70020, 0x0, 1, 0x0, 1, [⟨31, 0, .rc, 0x0⟩]⟩,
  ⟨0x70028, 0x0, 1, 0x0, 1, [⟨31, 0, .rc, 0x0⟩]⟩,
  ⟨0x70030, 0x0, 1, 0x0, 1, [⟨31, 0, .rc, 0x0⟩]⟩,
  ⟨0x70038, 0x0, 1, 0x0, 1, [⟨31, 0, .rc, 0x0⟩]⟩,
  ⟨0x70040, 0x0, 1, 0x0, 1, [⟨31, 0, .rc, 0x0⟩]⟩,
  ⟨0x71000, 0x80, 64, 0x8, 16, [⟨63, 63, .rw, 0x0⟩, ⟨61, 56, .rw, 0x0⟩, ⟨55, 52, .rw, 0x0⟩, ⟨31, 16, .rw, 0x0⟩, ⟨15, 0, .rw, 0x0⟩]⟩]

/-- The `HPT` block. -/
def hptRegs : List RegRow := [
  ⟨0x80000, 0x100, 4, 0x0, 1, [⟨63, 48, .rwl, 0x0⟩, ⟨47, 32, .rwl, 0x0⟩, ⟨31, 16, .ro, 0x0⟩, ⟨15, 0, .ro, 0x0⟩]⟩,
  ⟨0x80008, 0x100, 4, 0x0, 1, [⟨39, 32, .ro, 0x0⟩, ⟨23, 16, .ro, 0x0⟩, ⟨15, 8, .ro, 0x0⟩, ⟨2, 0, .ro, 0x0⟩]⟩,
  ⟨0x80010, 0x100, 4, 0x0, 1, [⟨7, 0, .rwl, 0x40⟩]⟩,
  ⟨0x80018, 0x100, 4, 0x0, 1, [⟨31, 0, .rc, 0x0⟩]⟩,
  ⟨0x80020, 0x100, 4, 0x0, 1, [⟨31, 0, .rc, 0x0⟩]⟩,
  ⟨0x80028, 0x100, 4, 0x0, 1, [⟨31, 0, .rc, 0x0⟩]⟩,
  ⟨0x80030, 0x100, 4, 0x0, 1, [⟨31, 0, .rc, 0x0⟩]⟩,
  ⟨0x81000, 0x1000, 4, 0x20, 65, [⟨63, 12, .rw, 0x0⟩, ⟨0, 0, .rw, 0x0⟩]⟩,
  ⟨0x81008, 0x1000, 4, 0x20, 65, [⟨13, 8, .rw, 0x0⟩, ⟨5, 0, .ro, 0x0⟩]⟩,
  ⟨0x81010, 0x1000, 4, 0x20, 65, [⟨63, 32, .rw, 0x0⟩]⟩]

/-- The `STD` block. -/
def stdRegs : List RegRow := [
  ⟨0x1000000, 0x10000, 64, 0x0, 1, [⟨63, 63, .ro, 0x0⟩, ⟨56, 48, .rwl, 0x0⟩, ⟨40, 32, .rwl, 0x0⟩]⟩,
  ⟨0x1000008, 0x10000, 64, 0x0, 1, [⟨39, 32, .ro, 0x0⟩, ⟨31, 16, .ro, 0x0⟩, ⟨2, 0, .ro, 0x0⟩]⟩,
  ⟨0x1000010, 0x10000, 64, 0x0, 1, [⟨63, 0, .ro, 0x0⟩]⟩,
  ⟨0x1000018, 0x10000, 64, 0x0, 1, [⟨63, 0, .ro, 0x0⟩]⟩,
  ⟨0x1000020, 0x10000, 64, 0x0, 1, [⟨63, 0, .rwl, 0x0⟩]⟩,
  ⟨0x1000028, 0x10000, 64, 0x0, 1, [⟨63, 0, .rwl, 0x0⟩]⟩,
  ⟨0x1000030, 0x10000, 64, 0x0, 1, [⟨47, 24, .ro, 0x0⟩, ⟨23, 0, .ro, 0x0⟩]⟩,
  ⟨0x1000900, 0x10000, 64, 0x0, 1, [⟨31, 0, .rc, 0x0⟩]⟩,
  ⟨0x1000A00, 0x10000, 64, 0x0, 1, [⟨63, 32, .ro, 0x0⟩, ⟨2, 1, .ro, 0x0⟩, ⟨0, 0, .wo, 0x0⟩]⟩,
  ⟨0x1000100, 0x10000, 64, 0x10, 48, [⟨63, 63, .rwl, 0x0⟩, ⟨62, 60, .rwl, 0x0⟩, ⟨15, 0, .rwl, 0x0⟩]⟩,
  ⟨0x1000108, 0x10000, 64, 0x10, 48, [⟨47, 24, .rwl, 0x0⟩, ⟨23, 0, .rwl, 0x0⟩]⟩,
  ⟨0x1000400, 0x10000, 64, 0x20, 8, [⟨63, 12, .rw, 0x0⟩]⟩,
  ⟨0x1000408, 0x10000, 64, 0x20, 8, [⟨63, 12, .rw, 0x0⟩]⟩,
  ⟨0x1000410, 0x10000, 64, 0x20, 8, [⟨63, 63, .rw, 0x0⟩, ⟨58, 56, .rw, 0x0⟩, ⟨49, 48, .rw, 0x0⟩]⟩,
  ⟨0x1000418, 0x10000, 64, 0x20, 8, [⟨59, 48, .rw, 0x0⟩, ⟨43, 32, .ro, 0x0⟩, ⟨27, 16, .ro, 0x0⟩, ⟨11, 0, .rw, 0x0⟩]⟩,
  ⟨0x1000500, 0x10000, 64, 0x0, 1, [⟨63, 63, .w1c, 0x0⟩, ⟨62, 60, .ro, 0x0⟩, ⟨59, 48, .ro, 0x0⟩]⟩,
  ⟨0x1000508, 0x10000, 64, 0x0, 1, [⟨31, 0, .rc, 0x0⟩]⟩,
  ⟨0x1000600, 0x10000, 64, 0x8, 8, [⟨63, 63, .rwl, 0x0⟩, ⟨47, 32, .rwl, 0x0⟩, ⟨31, 0, .rwl, 0x0⟩]⟩,
  ⟨0x1000700, 0x10000, 64, 0x0, 1, [⟨31, 0, .w1c, 0x0⟩]⟩,
  ⟨0x1000708, 0x10000, 64, 0x0, 1, [⟨31, 0, .rw, 0xFFFFFFFF⟩]⟩,
  ⟨0x1000710, 0x10000, 64, 0x0, 1, [⟨9, 8, .rw, 0x0⟩, ⟨0, 0, .rw, 0x0⟩]⟩,
  ⟨0x1000718, 0x10000, 64, 0x0, 1, [⟨63, 3, .rw, 0x0⟩]⟩,
  ⟨0x1000800, 0x10000, 64, 0x20, 8, [⟨63, 63, .w1c, 0x0⟩, ⟨62, 60, .ro, 0x0⟩, ⟨59, 56, .ro, 0x0⟩, ⟨55, 49, .ro, 0x0⟩, ⟨48, 43, .ro, 0x0⟩]⟩,
  ⟨0x1000808, 0x10000, 64, 0x20, 8, [⟨63, 0, .ro, 0x0⟩]⟩,
  ⟨0x1000810, 0x10000, 64, 0x20, 8, [⟨63, 0, .ro, 0x0⟩]⟩,
  ⟨0x1000818, 0x10000, 64, 0x20, 8, [⟨31, 0, .ro, 0x0⟩]⟩]

/-- Every register of the map. -/
def regRows : List RegRow :=
  idRegs ++ rootRegs ++ seedRegs ++ timeRegs ++ pwrRegs ++ nrgRegs ++ thmRegs ++ admRegs ++ rstRegs ++ dbgRegs ++ trcRegs ++ ntcRegs ++ wtcRegs ++ dtcRegs ++ ftlRegs ++ lnkRegs ++ rteRegs ++ forkRegs ++ hptRegs ++ stdRegs

/-- Whether an offset is one of a row's registers. -/
def RegRow.has (r : RegRow) (off : Nat) : Bool :=
  decide (r.base ≤ off) &&
    (let d := off - r.base
     let a := if r.stride = 0 then 0 else d / r.stride
     let b := if r.stride2 = 0 then 0 else (d - a * r.stride) / r.stride2
     decide (a < r.count) && decide (b < r.count2) && decide (d = a * r.stride + b * r.stride2))

/-- The fields of the register at an offset (none where no register lies there). -/
def regFields (off : Nat) : List RegField :=
  match regRows.find? (fun r => r.has off) with
  | some r => r.fields
  | none => []

/-- A register's value with one field replaced. -/
def setFld (v hi lo x : Nat) : Nat :=
  v - fld v hi lo * 2 ^ lo + x % 2 ^ (hi - lo + 1) * 2 ^ lo

/-- The value a register has after reset (0 where the map states none). -/
def regReset (off : Nat) : Nat :=
  (regFields off).foldl (fun v f => v + f.reset * 2 ^ f.lo) 0

end Sys2Proof.Machine
end

