-- ==== Sys2Proof/Machine/State.lean ====
section
/-! DEFINITION. The state of a Wairakan part as plain data, the reasons a step can stop, and the state after reset. -/

namespace Sys2Proof.Machine

/-- Why a step stops with a fault. -/
inductive Fault where
  /-- A leaf or branch command names a branch or leaf that the variant does not have (00 R7, R10). Safe: nothing goes on. -/
  | absentUnit
  deriving DecidableEq, Repr

/-- Why a step is refused. -/
inductive Refusal where
  /-- A command of this mnemonic has no meaning in the model. Safe: nothing goes on. -/
  | notModelled (mnemonic : String)
  /-- A leaf instruction whose fields no loaded image can hold: reserved codes and operand rules of 03 R120, R121. Raised by
  the leaf commands; safe: nothing goes on. -/
  | reservedLeafCode
  deriving DecidableEq, Repr

/-- Variant and stepping (00 R7, R9): compute dies and the ASCII code of the stepping. -/
structure PartId where
  dies : Nat
  stepping : Byte
  deriving DecidableEq, Repr
/-! ### Leaves (03 R81-R122) -/

/-- LEAF_STATUS.STATE (03 R122). -/
inductive LeafMode where
  | idle | waitPass | run | stall | switch | abort
  deriving DecidableEq, Repr

/-- The units of a leaf (03 R81). -/
inductive LeafUnit where
  | matrix | vector | reduction | streamOut | streamIn | packet
  deriving DecidableEq, Repr

/-- An active loop (03 R96): counter, first and last PC of the body, iteration index, trip count, EOSP port. -/
structure LoopFrame where
  counter : Nat
  start : Nat
  stop : Nat
  index : Nat
  trips : Nat
  eosp : Option Nat
  deriving DecidableEq, Repr

/-- A context of a leaf (03 R83) with its LEAF_CTX declarations (03 R122). loops lists the active counters, innermost first. -/
structure Ctx where
  valid : Bool
  cfg : Nat
  mw : Nat
  vw : Nat
  matrix : Bool
  pc : Nat
  regs : Tab Word
  preds : Tab Word
  loops : List LoopFrame
  flags : FFlags
  deriving DecidableEq, Repr

def Ctx.empty : Ctx := ⟨false, 0, 0, 0, false, 0, [], [], [], 0⟩

/-- A vector register: lanes and the poison reason it carries (03 R81, R111). -/
structure VecReg where
  lanes : Tab Word
  poison : Option Byte
  deriving DecidableEq, Repr

def VecReg.empty : VecReg := ⟨[], none⟩

/-- One element of an accumulator: in EXA mode A and its four bits (02 R64, R65); in canonical mode the fold's FP32 word is
the low 32 bits of a. -/
structure AccElem where
  a : BitVec 96
  nan : Bool
  pinf : Bool
  ninf : Bool
  ovf : Bool
  deriving DecidableEq, Repr

def AccElem.empty : AccElem := ⟨0, false, false, false, false⟩

/-- An accumulator (03 R81): mode (canonical or EXA), window, output masks, elements row * 32 + column, poison. -/
structure Acc where
  canonical : Bool
  wlsb : Int
  mMask : Word
  nMask : Word
  elems : Tab AccElem
  poison : Option Byte
  deriving DecidableEq, Repr

/-- The empty state of an accumulator (03 R85). -/
def Acc.empty : Acc := ⟨false, -32, 0, 0, [], none⟩

/-- A register whose pending write an instruction waits for (03 R92). -/
inductive RegRef where
  | g (r : BitVec 5)
  | p (r : BitVec 3)
  | v (r : BitVec 4)
  deriving DecidableEq, Repr

/-- What a unit's command does when the unit runs it (03 R92, R103-R115): registers are read at issue, leaf memory and
accumulators when it runs. Addresses are leaf-memory addresses of tiles or lines.
mma: accumulator, operand tiles and formats, INIT, window with its flags, masks of MS = 1; accout, accin: accumulator, tile, format;
vector, compare, scalar: a result already computed from registers, with its poison and flags; loadWord: LD; store: bytes of ST, THDR,
VST and VSTT, whether the tile header at a is marked poisoned, poison and flags; loadTile, loadFlat: VLDT, VLD; reduce: RED; rank: TOPK;
send, recv: streams; access: a packet access by its number, with ATOM's RD. -/
inductive UnitOp where
  | mma (ac : BitVec 2) (a b fa fb : Nat) (init : Bool) (wlsb : Int) (wfl : FFlags) (masks : Option (Word × Word))
  | accout (ac : BitVec 2) (a fo : Nat) (sat : Bool) (seq : Word)
  | accin (ac : BitVec 2) (a fi : Nat) (add : Bool)
  | vector (vd : BitVec 4) (lanes : Tab Word) (poison : Option Byte) (fl : FFlags)
  | compare (pd : BitVec 3) (lo hi : Word) (poison : Option Byte) (fl : FFlags)
  | scalar (rd : BitVec 5) (v : Word) (poison : Option Byte) (fl : FFlags)
  | loadWord (rd : BitVec 5) (a : Nat)
  | store (ws : List (Nat × List Byte)) (mark : Bool) (a : Nat) (poison : Option Byte) (fl : FFlags)
  | loadTile (vd : BitVec 4) (a fi q : Nat)
  | loadFlat (vd : BitVec 4) (a f : Nat)
  | reduce (vd : BitVec 4) (a fi fn : Nat)
  | rank (rd : BitVec 5) (a fi k n out : Nat) (tile : Bool)
  | send
  | recv
  | access (id : Nat) (rd : Option (BitVec 5))
  deriving DecidableEq, Repr

/-- A command a unit has not completed (03 R81, R92, R94): for stream commands the next line address, the beats left and,
for SEND, the port's departed-beat count at which it is complete, its AW gates and the tokens issued before it; what it does, the PC of
its instruction, and the former contents of leaf-memory bytes that others have written while it runs (03 R91). -/
structure UnitCmd where
  unit : LeafUnit
  port : Nat
  addr : Nat
  left : Nat
  upto : Nat
  gateM : Nat
  gateV : Nat
  toks : Nat
  op : UnitOp
  pc : Nat
  seen : List (Nat × Byte)
  deriving DecidableEq, Repr

/-- A beat on the slot plane with the key of the buffered source that sent it, to which its credit returns (04 R130). -/
structure Beat where
  src : Nat
  data : List Byte
  deriving DecidableEq, Repr

/-- A token word on the slot plane with the key of the buffered source that sent it (03 R100, 04 R130). -/
structure Tok where
  src : Nat
  word : Word
  deriving DecidableEq, Repr

/-- An input port (03 R99): beats and token words, oldest first. -/
structure InPort where
  beats : List Beat
  tokens : List Tok
  deriving DecidableEq, Repr

def InPort.empty : InPort := ⟨[], []⟩

/-- An output port (03 R99-R101): beats each with the number of tokens that go before it, tokens each with the number of
beats that go before it, and the counts issued and departed. -/
structure OutPort where
  beats : List (Nat × List Byte)
  tokens : List (Nat × Word)
  issuedBeats : Nat
  issuedTokens : Nat
  leftBeats : Nat
  leftTokens : Nat
  deriving DecidableEq, Repr

def OutPort.empty : OutPort := ⟨[], [], 0, 0, 0, 0⟩

/-- What holds the sequencer: nothing, a FENCE on some units, or an END (03 R84, R94). -/
inductive LeafBlock where
  | none
  | fence (units : BitVec 6)
  | ending
  deriving DecidableEq, Repr

/-- LEAF_FAULT (03 R122). -/
structure LeafFault where
  kind : Nat
  ctx : Nat
  pc : Nat
  laddr : Nat
  deriving DecidableEq, Repr

/-- A leaf (03 R81): everything but its 256 KiB of leaf memory, which is part of the memory of State. slabM and slabV are the
powered slabs' matrix columns and vector lanes, one bit per slab (03 R117). -/
structure Leaf where
  mode : LeafMode
  active : Nat
  ctxNext : Nat
  swReq : Bool
  slabM : Nat
  slabV : Nat
  ctxs : Tab Ctx
  code : Tab Dword
  vregs : Tab VecReg
  accs : Tab Acc
  queue : List UnitCmd
  issuedM : Nat
  doneM : Nat
  issuedV : Nat
  doneV : Nat
  inPorts : Tab InPort
  outPorts : Tab OutPort
  tags : Tab (BitVec 16)
  block : LeafBlock
  poison : Option Byte
  fault : Option LeafFault
  busy : Nat
  stall : Nat
  deriving DecidableEq, Repr

/-- A leaf with no configuration (03 R122 reset values). -/
def Leaf.empty : Leaf :=
  ⟨.idle, 0, 0, false, 0, 0, [], [], [], [], [], 0, 0, 0, 0, [], [], [], .none, none, none, 0, 0⟩
/-! ### Branches: slot plane, steering, sentinel, branch control, tile movers, check-value units -/

/-- What a link output or wire carries in one slot (04 R123). -/
structure Wire where
  beat : Option Beat
  tok : Option Tok
  deriving DecidableEq, Repr

def Wire.empty : Wire := ⟨none, none⟩

/-- A beat or a token in a queue where the two share it (04 R132). -/
inductive SlotItem where
  | beat (b : Beat)
  | tok (t : Tok)
  deriving DecidableEq, Repr

/-- One lane of a crossing FIFO (04 R133, R134): what has entered and is not yet readable, then what is readable, each oldest first. -/
structure Lane where
  flight : List SlotItem
  ready : List SlotItem
  deriving DecidableEq, Repr

def Lane.empty : Lane := ⟨[], []⟩

/-- The unit of data a steering unit is handling (04 R141, R142): which input it comes from, its beats left, the outputs it
goes to (none = discarded), the outputs that have sent the head beat, and the beats left to discard on the other input. -/
structure SteerUnit where
  fromB : Bool
  left : Nat
  out0 : Bool
  out1 : Bool
  sent0 : Bool
  sent1 : Bool
  dropLeft : Nat
  deriving DecidableEq, Repr

/-- A steering unit at run time (04 R138-R145): input queues, the beats of the unit that is arriving on A and on B, the unit in hand,
tokens waiting to leave on each output, and the subcause of the protocol fault that stopped it (0 = none) with the input that brought it
(0 A, 1 B, 2 T). -/
structure Steer where
  qa : List SlotItem
  qb : List SlotItem
  qt : List Tok
  arrA : Nat
  arrB : Nat
  cur : Option SteerUnit
  pend0 : List Word
  pend1 : List Word
  fault : Nat
  faultIn : Nat
  deriving DecidableEq, Repr

def Steer.empty : Steer := ⟨[], [], [], 0, 0, none, [], [], 0, 0⟩

/-- SLT_STALL_LOG with its SLT_STALL_TIME (04 R165). -/
structure StallLog where
  cause : Nat
  sub : Nat
  branch : Nat
  node : Nat
  dest : Nat
  portl : Nat
  slot : Nat
  set : Nat
  time : Nat
  deriving DecidableEq, Repr

/-- Credits of one buffered source (04 R130): beat and token credits in use, and those freed at the destination and not yet
back at the source. -/
structure Credit where
  usedB : Nat
  usedT : Nat
  freedB : Nat
  freedT : Nat
  deriving DecidableEq, Repr

def Credit.empty : Credit := ⟨0, 0, 0, 0⟩

/-- BRC_CTX n (05 R199) with the loaded image and relative branch it was loaded from, the last use of the context (05 R189), the SENT_LIMIT of
its configuration, and whether it has been activated since its load (04 R149, 05 R170). -/
structure BrcCtx where
  valid : Bool
  pinned : Bool
  cfg : Nat
  image : Nat
  load : Nat
  rel : Nat
  lastUse : Nat
  sentLimit : Nat
  used : Bool
  deriving DecidableEq, Repr

def BrcCtx.empty : BrcCtx := ⟨false, false, 0, 0, 0, 0, 0, 0, false⟩

/-- A seed-bank slot (05 R191): the loaded image and relative branch it was filled from, its CRC at fill, its last use. -/
structure SeedSlot where
  valid : Bool
  load : Nat
  cfg : Nat
  rel : Nat
  size : Nat
  crc : Nat
  lastUse : Nat
  deriving DecidableEq, Repr

def SeedSlot.empty : SeedSlot := ⟨false, 0, 0, 0, 0, 0, 0⟩

/-- A check-value profile (07 R261, R264, R266). -/
structure ChkProfile where
  poly : Dword
  init : Dword
  mode : BitVec 10
  deriving DecidableEq, Repr

/-- What one read of a mover gives (07 R254, R257): the source position, the bytes, the error (kind of TIL_FAULT, status, address; kind 0:
none) and the poison reason. -/
structure Got where
  pos : Nat
  bytes : List Byte
  kind : Nat
  status : Nat
  addr : Nat
  why : Byte
  deriving DecidableEq, Repr

/-- A descriptor in a tile mover's ring (07 R248, R250): a number of its own once it has started, its 32 bytes, the request it serves (as a
request number), its BASE (05 R176) with the address it adds and the byte limit of R253; whether it was fetched, started, has moved
everything, has completed, was abandoned or stops at its next boundary (R255), has sent its token; for a move in progress the profile it
started with, bytes held (from the slot plane, or the data of a raw move), the units done, whether the reads of the next unit were
issued, reads and writes without a response, what the reads gave, bytes of a raw move that have gone to the slot plane, and the count
of beats after which it is complete. -/
structure RingDesc where
  id : Nat
  bytes : List Byte
  req : Option Nat
  base : Nat
  addr : Nat
  limit : Nat
  fetched : Bool
  started : Bool
  moved : Bool
  done : Bool
  abandoned : Bool
  stopping : Bool
  tokSent : Bool
  prof : Option ChkProfile
  buf : List Byte
  pos : Nat
  asked : Bool
  waits : Nat
  acks : Nat
  got : List Got
  sent : Nat
  upto : Nat
  deriving DecidableEq, Repr

/-- The fault record of a tile mover (07 R265). -/
structure MoverFault where
  kind : Nat
  index : Nat
  piece : Nat
  stand : Nat
  addr : Nat
  deriving DecidableEq, Repr

/-- A tile mover (07 R247-R255, R265): its ring (oldest first), ring positions, slot-plane queues, counters. -/
structure Mover where
  ring : List RingDesc
  tail : Nat
  inBeats : List Beat
  inTokens : List Tok
  outBeats : List (List Byte)
  outTokens : List (Nat × Word)
  outIssued : Nat
  outLeft : Nat
  fault : Option MoverFault
  tiles : Nat
  bytes : Nat
  poison : Nat
  abandon : Nat
  deriving DecidableEq, Repr

def Mover.empty : Mover := ⟨[], 0, [], [], [], [], 0, 0, none, 0, 0, 0, 0⟩

/-- CHK_LOG with its companions (07 R266). -/
structure ChkLog where
  mover : Nat
  profile : Nat
  source : Nat
  index : Nat
  stand : Nat
  seq : Nat
  addr : Nat
  exp : Nat
  got : Nat
  time : Nat
  deriving DecidableEq, Repr

/-- A check-value unit (07 R260-R266). -/
structure ChkUnit where
  p0 : ChkProfile
  p1 : ChkProfile
  p2 : ChkProfile
  p3 : ChkProfile
  log : Option ChkLog
  compared : Nat
  mismatch : Nat
  unchecked : Nat
  deriving DecidableEq, Repr

/-- The preset profiles (07 R264). -/
def ChkUnit.reset : ChkUnit :=
  ⟨⟨0x1EDC6F41, 0xFFFFFFFF, 0x207⟩, ⟨0x42F0E1EBA9EA3693, 0, 0x300⟩, ⟨0x1EDC6F41, 0xFFFFFFFF, 0x21F⟩,
   ⟨0x42F0E1EBA9EA3693, 0, 0x318⟩, none, 0, 0, 0⟩

/-- A branch's sleep state (14 R475). -/
inductive Sleep where
  | awake | s1 | s2
  deriving DecidableEq, Repr

/-- A line of the branch cache (06 R202): its granule, way, bytes and the poison of its four sectors. -/
structure CacheLine where
  granule : Nat
  way : Nat
  bytes : List Byte
  why : List Byte
  deriving DecidableEq, Repr

/-- A branch: branch control (05 R199), slot plane (04 R165), movers, check-value units, power (14 R502). Of a handover: whether it has
reached the point at which nothing of the old set is on its links, and the sides whose neighbour has (04 R137). sentHold: something keeps
the sentinel's count (04 R149). linkCycle counts the island's cycles, outCycle the cycle (plus 1) in which each output of a router last sent
a flit (04 R159). inlets: what an inlet unit still has to send into an inlet lane (11 R394). cache: the lines of each set of the branch
cache, the least recently used last (06 R202). -/
structure Branch where
  assigned : Bool
  stand : Nat
  scratch : Nat
  loadErr : Bool
  loadSlot : Nat
  loadCtx : Nat
  hasInst : Bool
  instHome : Nat
  instRel : Nat
  ctxs : Tab BrcCtx
  loads : Nat
  seeds : Tab SeedSlot
  view : Nat
  active : Nat
  handover : Bool
  reached : Bool
  met : List Nat
  sentEn : Bool
  sentLimit : Nat
  sentIdle : Nat
  sentHold : Bool
  stallLog : Option StallLog
  stallTime : Nat
  stallCnt : Nat
  flushed : Nat
  xdrop : Nat
  beats : Nat
  pktFlits : Tab Nat
  vc0max : Nat
  linkCycle : Nat
  outCycle : Tab Nat
  slotCtr : Nat
  slots : Tab (BitVec 16)
  steerCfg : Tab Byte
  steers : Tab Steer
  wires : Tab Wire
  lanes : Tab Lane
  inlets : Tab (List SlotItem)
  credits : Tab Credit
  crossings : List Nat
  cache : Tab (List CacheLine)
  movers : Tab Mover
  chk0 : ChkUnit
  chk1 : ChkUnit
  sleep : Sleep
  level : Nat
  levelTarget : Nat
  idleSince : Nat
  frozen : Bool
  deriving DecidableEq, Repr

/-- A branch after reset (05 R199, 04 R165, 07 R264). -/
def Branch.empty : Branch :=
  { assigned := false, stand := 0, scratch := 0, loadErr := false, loadSlot := 0, loadCtx := 0,
    hasInst := false, instHome := 0, instRel := 0, ctxs := [], loads := 0, seeds := [], view := 0, active := 0, handover := false, reached := false, met := [],
    sentEn := true, sentLimit := 0x10000, sentIdle := 0, sentHold := false, stallLog := none, stallTime := 0, stallCnt := 0,
    flushed := 0, xdrop := 0, beats := 0, pktFlits := [], vc0max := 0, linkCycle := 0, outCycle := [], slotCtr := 0, slots := [],
    steerCfg := [], steers := [], wires := [], lanes := [], inlets := [], credits := [], crossings := [], cache := [], movers := [],
    chk0 := ChkUnit.reset, chk1 := ChkUnit.reset, sleep := .awake, level := 0, levelTarget := 0, idleSince := 0, frozen := false }

/-- A poison event for a request (07 R259): ring time, branch, leaf (0) or mover (1), index, reason, and the request it
belongs to (none: every request of the branch's pass), and the canopy address of a mover's or tier's access. -/
structure PoisonEvent where
  time : Nat
  branch : Nat
  mover : Nat
  index : Nat
  reason : Byte
  req : Option Nat
  addr : Nat
  deriving DecidableEq, Repr
/-- An end of a packet-plane transfer (04 R154-R156): an endpoint at a leaf's router (port 4 endpoint, 5 tile mover, 6
branch-memory port), a near-tier stack, or a bark die. -/
inductive Place where
  | router (leaf port : Nat)
  | stack (n : Nat)
  | bark (d : Nat)
  deriving DecidableEq, Repr

/-- A packet at one router (04 R156-R159, R163): the router, the output it leaves by (0-3 the sides, 4 endpoint, 5 tile mover, 6 branch-memory
port), the input it comes by, its place in the order of arrivals, the flits that have left, whether it holds the output, and the link cycle
in which its head flit came. -/
structure Hop where
  router : Nat
  out : Nat
  inp : Nat
  ord : Nat
  sent : Nat
  holds : Bool
  since : Nat
  deriving DecidableEq, Repr

/-- A packet on the packet plane (04 R157-R161): its virtual channel, ends, whether it is a response, flits, the routers of its way, and the
access it belongs to. -/
structure Packet where
  id : Nat
  vc : Nat
  src : Place
  dst : Place
  isResp : Bool
  flits : Nat
  hops : List Hop
  acc : Nat
  deriving DecidableEq, Repr
/-! ### Outputs -/

/-- What the part sends out, with the ring time it leaves (10 R338, R355, 11 R395, 12 R410, 13 R454, 15, 16). -/
inductive Output where
  /-- A write to host memory behind a host port: completion records, request outputs, admin responses in PCIe mode. -/
  | hostWrite (time port addr : Nat) (data : List Byte)
  /-- MSI-X message v of function fn of a host port (fn 0 = the physical function). -/
  | msix (time port fn vec : Nat)
  /-- An Urren SIGNAL on a host port. -/
  | signal (time port addr : Nat)
  /-- An outlet frame: a WRITE on VC0. -/
  | outlet (time port addr : Nat) (data : List Byte)
  /-- The response of an admin message, to the route it came by. -/
  | admin (time : Nat) (dest : Source) (data : List Byte)
  /-- A 256-byte flit on a link (12 R405). -/
  | flit (time port : Nat) (bytes : List Byte)
  /-- The answer to an SMBus transaction. -/
  | smbus (time : Nat) (data : List Byte)
  /-- A not-acknowledged SMBus command. -/
  | smbusNack (time : Nat)
  /-- A pulse on TIME_PPS_OUT. -/
  | pps (time : Nat)
  /-- The completion of a PCIe read: status 0 with data, 1 Unsupported Request, 2 Configuration Request Retry Status (13 R442, 15 R515). -/
  | completion (time port tag status : Nat) (data : List Byte)
  /-- Bytes on the trace port. -/
  | trace (time : Nat) (data : List Byte)
  /-- Bits shifted out on TDO by a scan of the selected register. -/
  | tdo (time bits value : Nat)
  deriving DecidableEq, Repr

/-! ### Stands: requests, plans, images, grafts, sequences -/

/-- Where a request stands: fetched and undecided, accepted and not dispatched, dispatched. -/
inductive Phase where
  | undecided | waiting | running
  deriving DecidableEq, Repr

/-- A request (10 R336, R342-R352, 11 R375): the descriptor as fetched, or built from an inlet frame, and what admission and the
run have fixed. ring 8 = an inlet frame. fault is the charged STATUS (0 none). wrote lists the output bytes written so far (space, offset, length). -/
structure Request where
  id : Nat
  stand : Nat
  ring : Nat
  inlet : Nat
  contract : Nat
  desc : List Byte
  payload : List Byte
  arrival : Nat
  deadline : Nat
  phase : Phase
  load : Nat
  entry : Nat
  inst : Nat
  bucket : Nat
  ready : Nat
  slot : Nat
  debit : Nat
  uj : Nat
  inAddr : Nat
  outAddr : Nat
  fault : Nat
  faultAddr : Nat
  poison : Nat
  cflags : Nat
  graft : Option (Nat × Nat)
  start : Nat
  sent : Bool
  wrote : List (Nat × Nat × Nat)
  deriving DecidableEq, Repr

/-- A planned or dispatched pass (10 R344): its instance (a KV_SHIP's pass has none), class, bucket, members, start, bound, end,
whether and when it was dispatched, which configuration of
CFG_SEQ it runs and whether its leaves have been started, the compiled energy of its members, and the energy charged to it in nJ (14 R488). -/
structure Pass where
  id : Nat
  stand : Nat
  inst : Option Nat
  cls : Nat
  bucket : Nat
  members : List Nat
  start : Nat
  bound : Nat
  fin : Nat
  unknownEnd : Bool
  dispatched : Bool
  dispatchTime : Nat
  stage : Nat
  started : Bool
  compiled : Nat
  energy : Nat
  deriving DecidableEq, Repr

/-- An Express binding of a MODEL_LOAD (13 R458). -/
structure Bind where
  kind : Nat
  decl : Nat
  contract : Nat
  ring : Nat
  port : Nat
  target : Nat
  inlet : Nat
  deriving DecidableEq, Repr

/-- Where a MODEL_LOAD stands: waiting for its manifest, loading, ended with DONE, evicting. -/
inductive LoadPhase where
  | manifest | loading | ready | evicting
  deriving DecidableEq, Repr

/-- A loaded or loading image (05 R187, 08 R277, 13 R458): reserved while its CFG_IDs are taken, failure the status of its first recorded
failure (0 none, 08 R281), rxImage and rxManifest what has come on a receiver's TREE[0]. -/
structure Load where
  id : Nat
  stand : Nat
  msg : Nat
  cfgBase : Nat
  count : Nat
  reserved : Bool
  image : List Byte
  manifest : List Byte
  role : Nat
  warmOnly : Bool
  member : Nat
  trees : List Nat
  replicas : List Nat
  volume : Nat
  block : Nat
  instances : Nat
  deadline : Nat
  phase : LoadPhase
  bound : Bool
  preloaded : Bool
  admitTime : Nat
  residentTime : Nat
  failure : Nat
  binds : List Bind
  inletNums : List Nat
  sentShards : Nat
  evictMsg : Option Nat
  rxImage : List Byte
  rxManifest : List Byte
  deriving DecidableEq, Repr

/-- A placed instance (05 R172): its image, entry and branches in relative order. -/
structure Inst where
  id : Nat
  load : Nat
  entry : Nat
  branches : List Nat
  deriving DecidableEq, Repr

/-- The verification state of a shard or graft copy (08 R273, R275). -/
inductive CopyState where
  | unverified | verified | quarantined
  deriving DecidableEq, Repr

/-- A warm copy of a shard (08 R278), by manifest and shard index, with its size and expected digest. -/
structure WarmCopy where
  id : Nat
  manifest : Nat
  digest : List Byte
  shard : Nat
  size : Nat
  expect : List Byte
  state : CopyState
  tries : Nat
  lastUse : Nat
  place : List (Nat × Nat)
  deriving DecidableEq, Repr

/-- A pool object (06 R231-R234, 08 R279): its frames' owner stand, size in bytes, content, and whether it is valid, spilled, or
dropped, its expected digest (none for a KV page); spillAt is a spilled page's place in its stand's KV range. kind 0 shard, 1
graft version, 2 KV page, 3 canopy image (manifest is then the load's number). -/
structure PoolObj where
  id : Nat
  stand : Nat
  kind : Nat
  manifest : Nat
  index : Nat
  size : Nat
  frames : List (Nat × Nat)
  state : CopyState
  spilled : Bool
  spillAt : Nat
  expect : List Byte
  tries : Nat
  lastUse : Nat
  deriving DecidableEq, Repr

/-- A fill or context load that branch control still has to run (05 R188, R192): the instance, the configuration, whether the
seed-bank slot must be filled first, and the ring time its bound ends. -/
structure CfgLoad where
  branch : Nat
  load : Nat
  cfg : Nat
  rel : Nat
  ctx : Nat
  fill : Bool
  pin : Bool
  begun : Bool
  fin : Nat
  deriving DecidableEq, Repr

/-- A near copy job (08 R282, R283): stage ready times, fixed when it starts. -/
structure CopyJob where
  stand : Nat
  load : Nat
  manifest : Nat
  queued : Nat
  started : Option Nat
  shards : List Nat
  ready : List Nat
  deriving DecidableEq, Repr

/-- A queued fetch of a graft version or a spilled page into the near tier (08 R293, 11 R372). -/
structure Fetch where
  obj : Nat
  fin : Nat
  deriving DecidableEq, Repr

/-- The states of a graft version (08 R290). -/
inductive GraftState where
  | staging | ready | current | old
  deriving DecidableEq, Repr

/-- A graft version (08 R287-R291). msg is the GRAFT_PUT that waits for it, num names its warm image, source is SRC_KIND, VOLUME and SRC of the
message; whether the image has been read, the reads on another part without a response, and the state of the image with the re-fetch
sources tried (08 R273, R275). -/
structure Graft where
  stand : Nat
  id : Nat
  version : Nat
  manifest : Nat
  size : Nat
  digest : List Byte
  commit : Nat
  place : List (Nat × Nat)
  state : GraftState
  msg : Option Nat
  num : Nat
  source : List Byte
  taken : Bool
  waits : Nat
  copy : CopyState
  tries : Nat
  deriving DecidableEq, Repr

/-- The states of a sequence record (11 R364). -/
inductive SeqState where
  | ready | arriving | shipping | lost
  deriving DecidableEq, Repr

/-- A sequence record (11 R364): geometry is the 20-byte geometry of its serving block. -/
structure Seq where
  stand : Nat
  id : Nat
  geometry : List Byte
  length : Nat
  spec : Nat
  pages : List Nat
  state : SeqState
  exportable : Bool
  releasing : Option Nat
  deriving DecidableEq, Repr

/-- An inlet with its bindings (11 R392, 13 R458). -/
structure Inlet where
  num : Nat
  stand : Nat
  inst : Nat
  decl : Nat
  contract : Nat
  port : Nat
  target : Nat
  deriving DecidableEq, Repr

/-- A binding of an Express contract to a ring (10 R348). -/
structure RingBind where
  stand : Nat
  ring : Nat
  contract : Nat
  load : Nat
  deriving DecidableEq, Repr

/-- An Express contract's credits (10 R349), in credits × 10^9 so that RATE per second counts exactly by the ns. -/
structure Credits where
  level : Nat
  time : Nat
  deriving DecidableEq, Repr

/-- What the seed image and bring-up give a stand beyond its registers (10 R327, 13 R449). -/
structure StandRes where
  poolReserve : Nat
  seqQuota : Nat
  warmFirst : Nat
  warmCount : Nat
  kvFirst : Nat
  kvCount : Nat
  lastRing : Nat
  resetStep : Nat
  flrReset : Bool
  reload : Bool
  admitted : Nat
  refused : Nat
  revoked : Nat
  deriving DecidableEq, Repr

/-- A stand with nothing given. -/
def StandRes.empty : StandRes := ⟨0, 0, 0, 0, 0, 0, 0, 0, false, false, 0, 0, 0⟩

/-- The route of an admin message (13 R454): an admin ring's slot, an ADMIN transaction of another part or on a host port, SMBus, or
its row's own command, whose response leaves as an output. -/
inductive AdminRoute where
  | ring (port fn slot : Nat)
  | part (pid tag : Nat)
  | host (port tag : Nat)
  | smbus
  | row
  deriving DecidableEq, Repr

/-- An admin message in progress (13 R454-R457): its sender, stand, type, tag, route and bytes. -/
structure Admin where
  id : Nat
  src : Source
  stand : Nat
  type : Nat
  tag : Nat
  route : AdminRoute
  bytes : List Byte
  deriving DecidableEq, Repr

/-- A fork step in progress (09 R301-R311): its pass, configuration and step, the doorbell's count and FINAL it has taken, the peer
table it started with, the batch slots that held a request then, the records dispatched at rank 0, whether every choice is decided, transfers not yet acknowledged by target
key, the target keys released, and the (token, rank) pairs returned, each with its poison reason, or failed. -/
structure ForkRun where
  id : Nat
  pass : Nat
  inst : Nat
  cfg : Nat
  step : Nat
  count : Nat
  final : Bool
  peers : List Nat
  slots : List Nat
  rank0 : Nat
  decided : Bool
  waits : List Nat
  released : List Nat
  returned : List (Nat × Nat × Nat)
  failed : List (Nat × Nat)
  joined : Bool
  deriving DecidableEq, Repr

/-- A row on its way within the part: kind 0 to entry `entry` of trigger trig at a group step, kind 2 back to its source; its 8 origin
bytes (09 R311), its bytes and its poison reason (0 none). -/
structure ForkRow where
  kind : Nat
  inst : Nat
  gstep : Nat
  trig : Nat
  entry : Nat
  origin : List Byte
  bytes : List Byte
  poison : Byte
  deriving DecidableEq, Repr

/-- A group step of a pass (09 R313-R316): triggers completed, whether one runs, the entry it has reached, whether that entry's run
has started, the returns not yet acknowledged. -/
structure GroupRun where
  pass : Nat
  inst : Nat
  cfg : Nat
  gstep : Nat
  done : Nat
  active : Bool
  entry : Nat
  running : Bool
  returning : Bool
  waits : Nat
  deriving DecidableEq, Repr

/-- Everything of the stands' serving that no register holds. -/
structure Serving where
  stands : Tab StandRes
  requests : List Request
  passes : List Pass
  loads : List Load
  insts : List Inst
  warm : List WarmCopy
  objs : List PoolObj
  cfgLoads : List CfgLoad
  jobs : List CopyJob
  fetches : List Fetch
  grafts : List Graft
  seqs : List Seq
  inlets : List Inlet
  ringBinds : List RingBind
  credits : Tab Credits
  admins : List Admin
  nextId : Nat
  upStacks : List Nat
  imageKeys : List (List Byte)
  forks : List ForkRun
  groups : List GroupRun
  rows : List ForkRow
  deriving DecidableEq, Repr

/-- Nothing loaded, nothing running. -/
def Serving.empty : Serving := ⟨[], [], [], [], [], [], [], [], [], [], [], [], [], [], [], [], 1, [], [], [], [], []⟩
/-! ### Memory tiers -/

/-- What an access serves: a leaf's GET, PUT or ATOM with its leaf-memory address or destination register; a piece of a mover's descriptor
(branch, mover, ring index, piece); a transaction of another part on a port; a piece of a host port's access. -/
inductive AccFor where
  | leaf (l ladr rd : Nat)
  | mover (b m idx piece : Nat)
  | tx (port : Nat) (t : Tx)
  | host (id idx : Nat)
  deriving DecidableEq, Repr

/-- An access on its way (03 R115, 04 R154-R161, 06 R205, R235, R236): what it serves, the end it comes from, kind 0 read, 1 write,
2 atomic with its function and operands; the part, space and offset, the stand address, the data it carries or brings; whether it passes the
branch cache by, and whether the cache serves it (06 R202); class, deadline and virtual channel, the packets it was split into, those
still to arrive and to return; the ring time it entered its controller's queue and its requester index there; the status of its error
response (0 none) and the poison of its data. -/
structure Access where
  id : Nat
  serves : AccFor
  src : Place
  kind : Nat
  fn : Nat
  rb : Word
  rc : Word
  pid : Nat
  space : Nat
  off : Nat
  addr : Nat
  data : List Byte
  len : Nat
  bypass : Bool
  hit : Bool
  cls : Nat
  deadline : Nat
  vc : Nat
  packets : Nat
  toArrive : Nat
  toReturn : Nat
  entered : Option Nat
  inIdx : Nat
  err : Nat
  poison : Byte
  deriving DecidableEq, Repr

/-- A superblock of the FTL (06 R221, R227): its chip enable, the channels of the stripe set when it was written, positions whose block is retired,
erase count, each block's reads since the last erase by channel, and the logical block of each programmed data page (none = padding or stale). -/
structure SuperBlock where
  id : Nat
  ce : Nat
  chans : List Nat
  bad : List Nat
  pe : Nat
  reads : Tab Nat
  pages : List (Option Nat)
  deriving DecidableEq, Repr

/-- The flash translation layer beyond its registers (06 R221-R228): the stripe set, pages per block, good data pages, superblocks,
the map from logical block to superblock and page, the superblock being written and the ring time of its open stripe's first page,
superblocks with pages on a lost channel, the chip enables that are out (channel, chip enable), journal bytes since the last checkpoint, whether rewriting runs, and the superblocks it began with. -/
structure Ftl where
  channels : List Nat
  pagesPerBlock : Nat
  goodPages : Nat
  blocks : List SuperBlock
  map : Tab (Option (Nat × Nat))
  openBlk : Option Nat
  openSince : Option Nat
  lostPos : List (Nat × Nat)
  offCe : List (Nat × Nat)
  journal : Nat
  rebuilding : Bool
  rebuildOf : Nat
  deriving DecidableEq, Repr

/-- No device trained. -/
def Ftl.empty : Ftl := ⟨[], 0, 0, [], [], none, none, [], [], 0, false, 0⟩

/-- The tiers beyond their registers: the poison map by 64-byte sector key, corrected-symbol counts of the patrol period by lane
or device, the warm stripe set with P and L, the local regions as bring-up found them (channel, first DIMM byte, 2 MiB units: 13 R449), queued
accesses, and the FTL. -/
structure Tiers where
  poison : Tab Byte
  laneCount : Tab Nat
  devCount : Tab Nat
  warmScrub : Tab Nat
  warmCap : Tab Nat
  stripe : List Nat
  pGib : Nat
  lGib : Nat
  units : List (Nat × Nat × Nat)
  ftlRanges : List (Nat × Nat)
  digestNearH : Nat
  digestWarmD : Nat
  accesses : List Access
  ftl : Ftl
  deriving DecidableEq, Repr

/-- No tier trained. -/
def Tiers.empty : Tiers := ⟨[], [], [], [], [], [], 0, 0, [], [], 0, 0, [], Ftl.empty⟩
/-! ### Energy and power -/

/-- A lowering of the cap in progress (14 R495): its time, C_line then, the new cap, and whether it is urgent. -/
structure Lowering where
  t0 : Nat
  old : Nat
  new : Nat
  urgent : Bool
  deriving DecidableEq, Repr

/-- Where the module stands: unpowered (14 R466, R499), running or in bring-up, held after an orderly stop (R500), in S3 (R477). -/
inductive Supply where
  | off | on | stopped | standby
  deriving DecidableEq, Repr

/-- Energy and power beyond the registers (14 R481-R499, 15 R505-R521): the ledger's fraction in nJ; fractions of the buckets in 1/128000 µJ
(key 64 + s: of NRG_CHARGED, in nJ); overhead of the present ms in nJ, its begin, and the averages of the last second; completed
passes for COEF; the host cap; sag; the lowering that C_line follows; averages above 5 % in a row; the floors of the cap, coolant
and junction rules; the last cap step, whether the P_com trigger of 14 R497 has been answered; the last release, the last heartbeat; ballast by branch in mW and the fall of each stand's
load; where the module stands; the trigger of RST_CAUSE to come (level, TRIGGER) and the time of the bring-up table's origin while it
runs; the cause of a stop; RESET_N low; the reversal latch; a standby brown-out; PWROK; ROOTCLK lost; the sampled straps. -/
structure Power where
  ledgerNj : Nat
  bucketFrac : Tab Nat
  overAcc : Nat
  overAt : Nat
  overAvgs : List (Nat × Nat)
  passesDone : List (Nat × Nat × Nat)
  hostCap : Option Nat
  sag : Bool
  lowering : Option Lowering
  overStreak : Nat
  floorCap : Nat
  floorCool : Nat
  floorHot : Nat
  floorStep : Option Nat
  floorSeen : Bool
  lastRelease : Nat
  lastBeat : Nat
  ballastW : Tab Nat
  ballastFall : Tab Nat
  supply : Supply
  trigger : Nat × Nat
  origin : Option Nat
  stopCause : Nat
  resetLow : Bool
  reversal : Bool
  brownout : Bool
  pwrok : Bool
  rootLost : Bool
  strap : Nat
  deriving DecidableEq, Repr

/-- Power right after a cold reset: the rails are good and the bring-up table is about to begin (15 R509-R511). -/
def Power.empty : Power :=
  ⟨0, [], 0, 0, [], [], none, false, none, 0, 0, 0, 0, none, false, 0, 0, [], [], .on, (1, 1), some 0, 0, false, false, false, true, false, 0⟩
/-! ### Management -/

/-- The SMBus target's buffers (13 R462): offset, admin buffer, response, state 0 idle, 1 running, 2 response ready, 3 overflow; whether ALERT_N is asserted, the causes
that hold (bits 0-63 the stands, then R566's others), when the Alert Response Address was last answered (18 R566), and the seed image that
bring-up has read (13 R445). -/
structure Mgmt where
  offset : Nat
  buf : List Byte
  resp : List Byte
  respPos : Nat
  state : Nat
  alerting : Bool
  alertCauses : Nat
  alertAnswered : Option Nat
  seed : List Byte
  deriving DecidableEq, Repr

/-- An idle SMBus target. -/
def Mgmt.empty : Mgmt := ⟨0, [], [], 0, 0, false, 0, none, []⟩
/-! ### Debug and trace -/

/-- Freeze, trace and JTAG beyond the registers (16 R529-R549): the trace buffer (oldest record first), records lost since the
last LOST record, the next dump piece (branch, region, offset), the fault log (the last 256 records, oldest first, and how many there have been), whether this
part drives FREEZE_N, what waits for THAW (sentinel resets by instance, transactions with their port, those of a tree to deliver
locally among them, admin messages, stand resets with their cause), input power at the freeze trigger in mW, the JTAG
instruction, scan selection and boundary-scan register, and the thawing that waits for Update-DR. -/
structure Debug where
  recs : List (List Byte)
  lost : Nat
  dump : Option (Nat × Nat × Nat)
  faults : List (List Byte)
  faultCount : Nat
  drive : Bool
  sentinels : List Nat
  heldTx : List (Nat × Tx)
  heldAdmin : List (Source × AdminRoute × List Byte)
  heldReset : List (Nat × Nat)
  frzMw : Nat
  ir : Nat
  scan : Nat
  boundary : Nat
  shorted : List Nat
  deriving DecidableEq, Repr

/-- Nothing traced, nothing frozen; IDCODE is the instruction after Test-Logic-Reset (16 R537). -/
def Debug.empty : Debug := ⟨[], 0, none, [], 0, false, [], [], [], [], 0, 2, 0, 0, []⟩
/-! ### Urren -/

/-- A transaction in a port's output queue and the flits of it already sent (12 R410). -/
structure QTx where
  tx : Tx
  sent : Nat
  deriving DecidableEq, Repr

/-- A flit kept for replay: sequence number, virtual channel, payload, and whether it ends its transaction (12 R406). -/
structure RFlit where
  seq : Nat
  vc : Nat
  payload : List Byte
  last : Bool
  src : Nat
  tag : Nat
  deriving DecidableEq, Repr

/-- A link beyond its registers (12 R402-R409, R424, R425): output queue, replay buffer (oldest first) and how many of its last
flits wait to be resent, sequence numbers, credits in use and to return, NAK state, the flit slot counter, partly received transactions, failed attempts,
corrected symbols of the window, lanes that failed a test, the epoch at which it rejoins the route sets (12 R426) and the
LINK_RESTORE that waits for its training, the map-out that is due (0 none, else the event's KIND), whether it waits for LINK_RESTORE
after an identity mismatch (12 R404), and the data slots each stand has used in the present microsecond (12 R409). -/
structure Link where
  txq : List QTx
  replay : List RFlit
  resend : Nat
  txSeq : Nat
  rxSeq : Nat
  used : Tab Nat
  ret : Tab Nat
  nakDue : Bool
  nakSent : Bool
  nakOf : Option Nat
  nakSeq : Nat
  nakCount : Nat
  slot : Nat
  rxbuf : Tab (List Byte)
  attempts : List Nat
  window : Nat
  laneBad : Nat
  rejoin : Option Nat
  restore : Option (Nat × Nat)
  cause : Nat
  held : Bool
  winStart : Nat
  winUsed : Tab Nat
  deriving DecidableEq, Repr

def Link.empty : Link := ⟨[], [], 0, 0, 0, [], [], false, false, none, 0, 0, 0, [], [], 0, 0, none, none, 0, false, 0, []⟩

/-- What a non-posted transaction serves: an access, a KV_SHIP, the read of a graft version's image (by its number and position), a fork message of a fork step, a return of a group step, the last page of a KV fetch served, a piece of a host port's access, a fork message that this part forwards as a gateway. -/
inductive Purpose where
  | access (id : Nat)
  | ship (req : Nat)
  | graft (num pos : Nat)
  | fork (run target : Nat)
  | forkReturn (inst gstep : Nat)
  | kvLast (tag dst : Nat)
  | host (id idx : Nat)
  | relay (port : Nat) (tx : Tx)
  | none
  deriving DecidableEq, Repr

/-- An outstanding non-posted transaction (12 R412). -/
structure Outst where
  tag : Nat
  dst : Nat
  since : Nat
  purpose : Purpose
  addr : Nat
  deriving DecidableEq, Repr

/-- A (DST_PID, VC) flow (12 R421): the port it leaves on, the time the last of its transactions left, and those that wait for a
new port. -/
structure Flow where
  dst : Nat
  vc : Nat
  port : Nat
  last : Nat
  waiting : List Tx
  deriving DecidableEq, Repr

/-- A KV_FETCH being served (11 R382): its tag and part, its class's VC, the source record, whether it is released afterwards. -/
structure KvServe where
  tag : Nat
  dst : Nat
  vc : Nat
  stand : Nat
  seq : Nat
  release : Bool
  deriving DecidableEq, Repr

/-- A host port's access some pieces of which lie on another part (12 R416, 13 R442): the request it answers, whether the port is in
PCIe mode, its pieces by address, those without a response, and the first error. -/
structure HostWait where
  id : Nat
  port : Nat
  tx : Tx
  pcie : Bool
  parts : List (Nat × List Byte)
  left : Nat
  bad : Nat
  why : Nat
  deriving DecidableEq, Repr

/-- A BER_TEST in progress (12 R424): its message, ports, start and end, and what ended ports reported. -/
structure BerJob where
  msg : Nat
  ports : Nat
  start : Nat
  fin : Nat
  running : Bool
  done : Nat
  deriving DecidableEq, Repr

/-- A ROUTE_UPDATE or PART_JOIN that waits for the epoch (13 R460), or a ROUTE_UPDATE that waits for the shadow copy. -/
structure RouteWait where
  msg : Nat
  copying : Bool
  deriving DecidableEq, Repr

/-- Ring time beyond the registers (12 R430-R433): the last 16 delays (1/16 ns), offset still to slew (1/16 ns, parent minus
child), the parent, when holdover began, whether the part has ever locked, the request on its way (port, tag, T1 as sent), the ring
time of the last TIME_PPS_IN edge plus 1 (0 none) and the time up to which slewing has been counted. -/
structure Clock where
  delays : List Nat
  slew : Int
  parent : Option Nat
  holdSince : Option Nat
  everLocked : Bool
  t1 : Option (Nat × Nat)
  ppsLast : Nat
  slewTime : Nat
  deriving DecidableEq, Repr

/-- The Urren layer beyond its registers (12): the two routing banks (PID's low and high word at keys 2p and 2p + 1) and tree
entries, links, outstanding transactions, flows, what waits, the KV fetches served and the host accesses under way. -/
structure Urren where
  active : Tab Nat
  shadow : Tab Nat
  mcActive : Tab Nat
  mcShadow : Tab Nat
  links : Tab Link
  outst : List Outst
  flows : List Flow
  bers : List BerJob
  routeWaits : List RouteWait
  nextTag : Nat
  draining : List Nat
  kvServes : List KvServe
  hostWaits : List HostWait
  clock : Clock
  deriving DecidableEq, Repr

def Urren.empty : Urren := ⟨[], [], [], [], [], [], [], [], [], 0, [], [], [], ⟨[], 0, none, none, false, none, 0, 0⟩⟩
/-! ### The part -/

/-- Everything the part holds: its variant, ring time, the free-choice counter, memory and its bytes by space, leaves, branches, the
registers of the map that differ from reset, requests and serving, tiers, power, management, debug, the Urren layer, the telemetry
counts of the running interval and the latched page by its bytes (16 R525), what has left the part, poison events (07 R259), packets
(04 R156), and the queue of waiting commands. -/
structure State where
  part : PartId
  now : Time
  free : Nat
  mem : List Host.Cell
  leaves : Tab Leaf
  branches : Tab Branch
  csr : Tab (Option Nat)
  sv : Serving
  tiers : Tiers
  pw : Power
  mg : Mgmt
  db : Debug
  ur : Urren
  cnt : Tab Nat
  page : Tab Nat
  out : List Output
  poisonLog : List PoisonEvent
  packets : List Packet
  nextPacket : Nat
  pending : List Instr
  deriving DecidableEq, Repr

/-- The part right after a cold reset: NMW8-A of stepping A with its rails good, ring time 0, bring-up about to begin (15 R507, R511;
log entries 1 and 3). -/
def State.reset : State := ⟨⟨8, 0x41⟩, 0, 0, [], [], [], [], Serving.empty, Tiers.empty, Power.empty, Mgmt.empty, Debug.empty, Urren.empty, [], [], [], [], [], 0, []⟩

end Sys2Proof.Machine
end

