-- ==== Sys2Proof/Machine/Ops.lean ====
section
/-! DEFINITION. Shared operations: ring time, the numbering of branches and leaves, memory, and one accessor per store. -/

namespace Sys2Proof.Machine

/-- Ring time, a 64-bit count, advances to the time of an event and never goes back (00 R15, 12 R432). -/
def State.at (s : State) (t : Nat) : State := { s with now := Nat.max s.now (t % 2 ^ 64) }

/-- One more free choice has been taken. -/
def State.tick (s : State) : State := { s with free := s.free + 1 }

/-- Branches of the variant (00 R7). -/
def State.nBranches (s : State) : Nat := 16 * s.part.dies
/-- Leaves of the variant (00 R7). -/
def State.nLeaves (s : State) : Nat := 64 * s.nBranches
/-- Near-tier stacks of the variant (00 R7). -/
def State.nStacks (s : State) : Nat := 2 * s.part.dies
/-- Die columns of the die grid (01 R21). -/
def State.dieCols (s : State) : Nat := if s.part.dies = 8 then 4 else 2
/-- Die rows of the die grid (01 R21). -/
def State.dieRows (s : State) : Nat := if s.part.dies = 2 then 1 else 2
/-- Width of the branch plane. -/
def State.planeX (s : State) : Nat := 4 * s.dieCols
/-- Height of the branch plane. -/
def State.planeY (s : State) : Nat := 4 * s.dieRows
/-- Plane coordinates of a branch (01 R21). -/
def State.branchXY (s : State) (b : Nat) : Nat × Nat :=
  ((b / 16 % s.dieCols) * 4 + b % 16 % 4, (b / 16 / s.dieCols) * 4 + b % 16 / 4)
/-- The branch at plane coordinates, if the plane holds them (01 R21). -/
def State.branchAt (s : State) (x y : Nat) : Option Nat :=
  if x < s.planeX ∧ y < s.planeY then
    some ((y / 4 * s.dieCols + x / 4) * 16 + (y % 4) * 4 + x % 4)
  else none

/-- The neighbour of a branch on side 0 N, 1 E, 2 S, 3 W (01 R21). -/
def State.branchNeighbour (s : State) (b side : Nat) : Option Nat :=
  let p := s.branchXY b
  if side = 0 then (if p.2 = 0 then none else s.branchAt p.1 (p.2 - 1))
  else if side = 1 then s.branchAt (p.1 + 1) p.2
  else if side = 2 then s.branchAt p.1 (p.2 + 1)
  else (if p.1 = 0 then none else s.branchAt (p.1 - 1) p.2)

/-- The key of a byte of a canopy address's SPACE and OFFSET (01 R26). -/
def memKey (space off : Nat) : Nat := space * 2 ^ 45 + off

/-- Memory is in canonical form: keys rise strictly, and no entry is 0, which an unlisted byte reads as. -/
def Memory.wf (m : List Host.Cell) : Bool := tabWf 0 0 m
/-- The byte of memory at a key; an unlisted byte reads 0 (log entry 1). -/
def State.memByte (s : State) (k : Nat) : Byte := tget 0 s.mem k
/-- Write one byte of memory. -/
def State.memSet (s : State) (k : Nat) (v : Byte) : State := { s with mem := tset 0 s.mem k v }
/-- n bytes of memory from a key. -/
def State.memRead (s : State) (k n : Nat) : List Byte := tgetAll 0 s.mem k n
/-- Write bytes of memory from a key. -/
def State.memWrite (s : State) (k : Nat) (bs : List Byte) : State := { s with mem := tsetAll 0 s.mem k bs }

/-- A leaf of the part. -/
def State.leaf (s : State) (l : Nat) : Leaf := tget Leaf.empty s.leaves l
/-- Replace a leaf. -/
def State.putLeaf (s : State) (l : Nat) (lf : Leaf) : State := { s with leaves := tset Leaf.empty s.leaves l lf }
/-- Change a leaf. -/
def State.modLeaf (s : State) (l : Nat) (f : Leaf → Leaf) : State := s.putLeaf l (f (s.leaf l))
/-- A branch of the part. -/
def State.branch (s : State) (b : Nat) : Branch := tget Branch.empty s.branches b
/-- Replace a branch. -/
def State.putBranch (s : State) (b : Nat) (x : Branch) : State := { s with branches := tset Branch.empty s.branches b x }
/-- Change a branch. -/
def State.modBranch (s : State) (b : Nat) (f : Branch → Branch) : State := s.putBranch b (f (s.branch b))
/-- Change each branch of a list. -/
def State.modBranches (s : State) (bs : List Nat) (f : Branch → Branch) : State := bs.foldl (fun s b => s.modBranch b f) s
/-- The leaves of a branch. -/
def branchLeaves (b : Nat) : List Nat := (List.range 64).map (fun j => b * 64 + j)
/-- Change every leaf of a branch. -/
def State.modLeavesOf (s : State) (b : Nat) (f : Leaf → Leaf) : State :=
  (branchLeaves b).foldl (fun s l => s.modLeaf l f) s

/-- Table of a function on 0 .. n-1, in canonical form. -/
def tabOf {α : Type} [DecidableEq α] (d : α) (n : Nat) (f : Nat → α) : Tab α :=
  (List.range n).filterMap (fun i => if f i = d then none else some (i, f i))

/-- The first poison event for a branch's work at the present time (07 R259). -/
def State.reportPoison (s : State) (b mover index : Nat) (reason : Byte) (req : Option Nat) (addr : Nat) : State :=
  { s with poisonLog := s.poisonLog ++ [⟨s.now, b, mover, index, reason, req, addr⟩] }

end Sys2Proof.Machine
end

