-- ==== Sys2Proof/Machine/Regs.lean ====
section
/-! DEFINITION. Registers of the map as stored state: reading and writing a register or a field of it, the first-event logs, and
the counters of the telemetry page. -/

namespace Sys2Proof.Machine

/-- The value of a register of the map: what was last stored, or its reset value. -/
def State.reg (s : State) (off : Nat) : Nat :=
  match tget none s.csr off with
  | some v => v
  | none => regReset off

/-- Store a register of the map. A value equal to the reset value is not listed. -/
def State.putReg (s : State) (off v : Nat) : State :=
  { s with csr := tset none s.csr off (if v = regReset off then none else some v) }

/-- A field [hi:lo] of a register. -/
def State.rf (s : State) (off hi lo : Nat) : Nat := fld (s.reg off) hi lo
/-- One bit of a register. -/
def State.rbit (s : State) (off i : Nat) : Bool := s.rf off i i == 1
/-- Store a field [hi:lo] of a register. -/
def State.wf (s : State) (off hi lo x : Nat) : State := s.putReg off (setFld (s.reg off) hi lo x)
/-- Store one bit of a register. -/
def State.wbit (s : State) (off i : Nat) (b : Bool) : State := s.wf off i i (if b then 1 else 0)
/-- Add to a field that saturates at all ones (01 R32, RC counters). -/
def State.bump (s : State) (off hi lo x : Nat) : State :=
  s.wf off hi lo (Nat.min (s.rf off hi lo + x) (2 ^ (hi - lo + 1) - 1))
/-- Put a register back to its reset value. -/
def State.clearReg (s : State) (off : Nat) : State := { s with csr := tset none s.csr off none }
/-- Put a list of registers back to their reset values. -/
def State.clearRegs (s : State) (offs : List Nat) : State := offs.foldl (fun s o => s.clearReg o) s

/-- Record a first event: the log keeps its record while VALID (bit 63) is 1; the time register belongs to the same record. -/
def State.firstEvent (s : State) (log timeReg v : Nat) : State :=
  if s.rbit log 63 then s
  else (s.putReg log (2 ^ 63 + v)).putReg timeReg s.now

/-- Width in bits of the telemetry counter at a byte offset (16 R525). -/
def pageBits (o : Nat) : Nat :=
  if o < 0x440 then 32 else if o < 0x8C0 then 16 else if o < 0x960 then 32 else 16

/-- Count into the running interval of a telemetry counter (16 R525, R526: saturating). -/
def State.count (s : State) (o x : Nat) : State :=
  { s with cnt := tmod 0 s.cnt o (fun v => Nat.min (v + x) (2 ^ pageBits o - 1)) }

/-- Send something out of the part. -/
def State.emit (s : State) (o : Output) : State := { s with out := s.out ++ [o] }

/-- Two's complement reading of a 64-bit register. -/
def signed64 (v : Nat) : Int := if v < 2 ^ 63 then (v : Int) else (v : Int) - 2 ^ 64
/-- 64-bit two's complement of a number. -/
def unsigned64 (v : Int) : Nat := (v % 2 ^ 64).toNat

/-- The part is frozen, freezing or thawing (16 R544). -/
def State.frozen (s : State) : Bool := s.rf Reg.dbgStatus 2 0 != 0

/-- Change the serving part of the state. -/
def State.modSv (s : State) (f : Serving → Serving) : State := { s with sv := f s.sv }

/-- Run an update once for each element of a list. -/
def State.each {α : Type} (s : State) (l : List α) (f : State → α → State) : State := l.foldl f s

end Sys2Proof.Machine
end

