-- ==== Sys2Proof/Machine/Trace.lean ====
section
/-! DEFINITION. Trace records, the fault log and the freeze of the part (16 R529-R542, 17 R548, R549). -/

namespace Sys2Proof.Machine

/-- Change the debug part of the state. -/
def State.modDb (s : State) (f : Debug → Debug) : State := { s with db := f s.db }
/-- Bytes of a list of records. -/
def recsSize (l : List (List Byte)) : Nat := (l.map List.length).foldl (· + ·) 0
/-- The bytes of a record: header and payload (16 R541). -/
def traceBytes (type seq time : Nat) (payload : List Byte) : List Byte :=
  leBytes 1 type ++ leBytes 1 0 ++ leBytes 2 payload.length ++ leBytes 4 seq ++ leBytes 8 time ++ payload
/-- The trace buffer's size (16 R542). -/
def traceRoom : Nat := 1048576

/-- Keep TRC_STATUS.FILL_KIB: the buffer in use, rounded up to 1 KiB. -/
def State.traceFill (s : State) : State := s.wf Reg.trcStatus 26 16 (cdiv (recsSize s.db.recs) 1024)
/-- Put a record into the buffer if it fits, with the next SEQ. -/
def State.tracePush (s : State) (type time : Nat) (payload : List Byte) : State :=
  ((s.modDb (fun d => { d with recs := d.recs ++ [traceBytes type (s.reg Reg.trcSeq) time payload] })).wf Reg.trcSeq 31 0
    (s.reg Reg.trcSeq + 1)).traceFill
def State.traceFits (s : State) (n : Nat) : Bool := decide (recsSize s.db.recs + 16 + n ≤ traceRoom)
/-- A record that cannot enter is lost and counted. -/
def State.traceLose (s : State) : State :=
  (s.bump Reg.trcLost 63 0 1).modDb (fun d => { d with lost := sat32 (d.lost + 1) })
/-- The LOST record takes the first free space. -/
def State.traceLost (s : State) : State :=
  if 0 < s.db.lost ∧ s.traceFits 8 = true
  then (s.tracePush 7 s.now (leBytes 4 s.db.lost ++ leBytes 4 0)).modDb (fun d => { d with lost := 0 }) else s

/-- A record enters the trace buffer (16 R542): types 1 to 6 where TRC_SRC enables them and records are generated; during a dump
they are lost (16 R539). -/
def State.traceRec (s : State) (type time : Nat) (payload : List Byte) : State :=
  if s.rbit Reg.trcCtl 0 = false ∨ s.rbit Reg.trcSrc (type - 1) = false then s
  else if s.rbit Reg.trcStatus 1 then s.traceLose
  else
    let s1 := s.traceLost
    if s1.db.lost = 0 ∧ s1.traceFits payload.length = true then s1.tracePush type time payload else s1.traceLose

/-- TRC_STAND lets a stand's records through. -/
def State.traced (s : State) (sd : Nat) : Bool := s.rbit Reg.trcStand sd
/-- A record that belongs to a stand. -/
def State.traceStand (s : State) (sd type : Nat) (payload : List Byte) : State :=
  if s.traced sd then s.traceRec type s.now payload else s

/-- An EVENT record: source, index, the log value with VALID, its address register (16 R541). -/
def State.event (s : State) (source index value addr : Nat) : State :=
  s.traceRec 5 s.now (leBytes 1 source ++ leBytes 2 index ++ leBytes 5 0 ++ leBytes 8 value ++ leBytes 8 addr)
/-- An EVENT record that belongs to a stand, if any. -/
def State.eventOf (s : State) (sd : Option Nat) (source index value addr : Nat) : State :=
  match sd with
  | some n => if s.traced n then s.event source index value addr else s
  | none => s.event source index value addr

/-- The payload of a fault-log entry (17 R548). -/
def faultPayload (kind value addr : Nat) : List Byte := leBytes 1 0 ++ leBytes 2 kind ++ leBytes 5 0 ++ leBytes 8 value ++ leBytes 8 addr
/-- An entry of the fault log: the last 256 are kept, and a fault of one KIND and value recurs at most once per second
(17 R548, R549). -/
def State.faultLog (s : State) (kind value addr : Nat) : State :=
  if s.db.faults.any (fun r => fieldLE r 17 2 == kind && fieldLE r 24 8 == value && decide (s.now < fieldLE r 8 8 + 1000000000)) then s
  else
    let r := traceBytes 5 (s.reg Reg.trcSeq) s.now (faultPayload kind value addr)
    (s.modDb (fun d => { d with faults := (d.faults ++ [r]).drop (d.faults.length + 1 - 256), faultCount := d.faultCount + 1 })).traceRec 5 s.now (faultPayload kind value addr)

end Sys2Proof.Machine
end

