-- ==== Sys2Proof/Machine/Fabric.lean ====
section
/-! DEFINITION. Urren routing and the sending of transactions (12 R410-R421). -/

namespace Sys2Proof.Machine

/-- Change the Urren part of the state. -/
def State.modUr (s : State) (f : Urren → Urren) : State := { s with ur := f s.ur }
/-- A link. -/
def State.link (s : State) (n : Nat) : Link := tget Link.empty s.ur.links n
def State.modLink (s : State) (n : Nat) (f : Link → Link) : State :=
  s.modUr (fun u => { u with links := tmod Link.empty u.links n f })
/-- The part's own PID (12 R436). -/
def State.ownPid (s : State) : Nat := s.rf Reg.rteCfg 63 48
/-- LNK_CFG.ROLE, with a role the port cannot have as 0 (12 R397, R435). -/
def State.role (s : State) (n : Nat) : Nat :=
  let r := s.rf (Reg.lnkCfg n) 2 0
  if n < 12 then (if r = 1 then 1 else 0) else if n < 16 then (if r = 2 then 2 else 0) else if r = 3 ∨ r = 4 then r else 0
/-- LNK_STATUS.STATE. -/
def State.linkState (s : State) (n : Nat) : Nat := s.rf (Reg.lnkStatus n) 3 0
/-- A port is up (12 R419); a restored link is in the route sets from its epoch on (12 R426). -/
def State.portUp (s : State) (n : Nat) : Bool :=
  (s.linkState n == 2 || s.linkState n == 3) && (match (s.link n).rejoin with | some e => decide (e ≤ s.now) | none => true)

/-- The routing entry of a PID in the active bank: low and high word (12 R436). -/
def State.route64 (s : State) (pid : Nat) : Nat := tget 0 s.ur.active (2 * pid)
def State.routeHi (s : State) (pid : Nat) : Nat := tget 0 s.ur.active (2 * pid + 1)
def State.removed (s : State) (pid : Nat) : Bool := (s.route64 pid).testBit 33
def State.allowLs (s : State) (pid : Nat) : Bool := (s.route64 pid).testBit 34
def State.allowAdmin (s : State) (pid : Nat) : Bool := (s.route64 pid).testBit 35

/-- A port may carry a transaction on under R418. -/
def State.eligible (s : State) (tx : Tx) (n : Nat) : Bool :=
  !(s.role n == 1 && tx.leg % 2 == 1) && !(s.role n == 2 && tx.leg / 2 % 2 == 1)
/-- The ports of a set that are up and eligible, ascending. -/
def State.upPorts (s : State) (tx : Tx) (set : Nat) : List Nat :=
  (List.range 20).filter (fun n => set.testBit n && s.portUp n && s.eligible tx n)
/-- R419's hash. -/
def flowHash (src dst vc : Nat) : Nat := (src * 40503 + dst * 9973 + vc * 257) % 65536
/-- The output port of a transaction for another part, or the status it fails with (12 R419). -/
def State.routeTx (s : State) (tx : Tx) : Except Nat Nat :=
  let lo := s.route64 tx.dst
  let cls := fld lo 26 24
  if lo.testBit 33 then .error 5
  else if cls ≠ 2 ∧ cls ≠ 3 then .error 1
  else
    let c := s.upPorts tx (fld lo 19 0)
    let c' := if c = [] then s.upPorts tx (fld (s.routeHi tx.dst) 19 0) else c
    if c' = [] then .error 1 else .ok (c'.getD (flowHash tx.src tx.dst tx.vc % c'.length) 0)

/-- The transaction expects a RESP (12 R411). -/
def txNonPosted (tx : Tx) : Bool :=
  tx.op == 1 || tx.op == 3 || tx.op == 7 || tx.op == 9 || ((tx.op == 2 || tx.op == 8 || tx.op == 10) && tx.flags % 2 == 1)
/-- Header and data as bytes (12 R410). -/
def txBytes (tx : Tx) : List Byte :=
  leBytes 1 tx.op ++ leBytes 1 tx.flags ++ leBytes 2 tx.len ++ leBytes 2 tx.src ++ leBytes 2 tx.dst ++ leBytes 8 tx.addr ++
    leBytes 4 tx.tag ++ leBytes 1 tx.stand ++ leBytes 1 tx.fn ++ leBytes 1 (tx.leg * 64 + tx.ttl) ++ leBytes 1 tx.reason ++ leBytes 8 tx.arg ++
    tx.data
/-- Flits of a transaction (12 R410). -/
def txFlits (tx : Tx) : Nat := if tx.data.length ≤ 212 then 1 else 1 + cdiv (tx.data.length - 212) 244

/-- Transactions of a flow are still in a port's output queue. -/
def State.flowBusy (s : State) (dst vc : Nat) : Bool :=
  s.ur.links.any (fun l => l.2.txq.any (fun q => q.tx.dst == dst && q.tx.vc == vc))
/-- Put a transaction in a port's output queue. -/
def State.queueTx (s : State) (n : Nat) (tx : Tx) : State := s.modLink n (fun l => { l with txq := l.txq ++ [⟨tx, 0⟩] })
/-- QUIESCE_NS. -/
def State.quiesceNs (s : State) : Nat := s.rf Reg.rteCfg 31 16

/-- A flow's transaction goes to its port; where the port has changed and the earlier ones have not left, or QUIESCE_NS has not
passed, it waits (12 R421). -/
def State.flowSend (s : State) (n : Nat) (tx : Tx) : State :=
  match s.ur.flows.find? (fun f => f.dst == tx.dst && f.vc == tx.vc) with
  | none => (s.modUr (fun u => { u with flows := u.flows ++ [⟨tx.dst, tx.vc, n, s.now, []⟩] })).queueTx n tx
  | some f =>
    let upd := fun (g : Flow → Flow) => s.modUr (fun u => { u with flows := mapIf (fun x => x.dst == tx.dst && x.vc == tx.vc) g u.flows })
    if f.waiting ≠ [] ∨ (f.port ≠ n ∧ (s.flowBusy tx.dst tx.vc = true ∨ s.now < f.last + s.quiesceNs))
    then upd (fun x => { x with waiting := x.waiting ++ [tx] })
    else (upd (fun x => { x with port := n })).queueTx n tx

/-- Send a transaction to another part; the answer beside the state is the status it fails with at once (12 R419). -/
def State.sendTx (s : State) (tx : Tx) : State × Option Nat :=
  match s.routeTx tx with
  | .ok n => (s.flowSend n tx, none)
  | .error e => if txNonPosted tx then (s, some e) else (s.bump Reg.rteNoroute 31 0 1, some e)

/-- A transaction of this part with the next tag (12 R410, R417): opcode, destination, address, flags, source stand byte, fn, arg, data, VC. -/
def State.ownTx (s : State) (op dst addr flags stand fn arg : Nat) (data : List Byte) (vc : Nat) : Tx :=
  ⟨op, flags, data.length, s.ownPid, dst, addr, s.ur.nextTag, stand, fn, 0, Nat.max 1 (s.rf Reg.rteCfg 5 0), 0, arg, data, vc⟩
/-- Send a transaction of this part: its tag is used up, and a non-posted one is outstanding (12 R412). -/
def State.launch (s : State) (tx : Tx) (p : Purpose) : State × Option Nat :=
  let r := s.sendTx tx
  let s1 := r.1.modUr (fun u => { u with nextTag := (u.nextTag + 1) % 2 ^ 32 })
  match r.2 with
  | some e => (s1, some e)
  | none =>
    if txNonPosted tx then
      (s1.modUr (fun u => { u with outst := u.outst ++ [⟨tx.tag, tx.dst, s.now, p, tx.addr⟩] }), none)
    else (s1, none)

/-- What a RESP status does to the issuing request (12 R412): its STATUS, 0 for none. -/
def respStatus (k : Nat) : Nat :=
  if k = 0 then 0 else if k = 1 ∨ k = 2 ∨ k = 7 then 0x41 else if k = 3 ∨ k = 4 then 0x40 else if k = 5 then 0x42 else if k = 6 then 0x30 else 0x5F

end Sys2Proof.Machine
end

