-- ==== Sys2Proof/Machine/Freeze.lean ====
section
/-! DEFINITION. The freeze of the part (16 R529-R533). -/

namespace Sys2Proof.Machine

/-- The ADMIN FREEZE message to a peer: MGMT = 1, SCOPE 1, TAG 0 (13 R455, R460, 16 R531). -/
def freezeMsg : List Byte := leBytes 2 0x60 ++ leBytes 2 48 ++ leBytes 4 0 ++ leBytes 1 0x80 ++ leBytes 23 0 ++ leBytes 1 1 ++ leBytes 15 0
/-- Measured input power over the last ms, in W (14 R501). -/
def State.inputW (s : State) : Nat := s.rf Reg.pwrStatus 47 32

/-- Freeze the part (16 R529-R532): ignored before step 11 of bring-up and during a freeze. -/
def State.freeze (s : State) (cause : Nat) (drive peers : Bool) : State :=
  if s.rf Reg.rootStatus 15 8 < 11 ∨ s.frozen = true then s
  else
    let pin := drive && s.rbit Reg.rstPinopt 0
    let s1 := ((s.wf Reg.dbgStatus 2 0 2).wf Reg.dbgStatus 15 8 cause).putReg Reg.dbgFrzTime s.now
    let s2 := (s1.putReg Reg.dbgFrzSpan ((Config.freeWord s.free).toNat % 65)).tick
    let s3 := (s2.modBranches (List.range s.nBranches) (fun x => { x with frozen := true })).modDb (fun d =>
      { d with drive := pin, frzMw := 1000 * s.inputW })
    let s4 := s3.traceRec 6 s.now (leBytes 1 1 ++ leBytes 1 cause ++ leBytes 1 (if pin then 1 else 0) ++ leBytes 5 0)
    if peers && s.rbit Reg.dbgCfg 8 then
      s4.each (List.range 8) (fun s i => if s.rbit (Reg.dbgPeer i) 63 then
        (s.launch (s.ownTx 7 (s.rf (Reg.dbgPeer i) 15 0) 0 0 0x80 0 0 freezeMsg 1) .none).1 else s)
    else s4

/-- The hold queue of 2,048 flits has room for a transaction (16 R532). -/
def State.holdRoom (s : State) (tx : Tx) : Bool := decide ((s.db.heldTx.map (fun h => txFlits h.2)).foldl (· + ·) (txFlits tx) ≤ 2048)
/-- A frozen part holds a transaction that arrives for it; where the queue is full the transaction stays on its link (16 R532). -/
def State.holdTx (s : State) (port : Nat) (tx : Tx) : State :=
  if s.holdRoom tx then s.modDb (fun d => { d with heldTx := d.heldTx ++ [(port, tx)] }) else s

/-- An event that DBG_CFG.TRIG may enable freezes the part (CAUSE 5). -/
def State.trigger (s : State) (bit : Nat) : State :=
  if s.rbit Reg.dbgCfg bit then s.freeze 5 true true else s

end Sys2Proof.Machine
end

