-- ==== Sys2Proof/Machine/Operands.lean ====
section
/-! DEFINITION. Leaf registers and the operand forms of leaf code (03 R81, R83, R88, R120), tile headers and tile rows. -/

namespace Sys2Proof.Machine

/-- The active context of a leaf. -/
def Leaf.ctx (lf : Leaf) : Ctx := tget Ctx.empty lf.ctxs lf.active
/-- Change the active context. -/
def Leaf.modCtx (lf : Leaf) (f : Ctx → Ctx) : Leaf := { lf with ctxs := tset Ctx.empty lf.ctxs lf.active (f lf.ctx) }
/-- General register r of the active context (03 R81: all writable). -/
def Leaf.reg (lf : Leaf) (r : BitVec 5) : Word := tget 0 lf.ctx.regs r.toNat
/-- Write a general register. -/
def Leaf.setReg (lf : Leaf) (r : BitVec 5) (v : Word) : Leaf :=
  lf.modCtx (fun c => { c with regs := tset 0 c.regs r.toNat v })
/-- Predicate register p of the active context. -/
def Leaf.pred (lf : Leaf) (p : BitVec 3) : Word := tget 0 lf.ctx.preds p.toNat
/-- Write a predicate register. -/
def Leaf.setPred (lf : Leaf) (p : BitVec 3) (v : Word) : Leaf :=
  lf.modCtx (fun c => { c with preds := tset 0 c.preds p.toNat v })
/-- The value of a second operand (03 R120). -/
def Leaf.opd (lf : Leaf) (o : Opd) : Word := if o.i then o.imm else lf.reg o.rb
/-- The guard of 03 R93: executes when (p[GP] ≠ 0) XOR GN. -/
def Leaf.guardOk (lf : Leaf) (g : Guard) : Bool := !g.ge || ((lf.pred g.gp != 0) != g.gn)
/-- Vector register v. -/
def Leaf.vreg (lf : Leaf) (v : BitVec 4) : VecReg := tget VecReg.empty lf.vregs v.toNat
/-- One lane of a vector register. -/
def VecReg.lane (v : VecReg) (l : Nat) : Word := tget 0 v.lanes l
/-- Vector width in lanes of the active context (03 R118, R122). -/
def Leaf.vw (lf : Leaf) : Nat := 16 * (lf.ctx.vw + 1)
/-- Output width in columns of the active context (03 R118, R122). -/
def Leaf.mw (lf : Leaf) : Nat := 8 * (lf.ctx.mw + 1)
/-- Write a vector register: lanes at or above the vector width are written +0 (03 R118). -/
def Leaf.setVreg (lf : Leaf) (v : BitVec 4) (f : Nat → Word) (poison : Option Byte) : Leaf :=
  { lf with vregs := tset VecReg.empty lf.vregs v.toNat ⟨tabOf 0 64 (fun l => if l < lf.vw then f l else 0), poison⟩ }
/-- Accumulator AC. -/
def Leaf.acc (lf : Leaf) (a : BitVec 2) : Acc := tget Acc.empty lf.accs a.toNat
/-- Write an accumulator. -/
def Leaf.setAcc (lf : Leaf) (a : BitVec 2) (x : Acc) : Leaf := { lf with accs := tset Acc.empty lf.accs a.toNat x }
/-- Input port SI. -/
def Leaf.inPort (lf : Leaf) (p : Nat) : InPort := tget InPort.empty lf.inPorts p
/-- Replace an input port. -/
def Leaf.setIn (lf : Leaf) (p : Nat) (x : InPort) : Leaf := { lf with inPorts := tset InPort.empty lf.inPorts p x }
/-- Output port SO. -/
def Leaf.outPort (lf : Leaf) (p : Nat) : OutPort := tget OutPort.empty lf.outPorts p
/-- Replace an output port. -/
def Leaf.setOut (lf : Leaf) (p : Nat) (x : OutPort) : Leaf := { lf with outPorts := tset OutPort.empty lf.outPorts p x }

/-- Start of a leaf's memory in SPACE 2 (01 R26). -/
def leafBase (l : Nat) : Nat := memKey 2 (l / 64 * 0x2000000 + l % 64 * 0x40000)
/-- Key of a leaf-memory byte; addresses are taken modulo 2^18 (03 R88). -/
def leafKey (l a : Nat) : Nat := leafBase l + a % 0x40000
/-- The line address of every unit but LD and ST: bits [5:0] ignored (03 R88). -/
def lineOf (a : Nat) : Nat := a % 0x40000 / 64 * 64

/-- n bytes of leaf memory from an address, as it stands (03 R88). -/
def State.leafPlain (s : State) (l a n : Nat) : List Byte :=
  (List.range n).map (fun i => s.memByte (leafKey l (a + i)))

/-- How a command reads leaf memory: n bytes from an address. -/
abbrev LeafReader := Nat → Nat → List Byte

/-- Write bytes of leaf memory, wrapping modulo 2^18 (03 R88). -/
def State.leafWrite (s : State) (l a : Nat) : List Byte → State
  | [] => s
  | b :: bs => (s.memSet (leafKey l a) b).leafWrite l (a + 1) bs

/-- A tile header (07 R243). -/
structure TileHdr where
  fmt : Nat
  poison : Bool
  cv : Bool
  reason : Byte
  rowMask : Word
  colMask : Word
  seq : Word
  check : Word
  tileRow : Nat
  tileCol : Nat
  scales : List Byte
  deriving DecidableEq, Repr

/-- Read a tile header from its 64 bytes (07 R243). -/
def parseHdr (b : List Byte) : TileHdr :=
  { fmt := fld (fieldLE b 0 1) 4 0, poison := (fieldLE b 1 1).testBit 0, cv := (fieldLE b 1 1).testBit 1,
    reason := b.getD 2 0, rowMask := BitVec.ofNat 32 (fieldLE b 4 4), colMask := BitVec.ofNat 32 (fieldLE b 8 4),
    seq := BitVec.ofNat 32 (fieldLE b 12 4), check := BitVec.ofNat 32 (fieldLE b 16 4),
    tileRow := fieldLE b 20 2, tileCol := fieldLE b 22 2, scales := (b.drop 32).take 32 }

/-- The 64 bytes of a tile header, reserved bits 0 (07 R243, R244). -/
def hdrBytes (h : TileHdr) : List Byte :=
  [BitVec.ofNat 8 h.fmt, BitVec.ofNat 8 ((if h.poison then 1 else 0) + (if h.cv then 2 else 0)), h.reason, 0] ++
  leBytes 4 h.rowMask.toNat ++ leBytes 4 h.colMask.toNat ++ leBytes 4 h.seq.toNat ++ leBytes 4 h.check.toNat ++
  leBytes 2 h.tileRow ++ leBytes 2 h.tileCol ++ List.replicate 8 0 ++ (h.scales ++ List.replicate 32 0).take 32

/-- The poison reason a header carries: a set POISON with no valid reason counts as 0x09, a reserved FORMAT with POISON clear as
0x01 (02 R43, 07 R244). -/
def TileHdr.why (h : TileHdr) : Option Byte :=
  if h.poison then some (if h.reason = 0 ∨ 0x0A ≤ h.reason.toNat then 0x09 else h.reason)
  else if isReservedCode h.fmt then some 0x01 else none

/-- Mask bit i. -/
def maskBit (w : Word) (i : Nat) : Bool := w.toNat.testBit i

/-- The reason an operand header of code h poisons what reads it as format code (02 R43, 03 R106, 07 R244): a poisoned header keeps
its own reason, another FORMAT is a format error. -/
def TileHdr.whyAs (h : TileHdr) (code : Nat) : Option Byte :=
  match h.why with
  | some r => some r
  | none => if h.fmt = code then none else some 0x01

/-- The header of the tile at a leaf-memory address. -/
def hdrAt (rd : LeafReader) (a : Nat) : TileHdr := parseHdr (rd (lineOf a) 64)

/-- Bytes of row r of the tile at a leaf-memory address (07 R242). -/
def rowAt (rd : LeafReader) (a code r : Nat) : List Byte := rd (lineOf a + 64 + r * rowBytes code) (rowBytes code)

/-- The 32 values of a row of a tile of a plain format: the row scale applies to MX and TS codes (02 R51, R53). -/
def rowVals (code : Nat) (scale : Byte) (bs : List Byte) : List Val :=
  match formatOf code with
  | .plain e .unscaled => (unpackRow (elemBits e) bs 32).map (decElem e)
  | .plain e _ => (unpackRow (elemBits e) bs 32).map (fun x => scaledElem e x scale.toNat)
  | _ => List.replicate 32 (.fin false 0 0)

/-- The same row without its scale; every element is NaN under scale 0xFF (02 R51, R62). -/
def rowElems (code : Nat) (scale : Byte) (bs : List Byte) : List Val :=
  match formatOf code with
  | .plain e .unscaled => (unpackRow (elemBits e) bs 32).map (decElem e)
  | .plain e _ => if scale = 0xFF then List.replicate 32 .nan else (unpackRow (elemBits e) bs 32).map (decElem e)
  | _ => List.replicate 32 (.fin false 0 0)

/-- Load conversion of a value to FP32 (02 R77). -/
def loadVal (v : Val) : Word × FFlags := toFp32 v

end Sys2Proof.Machine
end

