-- ==== Sys2Proof/Machine/Flags.lean ====
section
/-! DEFINITION. The sticky arithmetic flags (02 R59), LEAF_FAULT, and the consumption of poison (03 R111). -/

namespace Sys2Proof.Machine

/-- Set sticky flags of the active context. -/
def Leaf.addFlags (lf : Leaf) (f : FFlags) : Leaf := lf.modCtx (fun c => { c with flags := c.flags ||| f })

/-- The LEAF_FAULT value of a fault (03 R122). -/
def LeafFault.value (f : LeafFault) : Nat := 2 ^ 63 + f.kind * 2 ^ 60 + f.ctx * 2 ^ 57 + f.pc * 2 ^ 48 + f.laddr
/-- Record a fault of the instruction at a PC: the first one stands while VALID is 1 (03 R122); an EVENT record is written for each (16 R541). -/
def State.leafFault (s : State) (l kind pc laddr : Nat) : State :=
  let lf := s.leaf l
  let f : LeafFault := ⟨kind, lf.active, pc, laddr % 0x40000⟩
  let sd := if (s.branch (l / 64)).assigned then some (s.branch (l / 64)).stand else none
  (s.modLeaf l (fun x => match x.fault with
    | some _ => x
    | none => { x with fault := some f })).eventOf sd 9 (l / 64) f.value 0

/-- A leaf consumes poison: LEAF_STATUS.POISON is set, the first reason of the pass is reported to branch control, and the
fault is recorded with KIND 4 (03 R111, R122). -/
def State.consume (s : State) (l : Nat) (why : Option Byte) (pc laddr : Nat) : State :=
  match why with
  | none => s
  | some r =>
    let s1 := s.leafFault l 4 pc laddr
    match (s.leaf l).poison with
    | some _ => s1
    | none => ((s1.modLeaf l (fun lf => { lf with poison := some r })).reportPoison (l / 64) 0 (l % 64) r none 0).trigger 3

/-- OR of the flags of a list of flagged results. -/
def orFlags {α : Type} (l : List (α × FFlags)) : FFlags := l.foldl (fun f x => f ||| x.2) 0

/-- The first poison reason of a list. -/
def firstWhy : List (Option Byte) → Option Byte
  | [] => none
  | some r :: _ => some r
  | none :: t => firstWhy t

end Sys2Proof.Machine
end

