-- ==== Sys2Proof/Machine/LeafCtl.lean ====
section
/-! DEFINITION. Issue of leaf code: guards, program counter and loops, unit queues, FENCE and END, the start of a pass, context
switch with circuit handover, and abort (03 R82-R102, 04 R136-R137). -/

namespace Sys2Proof.Machine

/-- What an instruction body answers: the state after its effect, or a wait on a port or token, or on a full unit queue. -/
inductive Issue where
  | done (s : State)
  | portWait
  | queueWait

/-- The branch is powered, clocked and not frozen (14 R475, 16 R530). -/
def State.branchRuns (s : State) (b : Nat) : Bool := !(s.branch b).frozen && (s.branch b).sleep == .awake

/-- The sequencer of a leaf may issue: a pass runs and no FENCE or END holds it (03 R84, R92, R94). -/
def State.canIssue (s : State) (l : Nat) : Bool :=
  s.branchRuns (l / 64) && ((s.leaf l).mode == .run || (s.leaf l).mode == .stall) && (s.leaf l).block == .none

/-- The loop frames after the instruction at pc: the innermost body that ends there runs again or finishes and lets the next
outer body be looked at (03 R96). The answer is the frames left, the PC to go on from if a body runs again, and the output
ports on which a finished loop emits END (03 R97). -/
def loopBack (pc : Nat) : List LoopFrame → List LoopFrame × Option Nat × List Nat
  | [] => ([], none, [])
  | f :: fs =>
    if f.stop = pc then
      if f.index + 1 < f.trips then ({ f with index := f.index + 1 } :: fs, some f.start, [])
      else
        let r := loopBack pc fs
        (r.1, r.2.1, f.eosp.toList ++ r.2.2)
    else (f :: fs, none, [])

/-- Queue a token on an output port behind every beat issued before it (03 R99, R101): none where the queue holds 8. -/
def OutPort.pushToken (p : OutPort) (w : Word) : Option OutPort :=
  if p.tokens.length < 8 then
    some { p with tokens := p.tokens ++ [(p.issuedBeats, w)], issuedTokens := p.issuedTokens + 1 }
  else none

/-- The token word of a value on an output port: TAG in the high half (03 R100). -/
def Leaf.tokenWord (lf : Leaf) (port : Nat) (v : BitVec 16) : Word :=
  ((tget 0 lf.tags port : BitVec 16) ++ v : BitVec 32)

/-- Emit a token on an output port. -/
def Leaf.sendToken (lf : Leaf) (port : Nat) (v : BitVec 16) : Option Leaf :=
  match (lf.outPort port).pushToken (lf.tokenWord port v) with
  | none => none
  | some p => some (lf.setOut port p)

/-- Emit an END token on each of a list of ports. -/
def Leaf.sendEnds (lf : Leaf) : List Nat → Option Leaf
  | [] => some lf
  | p :: ps =>
    match lf.sendToken p 0xFFFF with
    | none => none
    | some lf' => lf'.sendEnds ps

/-- END holds the leaf and deactivates every counter (03 R84, R98). -/
def Leaf.beginEnd (lf : Leaf) : Leaf := { lf.modCtx (fun c => { c with loops := [] }) with block := .ending }

/-- The PC after the instruction at pc, loops taken into account; an END is implied after PC 511 (03 R82). -/
def Leaf.advanceFrom (lf : Leaf) (pc : Nat) : Option Leaf :=
  let r := loopBack pc lf.ctx.loops
  match lf.sendEnds r.2.2 with
  | none => none
  | some lf1 =>
    match r.2.1 with
    | some p => some { lf1.modCtx (fun c => { c with loops := r.1, pc := p }) with mode := .run }
    | none =>
      if 511 ≤ pc then some { (lf1.modCtx (fun c => { c with loops := r.1 })).beginEnd with mode := .run }
      else some { lf1.modCtx (fun c => { c with loops := r.1, pc := pc + 1 }) with mode := .run }

/-- The PC after the instruction just issued. -/
def Leaf.advance (lf : Leaf) : Option Leaf := lf.advanceFrom lf.ctx.pc

/-! ### Context switch and handover -/

/-- Beats and tokens held in a leaf's ports. -/
def Leaf.portLoad (lf : Leaf) : Nat :=
  (lf.inPorts.map (fun p => p.2.beats.length + p.2.tokens.length)).sum +
  (lf.outPorts.map (fun p => p.2.beats.length + p.2.tokens.length)).sum

/-- Beats and tokens on a branch's links, in its steering units, crossing lanes and mover queues. -/
def Branch.circuitLoad (b : Branch) : Nat :=
  (b.wires.map (fun w => w.2.beat.toList.length + w.2.tok.toList.length)).sum +
  (b.steers.map (fun u => u.2.qa.length + u.2.qb.length + u.2.qt.length + u.2.pend0.length + u.2.pend1.length)).sum +
  (b.lanes.map (fun x => x.2.flight.length + x.2.ready.length)).sum +
  (b.movers.map (fun m => m.2.inBeats.length + m.2.inTokens.length + m.2.outBeats.length + m.2.outTokens.length)).sum

/-- Empty the slot-plane side of a mover. -/
def Mover.clearPorts (m : Mover) : Mover :=
  { m with inBeats := [], inTokens := [], outBeats := [], outTokens := [], outIssued := 0, outLeft := 0 }

/-- Empty a branch's links, steering units, lanes and mover queues, and restore every credit (04 R137, R151). -/
def Branch.clearCircuits (b : Branch) : Branch :=
  { b with wires := [], steers := [], lanes := [], inlets := [], credits := [], movers := b.movers.map (fun m => (m.1, m.2.clearPorts)) }

/-- Empty a leaf's ports. -/
def Leaf.clearPorts (lf : Leaf) : Leaf := { lf with inPorts := [], outPorts := [] }

/-- The slabs' matrix columns a context powers, one bit per slab (03 R117). -/
def Ctx.slabM (c : Ctx) : Nat := if c.valid && c.matrix then 2 ^ (c.mw + 1) - 1 else 0
/-- The slabs' vector lanes a context powers, one bit per slab (03 R117). -/
def Ctx.slabV (c : Ctx) : Nat := if c.valid then 2 ^ (c.vw + 1) - 1 else 0
/-- Where a leaf rests between passes: IDLE without a configuration in its active context (03 R122; log entry 26). -/
def Leaf.rest (lf : Leaf) : LeafMode := if lf.ctx.valid then .waitPass else .idle

/-- A leaf switches to its next context (03 R85 steps 1-4): vector registers +0, accumulators empty, the slabs of the new context
powered (03 R117); its ports wait for the branch's handover. -/
def Leaf.switchNow (lf : Leaf) : Leaf :=
  let c := tget Ctx.empty lf.ctxs lf.ctxNext
  { lf with active := lf.ctxNext, swReq := false, slabM := c.slabM, slabV := c.slabV, vregs := [], accs := [], mode := .switch, block := .none }

/-- Step 5 of 03 R85: the ports are bound to the new circuits. -/
def Leaf.switchEnd (lf : Leaf) : Leaf := if lf.mode = .switch then { lf with mode := lf.rest } else lf

/-- Every leaf of a branch has the same active context. -/
def State.sameCtx (s : State) (b n : Nat) : Bool := (branchLeaves b).all (fun l => decide ((s.leaf l).active = n))

/-- After a leaf's switch to context n: where every leaf of the branch now has another context than the active slot set's, the branch's
handover begins (04 R136, R137); a leaf that switches to the branch's own set is ready at once (log entry 26). -/
def State.handoverCheck (s : State) (l n : Nat) : State :=
  let b := l / 64
  if n = (s.branch b).active ∧ (s.branch b).handover = false then s.modLeaf l Leaf.switchEnd
  else if s.sameCtx b n = true then s.modBranch b (fun x => { x with handover := true })
  else s

/-- A leaf with a pending request switches now (03 R85). -/
def State.leafSwitch (s : State) (l : Nat) : State :=
  let n := (s.leaf l).ctxNext
  (s.modLeaf l Leaf.switchNow).handoverCheck l n

/-- END of a pass: once every unit has completed, the leaf reports the pass complete and is held in WAIT_PASS; a pending
switch takes effect (03 R84, R85). -/
def State.endCheck (s : State) (l : Nat) : State :=
  let lf := s.leaf l
  if lf.block = .ending ∧ lf.queue = [] then
    let s1 := s.modLeaf l (fun lf => { lf with mode := .waitPass, block := .none })
    if lf.swReq then s1.leafSwitch l else s1
  else s

/-- The bit of a FENCE mask that names a unit (03 R120). -/
def unitBit : LeafUnit → Nat
  | .matrix => 0
  | .vector => 1
  | .reduction => 2
  | .streamOut => 3
  | .streamIn => 4
  | .packet => 5

/-- Units named by a FENCE still have commands (03 R94). -/
def fenceHolds (units : BitVec 6) (q : List UnitCmd) : Bool := q.any (fun c => units.toNat.testBit (unitBit c.unit))

/-- A FENCE releases the sequencer once its units have completed (03 R94); the PC goes on then, so that a loop that ends with it
emits its END behind it (03 R97). Where that END finds its queue full, the leaf stalls at the FENCE. -/
def Leaf.fenceCheck (lf : Leaf) : Leaf :=
  match lf.block with
  | .fence u =>
    if fenceHolds u lf.queue then lf
    else ({ lf with block := .none }.advance).getD { lf with block := .none, mode := .stall }
  | _ => lf

/-! ### Interlocks (03 R92) -/

/-- The registers a pending command writes. -/
def UnitOp.dests : UnitOp → List RegRef
  | .vector vd _ _ _ | .loadTile vd _ _ _ | .loadFlat vd _ _ | .reduce vd _ _ _ => [.v vd]
  | .compare pd _ _ _ _ => [.p pd, .p (pd + 1)]
  | .scalar rd _ _ _ | .loadWord rd _ | .rank rd _ _ _ _ _ _ => [.g rd]
  | .access _ (some rd) => [.g rd]
  | _ => []

/-- A write of one of some registers is pending: an instruction that uses it stalls (03 R92). -/
def Leaf.regsPending (lf : Leaf) (rs : List RegRef) : Bool := lf.queue.any (fun c => c.op.dests.any rs.contains)

/-- The registers an instruction's guard reads (03 R93). -/
def guardUses (g : Guard) : List RegRef := if g.ge then [.p g.gp] else []
/-- The registers a second operand reads. -/
def opdUses (o : Opd) : List RegRef := if o.i then [] else [.g o.rb]
/-- The register of an operand that IMM may replace. -/
def immUses (i : Bool) (r : BitVec 5) : List RegRef := if i then [] else [.g r]

/-! ### Issue -/

/-- The common issue of a leaf instruction (03 R92, R93): an absent leaf is a fault; a leaf that cannot issue, or whose instruction
uses a register with a write pending, is left as it is; a guarded-off instruction only advances the PC. adv gives the PC after the
instruction's own effect. -/
def State.issueWith (s : State) (l : Nat) (g : Guard) (uses : List RegRef) (body : State → Issue) (adv : Leaf → Option Leaf) :
    Host.Outcome State Fault Refusal :=
  if s.nLeaves ≤ l then .fault .absentUnit
  else if s.canIssue l = false ∨ (s.leaf l).regsPending (guardUses g) = true then .next s
  else if (s.leaf l).guardOk g = false then
    match (s.leaf l).advance with
    | some lf => .next ((s.putLeaf l lf).endCheck l)
    | none => .next (s.modLeaf l (fun lf => { lf with mode := .stall }))
  else if (s.leaf l).regsPending uses = true then .next s
  else match body s with
    | .queueWait => .next s
    | .portWait => .next (s.modLeaf l (fun lf => { lf with mode := .stall }))
    | .done s1 =>
      match adv (s1.leaf l) with
      | some lf => .next ((s1.putLeaf l lf).tick.endCheck l)
      | none => .next (s.modLeaf l (fun lf => { lf with mode := .stall }))

/-- Issue of an instruction that transfers no control. -/
def State.issue (s : State) (l : Nat) (g : Guard) (uses : List RegRef) (body : State → Issue) : Host.Outcome State Fault Refusal :=
  s.issueWith l g uses body Leaf.advance

/-- Issue of an instruction that changes only the leaf's own registers. -/
def State.issueReg (s : State) (l : Nat) (g : Guard) (uses : List RegRef) (f : Leaf → Leaf) : Host.Outcome State Fault Refusal :=
  s.issue l g uses (fun s => .done (s.modLeaf l f))

/-- Commands of a unit (and port) that have not completed. -/
def Leaf.pendingOf (lf : Leaf) (u : LeafUnit) (port : Nat) : Nat :=
  (lf.queue.filter (fun c => c.unit == u && c.port == port)).length

/-- Commands a unit can hold: the queue depth of 03 R81 and the command in progress. -/
def unitRoom : LeafUnit → Nat
  | .matrix => 3
  | .vector => 5
  | .reduction => 3
  | .streamOut => 5
  | .streamIn => 5
  | .packet => 8

/-- A unit can take a command. -/
def Leaf.hasRoom (lf : Leaf) (u : LeafUnit) (port : Nat) : Bool := decide (lf.pendingOf u port < unitRoom u)

/-- Count a command issued to the matrix or vector unit (03 R102: SEND's AW). -/
def Leaf.countIssue (lf : Leaf) : LeafUnit → Leaf
  | .matrix => { lf with issuedM := lf.issuedM + 1 }
  | .vector => { lf with issuedV := lf.issuedV + 1 }
  | _ => lf

/-- Queue a command of a unit without ports. -/
def Leaf.enqueue (lf : Leaf) (u : LeafUnit) (op : UnitOp) : Leaf :=
  { lf.countIssue u with queue := lf.queue ++ [⟨u, 0, 0, 0, 0, 0, 0, 0, op, lf.ctx.pc, []⟩] }

/-- Issue of a command of a unit: it waits while the unit's queue is full (03 R92). op gives the command from the registers as they
stand; the unit runs it later (03 R94). -/
def State.issueUnit (s : State) (l : Nat) (g : Guard) (u : LeafUnit) (uses : List RegRef) (op : Leaf → UnitOp) :
    Host.Outcome State Fault Refusal :=
  s.issue l g uses (fun s =>
    if (s.leaf l).hasRoom u 0 then .done (s.modLeaf l (fun lf => lf.enqueue u (op lf))) else .queueWait)

/-! ### Streams -/

/-- One more freed credit of a source. -/
def credFree (t : Tab Credit) (src : Nat) (beat : Bool) : Tab Credit :=
  tmod Credit.empty t src (fun c => if beat then { c with freedB := c.freedB + 1 } else { c with freedT := c.freedT + 1 })

/-- Credits freed at a destination for its source's segment (04 R130). -/
def State.freeCredit (s : State) (b src : Nat) (beat : Bool) : State :=
  s.modBranch b (fun x => { x with credits := credFree x.credits src beat })

/-- The first uncompleted stream command of a port. -/
def streamHead (u : LeafUnit) (port : Nat) (q : List UnitCmd) : Option (Nat × UnitCmd) :=
  findIdx (fun c => c.unit == u && c.port == port && decide (0 < c.left)) q 0

/-! ### Control instructions -/

/-- LOOP, BR, MOVC, FENCE, END and the completion of a unit command (03 R94, R96-R98). -/
def State.execLoopAt (s : State) (l : Nat) (g : Guard) (c : BitVec 2) (len : BitVec 9) (eosp : BitVec 3) (uses : List RegRef)
    (n : Leaf → Word) : Host.Outcome State Fault Refusal :=
  let port : Option Nat := if eosp = 0 then none else some (eosp.toNat - 1)
  s.issueWith l g uses (fun s => .done s) (fun lf =>
    let pc := lf.ctx.pc
    let trips := (n lf).toNat
    if trips = 0 then
      match lf.sendEnds port.toList with
      | none => none
      | some lf1 => lf1.advanceFrom (pc + 1 + len.toNat)
    else
      (lf.modCtx (fun x => { x with loops := ⟨c.toNat, pc + 1, pc + 1 + len.toNat, 0, trips, port⟩ :: x.loops })).advanceFrom pc)

/-- The iteration index of an active counter, 0 of an inactive one (03 R96). -/
def loopIndex (c : Nat) (fs : List LoopFrame) : Nat :=
  match fs.find? (fun f => f.counter == c) with
  | some f => f.index
  | none => 0

/-- Execution of LOOP (03 R96, R97). -/
def execLoop (l : Nat) (g : Guard) (c : BitVec 2) (len : BitVec 9) (eosp : BitVec 3) (ra : BitVec 5) (i : Bool) (imm : Word)
    (s : State) : Host.Outcome State Fault Refusal :=
  if 4 < eosp.toNat then .refused .reservedLeafCode
  else s.execLoopAt l g c len eosp (immUses i ra) (fun lf => if i then imm else lf.reg ra)

/-- Execution of BR (03 R120). -/
def execBr (l : Nat) (g : Guard) (target : BitVec 9) (s : State) : Host.Outcome State Fault Refusal :=
  s.issueWith l g [] (fun s => .done s)
    (fun lf => some { lf.modCtx (fun c => { c with pc := target.toNat }) with mode := .run })

/-- Execution of MOVC (03 R96). -/
def execMovc (l : Nat) (g : Guard) (rd : BitVec 5) (c : BitVec 2) (s : State) : Host.Outcome State Fault Refusal :=
  s.issueReg l g [.g rd] (fun lf => lf.setReg rd (BitVec.ofNat 32 (loopIndex c.toNat lf.ctx.loops)))

/-- Execution of FENCE (03 R94): while a named unit has a command, the sequencer is held at the FENCE. -/
def execFence (l : Nat) (g : Guard) (units : BitVec 6) (s : State) : Host.Outcome State Fault Refusal :=
  s.issueWith l g [] (fun s => .done s)
    (fun lf => if fenceHolds units lf.queue then some { lf with block := .fence units, mode := .run } else lf.advance)

/-- Execution of END (03 R84). -/
def execEnd (l : Nat) (g : Guard) (s : State) : Host.Outcome State Fault Refusal :=
  s.issueWith l g [] (fun s => .done s) (fun lf => some { lf.beginEnd with mode := .run })

/-- Execution of NOP (03 R119). -/
def execNop (l : Nat) (g : Guard) (s : State) : Host.Outcome State Fault Refusal := s.issueReg l g [] (fun lf => lf)

/-- The unit a number names, in the order of FENCE's mask (03 R120). -/
def unitOf (n : Nat) : LeafUnit :=
  if n = 0 then .matrix else if n = 1 then .vector else if n = 2 then .reduction else if n = 3 then .streamOut
  else if n = 4 then .streamIn else .packet

/-- A stream command is complete: no beats left and, for SEND, its last beat has departed; every
response of a packet access has arrived (03 R94). -/
def Leaf.cmdReady (lf : Leaf) (c : UnitCmd) : Bool :=
  match c.unit with
  | .streamOut => c.left == 0 && decide (c.upto ≤ (lf.outPort c.port).leftBeats)
  | .streamIn => c.left == 0
  | .packet => c.left == 0
  | _ => true

/-- Count a completed command (03 R102). -/
def Leaf.countDone (lf : Leaf) : LeafUnit → Leaf
  | .matrix => { lf with doneM := lf.doneM + 1 }
  | .vector => { lf with doneV := lf.doneV + 1 }
  | _ => lf

end Sys2Proof.Machine
end

