-- ==== Sys2Proof/Machine/LeafScalar.lean ====
section
/-! DEFINITION. Scalar, predicate, LD/ST and token instructions of leaf code (03 R99-R102, R114, R120). -/

namespace Sys2Proof.Machine

/-- The two-operand scalar shape: RD takes a function of RA and the second operand (03 R120). -/
def State.issueAlu (s : State) (l : Nat) (g : Guard) (rd ra : BitVec 5) (o : Opd) (f : Word → Word → Word) :
    Host.Outcome State Fault Refusal :=
  s.issueReg l g ([.g rd, .g ra] ++ opdUses o) (fun lf => lf.setReg rd (f (lf.reg ra) (lf.opd o)))

def aluAdd (a b : Word) : Word := a + b
def aluSub (a b : Word) : Word := a - b
def aluMul (a b : Word) : Word := a * b
def aluAnd (a b : Word) : Word := a &&& b
def aluOr (a b : Word) : Word := a ||| b
def aluXor (a b : Word) : Word := a ^^^ b
/-- Shifts use bits [4:0] of the operand (03 R120). -/
def aluShl (a b : Word) : Word := a <<< (b.toNat % 32)
def aluShr (a b : Word) : Word := a >>> (b.toNat % 32)
def aluSar (a b : Word) : Word := a.sshiftRight (b.toNat % 32)
def aluMin (a b : Word) : Word := if a.slt b then a else b
def aluMax (a b : Word) : Word := if a.slt b then b else a
def aluMinu (a b : Word) : Word := if a.ult b then a else b
def aluMaxu (a b : Word) : Word := if a.ult b then b else a

/-- ADD (03 R120). -/
def execAdd (l : Nat) (g : Guard) (rd ra : BitVec 5) (o : Opd) (s : State) : Host.Outcome State Fault Refusal :=
  s.issueAlu l g rd ra o aluAdd
/-- SUB (03 R120). -/
def execSub (l : Nat) (g : Guard) (rd ra : BitVec 5) (o : Opd) (s : State) : Host.Outcome State Fault Refusal :=
  s.issueAlu l g rd ra o aluSub
/-- MUL, the low 32 bits (03 R120). -/
def execMul (l : Nat) (g : Guard) (rd ra : BitVec 5) (o : Opd) (s : State) : Host.Outcome State Fault Refusal :=
  s.issueAlu l g rd ra o aluMul
/-- AND (03 R120). -/
def execAnd (l : Nat) (g : Guard) (rd ra : BitVec 5) (o : Opd) (s : State) : Host.Outcome State Fault Refusal :=
  s.issueAlu l g rd ra o aluAnd
/-- OR (03 R120). -/
def execOr (l : Nat) (g : Guard) (rd ra : BitVec 5) (o : Opd) (s : State) : Host.Outcome State Fault Refusal :=
  s.issueAlu l g rd ra o aluOr
/-- XOR (03 R120). -/
def execXor (l : Nat) (g : Guard) (rd ra : BitVec 5) (o : Opd) (s : State) : Host.Outcome State Fault Refusal :=
  s.issueAlu l g rd ra o aluXor
/-- SHL (03 R120). -/
def execShl (l : Nat) (g : Guard) (rd ra : BitVec 5) (o : Opd) (s : State) : Host.Outcome State Fault Refusal :=
  s.issueAlu l g rd ra o aluShl
/-- SHR (03 R120). -/
def execShr (l : Nat) (g : Guard) (rd ra : BitVec 5) (o : Opd) (s : State) : Host.Outcome State Fault Refusal :=
  s.issueAlu l g rd ra o aluShr
/-- SAR (03 R120). -/
def execSar (l : Nat) (g : Guard) (rd ra : BitVec 5) (o : Opd) (s : State) : Host.Outcome State Fault Refusal :=
  s.issueAlu l g rd ra o aluSar
/-- MIN, signed (03 R120). -/
def execMin (l : Nat) (g : Guard) (rd ra : BitVec 5) (o : Opd) (s : State) : Host.Outcome State Fault Refusal :=
  s.issueAlu l g rd ra o aluMin
/-- MAX, signed (03 R120). -/
def execMax (l : Nat) (g : Guard) (rd ra : BitVec 5) (o : Opd) (s : State) : Host.Outcome State Fault Refusal :=
  s.issueAlu l g rd ra o aluMax
/-- MINU (03 R120). -/
def execMinu (l : Nat) (g : Guard) (rd ra : BitVec 5) (o : Opd) (s : State) : Host.Outcome State Fault Refusal :=
  s.issueAlu l g rd ra o aluMinu
/-- MAXU (03 R120). -/
def execMaxu (l : Nat) (g : Guard) (rd ra : BitVec 5) (o : Opd) (s : State) : Host.Outcome State Fault Refusal :=
  s.issueAlu l g rd ra o aluMaxu
/-- MOV: RD takes the second operand (03 R120). -/
def execMov (l : Nat) (g : Guard) (rd : BitVec 5) (o : Opd) (s : State) : Host.Outcome State Fault Refusal :=
  s.issueReg l g (.g rd :: opdUses o) (fun lf => lf.setReg rd (lf.opd o))

/-- CMP's conditions: 0 EQ, 1 NE, 2 LT, 3 LE, 4 LTU, 5 LEU (03 R120). -/
def cmpHolds (cond : BitVec 3) (a b : Word) : Bool :=
  if cond = 0 then a == b else if cond = 1 then a != b else if cond = 2 then a.slt b else if cond = 3 then a.sle b
  else if cond = 4 then a.ult b else a.ule b

/-- All ones or zero. -/
def maskWord (b : Bool) : Word := if b then 0xFFFFFFFF else 0

/-- CMP (03 R120); COND 6 and 7 are not listed (03 R121). -/
def execCmp (l : Nat) (g : Guard) (pd cond : BitVec 3) (ra : BitVec 5) (o : Opd) (s : State) :
    Host.Outcome State Fault Refusal :=
  if 5 < cond.toNat then .refused .reservedLeafCode
  else s.issueReg l g ([.p pd, .g ra] ++ opdUses o) (fun lf => lf.setPred pd (maskWord (cmpHolds cond (lf.reg ra) (lf.opd o))))

/-- n low ones (03 R120). -/
def lowOnes (n : Nat) : Word := if n < 32 then BitVec.ofNat 32 (2 ^ n - 1) else 0xFFFFFFFF

/-- PMASK (03 R120). -/
def execPmask (l : Nat) (g : Guard) (pd : BitVec 3) (ra : BitVec 5) (i : Bool) (imm : Word) (s : State) :
    Host.Outcome State Fault Refusal :=
  s.issueReg l g (.p pd :: immUses i ra) (fun lf => lf.setPred pd (lowOnes (if i then imm else lf.reg ra).toNat))

/-- PLOG's functions: 0 AND, 1 OR, 2 XOR, 3 PA AND NOT PB (03 R120). -/
def plogFn (fn : BitVec 2) (a b : Word) : Word :=
  if fn = 0 then a &&& b else if fn = 1 then a ||| b else if fn = 2 then a ^^^ b else a &&& ~~~b

/-- PLOG (03 R120). -/
def execPlog (l : Nat) (g : Guard) (pd pa pb : BitVec 3) (fn : BitVec 2) (s : State) : Host.Outcome State Fault Refusal :=
  s.issueReg l g [.p pd, .p pa, .p pb] (fun lf => lf.setPred pd (plogFn fn (lf.pred pa) (lf.pred pb)))

/-- PMOV: DIR 0 P = R, DIR 1 R = P (03 R120). -/
def execPmov (l : Nat) (g : Guard) (p : BitVec 3) (r : BitVec 5) (dir : Bool) (s : State) :
    Host.Outcome State Fault Refusal :=
  s.issueReg l g [.p p, .g r] (fun lf => if dir then lf.setReg r (lf.pred p) else lf.setPred p (lf.reg r))

/-- The address of LD and ST: (RA + IMM) mod 2^18, bits [1:0] ignored (03 R88, R114). -/
def Leaf.scalarAddr (lf : Leaf) (ra : BitVec 5) (imm : Word) : Nat := (lf.reg ra + imm).toNat % 0x40000 / 4 * 4

/-- LD (03 R114). -/
def execLd (l : Nat) (g : Guard) (rd ra : BitVec 5) (imm : Word) (s : State) : Host.Outcome State Fault Refusal :=
  s.issueUnit l g .vector [.g rd, .g ra] (fun lf => .loadWord rd (lf.scalarAddr ra imm))

/-- ST (03 R114). -/
def execSt (l : Nat) (g : Guard) (rd ra : BitVec 5) (imm : Word) (s : State) : Host.Outcome State Fault Refusal :=
  s.issueUnit l g .vector [.g rd, .g ra] (fun lf =>
    let a := lf.scalarAddr ra imm
    .store [(a, leBytes 4 (lf.reg rd).toNat)] false a none 0)

/-- TSEND: a token on an output port; it waits while the queue is full (03 R99, R100). -/
def execTsend (l : Nat) (g : Guard) (port : BitVec 3) (ra : BitVec 5) (i : Bool) (imm : BitVec 16) (s : State) :
    Host.Outcome State Fault Refusal :=
  if 3 < port.toNat then .refused .reservedLeafCode
  else s.issue l g (immUses i ra) (fun s =>
    let lf := s.leaf l
    match lf.sendToken port.toNat (if i then imm else (lf.reg ra).setWidth 16) with
    | none => .portWait
    | some lf1 => .done (s.putLeaf l lf1))

/-- TRECV: the next token word of an input port; it waits while the queue is empty (03 R99, R100). -/
def execTrecv (l : Nat) (g : Guard) (rd : BitVec 5) (port : BitVec 3) (s : State) : Host.Outcome State Fault Refusal :=
  if 3 < port.toNat then .refused .reservedLeafCode
  else s.issue l g [.g rd] (fun s =>
    let lf := s.leaf l
    let p := lf.inPort port.toNat
    match p.tokens with
    | [] => .portWait
    | t :: rest =>
      .done ((s.putLeaf l ((lf.setIn port.toNat { p with tokens := rest }).setReg rd t.word)).freeCredit (l / 64) t.src false))

/-- The count operand of SEND and RECV (03 R102, R120). -/
def Leaf.beatCount (lf : Leaf) (rn : BitVec 5) (i : Bool) (imm : BitVec 16) : Nat :=
  if i then imm.toNat else (lf.reg rn).toNat

end Sys2Proof.Machine
end

