-- ==== Sys2Proof/Machine/SpecialFn.lean ====
section
/-! DEFINITION. The special functions (02 R78): exact values in fixed point, and results held to the table's error bounds. -/

namespace Sys2Proof.Machine

/-- Fraction bits of the fixed-point values below, far beyond what an FP32 result can show. -/
def fx : Nat := 400
/-- 1 in fixed point. -/
def fxOne : Int := 2 ^ 400
/-- Product in fixed point. -/
def fxMul (a b : Int) : Int := (a * b) / fxOne

/-- The largest r with r * r at most n, bit by bit from bit k - 1 down. -/
def isqrtBits (n : Nat) : Nat → Nat → Nat
  | 0, r => r
  | k + 1, r => if (r + 2 ^ k) * (r + 2 ^ k) ≤ n then isqrtBits n k (r + 2 ^ k) else isqrtBits n k r

/-- Sum of z^n / n! from the n-th term on. -/
def expTerms (z : Int) : Nat → Nat → Int → Int
  | 0, _, _ => 0
  | k + 1, n, t => t + expTerms z k (n + 1) (fxMul t z / (n : Int))
/-- n squarings. -/
def fxSquare : Nat → Int → Int
  | 0, x => x
  | n + 1, x => fxSquare n (fxMul x x)
/-- e^x. -/
def fxExp (x : Int) : Int := fxSquare 10 (expTerms (x / 1024) 80 1 fxOne)

/-- Sum of (sg z z)^k z / (2k + 1), k from n on: atanh for sg 1, atan for sg -1. -/
def atanTerms (zz sg : Int) : Nat → Nat → Int → Int
  | 0, _, _ => 0
  | k + 1, n, t => t / ((2 * n + 1 : Nat) : Int) + atanTerms zz sg k (n + 1) (sg * fxMul t zz)
def fxAtanh (z : Int) : Int := atanTerms (fxMul z z) 1 140 0 z
def fxAtan (z : Int) : Int := atanTerms (fxMul z z) (-1) 100 0 z
/-- The natural logarithm of 2. -/
def fxLn2 : Int := 2 * fxAtanh (fxOne / 3)
/-- ln (m * 2^e), m above 0. -/
def fxLog (m : Nat) (e : Int) : Int :=
  let k := Nat.log2 m
  let d : Int := (m : Int) - (2 ^ k : Nat)
  2 * fxAtanh (d * fxOne / ((m + 2 ^ k : Nat) : Int)) + (e + k) * fxLn2

/-- The square root of pi. -/
def fxSqrtPi : Int := isqrtBits ((16 * fxAtan (fxOne / 5) - 4 * fxAtan (fxOne / 239)).toNat * 2 ^ 400) 402 0
/-- Sum of (-xx)^k x / (k! (2k + 1)), k from n on. -/
def erfTerms (xx : Int) : Nat → Nat → Int → Int
  | 0, _, _ => 0
  | k + 1, n, t => t / ((2 * n + 1 : Nat) : Int) + erfTerms xx k (n + 1) (-(fxMul t xx) / ((n + 1 : Nat) : Int))
/-- erf x. -/
def fxErf (x : Int) : Int := 2 * erfTerms (fxMul x x) 230 0 x * fxOne / fxSqrtPi

/-- The exact value of a special function at (-1)^neg * m * 2^e, in fixed point (02 R78): 0 EXP, 1 LOG, 2 RCP, 3 RSQRT, 4 TANH, 5 ERF. -/
def fxSpecial (fn : Nat) (neg : Bool) (m : Nat) (e : Int) : Int :=
  let x := inUnits neg m e (-400)
  let up := (2 : Nat) ^ (400 - e).toNat
  if fn = 0 then fxExp x
  else if fn = 1 then fxLog m e
  else if fn = 2 then (let r : Int := (up / m : Nat); if neg then -r else r)
  else if fn = 3 then isqrtBits (up * 2 ^ 400 / m) 560 0
  else if fn = 4 then fxOne - 2 * fxOne * fxOne / (fxExp (2 * x) + fxOne)
  else fxErf x

/-- The largest error 02 R78 allows where the correctly rounded result is r, in fixed point: ulps of r (an ulp of a subnormal is 2^-149), or
the absolute bound of EXP and LOG. -/
def specialBound (fn : Nat) (w r : Word) : Int :=
  let ex := r.toNat / 2 ^ 23 % 256
  let ulp : Int := (2 ^ (250 + (if ex = 0 then 1 else ex)) : Nat)
  if fn = 0 then (if ex = 0 then ulp else 2 * ulp)
  else if fn = 1 then (if 0x3F700000 ≤ w.toNat ∧ w.toNat ≤ 0x3F880000 then (2 ^ 376 : Nat) else 2 * ulp)
  else if fn = 2 ∨ fn = 3 then ulp
  else 2 * ulp

/-- A result that the table bounds: the open constant Config.special where it lies within the bound of the exact value, else the correctly
rounded result (log entry 10). -/
def boundedSpecial (fn : Nat) (w : Word) : Word :=
  match ofFp32 w with
  | .fin neg m e =>
    let v := fxSpecial fn neg m e
    let best := (toFp32 (.fin (decide (v < 0)) v.natAbs (-400))).1
    match ofFp32 (Config.special fn w), ofFp32 best with
    | .fin n' m' e', .fin _ _ _ =>
      if (inUnits n' m' e' (-400) - v).natAbs ≤ (specialBound fn w best).natAbs then Config.special fn w else best
    | _, _ => best
  | _ => fp32Nan

/-- Special functions of 02 R78: the special results as the table gives them, any other result free within its error bound. A
reciprocal that overflows FP32 is an infinity and sets no flag (DESIGN CHOICE, log entry 10). -/
def special (fn : Nat) (w : Word) : Word × FFlags :=
  let v := ofFp32 w
  let one : Word := 0x3F800000
  let sgn : Word := w &&& 0x80000000
  let neg := sgn != 0
  match v with
  | .nan => (fp32Nan, flNanIn)
  | _ =>
    if fn = 0 then
      (if isZeroV v then (one, 0)
       else if isInfV v then (if neg then 0 else fp32PInf, 0)
       else if gtRatio v 8872284 100000 then (fp32PInf, flOvf)
       else if ltRatio v (-10397909) 100000 then (0, 0)
       else (boundedSpecial 0 w, 0))
    else if fn = 1 then
      (if isZeroV v then (fp32NInf, 0)
       else if neg then (fp32Nan, flInv)
       else if isInfV v then (fp32PInf, 0)
       else if w = one then (0, 0)
       else (boundedSpecial 1 w, 0))
    else if fn = 2 then
      (if isZeroV v then (fp32PInf ||| sgn, 0)
       else if isInfV v then (sgn, 0)
       else (boundedSpecial 2 w, 0))
    else if fn = 3 then
      (if isZeroV v then (fp32PInf ||| sgn, 0)
       else if neg then (fp32Nan, flInv)
       else if isInfV v then (0, 0)
       else (boundedSpecial 3 w, 0))
    else if fn = 4 then
      (if isZeroV v then (w, 0)
       else if absGe v 901 100 then (one ||| sgn, 0)
       else (boundedSpecial 4 w, 0))
    else
      (if isZeroV v then (w, 0)
       else if absGe v 392 100 then (one ||| sgn, 0)
       else (boundedSpecial 5 w, 0))

end Sys2Proof.Machine
end

