-- ==== Sys2Proof/Machine/LeafUnits.lean ====
section
/-! DEFINITION. Matrix, vector and reduction units (02 R60-R73, R77-R79; 03 R103-R113, R117-R118). -/

namespace Sys2Proof.Machine

/-! ### Matrix unit -/

/-- An operand tile: header and the unscaled elements of each row, with the row's scale exponent. -/
structure MatOperand where
  hdr : TileHdr
  rows : List (List Val × Int)

/-- Read an operand tile of leaf memory in a format (03 R103, R106). -/
def matOperand (rd : LeafReader) (a code : Nat) : MatOperand :=
  let h := hdrAt rd a
  ⟨h, (List.range 32).map (fun r =>
    (rowElems code (h.scales.getD r 0) (rowAt rd a code r),
     if isScaled code then ((h.scales.getD r 0).toNat : Int) - 127 else 0))⟩

/-- A finite narrow-group element in units of 2^-16 (02 R63). -/
def narrowInt : Val → Int
  | .fin n m e => inUnits n m e (-16)
  | _ => 0

/-- What 32 element products give (02 R62, R64): the exact sum in units of 2^-32, the special bits, and INV / NANIN. -/
structure BlockAcc where
  sum : Int
  nan : Bool
  pinf : Bool
  ninf : Bool
  fl : FFlags

/-- Add the product of two elements of one K position (02 R62, R64). -/
def BlockAcc.addProd (b : BlockAcc) (x y : Val) : BlockAcc :=
  match x, y with
  | .nan, _ => { b with nan := true, fl := b.fl ||| flNanIn }
  | _, .nan => { b with nan := true, fl := b.fl ||| flNanIn }
  | .fin _ _ _, .fin _ _ _ => { b with sum := b.sum + narrowInt x * narrowInt y }
  | _, _ =>
    match (mulVal x y).1 with
    | .inf false => { b with pinf := true }
    | .inf true => { b with ninf := true }
    | _ => { b with nan := true, fl := b.fl ||| flInv }

/-- The block of one output element; masked K positions contribute exact 0 (02 R62, 03 R104). -/
def exaBlock (kmask : Word) (xs ys : List Val) : BlockAcc :=
  ((List.range 32).filter (maskBit kmask)).foldl
    (fun b k => b.addProd (xs.getD k (.fin false 0 0)) (ys.getD k (.fin false 0 0))) ⟨0, false, false, false, 0⟩

/-- v * 2^sh rounded towards minus infinity (02 R62 step 4). -/
def floorShift (v sh : Int) : Int :=
  if 0 ≤ sh then v * (2 ^ sh.toNat : Nat) else v.fdiv (2 ^ (-sh).toNat : Nat)

/-- Add an exact integer into A modulo 2^96, with the overflow of 02 R65. -/
def accAdd (a : BitVec 96) (c : Int) : BitVec 96 × Bool :=
  let t := a.toInt + c
  (BitVec.ofInt 96 t, decide (t < -(2 ^ 95 : Nat) ∨ (2 ^ 95 : Nat) ≤ t))

/-- One EXA contribution to an accumulator element (02 R62, R64, R65). -/
def AccElem.contribute (e : AccElem) (b : BlockAcc) (sh : Int) : AccElem × FFlags :=
  let r := accAdd e.a (floorShift b.sum sh)
  (⟨r.1, e.nan || b.nan, e.pinf || b.pinf, e.ninf || b.ninf, e.ovf || r.2⟩, b.fl ||| (if r.2 then flAccOvf else 0))

/-- The FP32 word a canonical-mode element holds. -/
def AccElem.word (e : AccElem) : Word := e.a.setWidth 32
/-- A canonical-mode element of an FP32 word. -/
def AccElem.ofWord (w : Word) : AccElem := ⟨w.setWidth 96, false, false, false, false⟩

/-- Block sum of one output element in canonical mode (02 R68, R69). -/
def canonBlock (kmask : Word) (xs ys : List Val) : Word × FFlags :=
  let ps := (List.range 32).map (fun k =>
    if maskBit kmask k then finish32 (mulVal (xs.getD k (.fin false 0 0)) (ys.getD k (.fin false 0 0))) else (0, 0))
  let r := blockSum (ps.map (·.1))
  (r.1, r.2 ||| orFlags ps)

/-- The window of an MMA (02 R63, 03 R105): clamped with INV where a register supplies it. -/
def mmaWindow (scaled wr : Bool) (reg : Word) (imm : BitVec 10) : Int × FFlags :=
  if scaled = false then (-32, 0)
  else if wr then
    (if reg.toInt < -288 then (-288, flInv) else if 192 < reg.toInt then (192, flInv) else (reg.toInt, 0))
  else (imm.toInt, 0)

/-- All elements of an accumulator become NaN (03 R103). -/
def Acc.allNan (a : Acc) : Acc :=
  if a.canonical then { a with elems := tabOf AccElem.empty 1024 (fun _ => AccElem.ofWord fp32Nan) }
  else { a with elems := tabOf AccElem.empty 1024 (fun i => { tget AccElem.empty a.elems i with nan := true }) }

/-- Poison an accumulator; the first reason stands (03 R106). -/
def Acc.addPoison (a : Acc) (why : Option Byte) : Acc :=
  match a.poison with
  | some _ => a
  | none => { a with poison := why }

/-- A position is updated when both output masks hold it (03 R104). -/
def Acc.live (a : Acc) (i : Nat) : Bool := maskBit a.mMask (i / 32) && maskBit a.nMask (i % 32)

/-- One K block into an accumulator whose mode, window and masks are set (03 R103): the elements and the flags. -/
def mmaElems (a : Acc) (init : Bool) (x y : MatOperand) (kmask : Word) : List ((Nat × AccElem) × FFlags) :=
  (List.range 1024).map (fun i =>
    let e := tget AccElem.empty a.elems i
    if a.live i = false then ((i, e), 0)
    else
      let xr := x.rows.getD (i / 32) ([], 0)
      let yr := y.rows.getD (i % 32) ([], 0)
      if a.canonical then
        let r := canonBlock kmask xr.1 yr.1
        if init then ((i, AccElem.ofWord r.1), r.2)
        else
          let q := fp32Add e.word r.1
          ((i, AccElem.ofWord q.1), r.2 ||| q.2)
      else
        let q := e.contribute (exaBlock kmask xr.1 yr.1) (xr.2 + yr.2 - 32 - a.wlsb)
        ((i, q.1), q.2))

/-- Mask of the low n columns (03 R118). -/
def widthMask (n : Nat) : Word := lowOnes n

/-- The effect of an MMA on its accumulator (03 R103-R106): the accumulator and the flags. -/
def mmaAcc (a : Acc) (x y : MatOperand) (canon init : Bool) (wlsb : Int) (masks : Word × Word) (width : Nat)
    (why : Option Byte) : Acc × FFlags :=
  let kmask := x.hdr.colMask &&& y.hdr.colMask
  if init then
    let a0 : Acc := ⟨canon, wlsb, masks.1, masks.2 &&& widthMask width, [], why⟩
    let es := mmaElems a0 true x y kmask
    ({ a0 with elems := (es.map (·.1)).filter (fun p => decide (p.2 ≠ AccElem.empty)) }, orFlags es)
  else
    let a0 := a.addPoison why
    if a.canonical ≠ canon ∨ (canon = false ∧ a.wlsb ≠ wlsb) then (a0.allNan, flInv)
    else
      let es := mmaElems a0 false x y kmask
      ({ a0 with elems := (es.map (·.1)).filter (fun p => decide (p.2 ≠ AccElem.empty)) }, orFlags es)

/-- Operand rules of an MMA that no loaded image breaks (02 R42, R60; 03 R105, R121). -/
def mmaWf (fa fb : BitVec 5) (wr : Bool) (wlsb : BitVec 10) : Bool :=
  let scaled := isScaled fa.toNat || isScaled fb.toNat
  okMatrix fa.toNat && okMatrix fb.toNat && (isWide fa.toNat == isWide fb.toNat) &&
  (if scaled then (wr || (decide (-288 ≤ wlsb.toInt) && decide (wlsb.toInt ≤ 192))) else (!wr && wlsb == 0))

/-- An accumulator after an MMA whose operand headers do not name its formats (03 R103, R106): nothing is computed into it. An
INIT = 1 MMA still restarts it, so that only its own operands mark it (log entry 25); otherwise an earlier reason stands. -/
def mmaMismatch (a : Acc) (canon init : Bool) (wlsb : Int) (masks : Word × Word) (width : Nat) (why : Option Byte) : Acc :=
  if init then ⟨canon, wlsb, masks.1, masks.2 &&& widthMask width, [], why⟩ else a.addPoison why

/-! ### What the units' commands do when they run (03 R103-R113) -/

/-- What a command does when it runs: the bytes it writes to leaf memory, the leaf, a fault (KIND and address, 03 R122), and poison
consumed with the address it is recorded at. -/
structure OpResult where
  writes : List (Nat × List Byte)
  lf : Leaf
  fault : Option (Nat × Nat)
  why : Option Byte
  whyAt : Nat

/-- MMA (03 R103-R106). -/
def runMma (lf : Leaf) (rd : LeafReader) (ac : BitVec 2) (a b fa fb : Nat) (init : Bool) (wlsb : Int) (wfl : FFlags)
    (masks : Option (Word × Word)) : OpResult :=
  let x := matOperand rd a fa
  let y := matOperand rd b fb
  let m := masks.getD (x.hdr.rowMask, y.hdr.rowMask)
  let why := firstWhy [x.hdr.whyAs fa, y.hdr.whyAs fb]
  let at0 := if (x.hdr.whyAs fa).isSome then a else b
  if x.hdr.fmt ≠ fa ∨ y.hdr.fmt ≠ fb then
    ⟨[], (lf.setAcc ac (mmaMismatch (lf.acc ac) (isWide fa) init wlsb m lf.mw why)).addFlags (if init then wfl else 0),
     some (2, if x.hdr.fmt ≠ fa then a else b), why, at0⟩
  else
    let r := mmaAcc (lf.acc ac) x y (isWide fa) init wlsb m lf.mw why
    ⟨[], (lf.setAcc ac r.1).addFlags (r.2 ||| wfl), none, why, at0⟩

/-- MMA (03 R103-R106). -/
def execMma (l : Nat) (g : Guard) (ac : BitVec 2) (ra rb fa fb : BitVec 5) (init ms : Bool) (pm pn : BitVec 3) (wr : Bool)
    (rw : BitVec 5) (wlsb : BitVec 10) (s : State) : Host.Outcome State Fault Refusal :=
  if mmaWf fa fb wr wlsb = false then .refused .reservedLeafCode
  else s.issueUnit l g .matrix ([.g ra, .g rb] ++ (if ms then [.p pm, .p pn] else []) ++ (if wr then [.g rw] else [])) (fun lf =>
    let w := mmaWindow (isScaled fa.toNat || isScaled fb.toNat) wr (lf.reg rw) wlsb
    .mma ac (lineOf (lf.reg ra).toNat) (lineOf (lf.reg rb).toNat) fa.toNat fb.toNat init w.1 w.2
      (if ms then some (lf.pred pm, lf.pred pn) else none))

/-- What an EXA element converts from (02 R66): the value, and the INV of a NaN that arises from non-NaN bits. -/
def AccElem.exaVal (e : AccElem) (wlsb : Int) : Val × FFlags :=
  if e.ovf then (.nan, flInv)
  else if e.nan then (.nan, flNanIn)
  else if e.pinf && e.ninf then (.nan, flInv)
  else if e.pinf then (.inf false, 0)
  else if e.ninf then (.inf true, 0)
  else (.fin (decide (e.a.toInt < 0)) e.a.toInt.natAbs wlsb, 0)

/-- Convert an element of an accumulator to an unscaled output (02 R66): a NaN state gives 0 as an integer. -/
def AccElem.convert (canon : Bool) (wlsb : Int) (fo : Elem) (sat : Bool) (e : AccElem) : Nat × FFlags :=
  if canon then encElem fo sat (ofFp32 e.word)
  else
    let v := e.exaVal wlsb
    match v.1 with
    | .nan =>
      match fo with
      | .flt f => (canonNan f, v.2)
      | _ => (0, v.2 ||| flInv)
    | x => encElem fo sat x

/-- The ACC96 container of an element (02 R67). -/
def AccElem.container (e : AccElem) (wlsb : Int) : Nat :=
  e.a.toNat + 2 ^ 96 * (BitVec.ofInt 16 wlsb).toNat +
  2 ^ 112 * ((if e.nan then 1 else 0) + (if e.pinf then 2 else 0) + (if e.ninf then 4 else 0) + (if e.ovf then 8 else 0))

/-- Read an ACC96 container (02 R67): the element and its window. -/
def unContainer (x : Nat) : AccElem × Int :=
  (⟨BitVec.ofNat 96 x, x.testBit 112, x.testBit 113, x.testBit 114, x.testBit 115⟩, (BitVec.ofNat 16 (x / 2 ^ 96)).toInt)

/-- One output row of ACCOUT: scale, bytes, flags (03 R107; masked positions +0). -/
def Acc.outRow (a : Acc) (fo : Nat) (sat : Bool) (r : Nat) : Byte × List Byte × FFlags :=
  let idx := (List.range 32).map (fun c => r * 32 + c)
  match formatOf fo with
  | .plain e .unscaled =>
    let cs := idx.map (fun i =>
      if a.live i then (tget AccElem.empty a.elems i).convert a.canonical a.wlsb e sat else (0, 0))
    (0, packRow (elemBits e) (cs.map (·.1)), orFlags cs)
  | .plain e _ =>
    let vs := idx.map (fun i =>
      if a.live i then
        (let x := tget AccElem.empty a.elems i
         if a.canonical then (ofFp32 x.word, (0 : FFlags)) else x.exaVal a.wlsb)
      else (.fin false 0 0, 0))
    let b := encBlock e (vs.map (·.1))
    (BitVec.ofNat 8 b.1, packRow (elemBits e) b.2.1, b.2.2 ||| (orFlags vs &&& flInv))
  | _ =>
    (0, packRow 128 (idx.map (fun i =>
      (if a.live i then tget AccElem.empty a.elems i else AccElem.empty).container a.wlsb)), 0)

/-- ACCOUT: the bytes of the tile, the flags, and whether the format is not permitted (03 R107). -/
def Acc.outTile (a : Acc) (fo : Nat) (sat : Bool) (seq : Word) : List Byte × FFlags × Bool :=
  let ok := if a.canonical then okCanonOut fo else okExaOut fo
  let rows := (List.range 32).map (fun r => a.outRow fo sat r)
  let why := if ok then a.poison else (match a.poison with | some r => some r | none => some 0x01)
  let h : TileHdr :=
    { fmt := fo, poison := why.isSome, cv := false, reason := why.getD 0, rowMask := a.mMask, colMask := a.nMask, seq := seq,
      check := 0, tileRow := 0, tileCol := 0, scales := if ok then rows.map (·.1) else [] }
  if ok then (hdrBytes h ++ (rows.map (fun r => r.2.1)).flatten, rows.foldl (fun f r => f ||| r.2.2) 0, false)
  else (hdrBytes h ++ List.replicate (32 * rowBytes fo) 0, 0, true)

/-- ACCOUT (03 R107): the tile at its address, an unpermitted format recorded with KIND 3. -/
def runAccout (lf : Leaf) (ac : BitVec 2) (a fo : Nat) (sat : Bool) (seq : Word) : OpResult :=
  let t := (lf.acc ac).outTile fo sat seq
  ⟨[(a, t.1)], lf.addFlags t.2.1, if t.2.2 then some (3, a) else none, none, a⟩

/-- ACCOUT (03 R107); an FO reserved or without storage is refused at load (03 R121). -/
def execAccout (l : Nat) (g : Guard) (ac : BitVec 2) (rd fo : BitVec 5) (sat : Bool) (rs : BitVec 5) (s : State) :
    Host.Outcome State Fault Refusal :=
  if okExaOut fo.toNat = false then .refused .reservedLeafCode
  else s.issueUnit l g .matrix [.g rd, .g rs] (fun lf => .accout ac (lineOf (lf.reg rd).toNat) fo.toNat sat (lf.reg rs))

/-- Combine an ACC96 container into an EXA element (02 R67): unequal windows give NAN and INV. -/
def AccElem.combine (e : AccElem) (wlsb : Int) (c : AccElem × Int) : AccElem × FFlags :=
  if c.2 ≠ wlsb then ({ e with nan := true }, flInv)
  else
    let r := accAdd e.a c.1.a.toInt
    (⟨r.1, e.nan || c.1.nan, e.pinf || c.1.pinf, e.ninf || c.1.ninf, e.ovf || c.1.ovf || r.2⟩, if r.2 then flAccOvf else 0)

/-- The flags of the elements in columns that are below the output width and not masked (03 R118). -/
def columnFlags (width : Nat) (nMask : Word) (es : List (AccElem × FFlags)) : FFlags :=
  (List.range es.length).foldl (fun f i =>
    if i % 32 < width ∧ maskBit nMask (i % 32) = true then f ||| (es.getD i (AccElem.empty, 0)).2 else f) 0

/-- The effect of ACCIN on its accumulator when FORMAT equals FI (03 R108). A NaN loaded sets no flag here: it is consumed by the
addition or conversion that reads it (log entry 18). -/
def accinAcc (a : Acc) (h : TileHdr) (raws : List Nat) (fp32 add : Bool) (width : Nat) : Acc × FFlags :=
  let fin := fun (es : List (AccElem × FFlags)) =>
    (tabOf AccElem.empty 1024 (fun i => (es.getD i (AccElem.empty, 0)).1))
  if fp32 then
    (⟨true, -32, h.rowMask, h.colMask, fin (raws.map (fun x => (AccElem.ofWord (BitVec.ofNat 32 x), 0))), h.why⟩, 0)
  else if add = false then
    let w0 := (unContainer (raws.headD 0)).2
    let es := raws.map (fun x =>
      let c := unContainer x
      if c.2 ≠ w0 then ({ c.1 with nan := true }, flInv) else (c.1, (0 : FFlags)))
    (⟨false, w0, h.rowMask, h.colMask, fin es, h.why⟩, columnFlags width h.colMask es)
  else if a.canonical then
    ({ (a.addPoison h.why).allNan with mMask := h.rowMask, nMask := h.colMask }, flInv)
  else
    let es := (List.range 1024).map (fun i => (tget AccElem.empty a.elems i).combine a.wlsb (unContainer (raws.getD i 0)))
    ({ a.addPoison h.why with elems := fin es, mMask := h.rowMask, nMask := h.colMask }, columnFlags width h.colMask es)

/-- ACCIN (03 R108). -/
def runAccin (lf : Leaf) (rd : LeafReader) (ac : BitVec 2) (a fi : Nat) (add : Bool) : OpResult :=
  let h := hdrAt rd a
  if h.fmt ≠ fi then ⟨[], lf.setAcc ac ((lf.acc ac).addPoison (h.whyAs fi)), some (2, a), h.whyAs fi, a⟩
  else
    let raws := unpackRow (codeBits fi) (rd (a + 64) (32 * rowBytes fi)) 1024
    let r := accinAcc (lf.acc ac) h raws (fi = 0) add lf.mw
    ⟨[], (lf.setAcc ac r.1).addFlags r.2, none, h.why, a⟩

/-- ACCIN (03 R108). -/
def execAccin (l : Nat) (g : Guard) (ac : BitVec 2) (ra fi : BitVec 5) (add : Bool) (s : State) :
    Host.Outcome State Fault Refusal :=
  if (fi = 0 ∧ add = false ∨ fi = 30) = false then .refused .reservedLeafCode
  else s.issueUnit l g .matrix [.g ra] (fun lf => .accin ac (lineOf (lf.reg ra).toNat) fi.toNat add)

/-! ### Vector unit -/

/-- Flags of the lanes below the vector width (03 R118). -/
def laneFlags (vw : Nat) (f : Nat → Word × FFlags) : FFlags := (List.range vw).foldl (fun x l => x ||| (f l).2) 0

/-- The command of a vector result computed from registers: lanes at or above the vector width are +0 and set no flag (03 R111, R118). -/
def Leaf.vecOp (lf : Leaf) (vd : BitVec 4) (f : Nat → Word × FFlags) (why : Option Byte) : UnitOp :=
  .vector vd (tabOf 0 64 (fun i => if i < lf.vw then (f i).1 else 0)) why (laneFlags lf.vw f)

/-- A vector register written from flagged lanes, with the poison it consumes (03 R111, R118). -/
def vecResult (lf : Leaf) (vd : BitVec 4) (f : Nat → Word × FFlags) (why : Option Byte) (at0 : Nat) : OpResult :=
  ⟨[], (lf.setVreg vd (fun i => (f i).1) why).addFlags (laneFlags lf.vw f), none, why, at0⟩

/-- VOP's lane function (03 R109): 0 ADD, 1 SUB, 2 MUL, 3 FMA, 4 MIN, 5 MAX, 6 SEL, 7 MOV. SEL and MOV copy the word, a NaN's bits
included, and set no flag (DESIGN CHOICE, log entry 18). -/
def vopLane (fn : Nat) (sel : Bool) (a b c : Word) : Word × FFlags :=
  if fn = 0 then fp32Add a b else if fn = 1 then fp32Sub a b else if fn = 2 then fp32Mul a b
  else if fn = 3 then fp32Fma a b c else if fn = 4 then fp32Min a b else if fn = 5 then fp32Max a b
  else if fn = 6 then (if sel then a else b, 0) else (a, 0)

/-- Lane l's selection bit: bit (l mod 32) of p[PS + l / 32] (03 R109). -/
def Leaf.selBit (lf : Leaf) (ps : BitVec 3) (i : Nat) : Bool :=
  maskBit (if i < 32 then lf.pred ps else lf.pred (ps + 1)) (i % 32)

/-- VOP (03 R109, R111). -/
def execVop (l : Nat) (g : Guard) (vd va vb vc fn : BitVec 4) (ps : BitVec 3) (s : State) :
    Host.Outcome State Fault Refusal :=
  if 7 < fn.toNat ∨ (fn = 6 ∧ ps.toNat % 2 = 1) then .refused .reservedLeafCode
  else s.issueUnit l g .vector ([.v vd, .v va] ++ (if fn = 7 then [] else [.v vb]) ++ (if fn = 3 then [.v vc] else []) ++
      (if fn = 6 then [.p ps, .p (ps + 1)] else [])) (fun lf =>
    let a := lf.vreg va
    let b := lf.vreg vb
    let c := lf.vreg vc
    let why := firstWhy ([a.poison] ++ (if fn = 7 then [] else [b.poison]) ++ (if fn = 3 then [c.poison] else []))
    lf.vecOp vd (fun i => vopLane fn.toNat (lf.selBit ps i) (a.lane i) (b.lane i) (c.lane i)) why)

/-- A predicate word of 32 lane conditions from lane lo on. -/
def predWord (lo : Nat) (f : Nat → Bool) : Word :=
  BitVec.ofNat 32 ((List.range 32).foldl (fun x i => if f (lo + i) then x + 2 ^ i else x) 0)

/-- VCMP (03 R109, R118): lanes 0-31 to p[PD], 32-63 to p[PD + 1]. -/
def execVcmp (l : Nat) (g : Guard) (pd : BitVec 3) (va vb : BitVec 4) (cond : BitVec 3) (s : State) :
    Host.Outcome State Fault Refusal :=
  if 6 < cond.toNat ∨ pd.toNat % 2 = 1 then .refused .reservedLeafCode
  else s.issueUnit l g .vector [.p pd, .p (pd + 1), .v va, .v vb] (fun lf =>
    let a := lf.vreg va
    let b := lf.vreg vb
    let f := fun i => decide (i < lf.vw) && fp32Cond cond.toNat (a.lane i) (b.lane i)
    let nan := fun i => ((0 : Word), if isNanV (ofFp32 (a.lane i)) || isNanV (ofFp32 (b.lane i)) then flNanIn else (0 : FFlags))
    .compare pd (predWord 0 f) (predWord 32 f) (firstWhy [a.poison, b.poison]) (laneFlags lf.vw nan))

/-- VSF (02 R78, 03 R109): 0 EXP, 1 LOG, 2 RCP, 3 RSQRT, 4 TANH, 5 ERF. -/
def execVsf (l : Nat) (g : Guard) (vd va fn : BitVec 4) (s : State) : Host.Outcome State Fault Refusal :=
  if 5 < fn.toNat then .refused .reservedLeafCode
  else s.issueUnit l g .vector [.v vd, .v va] (fun lf =>
    let a := lf.vreg va
    lf.vecOp vd (fun i => special fn.toNat (a.lane i)) a.poison)

/-- The tile pair of VLDT and VSTT: PAIR or register RP modulo 16 (03 R110). -/
def Leaf.pairOf (lf : Leaf) (rp : BitVec 5) (pr : Bool) (pair : BitVec 4) : Nat :=
  if pr then (lf.reg rp).toNat % 16 else pair.toNat

/-- VLDT (03 R110): a header of another format gives +0 lanes and poison. -/
def runLoadTile (lf : Leaf) (rd : LeafReader) (vd : BitVec 4) (a fi q : Nat) : OpResult :=
  let h := hdrAt rd a
  if h.fmt ≠ fi then ⟨[], lf.setVreg vd (fun _ => 0) (h.whyAs fi), some (2, a), h.whyAs fi, a⟩
  else
    let r0 := rowVals fi (h.scales.getD (2 * q) 0) (rowAt rd a fi (2 * q))
    let r1 := rowVals fi (h.scales.getD (2 * q + 1) 0) (rowAt rd a fi (2 * q + 1))
    let vs := r0 ++ r1
    vecResult lf vd (fun i => loadVal (vs.getD i (.fin false 0 0))) h.why a

/-- VLDT (03 R110). -/
def execVldt (l : Nat) (g : Guard) (vd : BitVec 4) (ra fi rp : BitVec 5) (pr : Bool) (pair : BitVec 4) (s : State) :
    Host.Outcome State Fault Refusal :=
  if okVector fi.toNat = false then .refused .reservedLeafCode
  else s.issueUnit l g .vector ([.v vd, .g ra] ++ (if pr then [.g rp] else [])) (fun lf =>
    .loadTile vd (lineOf (lf.reg ra).toNat) fi.toNat (lf.pairOf rp pr pair))

/-- One stored row: scale, bytes, flags (02 R55-R58, 03 R110). -/
def storeRow (fo : Nat) (sat : Bool) (ws : List Word) : Byte × List Byte × FFlags :=
  match formatOf fo with
  | .plain e .unscaled =>
    let cs := ws.map (fun w => encElem e sat (ofFp32 w))
    (0, packRow (elemBits e) (cs.map (·.1)), orFlags cs)
  | .plain e _ =>
    let b := encBlock e (ws.map ofFp32)
    (BitVec.ofNat 8 b.1, packRow (elemBits e) b.2.1, b.2.2)
  | _ => (0, [], 0)

/-- The bytes of a store with the poison flag of the header at a where it is to be marked: no other header field is written
(03 R110). -/
def storeWrites (rd : LeafReader) (ws : List (Nat × List Byte)) (mark : Bool) (a : Nat) (poison : Option Byte) : List (Nat × List Byte) :=
  if mark && poison.isSome then ws ++ [(a + 1, (rd (a + 1) 1).map (· ||| 1))] else ws

/-- VSTT (03 R110). -/
def execVstt (l : Nat) (g : Guard) (vs : BitVec 4) (ra fo : BitVec 5) (sat : Bool) (rp : BitVec 5) (pr : Bool)
    (pair : BitVec 4) (s : State) : Host.Outcome State Fault Refusal :=
  if okVector fo.toNat = false then .refused .reservedLeafCode
  else s.issueUnit l g .vector ([.v vs, .g ra] ++ (if pr then [.g rp] else [])) (fun lf =>
    let a := lineOf (lf.reg ra).toNat
    let q := lf.pairOf rp pr pair
    let v := lf.vreg vs
    let rb := rowBytes fo.toNat
    let r0 := storeRow fo.toNat sat ((List.range 32).map v.lane)
    let r1 := storeRow fo.toNat sat ((List.range 32).map (fun i => v.lane (32 + i)))
    let rows := (a + 64 + 2 * q * rb, r0.2.1 ++ r1.2.1)
    .store (if isScaled fo.toNat then [rows, (a + 32 + 2 * q, [r0.1, r1.1])] else [rows]) true a v.poison (r0.2.2 ||| r1.2.2))

/-- A format VLD and VST permit: unscaled and not ACC96 (03 R110, R121). -/
def okUnscaledVec (code : Nat) : Bool := okVector code && !isScaled code

/-- VLD (03 R110): 64 consecutive elements; it carries no poison of its own (03 R111). -/
def runLoadFlat (lf : Leaf) (rd : LeafReader) (vd : BitVec 4) (a f : Nat) : OpResult :=
  let bs := rd a (8 * codeBits f)
  let vs := rowVals f 127 bs ++ rowVals f 127 (bs.drop (4 * codeBits f))
  vecResult lf vd (fun i => loadVal (vs.getD i (.fin false 0 0))) none a

/-- VLD (03 R110). -/
def execVld (l : Nat) (g : Guard) (v : BitVec 4) (ra f : BitVec 5) (s : State) : Host.Outcome State Fault Refusal :=
  if okUnscaledVec f.toNat = false then .refused .reservedLeafCode
  else s.issueUnit l g .vector [.v v, .g ra] (fun lf => .loadFlat v (lineOf (lf.reg ra).toNat) f.toNat)

/-- VST (03 R110). -/
def execVst (l : Nat) (g : Guard) (v : BitVec 4) (ra f : BitVec 5) (sat : Bool) (s : State) :
    Host.Outcome State Fault Refusal :=
  if okUnscaledVec f.toNat = false then .refused .reservedLeafCode
  else s.issueUnit l g .vector [.v v, .g ra] (fun lf =>
    let a := lineOf (lf.reg ra).toNat
    let x := lf.vreg v
    let r := storeRow f.toNat sat ((List.range 64).map x.lane)
    .store [(a, r.2.1)] false a x.poison r.2.2)

/-- VMOV (03 R109); without CVT the word is copied, a NaN's bits included, and no flag is set (DESIGN CHOICE, log entry 18). -/
def execVmov (l : Nat) (g : Guard) (v : BitVec 4) (r : BitVec 5) (dir : Bool) (lane : BitVec 6) (cvt : Bool) (s : State) :
    Host.Outcome State Fault Refusal :=
  s.issueUnit l g .vector [.v v, .g r] (fun lf =>
    if dir then
      let x := (lf.vreg v).lane lane.toNat
      let c := if cvt then encInt 32 0 (ofFp32 x) else (x.toNat, 0)
      .scalar r (BitVec.ofNat 32 c.1) (lf.vreg v).poison (if lane.toNat < lf.vw then c.2 else 0)
    else
      let w := lf.reg r
      lf.vecOp v (fun _ => if cvt then toFp32 (decInt 32 w.toNat) else (w, 0)) none)

/-- THDR (03 R110). -/
def execThdr (l : Nat) (g : Guard) (ra fmt rs : BitVec 5) (pm pn : BitVec 3) (s : State) :
    Host.Outcome State Fault Refusal :=
  if isReservedCode fmt.toNat then .refused .reservedLeafCode
  else s.issueUnit l g .vector [.g ra, .g rs, .p pm, .p pn] (fun lf =>
    let a := lineOf (lf.reg ra).toNat
    let h : TileHdr :=
      { fmt := fmt.toNat, poison := false, cv := false, reason := 0, rowMask := lf.pred pm, colMask := lf.pred pn,
        seq := lf.reg rs, check := 0, tileRow := 0, tileCol := 0, scales := List.replicate 32 0x7F }
    .store [(a, hdrBytes h)] false a none 0)

/-! ### Reduction unit -/

/-- The identity of RED's function: 0 SUM +0, 1 MAX minus infinity, 2 MIN plus infinity (02 R73, 03 R112). -/
def redIdentity (fn : Nat) : Word := if fn = 0 then 0 else if fn = 1 then fp32NInf else fp32PInf

/-- Reduce one row (03 R112): SUM by the tree of 02 R69, MAX and MIN by 02 R47. -/
def redRow (fn : Nat) (colMask : Word) (vs : List Val) : Word × FFlags :=
  let ws := (List.range 32).map (fun c =>
    if maskBit colMask c then (let r := loadVal (vs.getD c .nan); r) else (redIdentity fn, (0 : FFlags)))
  let fl := orFlags ws
  if fn = 0 then
    let r := blockSum (ws.map (·.1))
    (r.1, r.2 ||| fl)
  else
    ws.foldl (fun a w =>
      let r := if fn = 1 then fp32Max a.1 w.1 else fp32Min a.1 w.1
      (r.1, a.2 ||| r.2)) (redIdentity fn, fl)

/-- RED (03 R112). Lanes 32-63 receive the identity, lanes at or above the vector width +0: where the two meet R118 is followed (DESIGN
CHOICE, log entry 19). -/
def runReduce (lf : Leaf) (rd : LeafReader) (vd : BitVec 4) (a fi fn : Nat) : OpResult :=
  let h := hdrAt rd a
  if h.fmt ≠ fi then ⟨[], lf.setVreg vd (fun _ => 0) (h.whyAs fi), some (2, a), h.whyAs fi, a⟩
  else
    let rows := (List.range 32).map (fun r =>
      if maskBit h.rowMask r then redRow fn h.colMask (rowVals fi (h.scales.getD r 0) (rowAt rd a fi r))
      else (redIdentity fn, (0 : FFlags)))
    vecResult lf vd (fun i => rows.getD i (redIdentity fn, 0)) h.why a

/-- RED (03 R112). -/
def execRed (l : Nat) (g : Guard) (vd : BitVec 4) (ra fi : BitVec 5) (fn : BitVec 2) (s : State) :
    Host.Outcome State Fault Refusal :=
  if okVector fi.toNat = false ∨ 2 < fn.toNat then .refused .reservedLeafCode
  else s.issueUnit l g .reduction [.v vd, .g ra] (fun lf => .reduce vd (lineOf (lf.reg ra).toNat) fi.toNat fn.toNat)

/-- The candidates of a TOPK over a tile (03 R113). -/
def tileCands (h : TileHdr) (e : Elem) (raws : List Nat) : List ((Val × Nat) × Nat) :=
  ((List.range 1024).filter (fun i => maskBit h.rowMask (i / 32) && maskBit h.colMask (i % 32))).map
    (fun i => ((decElem e (raws.getD i 0), i), raws.getD i 0))

/-- The 8-byte records of ranked candidates (03 R113). -/
def topkRecords (cs : List ((Val × Nat) × Nat)) : List Byte :=
  (cs.map (fun c => leBytes 2 c.1.2 ++ [0, 0] ++ leBytes 4 c.2)).flatten

/-- Score formats TOPK takes (02 R79, 03 R113). -/
def topkFormat (code : Nat) : Option Elem :=
  if code = 0 then some (.flt fmtFp32) else if code = 1 then some (.flt fmtBf16) else if code = 2 then some (.flt fmtFp16)
  else if code = 7 then some (.int 32) else none

/-- A TOPK's result: the records, the count to RD, NANIN where a NaN score took part (02 R59, 03 R113). -/
def rankResult (lf : Leaf) (rd : BitVec 5) (k out : Nat) (cands : List ((Val × Nat) × Nat)) (why : Option Byte) (a : Nat) : OpResult :=
  let best := topK k cands
  let fl : FFlags := if cands.any (fun c => isNanV c.1.1) then flNanIn else 0
  ⟨if best = [] then [] else [(out, topkRecords best)], (lf.setReg rd (BitVec.ofNat 32 best.length)).addFlags fl, none, why, a⟩

/-- TOPK (03 R113). -/
def runRank (lf : Leaf) (rdr : LeafReader) (rd : BitVec 5) (a fi k n out : Nat) (tile : Bool) : OpResult :=
  let e := (topkFormat fi).getD (.flt fmtFp32)
  if tile then
    let h := hdrAt rdr a
    if h.fmt ≠ fi then ⟨[], lf.setReg rd 0, some (2, a), some 0x01, a⟩
    else
      let raws := unpackRow (elemBits e) (rdr (a + 64) (32 * rowBytes fi)) 1024
      rankResult lf rd k out (tileCands h e raws) h.why a
  else
    let raws := unpackRow (elemBits e) (rdr a (n * elemBits e / 8)) n
    rankResult lf rd k out ((List.range n).map (fun i => ((decElem e (raws.getD i 0), i), raws.getD i 0))) none a

/-- TOPK (03 R113). A score format other than those of 02 R79 is refused at load (DEDUCED: 03 R113 names the four, log entry 19). -/
def execTopk (l : Nat) (g : Guard) (rd ra fi : BitVec 5) (k : BitVec 4) (rn ro : BitVec 5) (t : Bool) (s : State) :
    Host.Outcome State Fault Refusal :=
  if (topkFormat fi.toNat).isNone ∨ k.toNat = 0 ∨ 8 < k.toNat then .refused .reservedLeafCode
  else s.issueUnit l g .reduction ([.g rd, .g ra, .g ro] ++ (if t then [] else [.g rn])) (fun lf =>
    .rank rd (lineOf (lf.reg ra).toNat) fi.toNat k.toNat (Nat.min (lf.reg rn).toNat 1024) (lineOf (lf.reg ro).toNat) t)

/-- What a command does when its unit runs it, reading leaf memory by rd. -/
def opResult (lf : Leaf) (rd : LeafReader) : UnitOp → OpResult
  | .mma ac a b fa fb init w fl masks => runMma lf rd ac a b fa fb init w fl masks
  | .accout ac a fo sat seq => runAccout lf ac a fo sat seq
  | .accin ac a fi add => runAccin lf rd ac a fi add
  | .vector vd lanes why fl => ⟨[], (lf.setVreg vd (fun i => tget 0 lanes i) why).addFlags fl, none, why, 0⟩
  | .compare pd lo hi why fl => ⟨[], ((lf.setPred pd lo).setPred (pd + 1) hi).addFlags fl, none, why, 0⟩
  | .scalar r v why fl => ⟨[], (lf.setReg r v).addFlags fl, none, why, 0⟩
  | .loadWord r a => ⟨[], lf.setReg r (BitVec.ofNat 32 (leNat (rd a 4))), none, none, 0⟩
  | .store ws mark a why fl => ⟨storeWrites rd ws mark a why, lf.addFlags fl, none, why, a⟩
  | .loadTile vd a fi q => runLoadTile lf rd vd a fi q
  | .loadFlat vd a f => runLoadFlat lf rd vd a f
  | .reduce vd a fi fn => runReduce lf rd vd a fi fn
  | .rank r a fi k n out tile => runRank lf rd r a fi k n out tile
  | .send | .recv | .access _ _ => ⟨[], lf, none, none, 0⟩

/-! ### Uncorrectable words (06 R201) -/

/-- The tiles a command reads: address and format. -/
def UnitOp.tiles : UnitOp → List (Nat × Nat)
  | .mma _ a b fa fb _ _ _ _ => [(a, fa), (b, fb)]
  | .accin _ a fi _ => [(a, fi)]
  | .loadTile _ a fi _ => [(a, fi)]
  | .reduce _ a fi _ => [(a, fi)]
  | .rank _ a fi _ _ _ true => [(a, fi)]
  | _ => []

/-- Leaf memory with an uncorrectable word in the line at x: every tile that takes the line arrives poisoned with reason 0x02, a tile
poisoned before keeping its first reason (06 R201, 07 R257, R258). -/
def spoiledReader (rd : LeafReader) (x : Nat) (tiles : List (Nat × Nat)) : LeafReader :=
  let hs := (tiles.filter (fun t => decide (t.1 ≤ x ∧ x < t.1 + 64 + 32 * rowBytes t.2))).map (·.1)
  fun a n => (rd a n).zipIdx.map (fun y =>
    let k := a + y.2
    if hs.contains (k - 1) ∧ k % 64 = 1 then y.1 ||| 1
    else if hs.contains (k - 2) ∧ k % 64 = 2 ∧ ((rd (k - 1) 1).headD 0).toNat % 2 = 0 then 0x02
    else y.1)

/-- What a command does when a line it reads may hold an uncorrectable word: a tile carries the poison, any other line gives it to what
consumes it, a VLD's register included (06 R201, 03 R111). -/
def opResultBad (lf : Leaf) (rd : LeafReader) (op : UnitOp) (bad : Option Nat) : OpResult :=
  match bad with
  | none => opResult lf rd op
  | some x =>
    if op.tiles ≠ [] then opResult lf (spoiledReader rd x op.tiles) op
    else
      let r := opResult lf rd op
      match op with
      | .loadFlat vd a _ => { r with lf := r.lf.setVreg vd (fun i => (r.lf.vreg vd).lane i) (some 0x02), why := some 0x02, whyAt := a }
      | .loadWord _ a => { r with why := some 0x02, whyAt := a }
      | .rank _ a _ _ _ _ _ => { r with why := some 0x02, whyAt := a }
      | .send => { r with why := some 0x02, whyAt := x }
      | _ => r

end Sys2Proof.Machine
end

