-- ==== Sys2Proof/Machine/LeafRun.lean ====
section
/-! DEFINITION. The units of a leaf at work: how they read and write leaf memory, the streams, the completion of a command, the
start of a pass, abort and context switch (03 R81-R102). -/

namespace Sys2Proof.Machine

/-! ### Leaf memory as the units see it (03 R91) -/

/-- The commands in progress: the oldest of each unit and port (03 R81). -/
def headCmds : List (LeafUnit × Nat) → List UnitCmd → List UnitCmd
  | _, [] => []
  | ks, c :: q => if ks.contains (c.unit, c.port) then headCmds ks q else c :: headCmds ((c.unit, c.port) :: ks) q

/-- Change the commands in progress. -/
def modHeads (f : UnitCmd → UnitCmd) : List (LeafUnit × Nat) → List UnitCmd → List UnitCmd
  | _, [] => []
  | ks, c :: q => if ks.contains (c.unit, c.port) then c :: modHeads f ks q else f c :: modHeads f ((c.unit, c.port) :: ks) q

/-- Bytes with their leaf-memory addresses (03 R88). -/
def placed (ws : List (Nat × List Byte)) : List (Nat × Byte) :=
  ws.flatMap (fun w => w.2.zipIdx.map (fun x => ((w.1 + x.2) % 0x40000, x.1)))

/-- What a unit may see in place of present bytes of leaf memory: the former content of bytes that others have written while its own
command runs, and what the commands in progress of other units are about to write (03 R91). -/
def State.raceBytes (s : State) (l : Nat) (u : LeafUnit) : List (Nat × Byte) :=
  let lf := s.leaf l
  let hs := headCmds [] lf.queue
  (hs.filter (fun c => c.unit == u)).flatMap (·.seen) ++
  (hs.filter (fun c => c.unit != u)).flatMap (fun c => placed (opResult lf (s.leafPlain l) c.op).writes)

/-- Leaf memory as a unit reads it: where another unit writes without a FENCE between, the old or a new byte, the choice being free
(03 R91; log entry 11). -/
def State.leafRead (s : State) (l : Nat) (u : LeafUnit) : LeafReader :=
  let alts := s.raceBytes l u
  fun a n => (List.range n).map (fun i =>
    let k := (a + i) % 0x40000
    let cur := s.memByte (leafKey l k)
    match alts.filter (fun x => x.1 == k) with
    | [] => cur
    | xs => (cur :: xs.map (·.2)).getD (Config.racePick s.free k % (xs.length + 1)) cur)

/-- A command can be reading leaf memory: a SEND that AW holds back reads no line (03 R102). -/
def Leaf.reads (lf : Leaf) (c : UnitCmd) : Bool := decide (c.gateM ≤ lf.doneM) && decide (c.gateV ≤ lf.doneV)

/-- The commands in progress of a leaf's other units may still see the former content of bytes that are about to be written. -/
def State.noteSeen (s : State) (l : Nat) (u : Option LeafUnit) (a n : Nat) : State :=
  if (s.leaf l).queue = [] then s
  else
    let old := (List.range n).map (fun i => ((a + i) % 0x40000, s.memByte (leafKey l (a + i))))
    s.modLeaf l (fun lf => { lf with
      queue := modHeads (fun c => if u = some c.unit ∨ lf.reads c = false then c else { c with seen := c.seen ++ old }) [] lf.queue })

/-- A unit writes leaf memory. -/
def State.leafStore (s : State) (l : Nat) (u : LeafUnit) : List (Nat × List Byte) → State
  | [] => s
  | w :: ws => ((s.noteSeen l (some u) w.1 w.2.length).leafWrite l w.1 w.2).leafStore l u ws

/-- A unit runs a command: its registers and flags, its writes, its fault and the poison it consumes; bad is a line it reads that holds
an uncorrectable word. -/
def State.runOp (s : State) (l : Nat) (c : UnitCmd) (bad : Option Nat) : State :=
  let r := opResultBad (s.leaf l) (s.leafRead l c.unit) c.op (bad.map (· / 64 * 64))
  let s1 := (s.putLeaf l r.lf).leafStore l c.unit r.writes
  let s2 := match r.fault with
    | some (k, a) => s1.leafFault l k c.pc a
    | none => s1
  (s2.consume l r.why c.pc r.whyAt).tick

/-! ### Streams -/

/-- Move beats between leaf memory and a port's FIFO while both sides allow (03 R99, R102): n bounds the beats moved. -/
def State.pumpOut (s : State) (l port : Nat) : Nat → State
  | 0 => s
  | n + 1 =>
    let lf := s.leaf l
    let p := lf.outPort port
    match streamHead .streamOut port lf.queue with
    | none => s
    | some (i, c) =>
      if p.beats.length < 16 ∧ c.gateM ≤ lf.doneM ∧ c.gateV ≤ lf.doneV then
        let bs := s.leafRead l .streamOut (lineOf c.addr) 64
        let lf1 := lf.setOut port { p with beats := p.beats ++ [(c.toks, bs)] }
        let lf2 := { lf1 with queue := lf1.queue.set i { c with addr := c.addr + 64, left := c.left - 1 } }
        (s.putLeaf l lf2).pumpOut l port n
      else s

/-- Write the beats that wait on an input port to the lines its RECV commands name (03 R102). -/
def State.pumpIn (s : State) (l port : Nat) : Nat → State
  | 0 => s
  | n + 1 =>
    let lf := s.leaf l
    let p := lf.inPort port
    match streamHead .streamIn port lf.queue, p.beats with
    | some (i, c), bt :: rest =>
      let lf0 := lf.setIn port { p with beats := rest }
      let lf1 := { lf0 with queue := lf.queue.set i { c with addr := c.addr + 64, left := c.left - 1 } }
      let s1 := ((s.putLeaf l lf1).leafStore l .streamIn [(lineOf c.addr, bt.data)]).freeCredit (l / 64) bt.src true
      s1.pumpIn l port n
    | _, _ => s

/-- Let every port of a leaf move what it can. -/
def State.pump (s : State) (l : Nat) : State :=
  let s1 := (List.range 4).foldl (fun s p => s.pumpOut l p 16) s
  (List.range 4).foldl (fun s p => s.pumpIn l p 16) s1

/-- SEND: n consecutive lines as beats of an output port, in issue order with its tokens; AW bits hold it back until the matrix
or vector commands issued before it have completed (03 R101, R102). -/
def execSend (l : Nat) (g : Guard) (port : BitVec 3) (aw : BitVec 2) (ra rn : BitVec 5) (i : Bool) (imm : BitVec 16)
    (s : State) : Host.Outcome State Fault Refusal :=
  if 3 < port.toNat then .refused .reservedLeafCode
  else s.issue l g (.g ra :: immUses i rn) (fun s =>
    let lf := s.leaf l
    let p := lf.outPort port.toNat
    let n := lf.beatCount rn i imm
    if n = 0 then .done s
    else if lf.hasRoom .streamOut port.toNat then
      let cmd : UnitCmd :=
        { unit := .streamOut, port := port.toNat, addr := (lf.reg ra).toNat, left := n, upto := p.issuedBeats + n,
          gateM := if aw.toNat.testBit 0 then lf.issuedM else 0, gateV := if aw.toNat.testBit 1 then lf.issuedV else 0,
          toks := p.issuedTokens, op := .send, pc := lf.ctx.pc, seen := [] }
      let lf1 := lf.setOut port.toNat { p with issuedBeats := p.issuedBeats + n }
      .done ((s.putLeaf l { lf1 with queue := lf1.queue ++ [cmd] }).pump l)
    else .queueWait)

/-- RECV: the next n beats of an input port to consecutive lines (03 R102). -/
def execRecv (l : Nat) (g : Guard) (port : BitVec 3) (ra rn : BitVec 5) (i : Bool) (imm : BitVec 16) (s : State) :
    Host.Outcome State Fault Refusal :=
  if 3 < port.toNat then .refused .reservedLeafCode
  else s.issue l g (.g ra :: immUses i rn) (fun s =>
    let lf := s.leaf l
    let n := lf.beatCount rn i imm
    if n = 0 then .done s
    else if lf.hasRoom .streamIn port.toNat then
      let cmd : UnitCmd :=
        { unit := .streamIn, port := port.toNat, addr := (lf.reg ra).toNat, left := n, upto := 0, gateM := 0, gateV := 0,
          toks := 0, op := .recv, pc := lf.ctx.pc, seen := [] }
      .done ((s.putLeaf l { lf with queue := lf.queue ++ [cmd] }).pump l)
    else .queueWait)

/-! ### Pass start and abort -/

/-- Branch control starts a pass of the active context at PC 0 (03 R84); its poison mark starts clear (03 R122). -/
def Leaf.startPass (lf : Leaf) : Leaf :=
  { lf.modCtx (fun c => { c with pc := 0, loops := [] }) with mode := .run, block := .none, poison := none }

/-- A port after an abort: beats of a SEND that were not yet in the FIFO are not sent, and tokens behind them go on (03 R86). -/
def OutPort.cutShort (p : OutPort) : OutPort :=
  let n := p.leftBeats + p.beats.length
  { p with issuedBeats := n, tokens := p.tokens.map (fun x => (Nat.min x.1 n, x.2)) }

/-- Abort of a pass (03 R86): queued commands and the matrix or reduction command in progress are discarded, stream commands end,
results of packet accesses are discarded, the leaf is in WAIT_PASS; registers keep their values. -/
def Leaf.abortNow (lf : Leaf) : Leaf :=
  { lf.modCtx (fun c => { c with loops := [] }) with
    mode := lf.rest, block := .none, queue := [], doneM := lf.issuedM, doneV := lf.issuedV
    outPorts := lf.outPorts.map (fun p => (p.1, p.2.cutShort)) }

/-- The vector command in progress ends by itself (03 R86 discards the others; log entry 26). -/
def State.runVectorHead (s : State) (l : Nat) : State :=
  match (s.leaf l).queue.find? (fun c => c.unit == .vector) with
  | some c => s.runOp l c none
  | none => s

/-- An ABORT write (03 R86, R87): no effect in WAIT_PASS or IDLE; a pending switch follows the abort. -/
def State.leafAbort (s : State) (l : Nat) : State :=
  let lf := s.leaf l
  if lf.mode = .waitPass ∨ lf.mode = .idle ∨ lf.mode = .switch then s
  else
    let s1 := (s.runVectorHead l).modLeaf l Leaf.abortNow
    if lf.swReq then s1.leafSwitch l else s1

/-- A SWITCH write (03 R85): at once in WAIT_PASS, at the pass's END otherwise. A leaf in IDLE switches at once too, and is IDLE again
where the new context holds no configuration (DESIGN CHOICE, log entry 26). -/
def State.leafSwitchReq (s : State) (l : Nat) : State :=
  let lf := s.leaf l
  let s1 := s.modLeaf l (fun lf => { lf with swReq := true })
  if lf.mode = .waitPass ∨ lf.mode = .idle then s1.leafSwitch l else s1

/-- The effect of writing LEAF_CTL (03 R85-R87, R122): CTX_NEXT is stored, an abort takes effect before a switch. -/
def State.leafCtlWrite (s : State) (l : Nat) (w : Dword) : State :=
  let s1 := s.modLeaf l (fun lf => { lf with ctxNext := fld w.toNat 6 4 })
  let s2 := if w.toNat.testBit 0 then s1.leafAbort l else s1
  if w.toNat.testBit 1 then s2.leafSwitchReq l else s2

/-- The oldest command of a unit and port does its work and completes; it may release a FENCE, an AW-gated SEND or an END (03 R84,
R92, R94). q is the unit and the port; bad is the leaf-memory address of an uncorrectable line that it reads (06 R201). -/
def execUnitCommandComplete (t l : Nat) (q : Nat × Nat) (bad : Option Nat) (s : State) : Host.Outcome State Fault Refusal :=
  if s.nLeaves ≤ l then .fault .absentUnit
  else
    let s1 := s.at t
    let lf := s1.leaf l
    if s1.branchRuns (l / 64) = false then .next s1
    else match findIdx (fun c => decide (c.unit = unitOf q.1 ∧ c.port = q.2)) lf.queue 0 with
    | none => .next s1
    | some (i, c) =>
      if lf.cmdReady c = false then .next s1
      else
        let s2 := (s1.runOp l c bad).modLeaf l (fun lf => ({ lf.countDone c.unit with queue := lf.queue.eraseIdx i }).fenceCheck)
        .next ((s2.pump l).endCheck l)

end Sys2Proof.Machine
end

