-- ==== Sys2Proof/Machine/SlotPlane.lean ====
section
/-! DEFINITION. The slot plane: links, circuits, credits, crossing lanes and steering units (04 R123-R147). -/

namespace Sys2Proof.Machine

/-! ### Geometry -/

/-- The node of the same branch on a side (0 N, 1 E, 2 S, 3 W), or none where the side faces outwards (04 R123). -/
def nodeNeighbour (node side : Nat) : Option Nat :=
  if side = 0 then (if node < 8 then none else some (node - 8))
  else if side = 1 then (if node % 8 = 7 then none else some (node + 1))
  else if side = 2 then (if 56 ≤ node then none else some (node + 8))
  else (if node % 8 = 0 then none else some (node - 1))

/-- The node of the neighbouring branch that a node on the edge faces. -/
def facingNode (node side : Nat) : Nat :=
  if side = 0 then node + 56 else if side = 1 then node - 7 else if side = 2 then node - 56 else node + 7

/-- The opposite side. -/
def oppSide (side : Nat) : Nat := (side + 2) % 4

/-- The boundary between a branch and its neighbour on a side lies between two dies (01 R21, 04 R132). -/
def State.dieBoundary (s : State) (b side : Nat) : Bool :=
  match s.branchNeighbour b side with
  | none => true
  | some b' => b / 16 != b' / 16

/-- A side of a branch on the west or east edge of the plane faces a bark die (01 R23); on the north or south edge there is no link (04 R123). -/
def State.facesBark (s : State) (b side : Nat) : Bool := (s.branchNeighbour b side).isNone && side % 2 == 1

/-- The mover at a node (04 R125). -/
def moverAt (node : Nat) : Option Nat :=
  if node = 27 then some 0 else if node = 28 then some 1 else if node = 35 then some 2 else if node = 36 then some 3 else none

/-! ### Slot tables (04 R126, R166) -/

/-- The slot-table entry of a destination and slot of a node in a slot set. -/
def Branch.entry (b : Branch) (set node dest slot : Nat) : BitVec 16 := tget 0 b.slots ((set * 64 + node) * 384 + dest * 32 + slot)
def entDsrc (e : BitVec 16) : Nat := fld e.toNat 15 12
def entTsrc (e : BitVec 16) : Nat := fld e.toNat 11 8
def entSport (e : BitVec 16) : Nat := fld e.toNat 7 6
def entDport (e : BitVec 16) : Nat := fld e.toNat 5 4
def entLane (e : BitVec 16) : Nat := fld e.toNat 3 0

/-- Key of a wire: slot, node, side. -/
def wireKey (slot node side : Nat) : Nat := (slot * 64 + node) * 4 + side
/-- Key of an incoming crossing lane: node, side, lane. -/
def laneKey (node side lane : Nat) : Nat := (node * 4 + side) * 16 + lane
/-- Key of the queue towards a bark die at a node's outward side (04 R135). -/
def barkKey (node side lane : Nat) : Nat := 0x8000 + laneKey node side lane
/-- Key of a buffered source of a node (04 R126). -/
def srcKey (node code sport : Nat) : Nat := (node * 16 + code) * 4 + sport
/-- Key of a crossing lane as the source of the segment after it. -/
def laneSrc (key : Nat) : Nat := 0x10000 + key
/-- Key of an inlet unit's side of a lane as the source of the segment into it (11 R394). -/
def inletSrc (key : Nat) : Nat := 0x20000 + key

/-- The queue depths (beats, tokens) of the buffered destination a circuit leads to (04 R132): dest is a destination code, or a
link side that faces outwards. -/
def State.destDepth (s : State) (b dest : Nat) : Nat × Nat :=
  if dest < 4 then (if s.dieBoundary b dest then (32, 16) else (4, 8))
  else if dest = 4 ∨ dest = 11 then (16, 8)
  else if dest = 7 ∨ dest = 10 then (0, 8)
  else (4, 8)

/-- The destination of a node that takes a side's input in a slot (04 R128). -/
def Branch.takes (b : Branch) (set node side slot : Nat) (tok : Bool) : Option Nat :=
  (List.range 12).find? (fun d =>
    let e := b.entry set node d slot
    (if tok then entTsrc e else entDsrc e) == side + 1)

/-- The buffered destination (as a destination code, or an outward side) that a circuit leads to from a node's destination in a
slot; fuel bounds the hops. -/
def Branch.traceDest (b : Branch) (set : Nat) (tok : Bool) : Nat → Nat → Nat → Nat → Nat
  | 0, _, dest, _ => dest
  | fuel + 1, node, dest, slot =>
    if 4 ≤ dest then dest
    else match nodeNeighbour node dest with
      | none => dest
      | some n' =>
        match b.takes set n' (oppSide dest) ((slot + 2) % 32) tok with
        | none => 15
        | some d' => b.traceDest set tok fuel n' d' ((slot + 2) % 32)

/-- A buffered source holds a beat (token) credit for its segment's destination (04 R130). -/
def State.hasCredit (s : State) (b src node dest slot : Nat) (tok : Bool) : Bool :=
  let x := s.branch b
  let d := s.destDepth b (x.traceDest x.active tok 128 node dest slot)
  let c := tget Credit.empty x.credits src
  if tok then decide (c.usedT < d.2) else decide (c.usedB < d.1)

/-- Change the credits of a source. -/
def State.modCredit (s : State) (b src : Nat) (f : Credit → Credit) : State :=
  s.modBranch b (fun x => { x with credits := tmod Credit.empty x.credits src f })

/-- Change a crossing lane. -/
def State.modLane (s : State) (b key : Nat) (f : Lane → Lane) : State :=
  s.modBranch b (fun x => { x with lanes := tmod Lane.empty x.lanes key f })

/-- Change a wire. -/
def State.modWire (s : State) (b key : Nat) (f : Wire → Wire) : State :=
  s.modBranch b (fun x => { x with wires := tmod Wire.empty x.wires key f })

/-- Spend a credit of a source. -/
def State.useCredit (s : State) (b src : Nat) (tok : Bool) : State :=
  s.modCredit b src (fun c => if tok then { c with usedT := c.usedT + 1 } else { c with usedB := c.usedB + 1 })

/-- Give a credit back at once (04 R135). -/
def State.dropCredit (s : State) (b src : Nat) (tok : Bool) : State :=
  s.modCredit b src (fun c => if tok then { c with usedT := c.usedT - 1 } else { c with usedB := c.usedB - 1 })

/-- The inlet unit sends what its lane has room for: 32 beats and 16 tokens (04 R130, R132, 11 R394). n bounds the items sent. -/
def State.inletPump (s : State) (b key : Nat) : Nat → State
  | 0 => s
  | n + 1 =>
    match tget [] (s.branch b).inlets key with
    | [] => s
    | it :: rest =>
      let src := inletSrc key
      let c := tget Credit.empty (s.branch b).credits src
      let tok := match it with | .tok _ => true | .beat _ => false
      if (if tok then decide (16 ≤ c.usedT) else decide (32 ≤ c.usedB)) = true then s
      else
        let it' : SlotItem := match it with | .tok y => .tok { y with src := src } | .beat y => .beat { y with src := src }
        let s1 := ((s.modBranch b (fun x => { x with inlets := tset [] x.inlets key rest })).useCredit b src tok).modLane b key
          (fun ln => { ln with flight := ln.flight ++ [it'] })
        s1.inletPump b key n

/-- CREDIT_RETURN: the credits of freed entries reach the segment's source (04 R130, R131); an inlet unit sends on. -/
def execCreditReturn (t b src : Nat) (s : State) : Host.Outcome State Fault Refusal :=
  if s.nBranches ≤ b then .fault .absentUnit
  else if (s.at t).frozen then .next (s.at t)
  else
    let s1 := (s.at t).modCredit b src (fun c => ⟨c.usedB - c.freedB, c.usedT - c.freedT, 0, 0⟩)
    .next (if inletSrc 0 ≤ src then s1.inletPump b (src - inletSrc 0) 48 else s1)

/-! ### Steering units (04 R138-R145) -/

/-- Byte i of the settings of a steering unit in a slot set (04 R139). -/
def Branch.steerByte (b : Branch) (set node unit i : Nat) : Nat :=
  (tget (0 : Byte) b.steerCfg (((set * 64 + node) * 2 + unit) * 32 + i)).toNat
def Branch.steerHalf (b : Branch) (set node unit i : Nat) : Nat :=
  b.steerByte set node unit i + 256 * b.steerByte set node unit (i + 1)

/-- The settings of a steering unit (04 R139). -/
structure SteerSet where
  kind : Nat
  tchk : Bool
  unitA : Nat
  unitB : Nat
  ctag : Nat
  otag0 : Nat
  otag1 : Nat
  deriving DecidableEq, Repr

def Branch.steerSet (b : Branch) (set node unit : Nat) : SteerSet :=
  ⟨b.steerByte set node unit 0, (b.steerByte set node unit 1).testBit 0, b.steerHalf set node unit 2 % 4096 + 1,
   b.steerHalf set node unit 4 % 4096 + 1, b.steerHalf set node unit 6, b.steerHalf set node unit 8,
   b.steerHalf set node unit 10⟩

def tokValue (w : Word) : Nat := w.toNat % 65536
def tokTag (w : Word) : Nat := w.toNat / 65536
def isEndTok (w : Word) : Bool := tokValue w == 0xFFFF
def isSkipTok (w : Word) : Bool := tokValue w == 0xFFFE
/-- A token re-emitted with an output's TAG (04 R139). -/
def retag (otag : Nat) (w : Word) : Word := BitVec.ofNat 32 (otag * 65536 + tokValue w)

/-- What stands where the next data unit begins (04 R140). -/
inductive UnitHead where
  | absent | data | endTok | skipTok
  deriving DecidableEq, Repr

/-- The tokens attached to the next unit, what the unit is, and the queue from that unit on (04 R140). -/
def unitHead : List SlotItem → List Tok × UnitHead × List SlotItem
  | [] => ([], .absent, [])
  | .beat b :: q => ([], .data, .beat b :: q)
  | .tok t :: q =>
    if isEndTok t.word then ([], .endTok, .tok t :: q)
    else if isSkipTok t.word then ([], .skipTok, .tok t :: q)
    else
      let r := unitHead q
      (t :: r.1, r.2.1, r.2.2)

/-- Take the first beat of a queue, past tokens attached to the next unit. -/
def popBeat : List SlotItem → Option (Beat × List SlotItem)
  | [] => none
  | .beat b :: q => some (b, q)
  | .tok t :: q =>
    match popBeat q with
    | none => none
    | some (b, r) => some (b, .tok t :: r)

/-- Discard up to n beats: the sources whose credits are freed, the beats left, the queue. -/
def dropBeats : Nat → List SlotItem → List Nat × Nat × List SlotItem
  | 0, q => ([], 0, q)
  | n + 1, q =>
    match popBeat q with
    | none => ([], n + 1, q)
    | some (b, r) =>
      let x := dropBeats n r
      (b.src :: x.1, x.2.1, x.2.2)

/-- A steering unit after a step, with the beat and token sources whose queue entries it freed. -/
structure SteerStep where
  st : Steer
  beats : List Nat
  toks : List Nat

/-- Discard what the unit in hand does not pass on (04 R141). -/
def Steer.discard (u : Steer) : SteerStep :=
  match u.cur with
  | none => ⟨u, [], []⟩
  | some c =>
    let own := if c.fromB then u.qb else u.qa
    let r := if c.out0 || c.out1 then ([], c.left, own) else dropBeats c.left own
    let other := if c.fromB then u.qa else u.qb
    let o := dropBeats c.dropLeft other
    let cur := if r.2.1 = 0 ∧ o.2.1 = 0 then none else some { c with left := r.2.1, dropLeft := o.2.1 }
    ⟨{ u with cur := cur, qa := if c.fromB then o.2.2 else r.2.2, qb := if c.fromB then r.2.2 else o.2.2 }, r.1 ++ o.1, []⟩

/-- Stop a unit on a protocol fault that an input brought: 0 A, 1 B, 2 T. -/
def Steer.halt (u : Steer) (sub inp : Nat) : Steer := if u.fault = 0 then { u with fault := sub, faultIn := inp } else u
def Steer.stop (u : Steer) (sub inp : Nat) : SteerStep := ⟨u.halt sub inp, [], []⟩

/-- An item arrives on data input A (inp 0) or B (inp 1): beats of a unit are counted, and an END or SKIP in the middle of a unit is a
protocol fault (04 R140, R145 SUB 1). -/
def Steer.take (u : Steer) (cfg : SteerSet) (inp : Nat) (it : SlotItem) : Steer :=
  let n := if inp = 0 then u.arrA else u.arrB
  let v := if inp = 0 then { u with qa := u.qa ++ [it] } else { u with qb := u.qb ++ [it] }
  match it with
  | .beat _ =>
    let n' := (n + 1) % (if inp = 0 then cfg.unitA else cfg.unitB)
    if inp = 0 then { v with arrA := n' } else { v with arrB := n' }
  | .tok y => if n ≠ 0 ∧ (isEndTok y.word || isSkipTok y.word) = true then v.halt 1 inp else v

/-- Route the next unit of an input: attached tokens and a SKIP go with it, beats follow through the slot plane (04 R140-R144). -/
def Steer.route (u : Steer) (cfg : SteerSet) (fromB o0 o1 : Bool) (dropOther : Bool) : SteerStep :=
  let own := unitHead (if fromB then u.qb else u.qa)
  let oth := unitHead (if fromB then u.qa else u.qb)
  let skip : List Word := if own.2.1 = .skipTok then [0xFFFE] else []
  let rest := if own.2.1 = .skipTok then own.2.2.tail else own.2.2
  let words := own.1.map (·.word) ++ skip
  let n := if own.2.1 = .data then (if fromB then cfg.unitB else cfg.unitA) else 0
  let m := if dropOther && oth.2.1 == .data then (if fromB then cfg.unitA else cfg.unitB) else 0
  let othRest := if dropOther then (if oth.2.1 = .skipTok then oth.2.2.tail else oth.2.2) else (if fromB then u.qa else u.qb)
  let freed := own.1.map (·.src) ++ (own.2.2.take skip.length).filterMap (fun i => match i with | .tok t => some t.src | _ => none) ++
    (if dropOther then oth.1.map (·.src) ++
      (if oth.2.1 = .skipTok then (oth.2.2.take 1).filterMap (fun i => match i with | .tok t => some t.src | _ => none) else [])
     else [])
  let cur : Option SteerUnit := if n = 0 ∧ m = 0 then none else some ⟨fromB, n, o0, o1, false, false, m⟩
  let u1 : Steer :=
    { u with cur := cur, qa := if fromB then othRest else rest, qb := if fromB then rest else othRest,
             pend0 := u.pend0 ++ (if o0 then words.map (retag cfg.otag0) else []),
             pend1 := u.pend1 ++ (if o1 then words.map (retag cfg.otag1) else []) }
  let d := u1.discard
  ⟨d.st, d.beats, freed ++ d.toks⟩

/-- Take the END at the head of a queue: the tokens attached to it, which go with it (04 R140), the sources freed, the queue after it. -/
def popEnd (q : List SlotItem) : List Word × List Nat × List SlotItem :=
  let h := unitHead q
  (h.1.map (·.word), h.1.map (·.src) ++ (h.2.2.take 1).filterMap (fun i => match i with | .tok t => some t.src | _ => none), h.2.2.tail)

/-- One decision of a steering unit (04 R141-R145): it discards what it can, and when no unit is in hand takes the next control
token, or the next unit for COPY. A control END consumes the ENDs of its data inputs; tokens attached to them go out before the END, A's
before B's (DESIGN CHOICE, log entry 23). -/
def Steer.decide (u : Steer) (cfg : SteerSet) : SteerStep :=
  if u.fault ≠ 0 then ⟨u, [], []⟩ else
  let d := u.discard
  let v := d.st
  let wrap := fun (x : SteerStep) => (⟨x.st, d.beats ++ x.beats, d.toks ++ x.toks⟩ : SteerStep)
  if v.cur.isSome ∨ v.pend0 ≠ [] ∨ v.pend1 ≠ [] then d else
  let ha := unitHead v.qa
  let hb := unitHead v.qb
  let out := fun (otag : Nat) (ws : List Word) => ws.map (retag otag) ++ [retag otag 0xFFFF]
  if cfg.kind = 4 then
    match ha.2.1 with
    | .absent => d
    | .endTok =>
      let e := popEnd v.qa
      wrap ⟨{ v with qa := e.2.2, pend0 := out cfg.otag0 e.1, pend1 := out cfg.otag1 e.1 }, [], e.2.1⟩
    | _ => wrap (v.route cfg false true true false)
  else if cfg.kind = 0 ∨ 5 < cfg.kind then d
  else match v.qt with
  | [] => d
  | c :: qt =>
    if cfg.tchk ∧ tokTag c.word ≠ cfg.ctag then wrap (v.stop 2 2)
    else if isSkipTok c.word then wrap (v.stop 3 2)
    else
      let readsB := cfg.kind = 1 ∨ cfg.kind = 3
      let v1 := { v with qt := qt }
      let wrapC := fun (x : SteerStep) => (⟨x.st, d.beats ++ x.beats, c.src :: (d.toks ++ x.toks)⟩ : SteerStep)
      if isEndTok c.word then
        if ha.2.1 ≠ .absent ∧ ha.2.1 ≠ .endTok then wrap (v.stop 5 0)
        else if readsB ∧ hb.2.1 ≠ .absent ∧ hb.2.1 ≠ .endTok then wrap (v.stop 5 1)
        else if ha.2.1 = .absent ∨ (readsB ∧ hb.2.1 = .absent) then d
        else
          let ea := popEnd v.qa
          let eb := if readsB then popEnd v.qb else ([], [], v.qb)
          wrapC ⟨{ v1 with qa := ea.2.2, qb := eb.2.2, pend0 := out cfg.otag0 (ea.1 ++ eb.1),
                           pend1 := if cfg.kind = 2 then out cfg.otag1 ea.1 else [] }, [], ea.2.1 ++ eb.2.1⟩
      else
        let bit := c.word.toNat.testBit 0
        if cfg.kind = 1 then
          (let h := if bit then hb else ha
           if h.2.1 = .absent then d else if h.2.1 = .endTok then wrap (v.stop 4 (if bit then 1 else 0)) else wrapC (v1.route cfg bit true false false))
        else if cfg.kind = 3 then
          (if ha.2.1 = .endTok then wrap (v.stop 4 0) else if hb.2.1 = .endTok then wrap (v.stop 4 1)
           else if ha.2.1 = .absent ∨ hb.2.1 = .absent then d else wrapC (v1.route cfg bit true false true))
        else if ha.2.1 = .absent then d
        else if ha.2.1 = .endTok then wrap (v.stop 4 0)
        else if cfg.kind = 2 then wrapC (v1.route cfg false (!bit) bit false)
        else wrapC (v1.route cfg false bit false false)

/-- The head beat of a steering unit on one of its outputs (04 R142): the beat, if this output has it to send. -/
def Steer.outBeat (u : Steer) (o1 : Bool) : Option Beat :=
  match u.cur with
  | none => none
  | some c =>
    if (if o1 then c.out1 && !c.sent1 && u.pend1.isEmpty else c.out0 && !c.sent0 && u.pend0.isEmpty) = true ∧ 0 < c.left then
      (popBeat (if c.fromB then u.qb else u.qa)).map (·.1)
    else none

/-- The unit after one output has sent the head beat: it leaves the queue once every output of the unit has sent it. -/
def Steer.sentBeat (u : Steer) (o1 : Bool) : Steer × List Nat :=
  match u.cur with
  | none => (u, [])
  | some c =>
    let c1 := if o1 then { c with sent1 := true } else { c with sent0 := true }
    if (c1.out0 && !c1.sent0) || (c1.out1 && !c1.sent1) then ({ u with cur := some c1 }, [])
    else match popBeat (if c.fromB then u.qb else u.qa) with
      | none => (u, [])
      | some (b, r) =>
        let c2 := { c1 with left := c1.left - 1, sent0 := false, sent1 := false }
        let cur := if c2.left = 0 ∧ c2.dropLeft = 0 then none else some c2
        ((if c.fromB then { u with qb := r, cur := cur } else { u with qa := r, cur := cur }), [b.src])

/-! ### Slot transfer (04 R126, R127, R129) -/

def Branch.mover (b : Branch) (m : Nat) : Mover := tget Mover.empty b.movers m
def Branch.putMover (b : Branch) (m : Nat) (x : Mover) : Branch := { b with movers := tset Mover.empty b.movers m x }
def State.modMover (s : State) (b m : Nat) (f : Mover → Mover) : State := s.modBranch b (fun x => x.putMover m (f (x.mover m)))
def Branch.steer (b : Branch) (node unit : Nat) : Steer := tget Steer.empty b.steers (node * 2 + unit)
def State.modSteer (s : State) (b node unit : Nat) (f : Steer → Steer) : State :=
  s.modBranch b (fun x => { x with steers := tmod Steer.empty x.steers (node * 2 + unit) f })

/-- Free credits of a list of sources. -/
def State.freeCredits (s : State) (b : Nat) (srcs : List Nat) (beat : Bool) : State :=
  srcs.foldl (fun s k => s.freeCredit b k beat) s

/-- The beat a source of a node sends in a slot towards a destination, and the state after it has left. starts is false while a handover
lets no buffered source start (04 R137 step 1); a lane gives its items in their order (04 R133). -/
def State.takeBeat (s : State) (starts : Bool) (b node dest slot src sport lane : Nat) : Option (Beat × State) :=
  let x := s.branch b
  if 1 ≤ src ∧ src ≤ 4 then
    match nodeNeighbour node (src - 1) with
    | some n' =>
      let k := wireKey ((slot + 30) % 32) n' (oppSide (src - 1))
      ((tget Wire.empty x.wires k).beat).map (fun bt => (bt, s.modWire b k (fun w => { w with beat := none })))
    | none =>
      let k := laneKey node (src - 1) lane
      let ln := tget Lane.empty x.lanes k
      match ln.ready with
      | .beat bt :: rest =>
        if starts && s.hasCredit b (laneSrc k) node dest slot false then
          let s1 := (s.modBranch b (fun x => { x with lanes := tset Lane.empty x.lanes k { ln with ready := rest } })).useCredit b
            (laneSrc k) false
          some (⟨laneSrc k, bt.data⟩, s1.freeCredit ((s.branchNeighbour b (src - 1)).getD b) bt.src true)
        else none
      | _ => none
  else if src = 0 then none
  else
    let key := srcKey node src sport
    if starts = false ∨ s.hasCredit b key node dest slot false = false then none
    else if src = 5 then
      let l := b * 64 + node
      let p := (s.leaf l).outPort sport
      match p.beats with
      | (tb, bs) :: rest =>
        if tb ≤ p.leftTokens then
          some (⟨key, bs⟩, ((s.modLeaf l (fun lf => lf.setOut sport { p with beats := rest, leftBeats := p.leftBeats + 1 })).useCredit
            b key false).pump l)
        else none
      | [] => none
    else if src = 10 then
      match moverAt node with
      | none => none
      | some m =>
        let mv := x.mover m
        match mv.outBeats with
        | bs :: rest =>
          some (⟨key, bs⟩, (s.modMover b m (fun mv => { mv with outBeats := rest, outLeft := mv.outLeft + 1 })).useCredit b key false)
        | [] => none
    else
      let unit := if src < 8 then 0 else 1
      let o1 := src = 7 ∨ src = 9
      let u := x.steer node unit
      match u.outBeat o1 with
      | none => none
      | some bt =>
        let r := u.sentBeat o1
        some (⟨key, bt.data⟩, ((s.modSteer b node unit (fun _ => r.1)).freeCredits b r.2 true).useCredit b key false)

/-- The token a source of a node sends in a slot, and the state after it has left. -/
def State.takeTok (s : State) (starts : Bool) (b node dest slot src sport lane : Nat) : Option (Tok × State) :=
  let x := s.branch b
  if 1 ≤ src ∧ src ≤ 4 then
    match nodeNeighbour node (src - 1) with
    | some n' =>
      let k := wireKey ((slot + 30) % 32) n' (oppSide (src - 1))
      ((tget Wire.empty x.wires k).tok).map (fun tk => (tk, s.modWire b k (fun w => { w with tok := none })))
    | none =>
      let k := laneKey node (src - 1) lane
      let ln := tget Lane.empty x.lanes k
      match ln.ready with
      | .tok tk :: rest =>
        if starts && s.hasCredit b (laneSrc k) node dest slot true then
          let s1 := (s.modBranch b (fun x => { x with lanes := tset Lane.empty x.lanes k { ln with ready := rest } })).useCredit b
            (laneSrc k) true
          some (⟨laneSrc k, tk.word⟩, s1.freeCredit ((s.branchNeighbour b (src - 1)).getD b) tk.src false)
        else none
      | _ => none
  else if src = 0 then none
  else
    let key := srcKey node src sport
    if starts = false ∨ s.hasCredit b key node dest slot true = false then none
    else if src = 5 then
      let l := b * 64 + node
      let p := (s.leaf l).outPort sport
      match p.tokens with
      | (bb, w) :: rest =>
        if bb ≤ p.leftBeats then
          some (⟨key, w⟩, (s.modLeaf l (fun lf => lf.setOut sport { p with tokens := rest, leftTokens := p.leftTokens + 1 })).useCredit
            b key true)
        else none
      | [] => none
    else if src = 10 then
      match moverAt node with
      | none => none
      | some m =>
        match (x.mover m).outTokens with
        | (bb, w) :: rest =>
          if bb ≤ (x.mover m).outLeft then
            some (⟨key, w⟩, (s.modMover b m (fun mv => { mv with outTokens := rest })).useCredit b key true)
          else none
        | [] => none
    else
      let unit := if src < 8 then 0 else 1
      let o1 := src = 7 ∨ src = 9
      let u := x.steer node unit
      match (if o1 then u.pend1 else u.pend0) with
      | [] => none
      | w :: rest =>
        some (⟨key, w⟩, (s.modSteer b node unit (fun u => if o1 then { u with pend1 := rest } else { u with pend0 := rest })).useCredit
          b key true)

/-- Any movement in an instance clears its sentinel's count (04 R148). -/
def State.moved (s : State) (b : Nat) : State :=
  if (s.branch b).hasInst then s.modBranch (s.branch b).instHome (fun x => { x with sentIdle := 0 }) else s

/-- The crossing on a side of a branch is enabled: between two branches of one instance, or to a bark-die attachment the instance
owns at this node (04 R135). -/
def Branch.crossOpen (b : Branch) (node side : Nat) : Bool :=
  b.crossings.contains side || b.crossings.contains (100 + node * 4 + side)

/-- Deliver a beat or token to a buffered destination, a link or a crossing (04 R126, R129, R133, R135). -/
def State.deliver (s : State) (b node dest slot dport lane : Nat) (it : SlotItem) : State :=
  let tok := match it with | .tok _ => true | .beat _ => false
  let src := match it with | .tok t => t.src | .beat x => x.src
  if dest < 4 then
    match nodeNeighbour node dest with
    | some _ =>
      s.modWire b (wireKey slot node dest)
        (fun w => match it with | .beat y => { w with beat := some y } | .tok y => { w with tok := some y })
    | none =>
      if (s.branch b).crossOpen node dest = false then
        (s.modBranch b (fun x => { x with xdrop := sat32 (x.xdrop + 1) })).dropCredit b src tok
      else match s.branchNeighbour b dest with
        | some b' =>
          if (s.branch b).crossings.contains dest then
            s.modLane b' (laneKey (facingNode node dest) (oppSide dest) lane) (fun ln => { ln with flight := ln.flight ++ [it] })
          else s.modLane b (barkKey node dest lane) (fun ln => { ln with flight := ln.flight ++ [it] })
        | none => s.modLane b (barkKey node dest lane) (fun ln => { ln with flight := ln.flight ++ [it] })
  else
    let s1 := (if tok then s else s.modBranch b (fun x => { x with beats := sat32 (x.beats + 1) })).moved b
    if dest = 4 then
      let l := b * 64 + node
      (s1.modLeaf l (fun lf =>
        let p := lf.inPort dport
        lf.setIn dport (match it with
          | .beat y => { p with beats := p.beats ++ [y] }
          | .tok y => { p with tokens := p.tokens ++ [y] }))).pump l
    else if dest = 11 then
      match moverAt node with
      | none => s1
      | some m => s1.modMover b m (fun mv => match it with
          | .beat y => { mv with inBeats := mv.inBeats ++ [y] }
          | .tok y => { mv with inTokens := mv.inTokens ++ [y] })
    else
      let unit := if dest < 8 then 0 else 1
      let inp := (dest - 5) % 3
      s1.modSteer b node unit (fun u =>
        if inp < 2 then u.take ((s.branch b).steerSet (s.branch b).active node unit) inp it
        else match it with | .tok y => { u with qt := u.qt ++ [y] } | .beat _ => u)

/-- One entry of a node's slot table in the present slot: the beat moves first, a token of the same slot after it (04 R126,
R129). -/
def State.moveEntry (s : State) (starts : Bool) (b node slot dest : Nat) : State :=
  let x := s.branch b
  let e := x.entry x.active node dest slot
  if e = 0 then s else
  let s1 := match s.takeBeat starts b node dest slot (entDsrc e) (entSport e) (entLane e) with
    | some (bt, s1) => s1.deliver b node dest slot (entDport e) (entLane e) (.beat bt)
    | none => s
  match s1.takeTok starts b node dest slot (entTsrc e) (entSport e) (entLane e) with
  | some (tk, s2) => s2.deliver b node dest slot (entDport e) (entLane e) (.tok tk)
  | none => s1

/-- The links of a branch carry nothing yet in a slot that begins. -/
def Branch.clearSlot (b : Branch) (slot : Nat) : Branch :=
  { b with wires := b.wires.filter (fun w => decide (w.1 / 256 ≠ slot)) }

/-- One slot of a branch: every node moves beats and tokens, and the slot counter goes on (04 R124, R126). -/
def State.runSlotOf (s : State) (b : Nat) : State :=
  let slot := (s.branch b).slotCtr
  let starts := !(s.branch b).handover
  let s2 := s.modBranch b (fun x => x.clearSlot slot)
  let s3 := (List.range 64).foldl (fun s node => (List.range 12).foldl (fun s d => s.moveEntry starts b node slot d) s) s2
  s3.modBranch b (fun x => { x with slotCtr := (slot + 1) % 32 })

/-! ### Handover (04 R136, R137) -/

/-- The branches that share an enabled crossing with a branch, by side. -/
def State.crossedWith (s : State) (b : Nat) : List (Nat × Nat) :=
  (List.range 4).filterMap (fun d => if (s.branch b).crossings.contains d then (s.branchNeighbour b d).map (fun q => (d, q)) else none)
/-- The neighbour holds back a handover to context n no longer: it has reached the same point, or it has that context already. -/
def State.neighbourMet (s : State) (b n : Nat) (x : Nat × Nat) : Bool :=
  (s.branch b).met.contains x.1 || (!(s.branch x.2).handover && (s.branch x.2).active == n)
/-- No beat or token of the old set is on a branch's links: it tells its neighbours, once (04 R137 steps 2 and 3). -/
def State.reach (s : State) (b n : Nat) : State :=
  if (s.branch b).reached then s
  else
    let s1 := s.modBranch b (fun x => { x with reached := true })
    s1.each (s1.crossedWith b) (fun s x =>
      if !(s.branch x.2).handover && (s.branch x.2).active == n then s
      else s.modBranch x.2 (fun y => { y with met := (oppSide x.1) :: y.met }))

/-- The home branch takes the SENT_LIMIT of the configuration in its active context (04 R149). -/
def State.takeLimit (s : State) (b : Nat) : State :=
  s.modBranch b (fun x =>
    let c := tget BrcCtx.empty x.ctxs x.active
    let y := { x with ctxs := tmod BrcCtx.empty x.ctxs x.active (fun k => { k with used := true }) }
    if x.hasInst && x.instHome == b then { y with sentLimit := if c.sentLimit = 0 then 65536 else c.sentLimit } else y)

/-- The new set is active: what the old one still held is discarded and counted, credits are full, the leaves' ports are bound
(04 R137 step 4, 03 R85 step 5). -/
def State.handOver (s : State) (b n : Nat) : State :=
  let held := (s.branch b).circuitLoad + ((branchLeaves b).map (fun l => (s.leaf l).portLoad)).sum
  let s1 := s.modBranch b (fun x => { x.clearCircuits with
    active := n, handover := false, reached := false, met := [], flushed := sat32 (x.flushed + held) })
  (s1.modLeavesOf b (fun lf => lf.clearPorts.switchEnd)).takeLimit b

/-- A handover goes on after a cycle: the point of step 3 is reached once the links are empty, and at the next frame boundary the new set
is activated. -/
def State.handoverStep (s : State) (b : Nat) : State :=
  if (s.branch b).handover = false then s
  else
    let n := (s.leaf (b * 64)).active
    if (s.branch b).wires.any (fun w => w.2.beat.isSome || w.2.tok.isSome) then s
    else
      let s1 := s.reach b n
      if (s1.branch b).slotCtr = 0 ∧ (s1.crossedWith b).all (s1.neighbourMet b n) = true then s1.handOver b n else s1

/-- CROSSING_LANE_ARRIVAL: the oldest beat or token in flight into a lane becomes readable behind those that are (04 R133, R134). -/
def execCrossingLaneArrival (t b key : Nat) (s : State) : Host.Outcome State Fault Refusal :=
  if s.nBranches ≤ b then .fault .absentUnit
  else
    let s1 := s.at t
    if s1.frozen then .next s1 else
    let ln := tget Lane.empty (s1.branch b).lanes key
    match ln.flight with
    | [] => .next s1
    | it :: rest =>
      let s2 := (s1.modBranch b (fun x => { x with lanes := tset Lane.empty x.lanes key ⟨rest, ln.ready ++ [it]⟩ })).moved b
      .next (match it with
        | .beat _ => s2.modBranch b (fun x => { x with beats := sat32 (x.beats + 1) })
        | .tok _ => s2)

end Sys2Proof.Machine
end

