-- ==== Sys2Proof/Machine/Image.lean ====
section
/-! DEFINITION. Canopy images and manifests as byte containers (05 R167-R185, 08 R267-R271, 11 R366): reading their fields, and
the checks a load makes. -/

namespace Sys2Proof.Machine

/-- All bytes of a range are 0 (reserved bytes, 05 R169). -/
def zeros (bs : List Byte) (a n : Nat) : Bool := ((bs.drop a).take n).all (fun b => b == 0)
/-- Reserved bytes of part x of a container c: 0, unless the container's VER_MINOR is above 0 and its fields may lie there (05 R169). -/
def resv (c x : List Byte) (a n : Nat) : Bool := decide (fieldLE c 4 1 ≠ 0) || zeros x a n
/-- n bytes from an offset. -/
def slice (bs : List Byte) (a n : Nat) : List Byte := (bs.drop a).take n

/-! Sections (05 R168) -/

/-- A section: type, index, offset, size. -/
structure Sect where
  type : Nat
  index : Nat
  off : Nat
  size : Nat
  deriving DecidableEq, Repr

/-- The section table (05 R168; the seed image's table has the same layout, 13 R446). -/
def sects (bs : List Byte) : List Sect :=
  let o := fieldLE bs (if fieldLE bs 0 4 = 0x49534B57 then 24 else 28) 4
  (List.range (fieldLE bs 20 2)).map (fun i =>
    ⟨fieldLE bs (o + 16 * i) 2, fieldLE bs (o + 16 * i + 2) 2, fieldLE bs (o + 16 * i + 8) 4, fieldLE bs (o + 16 * i + 12) 4⟩)

/-- The bytes of a section, none where the image holds no such section. -/
def sectBytes (bs : List Byte) (type index : Nat) : Option (List Byte) :=
  ((sects bs).find? (fun x => x.type == type && x.index == index)).map (fun x => slice bs x.off x.size)
/-- The bytes of a section that the load checks have found present. -/
def sectOf (bs : List Byte) (type index : Nat) : List Byte := (sectBytes bs type index).getD []

/-- No two sections overlap and every section lies inside the image on a 64-byte boundary (05 R168, R169). -/
def sectsOk (bs : List Byte) (size : Nat) : Bool :=
  let ss := sects bs
  ss.all (fun x => decide (x.off % 64 = 0) && decide (x.off + x.size ≤ size)) &&
  (List.range ss.length).all (fun i => (List.range i).all (fun j =>
    let x := ss.getD i ⟨0, 0, 0, 0⟩
    let y := ss.getD j ⟨0, 0, 0, 0⟩
    (decide (x.off + x.size ≤ y.off) || decide (y.off + y.size ≤ x.off)) && !(x.type == y.type && x.index == y.index)))

/-! Header and signature -/

/-- IMAGE_ID (05 R167). -/
def imgId (bs : List Byte) : Nat := fieldLE bs 32 8
/-- IMAGE_SIZE. -/
def imgSize (bs : List Byte) : Nat := fieldLE bs 16 4
/-- CONFIG_COUNT. -/
def imgConfigs (bs : List Byte) : Nat := fieldLE bs 22 2
/-- ENTRY_COUNT. -/
def imgEntries (bs : List Byte) : Nat := fieldLE bs 24 2
/-- LYORN flag of a canopy image. -/
def imgLyorn (bs : List Byte) : Bool := fieldLE bs 26 2 % 2 == 1
/-- MANIFEST_ID and digest of the manifest reference (05 R184). -/
def imgManifestId (bs : List Byte) : Nat := fieldLE (sectOf bs 8 0) 0 8
def imgManifestDigest (bs : List Byte) : List Byte := slice (sectOf bs 8 0) 8 32

/-- The signature section at SIGNED_LEN verifies against a list of accepted key hashes (05 R185, R186, 08 R271, 13 R452); rv tests its
reserved bytes. -/
def sigOkWith (rv : List Byte → Nat → Nat → Bool) (bs : List Byte) (off : Nat) (keys : List (List Byte)) : Bool :=
  let g := slice bs off 256
  decide (g.length = 256) && decide (fieldLE g 0 2 = 1) && rv g 2 2 && decide (fieldLE g 4 4 = off) && rv g 200 56 &&
  keys.any (fun k => k == Crypto.sha384 (slice g 8 96)) &&
  Crypto.ecdsaP384 (slice g 8 48) (slice g 56 48) (slice g 104 48) (slice g 152 48) (Crypto.sha384 (bs.take off))
/-- The signature of a canopy or seed image. -/
def sigOk (bs : List Byte) (off : Nat) (keys : List (List Byte)) : Bool := sigOkWith (resv bs) bs off keys

/-- The ordering code of a variant: "NMW8-A", "NMW4-A", "NMW2-A", padded to 8 bytes (05 R167). -/
def orderingOf (dies : Nat) : List Byte := [0x4E, 0x4D, 0x57, BitVec.ofNat 8 (48 + dies), 0x2D, 0x41, 0, 0]

/-! Configurations (05 R170-R172) -/

/-- The configuration section c. -/
def cfgSect (bs : List Byte) (c : Nat) : List Byte := sectOf bs 1 c
def cfgBranches (bs : List Byte) (c : Nat) : Nat := fieldLE (cfgSect bs c) 2 1
def cfgSlots (bs : List Byte) (c : Nat) : Nat := fieldLE (cfgSect bs c) 3 1
def cfgSentLimit (bs : List Byte) (c : Nat) : Nat := let v := fieldLE (cfgSect bs c) 4 4; if v = 0 then 65536 else v
def cfgEdges (bs : List Byte) (c : Nat) : Nat := fieldLE (cfgSect bs c) 10 2
/-- A signed byte. -/
def sByte (v : Nat) : Int := if v < 128 then (v : Int) else (v : Int) - 256
/-- The footprint offset of relative branch i. -/
def cfgFoot (bs : List Byte) (c i : Nat) : Int × Int :=
  (sByte (fieldLE (cfgSect bs c) (16 + 4 * i) 1), sByte (fieldLE (cfgSect bs c) (17 + 4 * i) 1))
/-- Edge e: the two relative branches and the class. -/
def cfgEdge (bs : List Byte) (c e : Nat) : Nat × Nat × Nat :=
  let o := 16 + 4 * cfgBranches bs c + 4 * e
  (fieldLE (cfgSect bs c) o 1, fieldLE (cfgSect bs c) (o + 1) 1, fieldLE (cfgSect bs c) (o + 2) 1)
/-- Where the edge list ends. -/
def cfgEdgeEnd (bs : List Byte) (c : Nat) : Nat := 16 + 4 * cfgBranches bs c + 4 * cfgEdges bs c
def up64 (n : Nat) : Nat := cdiv n 64 * 64
/-- The routing block, empty where there is none (09 R296). -/
def routing (bs : List Byte) (c : Nat) : List Byte :=
  let r := (cfgSect bs c).drop (up64 (cfgEdgeEnd bs c))
  if fieldLE r 0 4 = 0x42524B57 then r else []
/-- Bytes of the routing block: header, fork steps, group steps, expert entries, group bindings (09 R296-R298). -/
def routingSize (r : List Byte) : Nat :=
  if r.isEmpty then 0 else 64 + 64 * fieldLE r 4 1 + 64 * fieldLE r 5 1 + 16 * fieldLE r 6 2 + 8 * fieldLE r 8 2
/-- The serving block, empty where there is none (11 R366). -/
def servingBlk (bs : List Byte) (c : Nat) : List Byte :=
  let r := (cfgSect bs c).drop (up64 (up64 (cfgEdgeEnd bs c) + routingSize (routing bs c)))
  if fieldLE r 0 4 = 0x42534B57 then r else []

/-! Branch sections (05 R173-R176) -/

def brSect (bs : List Byte) (c i : Nat) : List Byte := sectOf bs 2 (c * 256 + i)
def brScratch (bs : List Byte) (c i : Nat) : Nat := fieldLE (brSect bs c i) 3 1
def brNbind (x : List Byte) : Nat := fieldLE x 4 1
def brNtmpl (x : List Byte) : Nat := fieldLE x 5 1
/-- Code word pc of local leaf j. -/
def brCode (x : List Byte) (j pc : Nat) : Nat := fieldLE x (0x2880 + j * 4096 + pc * 8) 8
/-- Initial register r of local leaf j: 0-31 general, 32-39 predicate. -/
def brReg (x : List Byte) (j r : Nat) : Nat := fieldLE x (0x80 + j * 160 + r * 4) 4
/-- Slot-table entry (05 R173, 04 R166). -/
def brEntry (x : List Byte) (node d t : Nat) : BitVec 16 := BitVec.ofNat 16 (fieldLE x (0x42880 + node * 1024 + (d * 32 + t) * 2) 2)
/-- Byte k of a steering unit's settings (04 R139). -/
def brSteer (x : List Byte) (node u k : Nat) : Nat := fieldLE x (0x42880 + node * 1024 + 0x300 + u * 32 + k) 1
/-- Shape binding k: leaf, register, slot, dimension, function (05 R174). -/
def brBind (x : List Byte) (k : Nat) : List Byte := slice x (0x52880 + 8 * k) 8
/-- Mover template k: 8 header bytes and a descriptor (05 R173, R176). -/
def brTmpl (x : List Byte) (k : Nat) : List Byte := slice x (0x52A80 + 40 * k) 40
/-- The relative branch of configuration c at the plane offset of relative branch j of configuration c0 (05 R171, R175: a footprint is a set). -/
def relIn (bs : List Byte) (c0 c j : Nat) : Nat := ((List.range (cfgBranches bs c)).find? (fun k => cfgFoot bs c k == cfgFoot bs c0 j)).getD j

/-! Entries, shapes, bounds (05 R177-R183) -/

def entRec (bs : List Byte) (e : Nat) : List Byte := slice (sectOf bs 3 0) (64 * e) 64
def entClasses (bs : List Byte) (e : Nat) : Nat := fieldLE (entRec bs e) 2 1
def entOps (bs : List Byte) (e : Nat) : Nat := fieldLE (entRec bs e) 3 1
/-- CFG_SEQ. -/
def entCfgs (bs : List Byte) (e : Nat) : List Nat :=
  (List.range (fieldLE (entRec bs e) 4 1)).map (fun k => fieldLE (entRec bs e) (8 + 2 * k) 2)
/-- The first configuration of an entry. -/
def entCfg (bs : List Byte) (e : Nat) : Nat := (entCfgs bs e).headD 0
def entPin (bs : List Byte) (e : Nat) : Bool := fieldLE (entRec bs e) 5 1 % 2 == 1
def entShape (bs : List Byte) (e : Nat) : List Byte := sectOf bs 5 (fieldLE (entRec bs e) 24 2)
def entLat (bs : List Byte) (e : Nat) : List Byte := sectOf bs 6 (fieldLE (entRec bs e) 26 2)
def entNrg (bs : List Byte) (e : Nat) : List Byte := sectOf bs 7 (fieldLE (entRec bs e) 28 2)
/-- BATCH_SLOTS of an entry: its first configuration's. -/
def entSlots (bs : List Byte) (e : Nat) : Nat := cfgSlots bs (entCfg bs e)
def nBuckets (sh : List Byte) : Nat := fieldLE sh 1 1
def shapeUsed (sh : List Byte) (d : Nat) : Bool := fld (fieldLE sh 0 1) d d == 1
def shapeMax (sh : List Byte) (d : Nat) : Nat := fieldLE sh (8 + 2 * d) 2
def shapeBound (sh : List Byte) (k d : Nat) : Nat := fieldLE sh (16 + 8 * k + 2 * d) 2
/-- The first bucket whose bounds are all at least the shape (05 R179). -/
def bucketOf (sh : List Byte) (v : Nat → Nat) : Option Nat :=
  (List.range (nBuckets sh)).find? (fun k => (List.range 4).all (fun d => decide (v d ≤ shapeBound sh k d)))

/-- Rows of a latency bound table: class, level, slots, bucket, SERVICE_NS (05 R180). -/
def latRows (t : List Byte) : List (Nat × Nat × Nat × Nat × Nat) :=
  (List.range (t.length / 16)).map (fun i =>
    (fieldLE t (16 * i) 1, fieldLE t (16 * i + 1) 1, fieldLE t (16 * i + 2) 1, fieldLE t (16 * i + 3) 1, fieldLE t (16 * i + 4) 4))
/-- Rows of an energy table: level, slots, bucket, ENERGY_UJ (05 R182). -/
def nrgRows (t : List Byte) : List (Nat × Nat × Nat × Nat) :=
  (List.range (t.length / 16)).map (fun i =>
    (fieldLE t (16 * i) 1, fieldLE t (16 * i + 1) 1, fieldLE t (16 * i + 2) 1, fieldLE t (16 * i + 8) 4))

/-- The row of a class, level and bucket with the smallest SLOTS at least the occupancy (05 R181): its SERVICE_NS. -/
def latLookup (bs : List Byte) (e cls level bucket occ : Nat) : Option Nat :=
  (minBy (fun r => r.2.2.1) ((latRows (entLat bs e)).filter
    (fun r => r.1 == cls && r.2.1 == level && r.2.2.2.1 == bucket && decide (occ ≤ r.2.2.1)))).map (fun r => r.2.2.2.2)
/-- The energy row likewise (05 R182): its ENERGY_UJ. -/
def nrgLookup (bs : List Byte) (e level bucket occ : Nat) : Option Nat :=
  (minBy (fun r => r.2.1) ((nrgRows (entNrg bs e)).filter
    (fun r => r.1 == level && r.2.2.1 == bucket && decide (occ ≤ r.2.1)))).map (fun r => r.2.2.2)

/-- Inlet and outlet declarations (05 R183). -/
def nDecls (bs : List Byte) : Nat := (sectOf bs 4 0).length / 32
def declRec (bs : List Byte) (k : Nat) : List Byte := slice (sectOf bs 4 0) (32 * k) 32
/-- FIXED + PER × SHAPE[DIM]. -/
def declSize (d : List Byte) (v : Nat → Nat) : Nat :=
  fieldLE d 4 4 + (if fieldLE d 3 1 = 0xFF then 0 else fieldLE d 8 4 * v (fieldLE d 3 1))
/-- Sum of the sizes of an entry's declarations of one kind. -/
def declSum (bs : List Byte) (e kind : Nat) (v : Nat → Nat) : Nat :=
  (((List.range (nDecls bs)).map (declRec bs)).filter (fun d => fieldLE d 0 2 == e && fieldLE d 2 1 == kind)).foldl
    (fun n d => n + declSize d v) 0

/-! ### Load checks -/

/-- The checks of a shape set (05 R179). -/
def shapeOk (bs sh : List Byte) : Bool :=
  let n := nBuckets sh
  decide (1 ≤ n ∧ n ≤ 64) && decide (fieldLE sh 0 1 < 16) && resv bs sh 2 6 &&
  (List.range 4).all (fun d =>
    decide (shapeBound sh (n - 1) d = shapeMax sh d) &&
    (List.range n).all (fun k => decide (shapeBound sh k d ≤ shapeMax sh d)) &&
    (shapeUsed sh d || (shapeMax sh d == 0)))

/-- Header, sections and their counts, and the sections that stand alone: every shape set, and the reserved bytes of every table (05
R167-R169, R179, R180, R182). The signature section is the last by offset, wherever its row stands. -/
def containerOk (dies : Nat) (bs : List Byte) : Bool :=
  let ss := sects bs
  let size := fieldLE bs 16 4
  let count := fun ty => (ss.filter (fun x => x.type == ty)).length
  decide (fieldLE bs 0 4 = 0x49434B57) && decide (fieldLE bs 6 2 = 64) && decide (fieldLE bs 5 1 = 1) &&
  decide (slice bs 8 8 = orderingOf dies) && decide (size = bs.length) &&
  decide (1 ≤ fieldLE bs 20 2 ∧ fieldLE bs 20 2 ≤ 4096) && decide (1 ≤ imgConfigs bs ∧ imgConfigs bs ≤ 32) &&
  decide (1 ≤ imgEntries bs ∧ imgEntries bs ≤ 256) && decide (fieldLE bs 26 2 < 2) && decide (fieldLE bs 28 4 % 64 = 0) &&
  resv bs bs 40 24 && sectsOk bs size &&
  (List.range ss.length).all (fun i => resv bs bs (fieldLE bs 28 4 + 16 * i + 4) 4) &&
  ss.all (fun x => decide (1 ≤ x.type ∧ x.type ≤ 8) || x.type == 0xFF) &&
  decide (count 1 = imgConfigs bs) && decide (count 3 = 1) && decide (count 4 ≤ 1) && decide (1 ≤ count 5 ∧ count 5 ≤ 256) &&
  decide (1 ≤ count 6 ∧ count 6 ≤ 256) && decide (1 ≤ count 7 ∧ count 7 ≤ 256) && decide (count 8 = 1) && decide (count 0xFF = 1) &&
  ss.any (fun x => x.type == 0xFF && decide (x.off + x.size = size)) &&
  decide (count 2 = ((List.range (imgConfigs bs)).map (cfgBranches bs)).foldl (· + ·) 0) &&
  ss.all (fun x => decide (x.type ≤ 4 ∨ 8 ≤ x.type) ||
    (let b := slice bs x.off x.size
     if x.type = 5 then shapeOk bs b
     else decide (x.size % 16 = 0) && (List.range (x.size / 16)).all (fun i =>
       if x.type = 6 then resv bs b (16 * i + 8) 8 else resv bs b (16 * i + 3) 5 && resv bs b (16 * i + 12) 4)))

/-- The layout checks of a configuration section (05 R170, R171). -/
def configOk (bs : List Byte) (c : Nat) : Bool :=
  let n := cfgBranches bs c
  let es := (List.range (cfgEdges bs c)).map (cfgEdge bs c)
  let adj := fun a b =>
    let p := cfgFoot bs c a
    let q := cfgFoot bs c b
    (p.1 == q.1 && ((p.2 - q.2).natAbs == 1)) || (p.2 == q.2 && ((p.1 - q.1).natAbs == 1))
  decide (fieldLE (cfgSect bs c) 0 2 = c) && decide (1 ≤ n ∧ n ≤ 128) && decide (1 ≤ cfgSlots bs c ∧ cfgSlots bs c ≤ 64) &&
  decide (fieldLE (cfgSect bs c) 8 1 < 2) && resv bs (cfgSect bs c) 9 1 && resv bs (cfgSect bs c) 12 4 && decide (cfgEdges bs c ≤ 512) &&
  cfgFoot bs c 0 == (0, 0) && (List.range n).all (fun i => resv bs (cfgSect bs c) (18 + 4 * i) 2) &&
  es.all (fun x => decide (x.1 < n) && decide (x.2.1 < n) && decide (x.2.2 < 2) && adj x.1 x.2.1) &&
  (List.range (cfgEdges bs c)).all (fun e => resv bs (cfgSect bs c) (cfgEdgeEnd bs c - 4 * cfgEdges bs c + 4 * e + 3) 1) &&
  (List.range es.length).all (fun i => (List.range i).all (fun j =>
    let x := es.getD i (0, 0, 0)
    let y := es.getD j (0, 0, 0)
    !((x.1 == y.1 && x.2.1 == y.2.1) || (x.1 == y.2.1 && x.2.1 == y.1)))) &&
  (List.range n).all (fun i => (sectBytes bs 2 (c * 256 + i)).isSome)

/-- A relative branch's circuits leave only over named edges (05 R171). -/
def crossingsNamed (bs : List Byte) (c i : Nat) : Bool :=
  let n := cfgBranches bs c
  let x := brSect bs c i
  let es := (List.range (cfgEdges bs c)).map (cfgEdge bs c)
  (List.range 4).all (fun side =>
    let p := cfgFoot bs c i
    let q := if side = 0 then (p.1, p.2 - 1) else if side = 1 then (p.1 + 1, p.2) else if side = 2 then (p.1, p.2 + 1) else (p.1 - 1, p.2)
    let uses := (List.range 64).any (fun node => (nodeNeighbour node side).isNone &&
      (List.range 32).any (fun t => let e := brEntry x node side t; decide (entDsrc e ≠ 0) || decide (entTsrc e ≠ 0)))
    match (List.range n).find? (fun j => cfgFoot bs c j == q) with
    | none => true
    | some j => !uses || es.any (fun e => (e.1 == i && e.2.1 == j) || (e.1 == j && e.2.1 == i)))

/-- A source code exists at a node (04 R125, R128). -/
def srcExists (node code : Nat) : Bool := decide (code ≤ 9) || (code == 10 && (moverAt node).isSome)

/-- An image's slot table as a branch with slot set 0, so that the run-time path functions read it. -/
def brAsSet (x : List Byte) : Branch :=
  { Branch.empty with
    slots := tabOf 0 (64 * 384) (fun k => brEntry x (k / 384) (k % 384 / 32) (k % 32)) }

/-- The links a circuit follows from a node's destination in a slot to its buffered end, with the lane where it leaves. -/
def pathOf (b : Branch) (tok : Bool) : Nat → Nat → Nat → Nat → List (Nat × Nat × Nat)
  | 0, _, _, _ => []
  | fuel + 1, node, dest, slot =>
    let e := b.entry 0 node dest slot
    if 4 ≤ dest then [(node, dest, if dest = 4 then entDport e else 0)]
    else match nodeNeighbour node dest with
      | none => [(node, dest, entLane e)]
      | some n' => match b.takes 0 n' (oppSide dest) ((slot + 2) % 32) tok with
        | none => []
        | some d' => (node, dest, 0) :: pathOf b tok fuel n' d' ((slot + 2) % 32)

/-- A source of a node in an entry: code, SPORT for leaf outputs, LANE for outward link inputs. -/
def srcName (node code : Nat) (e : BitVec 16) : Nat × Nat :=
  (code, if code = 5 then entSport e else if 1 ≤ code ∧ code ≤ 4 ∧ (nodeNeighbour node (code - 1)).isNone then entLane e else 0)

/-- All paths that one buffered source (or crossing lane) of a node feeds (04 R128). -/
def pathsFrom (b : Branch) (node : Nat) (src : Nat × Nat) : List (List (Nat × Nat × Nat)) :=
  (List.range 384).flatMap (fun k =>
    let d := k / 32
    let t := k % 32
    let e := b.entry 0 node d t
    (if srcName node (entDsrc e) e == src then [pathOf b false 200 node d t] else []) ++
    (if srcName node (entTsrc e) e == src then [pathOf b true 200 node d t] else []))

/-- The buffered sources of a node: leaf outputs, steering outputs, the mover, and the lanes of outward link inputs. -/
def sourcesOf (node : Nat) : List (Nat × Nat) :=
  [(5, 0), (5, 1), (5, 2), (5, 3), (6, 0), (7, 0), (8, 0), (9, 0), (10, 0)] ++
  (List.range 64).filterMap (fun k => if (nodeNeighbour node (k / 16)).isNone then some (k / 16 + 1, k % 16) else none)

/-- Steering inputs that a kind uses: 0 A, 1 B, 2 T (04 R141). -/
def steerUses (kind input : Nat) : Bool :=
  if input = 0 then decide (1 ≤ kind) else if input = 1 then kind == 1 || kind == 3 else kind == 1 || kind == 2 || kind == 3 || kind == 5

/-- The checks of one branch section's slot set (04 R128, R133, R139). Two output ports of one leaf are different sources
by their SPORT, but two entries of one slot may not both take a beat, or both a token, from them: the local link carries
one of each in a cycle (R123). DEDUCED, log entry 23. -/
def slotSetOk (bs x : List Byte) : Bool :=
  let b := brAsSet x
  let ents := fun node t => (List.range 12).map (fun d => (d, b.entry 0 node d t))
  (List.range 64).all (fun node =>
    resv bs x (0x42880 + node * 1024 + 0x340) 0xC0 &&
    [0, 1].all (fun u =>
      decide (brSteer x node u 0 ≤ 5) && decide (brSteer x node u 1 ≤ 1) && decide (brSteer x node u 3 < 16) &&
      decide (brSteer x node u 5 < 16) && resv bs x (0x42880 + node * 1024 + 0x300 + u * 32 + 12) 20) &&
    (List.range 32).all (fun t =>
      (ents node t).all (fun de =>
        let d := de.1
        let e := de.2
        let ds := entDsrc e
        let ts := entTsrc e
        srcExists node ds && srcExists node ts && (decide (d ≠ 11) || (moverAt node).isSome || e == 0) &&
        (!(d == 7 || d == 10) || ds == 0) &&
        (!(d == 5 || d == 6 || d == 8 || d == 9 || d == 11) || ts == 0 || ts == ds) &&
        (!(decide (5 ≤ d ∧ d ≤ 10)) || (ds == 0 && ts == 0) || steerUses (brSteer x node ((d - 5) / 3) 0) ((d - 5) % 3)) &&
        (decide (3 < d) || (nodeNeighbour node d).isSome ||
          !((decide (1 ≤ ds ∧ ds ≤ 4) && (nodeNeighbour node (ds - 1)).isNone) ||
            (decide (1 ≤ ts ∧ ts ≤ 4) && (nodeNeighbour node (ts - 1)).isNone))) &&
        (decide (3 < d) || (match nodeNeighbour node d with
          | none => true
          | some n' =>
            (ds == 0 || (b.takes 0 n' (oppSide d) ((t + 2) % 32) false).isSome) &&
            (ts == 0 || (b.takes 0 n' (oppSide d) ((t + 2) % 32) true).isSome)))) &&
      (ents node t).all (fun p => (ents node t).all (fun q =>
        decide (p.1 = q.1) ||
        !(entDsrc p.2 == 5 && entDsrc q.2 == 5 || entTsrc p.2 == 5 && entTsrc q.2 == 5) &&
        [entDsrc p.2, entTsrc p.2].all (fun c => c == 0 ||
          [entDsrc q.2, entTsrc q.2].all (fun c' => !(c == c' && (c != 5 || entSport p.2 == entSport q.2)))))))) &&
  (let all := (List.range 64).flatMap (fun node => (sourcesOf node).map (fun src => (pathsFrom b node src)))
   all.all (fun ps => match ps with | [] => true | p :: r => r.all (fun q => q == p)) &&
   (let ends : List (Nat × Nat × Nat) := all.filterMap (fun ps => (ps.head?).bind (fun p => p.getLast?))
    (List.range ends.length).all (fun i => (List.range i).all (fun j =>
      let e : Nat × Nat × Nat := ends.getD i (0, 0, 0)
      !(decide (e.2.1 < 4) && e == ends.getD j (0, 0, 0))))))

/-- The checks of a mover template (07 R245, R247-R249). -/
def tmplOk (bs x tm : List Byte) : Bool :=
  let m := fieldLE tm 0 1
  let d := tm.drop 8
  let kind := fieldLE d 0 1
  let src := fld (fieldLE d 2 1) 3 0
  let dst := fld (fieldLE d 2 1) 7 4
  let sl := fld (fieldLE d 3 1) 1 0
  let dl := fld (fieldLE d 3 1) 3 2
  let fmt := fieldLE d 4 1
  let mode := fld (fieldLE d 5 1) 3 2
  let pitch := fieldLE d 24 4
  let raw := sl == 2 || dl == 2
  let unit := if codeBits fmt < 8 then 4 * codeBits fmt else codeBits fmt / 8
  let node := if m = 0 then 27 else if m = 1 then 28 else if m = 2 then 35 else 36
  let b := brAsSet x
  decide (m < 4) && decide (fieldLE tm 2 1 < 4) && resv bs tm 3 5 && decide (kind < 3) && decide (fieldLE d 1 1 < 8) &&
  decide (src ≤ 3) && decide (dst ≤ 3) && (decide (src ≠ 3) || zeros d 14 1) && (decide (dst ≠ 3) || zeros d 22 1) && !isReservedCode fmt &&
  decide (fieldLE d 3 1 < 16) && decide (sl ≤ 2) && decide (dl ≤ 2) && decide (fmt < 32) &&
  decide (fieldLE d 5 1 < 16) &&
  (decide (kind ≠ 1) ||
    (!(src == 1 && dst == 1) && ((sl == 2) == (dl == 2) || src == 1 || dst == 1) &&
     (!(src == 3) || (raw && (dst == 0 || dst == 2))) && (!(dst == 3) || (raw && (src == 0 || src == 2))) &&
     (!raw || fmt == 0) &&
     (!(sl == 1 || dl == 1) || (!(isScaled fmt && !isMx fmt) && decide (pitch % unit = 0))) &&
     (sl == 1 || dl == 1 || (raw && mode == 3) || pitch == 0) &&
     (!(mode == 3) || (raw && fieldLE d 5 1 % 4 % 2 == 0)) &&
     (!(src == 1) || (List.range 32).any (fun t => b.entry 0 node 11 t != 0)) &&
     (!(dst == 1) || (List.range 384).any (fun k => let e := b.entry 0 node (k / 32) (k % 32); entDsrc e == 10 || entTsrc e == 10))))

/-- The checks of a branch section (05 R173-R176, with 03 R121). One without templates may end after its shape bindings or at the fixed
offset of the templates (DEDUCED, log entry 27). -/
def branchOk (bs : List Byte) (c i : Nat) : Bool :=
  let x := brSect bs c i
  decide (fieldLE x 0 2 = c) && decide (fieldLE x 2 1 = i) && decide (brScratch bs c i ≤ 8) && decide (brNbind x ≤ 64) &&
  decide (brNtmpl x ≤ 128) && resv bs x 6 58 && (decide (x.length = 0x52A80 + 40 * brNtmpl x) || (brNtmpl x == 0 && decide (x.length = 0x52880 + 8 * brNbind x))) &&
  (List.range 64).all (fun j => decide (fieldLE x (64 + j) 1 % 8 = 0)) &&
  (List.range 64).all (fun j => contextOk ((List.range 512).map (brCode x j))) &&
  slotSetOk bs x && crossingsNamed bs c i &&
  (List.range (brNbind x)).all (fun k => let b := brBind x k
    decide (fieldLE b 0 1 < 64) && decide (fieldLE b 1 1 < 32) && decide (fieldLE b 2 1 < cfgSlots bs c) && decide (fieldLE b 3 1 < 4) &&
    decide (fieldLE b 4 1 < 4) && resv bs b 5 3) &&
  (List.range (brNtmpl x)).all (fun k => tmplOk bs x (brTmpl x k))

/-- The checks of an entry (05 R175, R177, R181-R183, 10 R328, 11 R389). -/
def entryOk (bs : List Byte) (e : Nat) : Bool :=
  let r := entRec bs e
  let cls := entClasses bs e
  let cs := entCfgs bs e
  let c0 := entCfg bs e
  let nb := nBuckets (entShape bs e)
  decide (fieldLE r 0 2 = e) && decide (cls < 8) && decide (entOps bs e < 16) && decide (1 ≤ fieldLE r 4 1 ∧ fieldLE r 4 1 ≤ 8) &&
  decide (fieldLE r 5 1 < 2) && resv bs r 6 2 && resv bs r 30 34 && resv bs r (8 + 2 * fieldLE r 4 1) (16 - 2 * fieldLE r 4 1) &&
  cs.all (fun c => decide (c < imgConfigs bs) && decide (cfgBranches bs c = cfgBranches bs c0) &&
    (List.range (cfgBranches bs c0)).all (fun i =>
      cfgFoot bs c (relIn bs c0 c i) == cfgFoot bs c0 i && brScratch bs c (relIn bs c0 c i) == brScratch bs c0 i)) &&
  (sectBytes bs 5 (fieldLE r 24 2)).isSome && (sectBytes bs 6 (fieldLE r 26 2)).isSome && (sectBytes bs 7 (fieldLE r 28 2)).isSome &&
  (List.range nb).all (fun k =>
    (fld cls 1 1 == 0 || (latRows (entLat bs e)).any (fun w => w.1 == 1 && w.2.1 == 0 && w.2.2.1 == entSlots bs e && w.2.2.2.1 == k)) &&
    (fld cls 0 0 == 0 || (List.range 8).all (fun p =>
      (latRows (entLat bs e)).any (fun w => w.1 == 0 && w.2.1 == p && w.2.2.1 == entSlots bs e && w.2.2.2.1 == k)))) &&
  (latRows (entLat bs e)).all (fun w => decide (w.1 < 2) && decide (w.2.1 < 8) && decide (1 ≤ w.2.2.1 ∧ w.2.2.1 ≤ entSlots bs e) &&
    decide (w.2.2.2.1 < nb) &&
    (nrgRows (entNrg bs e)).any (fun n => n.1 == w.2.1 && n.2.1 == w.2.2.1 && n.2.2.1 == w.2.2.2.1)) &&
  (fld cls 0 0 == 0 || decide (cls = 1)) &&
  (decide (cls ≠ 1) ||
    (entPin bs e && decide (entOps bs e = 1) &&
     cs.all (fun c => (servingBlk bs c).isEmpty || fieldLE (servingBlk bs c) 4 2 == 0) &&
     (List.range (nDecls bs)).all (fun k => let d := declRec bs k
       decide (fieldLE d 0 2 ≠ e) || decide (fieldLE d 2 1 < 2) || decide (declSize d (shapeMax (entShape bs e)) ≤ 4064))))

/-- The checks of the inlet and outlet section (05 R183). -/
def declsOk (bs : List Byte) : Bool :=
  (List.range (nDecls bs)).all (fun k => let d := declRec bs k
    let kind := fieldLE d 2 1
    decide (kind < 4) && decide (fieldLE d 0 2 < imgEntries bs) && resv bs d 15 17 &&
    (if kind < 2 then decide (fieldLE d 13 1 < 4) else fieldLE d 13 1 == 0xFF) &&
    decide (fieldLE d 12 1 < cfgBranches bs (entCfg bs (fieldLE d 0 2))) &&
    (decide (fieldLE d 3 1 < 4) || fieldLE d 3 1 == 0xFF) && !isReservedCode (fieldLE d 14 1 % 32) && decide (fieldLE d 14 1 < 32))

/-- The geometry of an entry (11 R364, R367): LAYERS, KV_FMT, BUDS, KV_BYTES, MAX_POS, VOCAB, TOPN_MAX, 18 bytes. -/
def entGeometry (bs : List Byte) (e : Nat) : List Byte := slice (servingBlk bs (entCfg bs e)) 4 18
def geoLayers (g : List Byte) : Nat := fieldLE g 0 2
def geoBuds (g : List Byte) : Nat := fieldLE g 3 1
def geoKvBytes (g : List Byte) : Nat := fieldLE g 4 4
def geoMaxPos (g : List Byte) : Nat := fieldLE g 8 4
def geoVocab (g : List Byte) : Nat := fieldLE g 12 4
def geoTopN (g : List Byte) : Nat := fieldLE g 16 2
/-- KV binding k and preload range k of a serving block (11 R366). -/
def kvBind (sb : List Byte) (k : Nat) : List Byte := slice sb (64 + 8 * k) 8
def preRange (sb : List Byte) (k : Nat) : List Byte := slice sb (64 + 8 * fieldLE sb 28 2 + 4 * k) 4

/-- The checks of an entry's serving blocks (11 R367). -/
def servingOk (bs : List Byte) (e : Nat) : Bool :=
  let gen := decide (1 < entOps bs e)
  let g := entGeometry bs e
  let sh := entShape bs e
  (entCfgs bs e).all (fun c =>
    let sb := servingBlk bs c
    sb.isEmpty ||
    (slice sb 4 18 == g && decide (geoLayers g ≤ 1024) && !isReservedCode (fieldLE g 2 1 % 32) && decide (geoBuds g ≤ 4) &&
     decide (geoKvBytes g % 64 = 0 ∧ 64 ≤ geoKvBytes g ∧ geoKvBytes g ≤ 65536) &&
     decide (geoMaxPos g % 64 = 0 ∧ 64 ≤ geoMaxPos g ∧ geoMaxPos g ≤ 1048576) && decide (geoVocab g ≤ 262144) &&
     decide (geoTopN g ≤ 256) && resv bs sb 23 1 && resv bs sb 32 32 && decide (fieldLE sb 22 1 < cfgBranches bs c) &&
     decide (fieldLE sb 28 2 ≤ 4096) && decide (fieldLE sb 30 2 ≤ 128) &&
     (fieldLE sb 24 4 == 0xFFFFFFFF || fieldLE sb 24 4 % 64 == 0) &&
     (List.range (fieldLE sb 28 2)).all (fun k => let kb := kvBind sb k
       let x := brSect bs c (fieldLE kb 0 1)
       let d := (brTmpl x (fieldLE kb 1 1)).drop 8
       let dir := fieldLE kb 2 1
       let kvEnd := if dir = 0 then fld (fieldLE d 2 1) 3 0 else fld (fieldLE d 2 1) 7 4
       let other := if dir = 0 then fld (fieldLE d 2 1) 7 4 else fld (fieldLE d 2 1) 3 0
       let lay := if dir = 0 then fld (fieldLE d 3 1) 1 0 else fld (fieldLE d 3 1) 3 2
       decide (fieldLE kb 0 1 < cfgBranches bs c) && decide (fieldLE kb 1 1 < brNtmpl x) && decide (dir < 2) && resv bs kb 3 1 && resv bs kb 6 2 &&
       decide (fieldLE kb 4 2 < geoLayers g) && kvEnd == 2 && lay == 2 && fieldLE d (if dir = 0 then 8 else 16) 8 == 0 &&
       (other == 0 || other == 1)) &&
     (let ranges := (List.range (fieldLE sb 30 2)).map (preRange sb)
      let ins := fun (r : List Byte) rel t => fieldLE r 0 1 == rel && decide (fieldLE r 1 1 ≤ t ∧ t < fieldLE r 1 1 + fieldLE r 2 1)
      ranges.all (fun r =>
        let x := brSect bs c (fieldLE r 0 1)
        decide (fieldLE r 0 1 < cfgBranches bs c) && decide (1 ≤ fieldLE r 2 1) && resv bs r 3 1 &&
        decide (fieldLE r 1 1 + fieldLE r 2 1 ≤ brNtmpl x) &&
        (List.range (fieldLE r 2 1)).all (fun k => let tm := brTmpl x (fieldLE r 1 1 + k)
          fld (fieldLE tm 10 1) 3 0 != 1 && fld (fieldLE tm 10 1) 7 4 != 1 && (fieldLE tm 2 1 == 0 || fieldLE tm 2 1 == 3) &&
          decide ((ranges.filter (fun q => ins q (fieldLE r 0 1) (fieldLE r 1 1 + k))).length = 1) &&
          !(List.range (fieldLE sb 28 2)).any (fun q => let kb := kvBind sb q
            fieldLE kb 0 1 == fieldLE r 0 1 && fieldLE kb 1 1 == fieldLE r 1 1 + k)))))) &&
  (!gen || (!g.isEmpty && decide (0 < geoLayers g) && decide (0 < geoVocab g) &&
    decide (fieldLE (servingBlk bs (entCfg bs e)) 24 4 ≠ 0xFFFFFFFF) && shapeUsed sh 0 && shapeUsed sh 1 &&
    decide (shapeMax sh 1 = geoMaxPos g / 64) && (fld (entOps bs e) 3 3 == 0 || decide (0 < geoBuds g))))

/-- A template of a configuration is in one of its preload ranges (11 R366). -/
def inPreload (bs : List Byte) (c rel t : Nat) : Bool :=
  let sb := servingBlk bs c
  (List.range (fieldLE sb 30 2)).any (fun k => let r := preRange sb k
    fieldLE r 0 1 == rel && decide (fieldLE r 1 1 ≤ t ∧ t < fieldLE r 1 1 + fieldLE r 2 1))

/-- An Express entry's templates reach no pool object or volume outside its preload ranges (11 R389). -/
def expressTmplOk (bs : List Byte) (e : Nat) : Bool :=
  decide (entClasses bs e ≠ 1) || (entCfgs bs e).all (fun c => (List.range (cfgBranches bs c)).all (fun i =>
    let x := brSect bs c i
    (List.range (brNtmpl x)).all (fun k => inPreload bs c i k ||
      (let ends := fieldLE (brTmpl x k) 10 1
       decide (fld ends 3 0 < 2) && decide (fld ends 7 4 < 2)))))

/-! Manifests (08 R267-R271) -/

def manId (m : List Byte) : Nat := fieldLE m 8 8
def manShards (m : List Byte) : Nat := fieldLE m 24 4
def manStages (m : List Byte) : Nat := fieldLE m 22 2
def manProjs (m : List Byte) : Nat := fieldLE m 28 2
def manLyorn (m : List Byte) : Bool := fld (fieldLE m 30 1) 0 0 == 1
def manGraftable (m : List Byte) : Bool := fld (fieldLE m 30 1) 1 1 == 1
def shardRec (m : List Byte) (k : Nat) : List Byte := slice m (64 + 64 * k) 64
def shardSize (m : List Byte) (k : Nat) : Nat := fieldLE (shardRec m k) 4 4
def shardMember (m : List Byte) (k : Nat) : Nat := fieldLE (shardRec m k) 8 2
def shardStage (m : List Byte) (k : Nat) : Nat := fieldLE (shardRec m k) 10 2
def shardBlock (m : List Byte) (k : Nat) : Nat := fieldLE (shardRec m k) 16 8
def shardDigest (m : List Byte) (k : Nat) : List Byte := slice (shardRec m k) 24 32
def stageNeed (m : List Byte) (k : Nat) : Nat := fieldLE m (64 + 64 * manShards m + 16 * k + 8) 8
def projRec (m : List Byte) (k : Nat) : List Byte := slice m (64 + 64 * manShards m + 16 * manStages m + 32 * k) 32
/-- The shards that belong to a member (08 R277). -/
def shardsOf (m : List Byte) (member : Nat) : List Nat :=
  (List.range (manShards m)).filter (fun k => shardMember m k == member || shardMember m k == 0xFFFF)
/-- The graft formats (08 R289): FP8 E4M3, FP8 E5M2, INT8, BF16, FP16. -/
def graftFmt (f : Nat) : Bool := f == 3 || f == 4 || f == 5 || f == 1 || f == 2

/-- A shard or graft digest: SHA-256 over the SHA-256 of each 1 MiB chunk (08 R272). -/
def chunkDigest (bs : List Byte) : List Byte :=
  Crypto.sha256 ((List.range (Nat.max 1 (cdiv bs.length 1048576))).flatMap (fun i => Crypto.sha256 (slice bs (i * 1048576) 1048576)))

/-- The checks of a manifest against its image (08 R271): any nonzero reserved byte refuses it, whatever its VER_MINOR. -/
def manifestOk (keys : List (List Byte)) (img m : List Byte) : Bool :=
  let n := manShards m
  let size := fieldLE m 16 4
  let table := 64 + 64 * n + 16 * manStages m + 32 * manProjs m
  decide (m.length = size) && sigOkWith zeros m (up64 table) keys && decide (up64 table + 256 = size) &&
  decide (Crypto.sha256 m = imgManifestDigest img) && decide (manId m = imgManifestId img) && decide (manId m ≠ 0) &&
  decide (fieldLE m 0 4 = 0x464D4B57) && decide (fieldLE m 6 2 = 64) && decide (fieldLE m 5 1 = 1) &&
  zeros m 31 1 && zeros m 40 24 && decide (fieldLE m 30 1 < 4) && zeros m table (up64 table - table) &&
  decide (1 ≤ fieldLE m 20 2 ∧ fieldLE m 20 2 ≤ 256) && decide (1 ≤ manStages m ∧ manStages m ≤ 4096) &&
  decide (1 ≤ n ∧ n ≤ 65535) && decide (manProjs m ≤ 4096) &&
  decide (fieldLE m 32 8 = (List.range n).foldl (fun a k => a + shardSize m k) 0) &&
  (List.range n).all (fun k => decide (fieldLE (shardRec m k) 0 4 = k) && decide (1 ≤ shardSize m k ∧ shardSize m k ≤ 1073741824) &&
    (decide (shardMember m k < fieldLE m 20 2) || shardMember m k == 0xFFFF) && decide (shardStage m k < manStages m) &&
    (k == 0 || decide (shardStage m (k - 1) ≤ shardStage m k)) && zeros (shardRec m k) 12 4 && zeros (shardRec m k) 56 8) &&
  (List.range (manStages m)).all (fun k => let o := 64 + 64 * n + 16 * k
    decide (fieldLE m o 2 = k) && zeros m (o + 2) 6) &&
  (List.range (manProjs m)).all (fun k => let p := projRec m k
    decide (fieldLE p 0 2 = k) && decide (4 ≤ fieldLE p 2 2 ∧ fieldLE p 2 2 ≤ 128) && decide (fieldLE p 12 1 < 2) &&
    graftFmt (fieldLE p 13 1) && zeros p 14 2) &&
  (!manLyorn m || (!manGraftable m && manProjs m == 0)) && (manLyorn m == imgLyorn img)

end Sys2Proof.Machine
end

