-- ==== Sys2Proof/Machine/Stand.lean ====
section
/-! DEFINITION. Stands: their interrupts, violation log, address translation, requests, servers and energy; the completion of a
request (10 R327-R356, 14 R483-R490). -/

namespace Sys2Proof.Machine

/-! ### Ownership -/

/-- The stand that owns a branch (05 R199). -/
def State.owner (s : State) (b : Nat) : Option Nat := if (s.branch b).assigned then some (s.branch b).stand else none
/-- The branches of a stand, ascending. -/
def State.branchesOf (s : State) (sd : Nat) : List Nat := (List.range s.nBranches).filter (fun b => s.owner b == some sd)
/-- The stand is built (10 R363). -/
def State.built (s : State) (sd : Nat) : Bool := s.rbit (Reg.stdCfg sd) 63
/-- The built stands. -/
def State.stands (s : State) : List Nat := (List.range 64).filter s.built
/-- STD_STATUS.STATE. -/
def State.stdState (s : State) (sd : Nat) : Nat := s.rf (Reg.stdStatus sd) 2 0
def State.res (s : State) (sd : Nat) : StandRes := tget StandRes.empty s.sv.stands sd
def State.modRes (s : State) (sd : Nat) (f : StandRes → StandRes) : State :=
  s.modSv (fun v => { v with stands := tmod StandRes.empty v.stands sd f })
/-- A branch is one of the stand's Express branches. -/
def State.isExpress (s : State) (sd b : Nat) : Bool :=
  if b < 64 then (s.reg (Reg.stdExpressLo sd)).testBit b else (s.reg (Reg.stdExpressHi sd)).testBit (b - 64)

/-! ### Interrupts (10 R354-R356) -/

/-- The host port whose link carries a stand's virtual function (13 R439). -/
def State.vfPort (s : State) (sd : Nat) : Nat :=
  ((List.range 4).find? (fun k => (s.reg (Reg.lnkHostStands (16 + k))).testBit sd)).getD 0

/-- ADM_ALERT: bit s while stand s has a pending, unmasked vector (10 R356). -/
def State.admAlert (s : State) : Nat :=
  (List.range 64).foldl (fun a sd =>
    if s.reg (Reg.stdIrqPend sd) &&& (2 ^ 32 - 1 - s.reg (Reg.stdIrqMask sd) % 2 ^ 32) = 0 then a else a + 2 ^ sd) 0

/-- What holds ALERT_N asserted: bit s for a stand whose vectors ADM_ALERT_MASK lets through, then a rejected seed image, PWR_EVENT,
ORPHAN and the thermal trip (18 R566). -/
def State.alertCauses (s : State) : Nat :=
  (s.admAlert &&& s.reg Reg.admAlertMask) + (if s.rf Reg.seedStatus 2 0 = 4 then 2 ^ 64 else 0) + (if s.rbit Reg.pwrEvent 63 then 2 ^ 65 else 0) +
    (if s.rbit Reg.pwrStatus 3 then 2 ^ 66 else 0) + (if s.rbit Reg.thmStatus 3 then 2 ^ 67 else 0)
/-- PF vector 1 of every host port in PCIe mode (13 R439). -/
def State.pfVector (s : State) (v : Nat) : State :=
  s.each (List.range 4) (fun s k => if s.rf (Reg.lnkCfg (16 + k)) 2 0 = 4 then s.emit (.msix s.now k 0 v) else s)
/-- ALERT_N follows its causes; after an Alert Response it is asserted again when a further cause becomes true (18 R566). -/
def State.alertEdge (s : State) : State :=
  let c := s.alertCauses
  let put := fun (on : Bool) (ans : Option Nat) => ({ s with mg := { s.mg with alerting := on, alertCauses := c, alertAnswered := ans } } : State)
  if c = 0 then put false none
  else if s.mg.alerting then put true none
  else if s.mg.alertAnswered = none ∨ c &&& s.mg.alertCauses ≠ c then (put true none).pfVector 1
  else put false s.mg.alertAnswered

/-- The message of a vector: MSI-X in mode 0, a SIGNAL in mode 1 (10 R355). -/
def State.vecMessage (s : State) (sd v : Nat) : State :=
  if s.rbit (Reg.stdIrqCfg sd) 0
  then s.emit (.signal s.now (s.rf (Reg.stdIrqCfg sd) 9 8) (s.reg (Reg.stdIrqAddr sd) / 8 * 8 + 8 * v))
  else s.emit (.msix s.now (s.vfPort sd) (sd + 1) v)

/-- Set a stand's vector pending; it sends one message when it was not pending and is unmasked. -/
def State.setVector (s : State) (sd v : Nat) : State :=
  if s.rbit (Reg.stdIrqPend sd) v then s
  else
    let s1 := s.wbit (Reg.stdIrqPend sd) v true
    if s.rbit (Reg.stdIrqMask sd) v then s1 else (s1.vecMessage sd v).alertEdge

/-! ### Violations (10 R333, R334) -/

/-- Record a violation: the lowest free log entry, or the count of lost ones; vector 8, an EVENT record and the freeze that
DBG_CFG.TRIG enables in either case (10 R333, R334, 16 R529, R541). -/
def State.violation (s : State) (sd op rq br unit addr tag : Nat) : State :=
  let a := 2 ^ 63 + op % 8 * 2 ^ 60 + rq % 16 * 2 ^ 56 + br % 128 * 2 ^ 49 + unit % 64 * 2 ^ 43
  let s1 := match (List.range 8).find? (fun e => !s.rbit (Reg.stdViolA sd e) 63) with
    | some e => (((s.putReg (Reg.stdViolA sd e) a).putReg (Reg.stdViolAddr sd e) addr).putReg (Reg.stdViolTime sd e) s.now).putReg (Reg.stdViolTag sd e) tag
    | none => s.bump (Reg.stdViolLost sd) 31 0 1
  ((s1.setVector sd 8).eventOf (some sd) 2 sd a addr).trigger 1

/-! ### Translation (10 R330-R332, 01 R26-R29) -/

/-- The operations a segment permits: R read, W write, A atomic (10 R332). -/
inductive MemOp where
  | read | write | atomic
  deriving DecidableEq, Repr

/-- A translated canopy address. -/
structure Canopy where
  pid : Nat
  space : Nat
  off : Nat
  deriving DecidableEq, Repr

/-- The 64-bit canopy address. -/
def Canopy.addr (c : Canopy) : Nat := c.pid * 2 ^ 48 + c.space * 2 ^ 45 + c.off

def permits (perm : Nat) : MemOp → Bool
  | .read => perm.testBit 2
  | .write => perm.testBit 1
  | .atomic => perm.testBit 1 && perm.testBit 0

/-- The translation of a stand address (10 R332); none is a violation. -/
def State.translate (s : State) (sd addr : Nat) (op : MemOp) : Option Canopy :=
  let p := fld addr 47 45
  let n := fld addr 44 41
  let off := fld addr 40 0
  if fld addr 63 48 ≠ 0 ∨ 2 < p then none
  else
    let a := s.reg (Reg.stdSegA sd (p * 16 + n))
    let b := s.reg (Reg.stdSegB sd (p * 16 + n))
    let base := fld b 23 0
    let size := fld b 47 24
    let pid := fld a 15 0
    if fld a 63 63 = 0 ∨ size * 2 ^ 21 ≤ off ∨ permits (fld a 62 60) op = false then none
    else if pid = s.ownPid ∧ p = 0 then
      let sn := s.sv.upStacks.length
      let r := base * 2 ^ 21 + off
      let k := r / 2 ^ 21
      let region := fld (s.reg (Reg.stdNearRegion sd)) 23 0
      if sn = 0 then none
      else some ⟨pid, 0, s.sv.upStacks.getD (k % sn) 0 * 2 ^ 37 + (region + k / sn) * 2 ^ 21 + r % 2 ^ 21⟩
    else some ⟨pid, p, base * 2 ^ 21 + off⟩

/-- A range crosses a 4 KiB boundary (01 R29). -/
def crosses4k (off n : Nat) : Bool := decide (off / 4096 ≠ (off + n - 1) / 4096) && decide (0 < n)

/-- Why a local access is refused: not there, or a unit that has failed. -/
inductive MemErr where
  | violation | tierFailed
  deriving DecidableEq, Repr

/-- The near stack of an offset, the warm channel of an offset (06 R204, R215, R216). -/
def nearStack (off : Nat) : Nat := off / 2 ^ 37
/-- The DIMM capacity of a warm channel in GiB. -/
def State.dimmGib (s : State) (c : Nat) : Nat := s.rf (Reg.wtcStatus c) 47 32
/-- The channel and DIMM address of a SPACE 1 offset, none where the offset is unpopulated (06 R215, R216). -/
def State.warmPlace (s : State) (off : Nat) : Option (Nat × Nat) :=
  let n := s.tiers.stripe.length
  let p := s.tiers.pGib
  if off < 0x100000000000 then
    if off < n * p * 2 ^ 30 then
      let g := off / 4096
      some (s.tiers.stripe.getD (g % n) 0, g / n * 4096 + off % 4096)
    else none
  else
    let c := (off - 0x100000000000) / 2 ^ 39
    let y := (off - 0x100000000000) % 2 ^ 39
    let cap := tget 0 s.tiers.warmCap c
    if c < 24 ∧ y < (cap - p) * 2 ^ 30 then some (c, p * 2 ^ 30 + y) else none

/-- Whether local bytes can be accessed (01 R27, R29, 06 R204, R212, R215, R218, 05 R194). -/
def State.localOk (s : State) (space off n : Nat) : Option MemErr :=
  if crosses4k off n then some .violation
  else if space = 0 then
    let k := nearStack off
    if s.nStacks ≤ k ∨ 0xFE0000000 < off % 2 ^ 37 + n then some .violation
    else if s.rf (Reg.ntcStatus k) 2 0 = 2 ∨ s.rf (Reg.ntcStatus k) 2 0 = 3 then none else some .tierFailed
  else if space = 1 then
    match s.warmPlace off with
    | none => some .violation
    | some (c, _) => if s.rf (Reg.wtcStatus c) 2 0 = 2 ∨ s.rf (Reg.wtcStatus c) 2 0 = 3 then none else some .tierFailed
  else if space = 2 then
    let b := off / 2 ^ 25
    let r := off % 2 ^ 25
    if s.nBranches ≤ b then some .violation
    else if r < 2 ^ 24 then none
    else if r - 2 ^ 24 + n ≤ (s.branch b).scratch * 2 ^ 20 then none else some .violation
  else some .violation

/-- The poison reason of a range of memory: the first poisoned sector's, 0 where there is none (06 R210). -/
def State.poisonIn (s : State) (space off n : Nat) : Byte :=
  ((List.range (n / 64 + 2)).map (fun i => tget 0 s.tiers.poison ((memKey space off / 64) + i))).zipIdx.foldl
    (fun r x => if r ≠ 0 then r else if (memKey space off / 64 + x.2) * 64 < memKey space off + n then x.1 else r) 0

/-- Bytes of a leaf's memory are about to be written from outside the leaf (01 R26, 03 R91). -/
def State.noteOutside (s : State) (space off n : Nat) : State :=
  if space = 2 ∧ off % 0x2000000 < 0x1000000 then s.noteSeen (off / 0x2000000 * 64 + off % 0x2000000 / 0x40000) none (off % 0x40000) n else s

/-- Store bytes: a sector that is wholly covered loses its poison entry (06 R210). -/
def State.store (s : State) (space off : Nat) (bs : List Byte) : State :=
  let k := memKey space off
  let s1 := (s.noteOutside space off bs.length).memWrite k bs
  { s1 with tiers := { s1.tiers with
      poison := s1.tiers.poison.filter (fun e => !(decide (k ≤ e.1 * 64 ∧ e.1 * 64 + 64 ≤ k + bs.length))) } }

/-! ### Requests -/

def State.req (s : State) (id : Nat) : Option Request := s.sv.requests.find? (fun r => r.id == id)
def State.modReq (s : State) (id : Nat) (f : Request → Request) : State :=
  s.modSv (fun v => { v with requests := mapIf (fun r => r.id == id) f v.requests })
def State.dropReq (s : State) (id : Nat) : State :=
  s.modSv (fun v => { v with requests := v.requests.filter (fun r => r.id != id) })
/-- Descriptor fields (10 R336). -/
def Request.opcode (r : Request) : Nat := fieldLE r.desc 0 2
def Request.cfgId (r : Request) : Nat := fieldLE r.desc 2 2
def Request.tag (r : Request) : Nat := fieldLE r.desc 4 4
def Request.graftId (r : Request) : Nat := fieldLE r.desc 16 3
def Request.graftVer (r : Request) : Nat := fieldLE r.desc 19 1
def Request.seqId (r : Request) : Nat := fieldLE r.desc 20 4
def Request.shape (r : Request) (d : Nat) : Nat := fieldLE r.desc (24 + 2 * d) 2
def Request.inLen (r : Request) : Nat := fieldLE r.desc 48 4
def Request.outMax (r : Request) : Nat := fieldLE r.desc 52 4
def Request.flags (r : Request) : Nat := fieldLE r.desc 56 2
def Request.aux (r : Request) : Nat := fieldLE r.desc 58 2
/-- The class: 0 Express, 1 Deadline, 2 Bulk; the reserved value counts as Bulk (16 R527). -/
def Request.cls (r : Request) : Nat := Nat.min (r.flags % 4) 2
/-- Accepted and not completed. -/
def Request.live (r : Request) : Bool := r.phase == .waiting || r.phase == .running

def State.inst (s : State) (i : Nat) : Option Inst := s.sv.insts.find? (fun x => x.id == i)
def State.load (s : State) (l : Nat) : Option Load := s.sv.loads.find? (fun x => x.id == l)
def State.modLoad (s : State) (l : Nat) (f : Load → Load) : State :=
  s.modSv (fun v => { v with loads := mapIf (fun x => x.id == l) f v.loads })
def State.pass (s : State) (p : Nat) : Option Pass := s.sv.passes.find? (fun x => x.id == p)
def State.modPass (s : State) (p : Nat) (f : Pass → Pass) : State :=
  s.modSv (fun v => { v with passes := mapIf (fun x => x.id == p) f v.passes })
def State.dropPass (s : State) (p : Nat) : State :=
  s.modSv (fun v => { v with passes := v.passes.filter (fun x => x.id != p) })
/-- A fresh number for a request, pass, load, object or message. -/
def State.fresh (s : State) : Nat × State := (s.sv.nextId, s.modSv (fun v => { v with nextId := v.nextId + 1 }))
/-- The image bytes of a load. -/
def State.image (s : State) (l : Nat) : List Byte := ((s.load l).map (·.image)).getD []
/-- The home branch of an instance: its lowest branch (ch. 04). -/
def Inst.home (i : Inst) : Nat := i.branches.foldl Nat.min (i.branches.headD 0)
/-- The running pass of a branch. -/
def State.passOn (s : State) (b : Nat) : Option Pass :=
  s.sv.passes.find? (fun p => p.dispatched && (match p.inst.bind s.inst with | some i => i.branches.contains b | none => false))
/-- The member of a pass in a batch slot. -/
def State.slotReq (s : State) (p : Pass) (slot : Nat) : Option Request :=
  s.sv.requests.find? (fun r => p.members.contains r.id && r.slot == slot)

/-- Charge a fault to a request: the first stands (10 R350). -/
def State.charge (s : State) (id status addr : Nat) : State :=
  s.modReq id (fun r => if r.fault = 0 then { r with fault := status, faultAddr := addr } else r)
/-- Charge a fault to every request of the pass on a branch. -/
def State.chargePass (s : State) (b status addr : Nat) : State :=
  match s.passOn b with
  | some p => s.each p.members (fun s id => s.charge id status addr)
  | none => s

/-- The earlier of two poison events: ring time, then branch, then leaves before movers, then index (07 R259). -/
def PoisonEvent.before (a b : PoisonEvent) : Bool :=
  decide (a.time < b.time) || (a.time == b.time && (decide (a.branch < b.branch) || (a.branch == b.branch &&
    (decide (a.mover < b.mover) || (a.mover == b.mover && decide (a.index < b.index))))))
/-- A request with the first poison event of its pass that concerns it (07 R259). -/
def State.withPoison (s : State) (r : Request) : Request :=
  if r.poison ≠ 0 then r
  else
    let bs := ((s.sv.passes.find? (fun p => p.dispatched && p.members.contains r.id)).bind (·.inst)).bind s.inst
    let ev := s.poisonLog.filter (fun e => e.req == some r.id || (e.req == none && (match bs with | some i => i.branches.contains e.branch | none => false)))
    match ev.foldl (fun (best : Option PoisonEvent) e => match best with
        | none => some e
        | some b => if e.before b then some e else some b) none with
    | none => r
    | some e => { r with poison := e.reason.toNat, faultAddr := if r.fault = 0 then e.addr else r.faultAddr }

/-! ### Servers and plans (10 R344) -/

/-- Instances of one stand that share a branch, closed under sharing. -/
def State.linkedInsts (s : State) : Nat → List Nat → List Nat
  | 0, l => l
  | n + 1, l =>
    let bs := (s.sv.insts.filter (fun i => l.contains i.id)).flatMap (·.branches)
    s.linkedInsts n ((s.sv.insts.filter (fun i => i.branches.any bs.contains)).map (·.id))
/-- The instances of an instance's server. -/
def State.serverOf (s : State) (i : Nat) : List Nat := s.linkedInsts s.sv.insts.length [i]
/-- The passes of an instance's server, in plan order. -/
def State.planOf (s : State) (i : Nat) : List Pass :=
  let sv := s.serverOf i
  s.sv.passes.filter (fun p => match p.inst with | some k => sv.contains k | none => false)
/-- The passes of a stand's KV_SHIP server (11 R381). -/
def State.shipPlan (s : State) (sd : Nat) : List Pass := s.sv.passes.filter (fun p => p.inst == none && p.stand == sd)
/-- The least deadline among a pass's members. -/
def State.minDeadline (s : State) (p : Pass) : Nat :=
  ((p.members.filterMap s.req).map (·.deadline)).foldl Nat.min (2 ^ 64 - 1)
/-- The latest ready time among a pass's members. -/
def State.maxReady (s : State) (p : Pass) : Nat := ((p.members.filterMap s.req).map (·.ready)).foldl Nat.max 0

/-! ### Levels and energy (14 R472, R483-R490) -/

/-- The run level: the slower of the policy level and FLOOR (14 R472). -/
def State.level (s : State) : Nat := Nat.max (s.rf Reg.pwrPolicy 2 0) (s.rf Reg.pwrStatus 10 8)
/-- Design power and minimum cap of the variant in W (14 R469). -/
def State.designW (s : State) : Nat := if s.part.dies = 8 then 7500 else if s.part.dies = 4 then 4150 else 2500
def State.minCapW (s : State) : Nat := if s.part.dies = 8 then 2600 else if s.part.dies = 4 then 1800 else 1400
/-- Branch power at full activity in tenths of a W (14 R471). -/
def levelPower : Nat → Nat
  | 0 => 380 | 1 => 323 | 2 => 272 | 3 => 226 | 4 => 180 | 5 => 149 | 6 => 113 | _ => 80
/-- The host cap after the minimum-cap rule (14 R483). -/
def State.hostCapW (s : State) : Nat :=
  match s.pw.hostCap with
  | some w => Nat.max w s.minCapW
  | none => let d := s.rf Reg.nrgCap 15 0
    if d = 0 then s.designW else Nat.max d s.minCapW
/-- The effective cap C (14 R483). -/
def State.capW (s : State) : Nat :=
  let orphan := if s.rbit Reg.pwrStatus 3 then
      (let o := s.rf Reg.nrgCap 31 16; if o = 0 then s.minCapW else o) else s.designW
  let sag := if s.pw.sag then s.designW * 60 / 100 else s.designW
  Nat.min (Nat.min s.hostCapW orphan) (Nat.min sag s.designW)
/-- Ramp limits in W/ms (14 R492). -/
def State.rampDown (s : State) : Nat := Nat.max 100 (s.rf Reg.pwrRamp 31 0)
def State.rampUp (s : State) : Nat := Nat.max 100 (s.rf Reg.pwrRamp 63 32)
/-- C_line at a time, in W (14 R495). -/
def State.cLine (s : State) (t : Nat) : Nat :=
  match s.pw.lowering with
  | none => s.capW
  | some w => if w.urgent then w.new else Nat.max w.new (w.old - s.rampDown * (t - w.t0) / 1000000)
/-- The guard reserve in percent (14 R484). -/
def State.reservePct (s : State) : Nat := Nat.min 50 (s.rf Reg.nrgCfg 63 56)

/-- Committed power of a pass in mW: debits in µJ over its bound (14 R489). -/
def State.passPower (s : State) (p : Pass) : Nat :=
  let d := ((p.members.filterMap s.req).map (·.debit)).foldl (· + ·) 0
  if p.unknownEnd then
    (match p.inst.bind s.inst with | some i => i.branches.length * levelPower s.level * 100 | none => 0)
  else if p.bound = 0 then 0 else d * 1000000 / p.bound
/-- Commitments of the bound Express entries in mW. -/
def State.expressPower (s : State) : Nat :=
  s.sv.insts.foldl (fun w i => match s.load i.load with
    | some l => if l.bound && entClasses l.image i.entry == 1 then w + i.branches.length * levelPower s.level * 100 else w
    | none => w) 0
/-- P_com at a time, in mW (14 R489). -/
def State.committed (s : State) (t : Nat) : Nat :=
  s.rf Reg.nrgModel 63 48 * 1000 + s.expressPower +
    (s.sv.passes.filter (fun p => decide (p.cls ≠ 0) && decide (p.start ≤ t) && (decide (t < p.fin) || p.unknownEnd))).foldl
      (fun w p => w + s.passPower p) 0
/-- The up-ramp envelope at a time in mW, from the present input power or the power committed so far (14 R492). -/
def State.upEnvelope (s : State) (t : Nat) : Nat :=
  Nat.max (s.rf Reg.pwrStatus 47 32 * 1000) (s.committed s.now) + s.rampUp * (t - s.now) / 1000
/-- The times of a span that decide whether the committed power stays within its limit throughout: the power is constant between the starts
and ends of passes, the envelope only rises and C_line only falls. -/
def State.spanTimes (s : State) (a b : Nat) : List Nat :=
  ([a, b - 1] ++ s.sv.passes.flatMap (fun p => [p.start, p.start - 1, p.fin, p.fin - 1])).filter (fun t => decide (a ≤ t ∧ t < b))
/-- With new commitments made, the committed power is within the admission line and the up-ramp envelope of the state s0 before them at every
time of the spans (14 R490). -/
def State.powerFits (s0 s : State) (spans : List (Nat × Nat)) : Bool :=
  spans.all (fun x => (s.spanTimes x.1 x.2).all (fun t =>
    decide (s.committed t ≤ Nat.min ((100 - s.reservePct) * s.cLine t * 10) (s0.upEnvelope t))))

/-- A stand's bucket in µJ (14 R485). -/
def State.bucket (s : State) (sd : Nat) : Int := signed64 (s.reg (Reg.nrgBucket sd))
/-- Add to a stand's bucket; vector 15 when it reaches zero or goes below. -/
def State.addBucket (s : State) (sd : Nat) (d : Int) : State :=
  let v := s.bucket sd + d
  let s1 := s.putReg (Reg.nrgBucket sd) (unsigned64 v)
  if v ≤ 0 ∧ 0 < s.bucket sd then s1.setVector sd 15 else s1
/-- Charge energy to a stand's account (14 R503, NRG_CHARGED). -/
def State.addCharged (s : State) (sd uj : Nat) : State := s.putReg (Reg.nrgCharged sd) ((s.reg (Reg.nrgCharged sd) + uj) % 2 ^ 64)
/-- The debit of an ENERGY_UJ: times COEF, rounded up (14 R487). -/
def State.debitOf (s : State) (uj : Nat) : Nat := cdiv (uj * s.rf Reg.nrgModel 31 0) (2 ^ 16)

/-! ### Completion (10 R338-R341, R352) -/

/-- A completion record of 32 bytes (10 R338). -/
def recordBytes (tag status cflags accepted time addr energy : Nat) : List Byte :=
  let b := leBytes 4 tag ++ leBytes 1 status ++ leBytes 1 cflags ++ leBytes 2 accepted ++ leBytes 8 time ++ leBytes 8 addr ++
    leBytes 4 energy
  b ++ leBytes 4 (recCheck tag b)

/-- The telemetry offset of an admission counter (16 R525). -/
def admOff (sd cls k : Nat) : Nat := 0x440 + 2 * (9 * sd + 3 * cls + k)

/-- Write a record: for a ring request, to the completion ring at CTAIL; for an inlet request, as the trailer of an outlet frame
after the result bytes (10 R335, 11 R395). -/
def State.sendRecord (s0 : State) (r : Request) (cr result : List Byte) : State :=
  let s := s0.traceStand r.stand 4 (leBytes 1 r.stand ++ leBytes 7 0 ++ cr)
  if r.ring < 8 then
    let ptr := Reg.stdRingPtr r.stand r.ring
    let ct := s.rf ptr 27 16
    let base := s.reg (Reg.stdRingCq r.stand r.ring) / 4096 * 4096
    let s1 := (s.emit (.hostWrite s.now (s.rf (Reg.stdRingCtl r.stand r.ring) 49 48) (base + 32 * ct) cr)).wf ptr 27 16 ((ct + 1) % 4096)
    if r.flags.testBit 2 then s1.setVector r.stand r.ring else s1
  else
    match s.sv.inlets.find? (fun i => i.num == r.inlet) with
    | some i => s.emit (.outlet s.now i.port i.target (result ++ cr))
    | none => s

/-- FAULT_ADDR (10 R341). -/
def faultAddrOf (status addr : Nat) : Nat :=
  if status = 0x40 ∨ status = 0x30 ∨ status = 0x41 ∨ status = 0x42 ∨ status = 0x31 ∨ status = 0x33 then addr else 0

/-- The status a request ends with when its pass ends: the charged fault, else poison, else DONE (07 R259, 10 R350). -/
def Request.endStatus (r : Request) : Nat :=
  if r.fault ≠ 0 then r.fault else if r.poison = 6 then 0x33 else if r.poison ≠ 0 then 0x31 else 0

/-- What a request was charged: the full share, given by its caller, settles the bucket (14 R488). -/
def State.settle (s : State) (r : Request) (share : Nat) : State :=
  (s.addCharged r.stand share).addBucket r.stand ((r.debit : Int) - (share : Int))

/-- The outputs a request has written become undefined when it ends other than DONE (10 R351): each byte is a free value. -/
def State.undefine (s : State) (r : Request) : State :=
  s.each r.wrote (fun s w => (s.memWrite (memKey w.1 w.2.1) ((List.range w.2.2).map (Config.freeByte s.free))).tick)

/-- The completion writer's time G in ns (10 R352). -/
def guardNs : Nat := 250
/-- The status of a record that reaches the writer only now: after DEADLINE - G the guard has acted, with the recorded fault or INTERNAL
(10 R352). -/
def State.onTime (s : State) (r : Request) (status : Nat) : Nat :=
  if r.deadline < s.now + guardNs then (if r.fault ≠ 0 then r.fault else 0x5F) else status
/-- The load and entry a CFG_ID names (05 R178). -/
def State.binding (s : State) (sd cfg : Nat) : Option (Load × Nat) :=
  (s.sv.loads.find? (fun l => l.stand == sd && l.bound && l.phase != .evicting && decide (l.cfgBase ≤ cfg ∧ cfg < l.cfgBase + l.count))).map
    (fun l => (l, cfg - l.cfgBase))
/-- The image whose entry a request names: the one it was accepted for, or the one its CFG_ID names. -/
def State.imageOfReq (s : State) (r : Request) : List Byte :=
  if r.load ≠ 0 then s.image r.load else if r.opcode < 0x20 then ((s.binding r.stand r.cfgId).map (·.1.image)).getD [] else []
/-- CFLAGS of a request's record: EARLY_EXIT and MOE_DROPPED as the pass left them, POISON_SEEN in every case (07 R259), LYORN_MODE for a request
that names a LYORN entry (08 R286). -/
def State.cflagsOf (s : State) (r : Request) : Nat :=
  r.cflags % 4 + (if r.poison ≠ 0 then 4 else 0) + (if imgLyorn (s.imageOfReq r) then 8 else 0)

/-- End an accepted request: record, vectors, counters and energy; the request is gone (10 R338, R352, R354, 14 R488). No record leaves after
the deadline (10 R39, R352). flr suppresses the record and messages (10 R360). -/
def State.finish (s : State) (r : Request) (st accepted share : Nat) (result : List Byte) (flr : Bool) : State :=
  let status := s.onTime r st
  let acc := accepted + r.poison * 256
  let cr := recordBytes r.tag status (s.cflagsOf r) acc (Nat.min s.now r.deadline) (faultAddrOf status r.faultAddr) (Nat.min share 0xFFFFFFFF)
  let s0 := if status = 0 then s else s.undefine r
  let s1 := (s0.settle r share).dropReq r.id
  let s2 := if flr || r.sent then s1 else s1.sendRecord r cr (if status = 0 then result else [])
  let s3 := if !flr && decide (0x30 ≤ status ∧ status ≤ 0x33) then s2.setVector r.stand 11 else s2
  let s4 := if status = 0x21 then (s3.count (admOff r.stand r.cls 2) 1).modRes r.stand (fun x => { x with revoked := x.revoked + 1 }) else s3
  if status = 0x21 ∧ flr = false then s4.setVector r.stand 16 else s4

/-- The payload of an ADMIT record (16 R541). -/
def admitBytes (r : Request) (status fin : Nat) : List Byte :=
  leBytes 1 r.stand ++ leBytes 1 r.cls ++ leBytes 1 status ++ leBytes 1 0 ++ leBytes 4 r.tag ++ leBytes 8 r.deadline ++ leBytes 8 fin
/-- Refuse an undecided request: a record with no flags, address or energy (10 R341); counted (16 R527). -/
def State.refuse (s : State) (r : Request) (status : Nat) : State :=
  let s0 := s.traceStand r.stand 2 (admitBytes r status 0)
  let s1 := ((s0.dropReq r.id).sendRecord r (recordBytes r.tag status 0 0 s.now 0 0) []).count (admOff r.stand r.cls 1) 1
  s1.modRes r.stand (fun x => { x with refused := x.refused + 1 })

/-- The share of a pass's charged energy of one member, in µJ, to the nearest (14 R488). -/
def passShare (p : Pass) : Nat :=
  let n := Nat.max 1 p.members.length
  (p.energy + 500 * n) / (1000 * n)

end Sys2Proof.Machine
end

