-- ==== Sys2Proof/Machine/Pool.lean ====
section
/-! DEFINITION. The residency pool, loading of configurations onto branches, and the residency terms of admission (05 R188-R193, 06
R231-R234, 08 R282-R285, R293, 11 R371, R372, 14 R476). -/

namespace Sys2Proof.Machine

/-! ### Frames (06 R231, R232) -/

/-- Where the pool starts on every stack: after the segment regions, in bytes. -/
def State.poolBase (s : State) : Nat :=
  (s.stands.map (fun sd => fld (s.reg (Reg.stdNearRegion sd)) 23 0 + fld (s.reg (Reg.stdNearRegion sd)) 47 24)).foldl Nat.max 0 * 2 ^ 21
/-- Pool frames of one stack. -/
def State.framesPerStack (s : State) : Nat := (0xFE0000000 - s.poolBase) / 65536
/-- The frames in use. -/
def State.usedFrames (s : State) : List (Nat × Nat) := s.sv.objs.flatMap (·.frames)
/-- Frames a stand's objects hold. -/
def State.standFrames (s : State) (sd : Nat) : Nat :=
  ((s.sv.objs.filter (fun o => o.stand == sd)).map (·.frames.length)).foldl (· + ·) 0
/-- A stand's reserve in frames (2 MiB units of 32 frames). -/
def State.reserveFrames (s : State) (sd : Nat) : Nat := (s.res sd).poolReserve * 32

/-- The stacks that are up, ascending. -/
def State.liveStacks (s : State) : List Nat :=
  (List.range s.nStacks).filter (fun k => s.rf (Reg.ntcStatus k) 2 0 == 2 || s.rf (Reg.ntcStatus k) 2 0 == 3)

/-- The lowest free frame of a stack. -/
def State.freeFrame (s : State) (used : List (Nat × Nat)) (k : Nat) : Option (Nat × Nat) :=
  ((List.range s.framesPerStack).find? (fun f => !used.contains (k, f))).map (fun f => (k, f))

/-- n frames for an object, round-robin over the stacks from (id mod stack count). -/
def State.pickFrames (s : State) : Nat → Nat → List (Nat × Nat) → Option (List (Nat × Nat))
  | 0, _, _ => some []
  | n + 1, at_, used =>
    let up := s.liveStacks
    match ((List.range up.length).filterMap (fun d => s.freeFrame used (up.getD ((at_ + d) % up.length) 0))).head? with
    | none => none
    | some f => (s.pickFrames n (at_ + 1) (f :: used)).map (fun l => f :: l)

/-- An entry with PIN = 1 of a load holds its objects. -/
def pinsAny (img : List Byte) : Bool := (List.range (imgEntries img)).any (entPin img)
/-- A pool object is pinned (06 R232, 08 R282, R286, 11 R371): a load, a copy job, an entry with PIN = 1 or an accepted request holds it. -/
def State.objPinned (s : State) (o : PoolObj) : Bool :=
  if o.kind = 2 then s.sv.requests.any (fun r => r.live && r.stand == o.stand && r.seqId == o.manifest && decide (r.seqId ≠ 0))
  else if o.kind = 1 then s.sv.requests.any (fun r => r.live && r.stand == o.stand && r.graft == some (o.manifest, o.index))
  else
    let mine := fun (l : Load) => if o.kind = 3 then l.id == o.manifest else !l.manifest.isEmpty && manId l.manifest == o.manifest
    (o.kind == 0 && s.sv.jobs.any (fun j => j.stand == o.stand && j.manifest == o.manifest)) ||
    s.sv.requests.any (fun r => r.live && r.stand == o.stand && (match s.load r.load with | some l => mine l | none => false)) ||
    s.sv.loads.any (fun l => l.stand == o.stand && mine l &&
      (l.phase == .manifest || l.phase == .loading || (o.kind == 0 && manLyorn l.manifest) || (l.phase == .ready && pinsAny l.image)))

/-! ### Local units of the warm tier (13 R449) -/

/-- The channel and DIMM byte of local unit u, counted over the local regions as bring-up found them. -/
def unitPlace : List (Nat × Nat × Nat) → Nat → Option (Nat × Nat)
  | [], _ => none
  | (c, at_, n) :: l, u => if u < n then some (c, at_ + u * 2 ^ 21) else unitPlace l (u - n)
/-- The SPACE 1 offset of a DIMM byte that a local region holds now (06 R216, R218). -/
def State.localOff (s : State) (c m : Nat) : Option Nat :=
  let p := s.tiers.pGib * 2 ^ 30
  if m < p ∧ s.tiers.stripe ≠ [] then none else some (0x100000000000 + c * 2 ^ 39 + (m - p))
/-- The SPACE 1 offset of byte x from local unit u on, while that byte is in a local region; elsewhere it has no place. -/
def State.unitOff (s : State) (u x : Nat) : Option Nat :=
  (unitPlace s.tiers.units (u + x / 2 ^ 21)).bind (fun p => s.localOff p.1 (p.2 + x % 2 ^ 21))
/-- The channels and DIMM bytes of the local units that n bytes from unit u take. -/
def State.unitsOf (s : State) (u x n : Nat) : List (Nat × Nat) :=
  if n = 0 then [] else (List.range ((x + n - 1) / 2 ^ 21 + 1 - x / 2 ^ 21)).filterMap (fun i => unitPlace s.tiers.units (u + x / 2 ^ 21 + i))

/-- The first place in a stand's KV spill range where n bytes fit (06 R234; first fit: log entry 20). -/
def State.spillPlace (s : State) (sd n : Nat) : Option Nat :=
  let used := (s.sv.objs.filter (fun o => o.stand == sd && o.spilled)).map (fun o => (o.spillAt, o.spillAt + o.size))
  minBy (fun a => a) ((0 :: used.map (·.2)).filter (fun a => decide (a + n ≤ (s.res sd).kvCount * 2 ^ 21) &&
    (s.unitOff (s.res sd).kvFirst a).isSome && (s.unitOff (s.res sd).kvFirst (a + n - 1)).isSome &&
    used.all (fun u => decide (a + n ≤ u.1) || decide (u.2 ≤ a))))

/-- A KV page is spare: it holds no valid position (11 R372). -/
def State.isSpare (s : State) (o : PoolObj) : Bool :=
  o.kind == 2 && s.sv.seqs.any (fun q => q.stand == o.stand && q.id == o.manifest && decide (q.length ≤ o.index % 2 ^ 20 * 64))

/-- Objects that may be evicted for a stand (06 R232); keep names those that an allocation in progress pins. -/
def State.victims (s : State) (sd : Nat) (keep : PoolObj → Bool) : List PoolObj :=
  s.sv.objs.filter (fun o => !o.frames.isEmpty && !s.objPinned o && !keep o &&
    (o.stand == sd || decide (s.reserveFrames o.stand < s.standFrames o.stand)) &&
    (o.stand == sd || decide (s.reserveFrames o.stand + o.frames.length ≤ s.standFrames o.stand)) &&
    (o.kind != 2 || o.spilled || s.isSpare o || (s.spillPlace o.stand o.size).isSome))

/-- The bytes of a pool object in its frames: the SPACE 0 address of an offset. -/
def State.frameAddr (s : State) (f : Nat × Nat) (off : Nat) : Nat := f.1 * 2 ^ 37 + s.poolBase + f.2 * 65536 + off
/-- The space and offset of a byte of an object: in its frames, or, of a spilled page until it has been restored, in its stand's spill range
(06 R234, 11 R372). -/
def State.objPlace (s : State) (o : PoolObj) (off : Nat) : Nat × Nat :=
  if o.spilled then (1, (s.unitOff (s.res o.stand).kvFirst (o.spillAt + off)).getD (2 ^ 45 - 1))
  else (0, s.frameAddr (o.frames.getD (off / 65536) (0, 0)) (off % 65536))
def State.objKey (s : State) (o : PoolObj) (off : Nat) : Nat := let p := s.objPlace o off; memKey p.1 p.2
/-- Read n bytes of a pool object. -/
def State.objRead (s : State) (o : PoolObj) (off n : Nat) : List Byte :=
  (List.range n).map (fun i => s.memByte (s.objKey o (off + i)))
/-- The first poison reason of n bytes of an object. -/
def State.objWhy (s : State) (o : PoolObj) (off n : Nat) : Byte :=
  ((List.range (if n = 0 then 0 else (off + n - 1) / 64 + 1 - off / 64)).map (fun i =>
    let p := s.objPlace o ((off / 64 + i) * 64); s.poisonIn p.1 p.2 64)).foldl (fun r x => if r ≠ 0 then r else x) 0
/-- Write bytes of a pool object: a sector wholly written loses its poison (06 R210). -/
def State.objWrite (s : State) (o : PoolObj) (off : Nat) (bs : List Byte) : State :=
  s.each (List.range (cdiv (off % 64 + bs.length) 64)) (fun s i =>
    let lo := Nat.max off ((off / 64 + i) * 64)
    let hi := Nat.min (off + bs.length) ((off / 64 + i + 1) * 64)
    let p := s.objPlace o lo
    s.store p.1 p.2 (slice bs (lo - off) (hi - lo)))
/-- Enter sectors of an object in the poison map, each with its reason. -/
def State.objPoison (s : State) (o : PoolObj) (why : List (Nat × Byte)) : State :=
  s.each why (fun s w => if w.2 = 0 then s else
    { s with tiers := { s.tiers with poison := tset 0 s.tiers.poison (s.objKey o (w.1 * 64) / 64) w.2 } })
/-- The poison reasons of the sectors of an object. -/
def State.objWhys (s : State) (o : PoolObj) : List (Nat × Byte) := (List.range (cdiv o.size 64)).map (fun i => (i, s.objWhy o (i * 64) 64))

def State.modObj (s : State) (id : Nat) (f : PoolObj → PoolObj) : State :=
  s.modSv (fun v => { v with objs := mapIf (fun o => o.id == id) f v.objs })
/-- An object is used now: a pass that references it starts, or its last pin is released (06 R232). -/
def State.useObjs (s : State) (p : PoolObj → Bool) : State :=
  s.modSv (fun v => { v with objs := mapIf p (fun o => { o with lastUse := s.now }) v.objs })
def State.dropObj (s : State) (id : Nat) : State :=
  s.modSv (fun v => { v with objs := v.objs.filter (fun o => o.id != id),
                             seqs := v.seqs.map (fun q => { q with pages := q.pages.filter (fun p => p != id) }) })

/-- An object's bytes and poison move to another place. -/
def State.moveObj (s : State) (o o' : PoolObj) : State :=
  let bs := s.objRead o 0 o.size
  let why := s.objWhys o
  (((s.modObj o.id (fun _ => o')).objWrite o' 0 bs)).objPoison o' why
/-- Evict an object: a live KV page is spilled with its poison, a spare page or any other object is dropped (06 R233, R234, 11 R372). -/
def State.evict (s : State) (o : PoolObj) : State :=
  let s1 := s.bump (Reg.ntcPoolEvict 0) 31 0 1
  if o.spilled then s1.modObj o.id (fun x => { x with frames := [] })
  else if o.kind = 2 ∧ s.isSpare o = false then
    s1.moveObj o { o with frames := [], spilled := true, spillAt := (s.spillPlace o.stand o.size).getD 0 }
  else s1.dropObj o.id

/-- Frames for an object of a stand, evicting by earliest last use, ties to the lower id, while none are free (06 R232). What was evicted
stays so where the frames do not suffice. -/
def State.allocFrames (s : State) (sd id n : Nat) (keep : PoolObj → Bool) : Nat → State × Option (List (Nat × Nat))
  | 0 => (s, none)
  | fuel + 1 =>
    match s.pickFrames n id s.usedFrames with
    | some fs => (s, some fs)
    | none =>
      match minBy (fun o => o.lastUse) (s.victims sd keep) with
      | none => (s, none)
      | some o => (s.evict o).allocFrames sd id n keep fuel

/-- Allocate a new pool object: its number, none where the frames do not suffice. -/
def State.newObj (s : State) (sd kind manifest index size : Nat) (expect : List Byte) (keep : PoolObj → Bool) : State × Option Nat :=
  let (id, s1) := s.fresh
  match s1.allocFrames sd id (cdiv size 65536) keep (s1.sv.objs.length + 1) with
  | (s2, none) => (s2, none)
  | (s2, some fs) => (s2.modSv (fun v => { v with
      objs := v.objs ++ [⟨id, sd, kind, manifest, index, size, fs, .unverified, false, 0, expect, 0, s2.now⟩] }), some id)

/-- Frames for a spilled page that is to be restored (11 R372). -/
def State.reframe (s : State) (o : PoolObj) : State × Bool :=
  if o.frames.isEmpty then
    match s.allocFrames o.stand o.id (cdiv o.size 65536) (fun x => x.kind == 2 && x.stand == o.stand && x.manifest == o.manifest) (s.sv.objs.length + 1) with
    | (s1, none) => (s1, false)
    | (s1, some fs) => (s1.modObj o.id (fun x => { x with frames := fs }), true)
  else (s, true)

/-- Pool registers of NTC 0 (06 R238). -/
def State.poolFrames (s : State) : Nat := s.liveStacks.length * s.framesPerStack
def State.poolFree (s : State) : Nat := s.poolFrames - s.usedFrames.length

/-! ### The striped space of the warm tier (06 R217, 08 R278) -/

/-- Bytes of the striped space. -/
def State.warmSize (s : State) : Nat := s.tiers.stripe.length * s.tiers.pGib * 2 ^ 30
/-- Its places in use: warm copies and graft versions. -/
def State.warmPlaces (s : State) : List (Nat × Nat) := s.sv.warm.flatMap (·.place) ++ s.sv.grafts.flatMap (·.place)
/-- The free runs between used ones, which come in ascending order. -/
def freeRuns (total : Nat) : Nat → List (Nat × Nat) → List (Nat × Nat)
  | at_, [] => if at_ < total then [(at_, total - at_)] else []
  | at_, u :: l => (if at_ < u.1 then [(at_, u.1 - at_)] else []) ++ freeRuns total (Nat.max at_ (u.1 + u.2)) l
/-- n bytes of free runs, in order; none where they do not suffice. -/
def takeRuns : Nat → List (Nat × Nat) → Option (List (Nat × Nat))
  | 0, _ => some []
  | _ + 1, [] => none
  | n + 1, r :: l => if n + 1 ≤ r.2 then some [(r.1, n + 1)] else (takeRuns (n + 1 - r.2) l).map (fun x => r :: x)
/-- A place of n bytes in the striped space, in whole sectors (first fit: DESIGN CHOICE, log entry 20). -/
def State.warmAlloc (s : State) (n : Nat) : Option (List (Nat × Nat)) :=
  takeRuns (cdiv n 64 * 64) (freeRuns s.warmSize 0 (s.warmPlaces.mergeSort (fun a b => decide (a.1 ≤ b.1))))
/-- Read or write n bytes at a place of the striped space. -/
def State.placeRead (s : State) (place : List (Nat × Nat)) (n : Nat) : List Byte :=
  (place.flatMap (fun r => s.memRead (memKey 1 r.1) r.2)).take n
def State.placeWrite (s : State) (place : List (Nat × Nat)) (bs : List Byte) : State :=
  (place.foldl (fun (x : State × List Byte) r => (x.1.store 1 r.1 (x.2.take r.2), x.2.drop r.2)) (s, bs)).1
/-- The part of a place from byte off on. -/
def placeFrom : List (Nat × Nat) → Nat → List (Nat × Nat)
  | [], _ => []
  | r :: l, off => if off < r.2 then (r.1 + off, r.2 - off) :: l else placeFrom l (off - r.2)
def State.warmBytes (s : State) (w : WarmCopy) : List Byte := s.placeRead w.place w.size
/-- The image of a graft version in warm residency; empty until it has been read. -/
def State.graftBytes (s : State) (g : Graft) : List Byte := s.placeRead g.place g.size

/-! ### Configurations on branches (05 R188-R189) -/

/-- The branches of an instance with their relative branch in a configuration, whose numbering may differ from the entry's first (05 R171,
R175). -/
def State.rels (s : State) (i : Inst) (cfg : Nat) : List (Nat × Nat) :=
  let img := s.image i.load
  i.branches.zipIdx.map (fun x => (x.1, relIn img (entCfg img i.entry) cfg x.2))
/-- The branch of an instance that is relative branch k of a configuration. -/
def State.relB (s : State) (i : Inst) (cfg k : Nat) : Nat := (((s.rels i cfg).find? (fun x => x.2 == k)).map (·.1)).getD 0
/-- A context of a branch that holds a configuration of a load. -/
def State.ctxOf (s : State) (b load cfg rel : Nat) : Option Nat :=
  (List.range 8).find? (fun n => let c := tget BrcCtx.empty (s.branch b).ctxs n
    c.valid && c.load == load && c.cfg == cfg && c.rel == rel)
/-- A seed-bank slot of a branch that holds a configuration of a load. -/
def State.seedOf (s : State) (b load cfg rel : Nat) : Option Nat :=
  (List.range 12).find? (fun n => let c := tget SeedSlot.empty (s.branch b).seeds n
    c.valid && c.load == load && c.cfg == cfg && c.rel == rel)

/-- The lowest trained rate of the stripe set in MT/s, times its channels, times 8 bytes: bytes per microsecond (08 R282). -/
def State.warmRate (s : State) : Nat :=
  let rates := s.tiers.stripe.map (fun c => s.rf (Reg.wtcStatus c) 31 24 * 100)
  s.tiers.stripe.length * 8 * rates.foldl Nat.min (rates.headD 0)
/-- Nanoseconds to move n bytes at pct percent of that rate. -/
def State.warmNs (s : State) (pct n : Nat) : Nat :=
  if s.warmRate = 0 then 0 else cdiv (n * 100000) (s.warmRate * pct)

/-- When the queued fetches end (08 R293). -/
def State.fetchEnd (s : State) : Nat := (s.sv.fetches.map (·.fin)).foldl Nat.max s.now
/-- The near copy of a canopy image (06 R231, R233). -/
def State.imageObj (s : State) (load : Nat) : Option PoolObj := s.sv.objs.find? (fun o => o.kind == 3 && o.manifest == load)
/-- What a fill pays for an image whose near copy was evicted: a fetch from its source at the rate of R293, after the fetches ahead (06 R233;
DESIGN CHOICE, log entry 20). -/
def State.imageTerm (s : State) (load : Nat) : Nat :=
  match s.imageObj load with
  | some o => if o.state == .verified then 0 else ((s.sv.fetches.find? (fun f => f.obj == o.id)).map (·.fin)).getD s.now - s.now
  | none => s.fetchEnd - s.now + 10000 + s.warmNs 5 (s.image load).length

/-- An accepted request or a PIN entry holds context n of a branch (05 R189). -/
def State.ctxHeld (s : State) (b n : Nat) : Bool :=
  let c := tget BrcCtx.empty (s.branch b).ctxs n
  c.valid && (c.pinned || s.sv.requests.any (fun r => r.live && r.load == c.load &&
    (match s.inst r.inst with | some i => i.branches.contains b | none => false) &&
    (entCfgs (s.image r.load) r.entry).contains c.cfg))

/-- The context number a load takes: among those replaceable on every branch, the one used least recently (05 R189). -/
def State.pickCtx (s : State) (bs : List Nat) : Option Nat :=
  minBy (fun n => (bs.map (fun b => (tget BrcCtx.empty (s.branch b).ctxs n).lastUse)).foldl Nat.max 0)
    ((List.range 8).filter (fun n => bs.all (fun b => !s.ctxHeld b n) &&
      !(s.sv.cfgLoads.any (fun q => q.ctx == n && bs.contains q.branch))))
/-- The seed-bank slot a fill takes on a branch: an empty one, or the least recently used one that no accepted request's
configuration is in. -/
def State.pickSeed (s : State) (b : Nat) : Option Nat :=
  let ss := (List.range 12).map (fun n => (n, tget SeedSlot.empty (s.branch b).seeds n))
  let free := ss.filter (fun x => !x.2.valid || !(s.sv.requests.any (fun r => r.live && r.load == x.2.load &&
    (entCfgs (s.image r.load) r.entry).contains x.2.cfg)))
  (minBy (fun x => if x.2.valid then x.2.lastUse + 1 else 0) free).map (·.1)

/-- The residency term of one configuration on an instance: 0, 8 us or 48 us, or what is left of a load in progress; a fill in progress is
followed by the context load; none where nothing can be replaced (05 R188, R189). -/
def State.cfgTerm (s : State) (i : Inst) (cfg : Nat) : Option Nat :=
  let at_ := s.rels i cfg
  if at_.all (fun x => (s.ctxOf x.1 i.load cfg x.2).isSome) then some 0
  else
    let q := s.sv.cfgLoads.filter (fun q => i.branches.contains q.branch && q.load == i.load && q.cfg == cfg)
    let left := ((q.map (·.fin)).foldl Nat.max 0) - s.now
    if q.any (fun c => decide (c.ctx < 8)) then some left
    else
      if (s.pickCtx i.branches).isNone then none
      else if !q.isEmpty then some (left + 8000)
      else if at_.all (fun x => (s.ctxOf x.1 i.load cfg x.2).isSome || (s.seedOf x.1 i.load cfg x.2).isSome) then some 8000
      else if at_.all (fun x => (s.seedOf x.1 i.load cfg x.2).isSome || (s.pickSeed x.1).isSome) then some (48000 + s.imageTerm i.load) else none

/-- The wake time of the deepest sleep among branches (14 R476). -/
def State.wakeTerm (s : State) (bs : List Nat) : Nat :=
  (bs.map (fun b => match (s.branch b).sleep with | .awake => 0 | .s1 => 3000 | .s2 => 250000)).foldl Nat.max 0

/-- Wake the sleeping branches of an instance (14 R476). -/
def State.wake (s : State) (bs : List Nat) : State := s.modBranches bs (fun x => { x with sleep := .awake, idleSince := s.now })

/-! ### Shards, grafts and pages (08 R282-R284, R293, 11 R372) -/

/-- The verified near copy of a shard for a stand. -/
def State.nearShard (s : State) (sd man k : Nat) : Option PoolObj :=
  s.sv.objs.find? (fun o => o.stand == sd && o.kind == 0 && o.manifest == man && o.index == k)
/-- The warm copy of a shard, by manifest number, manifest digest and shard (08 R278). -/
def State.warmShard (s : State) (man : List Byte) (k : Nat) : Option WarmCopy :=
  s.sv.warm.find? (fun w => w.manifest == manId man && w.shard == k && w.digest == Crypto.sha256 man)
/-- The shards of a load that have no verified near copy. -/
def State.missing (s : State) (l : Load) : List Nat :=
  (shardsOf l.manifest l.member).filter (fun k => match s.nearShard l.stand (manId l.manifest) k with
    | some o => o.state != .verified
    | none => true)

/-- The ready times of a copy job's stages from its start (08 R283). -/
def State.jobReady (s : State) (m : List Byte) (shards : List Nat) (t : Nat) : List Nat :=
  ((List.range (manStages m)).foldl (fun (acc : List Nat × Nat) k =>
    let n := ((shards.filter (fun x => shardStage m x == k)).map (shardSize m)).foldl (· + ·) 0
    let b := acc.2 + n
    (acc.1 ++ [if n = 0 then 0 else t + s.warmNs 95 b + 150000], b)) ([], 0)).1
/-- max over the stages of r[k] - NEED_NS[k] (08 R283, R284). -/
def jobAdmit (m : List Byte) (ready : List Nat) : Nat :=
  (ready.zipIdx.map (fun x => x.1 - stageNeed m x.2)).foldl Nat.max 0
/-- The load whose manifest a copy job serves. -/
def State.jobLoad (s : State) (j : CopyJob) : Option Load :=
  s.sv.loads.find? (fun l => l.stand == j.stand && !l.manifest.isEmpty && manId l.manifest == j.manifest)
/-- The schedule of a running job after a delay: re-fetches are placed first, the remaining shards follow them (08 R285). -/
def State.reviseJob (s : State) (j : CopyJob) : CopyJob :=
  match s.jobLoad j, j.started with
  | some l, some _ =>
    let m := l.manifest
    let stateOf := fun k => (s.nearShard j.stand j.manifest k).map (·.state)
    let again := j.shards.filter (fun k => stateOf k == some .quarantined)
    let rest := j.shards.filter (fun k => stateOf k == some .unverified)
    let first := (again.map (shardSize m)).foldl (· + ·) 0
    { j with ready := (List.range (manStages m)).map (fun k =>
        let upTo := ((rest.filter (fun x => decide (shardStage m x ≤ k))).map (shardSize m)).foldl (· + ·) 0
        if rest.any (fun x => shardStage m x == k) then s.now + s.warmNs 95 (first + upTo) + 150000
        else if again.any (fun x => shardStage m x == k) then s.now + s.warmNs 95 first + 150000 else 0) }
  | _, _ => j
def State.reviseJobs (s : State) (p : CopyJob → Bool) : State :=
  s.modSv (fun v => { v with jobs := mapIf p s.reviseJob v.jobs })
/-- When the jobs ahead of a new one end (08 R283). -/
def State.jobsEnd (s : State) : Nat := (s.sv.jobs.map (fun j => j.ready.foldl Nat.max 0)).foldl Nat.max s.now

/-- Allocate the near copies of shards that have none; every near copy of the manifest stays pinned meanwhile (08 R282). -/
def State.allocShards (s : State) (sd : Nat) (m : List Byte) : List Nat → State × Bool
  | [] => (s, true)
  | k :: ks =>
    if (s.nearShard sd (manId m) k).isSome then s.allocShards sd m ks
    else match s.newObj sd 0 (manId m) k (shardSize m k) (shardDigest m k) (fun o => o.kind == 0 && o.stand == sd && o.manifest == manId m) with
      | (s1, none) => (s1, false)
      | (s1, some _) => s1.allocShards sd m ks
/-- Queue a near copy job for a load's missing shards; false where their frames cannot be allocated (08 R282). -/
def State.queueJob (s : State) (l : Load) : State × Bool :=
  let miss := s.missing l
  match s.allocShards l.stand l.manifest miss with
  | (s1, false) => (s1, false)
  | (s1, true) => (s1.modSv (fun v => { v with
      jobs := v.jobs ++ [⟨l.stand, l.id, manId l.manifest, s1.now, none, miss, s1.jobReady l.manifest miss s1.jobsEnd⟩] }), true)

/-- The shards a load needs warm: its member's, and every one while a source sends (08 R277, R280). -/
def warmNeeds (l : Load) : List Nat :=
  if l.role = 1 ∧ l.phase ≠ .ready then List.range (manShards l.manifest) else shardsOf l.manifest l.member
/-- Start deep-to-warm fills of shards that have no warm copy, where the striped space has room (08 R284). -/
def State.fillWarm (s : State) (l : Load) (ks : List Nat) : State :=
  s.each ks (fun s k =>
    match s.warmShard l.manifest k, s.warmAlloc (shardSize l.manifest k) with
    | none, some place =>
      let (id, s1) := s.fresh
      s1.modSv (fun v => { v with warm := v.warm ++
        [⟨id, manId l.manifest, Crypto.sha256 l.manifest, k, shardSize l.manifest k, shardDigest l.manifest k, .unverified, 0, s.now, place⟩] })
    | _, _ => s)

/-- The shard term of a request (08 R284): the term and the state with a job queued; the refusal status otherwise. A job serves every load of its
stand and manifest. Bulk requests wait where a Deadline request is refused. -/
def State.shardTerm (s : State) (l : Load) (cls : Nat) : Except (Nat × State) (Nat × State) :=
  let miss := s.missing l
  if l.manifest.isEmpty || manLyorn l.manifest || miss.isEmpty then .ok (0, s)
  else
    let js := s.sv.jobs.filter (fun j => j.stand == l.stand && j.manifest == manId l.manifest)
    let new := miss.filter (fun k => js.all (fun j => !j.shards.contains k))
    let adm := fun (s : State) => ((s.sv.jobs.filter (fun j => j.stand == l.stand && j.manifest == manId l.manifest)).map (fun j =>
      jobAdmit l.manifest j.ready)).foldl Nat.max 0 - s.now
    if new.isEmpty then .ok (adm s, s)
    else if new.all (fun k => match s.warmShard l.manifest k with | some w => w.state == .verified | none => false) then
      match s.queueJob l with
      | (s1, false) => .error (0x13, s1)
      | (s1, true) => .ok (adm s1, s1)
    else if cls = 2 then .ok (0, s.fillWarm l miss) else .error (0x10, s.fillWarm l miss)

/-- Queue a fetch of an object of n bytes (08 R293, 11 R372): 10 us plus the bytes at 5 % of the warm rate, after those ahead. -/
def State.queueFetch (s : State) (obj n : Nat) : State :=
  s.modSv (fun v => { v with fetches := v.fetches ++ [⟨obj, s.fetchEnd + 10000 + s.warmNs 5 n⟩] })

/-! ### Starting loads (05 R188, R192) -/

/-- Fetch the near copy of an image that has been evicted, or given up for want of frames; its source is the stand's volume (06 R233). -/
def State.fetchImage (s : State) (load : Nat) : State :=
  match s.imageObj load, s.load load with
  | some o, _ => if o.state = .verified ∨ s.sv.fetches.any (fun f => f.obj == o.id) then s else s.queueFetch o.id o.size
  | none, some l => match s.newObj l.stand 3 load 0 l.image.length (chunkDigest l.image) (fun _ => false) with
    | (s1, some id) => s1.queueFetch id l.image.length
    | (s1, none) => s1
  | none, none => s

/-- A leaf's context becomes invalid; a leaf that waits in it holds no configuration (05 R192 step 1). -/
def Leaf.dropCtx (lf : Leaf) (n : Nat) : Leaf :=
  let lf1 := { lf with ctxs := tmod Ctx.empty lf.ctxs n (fun c => { c with valid := false }) }
  if lf1.active = n ∧ lf1.mode = .waitPass then { lf1 with mode := .idle } else lf1
/-- The load command of the next load of a branch: its context is invalid in every leaf and on the branch. One into the active context waits until
no leaf runs (05 R192 step 1). -/
def State.beginCtxLoad (s : State) (b : Nat) : State :=
  match s.sv.cfgLoads.find? (fun q => q.branch == b && !q.fill) with
  | none => s
  | some q =>
    if q.begun = true ∨ ((s.branch b).active = q.ctx ∧ (branchLeaves b).any (fun l => (s.leaf l).mode == .run || (s.leaf l).mode == .stall) = true) then s
    else match s.seedOf b q.load q.cfg q.rel with
      | none => s
      | some k =>
        let s1 := s.each (branchLeaves b) (fun s l => s.modLeaf l (fun lf => lf.dropCtx q.ctx))
        (s1.modBranch b (fun y => { y with ctxs := tset BrcCtx.empty y.ctxs q.ctx BrcCtx.empty, loadSlot := k, loadCtx := q.ctx })).modSv (fun v =>
          { v with cfgLoads := mapIf (fun c => c.branch == b && c.ctx == q.ctx && !c.fill) (fun c => { c with begun := true }) v.cfgLoads })
def State.beginLoads (s : State) (bs : List Nat) : State := s.each bs State.beginCtxLoad

/-- Queue the context loads an accepted request or a PIN entry needs (05 R188); a fill that waits becomes the first part of its load. -/
def State.startLoads (s : State) (i : Inst) (e : Nat) (pin : Bool) : State :=
  let s9 := s.each (entCfgs (s.image i.load) e).eraseDups (fun s cfg =>
    let mine := fun (q : CfgLoad) => i.branches.contains q.branch && q.load == i.load && q.cfg == cfg
    if (s.rels i cfg).all (fun x => (s.ctxOf x.1 i.load cfg x.2).isSome) ∨ s.sv.cfgLoads.any (fun q => mine q && decide (q.ctx < 8)) then
      if pin then (s.modSv (fun v => { v with cfgLoads := mapIf mine (fun q => { q with pin := true }) v.cfgLoads })).modBranches i.branches (fun x =>
        { x with ctxs := x.ctxs.map (fun c => (c.1, if c.2.load = i.load ∧ c.2.cfg = cfg then { c.2 with pinned := true } else c.2)) }) else s
    else match s.pickCtx i.branches with
      | none => s
      | some n => s.each (s.rels i cfg) (fun s x =>
          let fill := (s.seedOf x.1 i.load cfg x.2).isNone
          let at_ := fun (q : CfgLoad) => mine q && q.branch == x.1
          let fin := s.now + (if fill then 48000 + s.imageTerm i.load else 8000)
          let s0 := if fill then s.fetchImage i.load else s
          if s0.sv.cfgLoads.any at_ then s0.modSv (fun v => { v with cfgLoads := mapIf at_ (fun q => { q with ctx := n, pin := pin, fin := q.fin + 8000 }) v.cfgLoads })
          else s0.modSv (fun v => { v with cfgLoads := v.cfgLoads ++ [⟨x.1, i.load, cfg, x.2, n, fill, pin, false, fin⟩] })))
  s9.beginLoads i.branches

end Sys2Proof.Machine
end

