-- ==== Sys2Proof/Machine/Admission.lean ====
section
/-! DEFINITION. Descriptor fetch and the admission decision (10 R335-R349, 11 R365-R385, 14 R487, R490, R491). -/

namespace Sys2Proof.Machine

/-! ### Fetch (10 R335, R337) -/

/-- Completion records a ring still owes: requests fetched from it and not completed. -/
def State.owed (s : State) (sd r : Nat) : Nat := (s.sv.requests.filter (fun q => q.stand == sd && q.ring == r)).length
/-- Free records of a completion ring. -/
def State.cqFree (s : State) (sd r : Nat) : Nat :=
  let p := Reg.stdRingPtr sd r
  4095 - (s.rf p 27 16 + 4096 - s.rf p 11 0) % 4096
/-- Descriptors waiting in a submission ring. -/
def State.sqCount (s : State) (sd r : Nat) : Nat :=
  let p := Reg.stdRingPtr sd r
  (s.rf p 59 48 + 4096 - s.rf p 43 32) % 4096
/-- A ring can give a burst of n. -/
def State.ringReady (s : State) (sd r n : Nat) : Bool :=
  s.rbit (Reg.stdRingCtl sd r) 63 && decide (n ≤ s.sqCount sd r) && decide (0 < n) && decide (s.owed sd r + n ≤ s.cqFree sd r)
/-- The ring the next burst comes from: Express rings first in ascending number, the others in rotation (10 R335). -/
def State.nextRing (s : State) (sd : Nat) : Option Nat :=
  match (List.range 8).find? (fun r => s.rf (Reg.stdRingCtl sd r) 58 56 == 1 && s.ringReady sd r 1) with
  | some r => some r
  | none => ((List.range 8).map (fun k => ((s.res sd).lastRing + 1 + k) % 8)).find?
      (fun r => s.rf (Reg.stdRingCtl sd r) 58 56 != 1 && s.ringReady sd r 1)

/-- One fetched descriptor: a failed CHECK is logged and counted, a good one waits for its decision. -/
def State.fetched (s : State) (sd r : Nat) (d : List Byte) : State :=
  let p := Reg.stdRingPtr sd r
  let idx := s.rf p 43 32
  let s1 := s.wf p 43 32 ((idx + 1) % 4096)
  if fieldLE d 60 4 ≠ recCheck (fieldLE d 4 4) (d.take 60) then
    let s2 := if s1.rbit (Reg.stdRingErr sd) 63 then s1 else s1.putReg (Reg.stdRingErr sd) (2 ^ 63 + r * 2 ^ 60 + idx * 2 ^ 48)
    (s2.bump (Reg.stdRingErrCnt sd) 31 0 1).setVector sd 12
  else
    let (id, s2) := s1.fresh
    let dl := if fieldLE d 56 2 % 4 = 2 then 2 ^ 64 - 1 else fieldLE d 8 8
    s2.modSv (fun v => { v with requests := v.requests ++
      [⟨id, sd, r, 0, 0, d, [], s.now, dl, .undecided, 0, 0, 0, 0, 0, 0, 0, 0, 0, 0, 0, 0, 0, 0, none, 0, false, []⟩] })

/-- The part is serving: not stopped, not frozen (14 R500, 16 R533). -/
def State.serving (s : State) : Bool := s.pw.supply == .on && s.rf Reg.dbgStatus 2 0 == 0

/-- DESCRIPTOR_FETCH: a burst of 1 to 8 descriptors from the stand's next ring (10 R335). -/
def execDescriptorFetch (t sd : Nat) (descs : List (List Byte)) (s : State) : Host.Outcome State Fault Refusal :=
  let s1 := s.at t
  match s1.nextRing sd with
  | none => .next s1
  | some r =>
    if s1.stdState sd = 2 ∧ s1.serving = true ∧ descs.length ≤ 8 ∧ s1.ringReady sd r descs.length = true ∧
        descs.all (fun d => d.length == 64) = true then
      .next ((s1.each descs (fun s d => s.fetched sd r d)).modRes sd (fun x =>
        if s1.rf (Reg.stdRingCtl sd r) 58 56 = 1 then x else { x with lastRing := r }))
    else .next s1

/-! ### The checks (10 R342) -/

/-- The bit of OPS for an opcode (05 R177). -/
def opBit (op : Nat) : Nat := op - 1

/-- The graft version a descriptor selects (08 R292): none = refused, some none = no graft. -/
def State.pickGraft (s : State) (r : Request) (l : Load) : Option (Option (Nat × Nat)) :=
  if r.graftId = 0 then (if r.graftVer = 0 then some none else none)
  else if manLyorn l.manifest then none
  else
    (s.sv.grafts.find? (fun g => g.stand == r.stand && g.id == r.graftId && g.manifest == manId l.manifest &&
      (if r.graftVer = 0 then g.state == .current else g.version == r.graftVer && (g.state == .current || g.state == .old)))).map
      (fun g => some (g.id, g.version))

/-- FLAGS, class and ring checks common to every opcode (10 R335, R336). -/
def State.flagsOk (s : State) (r : Request) : Bool :=
  decide (r.flags < 8) && decide (r.flags % 4 ≠ 3) && (r.ring == 8 || (s.rf (Reg.stdRingCtl r.stand r.ring) 58 56).testBit (r.flags % 4))

/-- Step 1 for an opcode that names an entry. -/
def State.entryCheck (s : State) (r : Request) : Option (Load × Nat × Option (Nat × Nat)) :=
  if s.flagsOk r = false then none
  else match s.binding r.stand r.cfgId with
    | none => none
    | some (l, e) =>
      if (entOps l.image e).testBit (opBit r.opcode) && (entClasses l.image e).testBit (r.flags % 4) then
        (s.pickGraft r l).map (fun g => (l, e, g))
      else none

/-- Step 2 for INFER (05 R197): the bucket, none = refused. -/
def shapeCheck (img : List Byte) (e : Nat) (v : Nat → Nat) (inLen outMax : Nat) : Option Nat :=
  let sh := entShape img e
  if (List.range 4).all (fun d => decide (v d ≤ shapeMax sh d) && (shapeUsed sh d || v d == 0)) &&
     inLen == declSum img e 0 v && decide (declSum img e 1 v ≤ outMax) then bucketOf sh v else none

/-- A buffer's address translates for an operation; the later bytes are translated at each access (10 R332, R350). -/
def State.bufOk (s : State) (sd addr n : Nat) (op : MemOp) : Bool :=
  decide (n = 0) || (s.translate sd addr op).isSome

/-- Live requests of a stand that count to 1,024 (10 R342, R349). -/
def State.inflight (s : State) (sd : Nat) : Nat :=
  (s.sv.requests.filter (fun r => r.stand == sd && r.live && r.cls != 0)).length

/-! ### Plans (10 R344) -/

/-- Undispatched passes with their starts shifted after a time. -/
def State.shift (s : State) : Nat → List Pass → List Pass
  | _, [] => []
  | prev, p :: ps =>
    let b := Nat.max prev (s.maxReady p)
    { p with start := b, fin := b + p.bound } :: s.shift (b + p.bound) ps

/-- Every pass ends by the least deadline of its members. -/
def State.planOk (s : State) (ps : List Pass) : Bool := ps.all (fun p => decide (p.fin ≤ s.minDeadline p))

/-- Replace the undispatched passes of a plan. -/
def State.setPlan (s : State) (oldIds : List Nat) (new : List Pass) : State :=
  s.modSv (fun v => { v with passes := v.passes.filter (fun p => !oldIds.contains p.id) ++ new })

/-- What planning answers: the projected completion, the plan's passes, the pass joined. -/
structure Placed where
  fin : Nat
  old : List Nat
  new : List Pass
  passId : Nat

/-- The spans of the passes of a plan that are new, shifted or joined. -/
def Placed.spans (p : Placed) (s : State) : List (Nat × Nat) :=
  (p.new.filter (fun q => !s.sv.passes.contains q)).map (fun q => (q.start, q.fin))

/-- Place a Deadline request, already held with its ready time, on the server of an instance; none = no place; some none = the
plan is full. Passes before the request's keep their planned start and end, a joined pass keeps its start where the request is
ready by then, and the passes after it shift. -/
def State.placeOn (s : State) (r : Request) (i : Inst) (newId : Nat) : Option (Option Placed) :=
  let img := s.image i.load
  let plan := s.planOf i.id
  let dis := plan.filter (·.dispatched)
  let und := plan.filter (fun p => !p.dispatched)
  let ids := und.map (·.id)
  if dis.any (·.unknownEnd) then none
  else
    let prev := (dis.map (·.fin)).foldl Nat.max 0
    let join := (List.range und.length).findSome? (fun k =>
      match und[k]? with
      | none => none
      | some q =>
        if q.inst == some i.id && q.cls == 1 && q.bucket == r.bucket && decide (q.members.length < entSlots img r.entry) then
          match latLookup img r.entry 1 s.level r.bucket (q.members.length + 1) with
          | none => none
          | some b =>
            let q' := { q with members := q.members ++ [r.id], bound := b, start := Nat.max q.start r.ready,
                               fin := Nat.max q.start r.ready + b }
            let ps := und.take k ++ q' :: s.shift q'.fin (und.drop (k + 1))
            if s.planOk (ps.drop k) then (ps[k]?).map (fun q => (⟨q.fin, ids, ps, q.id⟩ : Placed)) else none
        else none)
    match join with
    | some p => some (some p)
    | none =>
      if 64 ≤ plan.length then some none
      else match latLookup img r.entry 1 s.level r.bucket 1 with
        | none => none
        | some b =>
          let k := ((findIdx (fun q => decide (r.deadline < s.minDeadline q)) und 0).map (·.1)).getD und.length
          let st := Nat.max (((und.take k).map (·.fin)).getLast?.getD prev) r.ready
          let n : Pass := ⟨newId, r.stand, some i.id, 1, r.bucket, [r.id], st, b, st + b, false, false, 0, 0, false, 0, 0⟩
          let ps := und.take k ++ n :: s.shift n.fin (und.drop k)
          if s.planOk (ps.drop k) then (ps[k]?).map (fun q => some (⟨q.fin, ids, ps, newId⟩ : Placed)) else none

/-! ### Accepting -/

/-- Count an acceptance and enter the request as waiting (16 R527). -/
def State.accept (s : State) (r : Request) (f : Request → Request) : State :=
  let s1 := (s.modReq r.id (fun q => { f q with phase := .waiting })).count (admOff r.stand r.cls 0) 1
  let fin := ((s.sv.passes.find? (fun p => p.members.contains r.id)).map (·.fin)).getD 0
  (s1.modRes r.stand (fun x => { x with admitted := x.admitted + 1 })).traceStand r.stand 2 (admitBytes r 0 fin)

/-- Longest decision times (10 R362 ADM_DEC_MAX). -/
def State.decided (s : State) (r : Request) : State :=
  let d := Nat.min (s.now - r.arrival) 0xFFFFFFFF
  if r.cls = 0 then s.wf Reg.admDecMax 63 32 (Nat.max d (s.rf Reg.admDecMax 63 32))
  else s.wf Reg.admDecMax 31 0 (Nat.max d (s.rf Reg.admDecMax 31 0))

/-- The near copy of a request's graft version, verified or not. -/
def State.graftObj (s : State) (r : Request) : Option PoolObj :=
  r.graft.bind (fun g => s.sv.objs.find? (fun o => o.stand == r.stand && o.kind == 1 && o.manifest == g.1 && o.index == g.2))
/-- The graft term of a request (08 R293); a version without a near copy is given frames and a place in the fetch queue; none where the frames do
not suffice (06 R232). -/
def State.takeGraft (s : State) (r : Request) : State × Option Nat :=
  match r.graft, s.graftObj r with
  | none, _ => (s, some 0)
  | some _, some o => (s, some (if o.state == .verified then 0 else (((s.sv.fetches.find? (fun f => f.obj == o.id)).map (·.fin)).getD s.now) - s.now))
  | some (g, v), none =>
    let gr := s.sv.grafts.find? (fun x => x.stand == r.stand && x.id == g && x.version == v)
    let n := (gr.map (·.size)).getD 0
    match s.newObj r.stand 1 g v n ((gr.map (·.digest)).getD []) (fun _ => false) with
    | (s1, none) => (s1, none)
    | (s1, some id) => let s2 := s1.queueFetch id n; (s2, some (s2.fetchEnd - s2.now))

/-- The residency terms of a request on an instance, the largest of them (05 R188, 08 R284, R293, 14 R476); an error is the
refusal with what it leaves queued. -/
def State.terms (s : State) (r : Request) (l : Load) (i : Inst) (extra : Nat) : Except (Nat × State) (Nat × State) :=
  let cts := (entCfgs l.image r.entry).eraseDups.map (s.cfgTerm i)
  match s.shardTerm l r.cls with
  | .error e => .error e
  | .ok (sh, s1) =>
    match s1.takeGraft r with
    | (s2, none) => .error (0x13, s2)
    | (s2, some g) =>
      if cts.any (·.isNone) then .error (0x10, s2)
      else .ok (Nat.max (Nat.max (s.wakeTerm i.branches + (cts.map (·.getD 0)).foldl Nat.max 0) sh) (Nat.max g extra), s2)

/-- What a decision that ends in a refusal gives back: the frames of graft versions and KV pages it took, and its places in the fetch queue
(10 R342: a request commits only where every check passes). Copy jobs stay queued (08 R284). -/
def State.giveBack (s0 s : State) : State :=
  let new := fun (o : PoolObj) => decide (s0.sv.nextId ≤ o.id) && (o.kind == 1 || o.kind == 2)
  let ids := (s.sv.objs.filter new).map (·.id)
  s.modSv (fun v => { v with
    objs := (v.objs.filter (fun o => !new o)).map (fun o => match s0.sv.objs.find? (fun x => x.id == o.id) with
      | some x => if o.spilled && x.spilled && x.frames.isEmpty then { o with frames := [] } else o
      | none => o),
    fetches := v.fetches.filter (fun f => s0.sv.fetches.contains f),
    seqs := v.seqs.map (fun q => { q with pages := q.pages.filter (fun p => !ids.contains p) }) })

/-- The ready time of a sequence step: the planned end of the last accepted step of its sequence (10 R345). -/
def State.seqReady (s : State) (r : Request) : Nat :=
  if r.seqId = 0 then 0
  else ((s.sv.passes.filter (fun p => p.members.any (fun m => match s.req m with
    | some q => q.stand == r.stand && q.seqId == r.seqId && q.id != r.id | none => false))).map (·.fin)).foldl Nat.max 0

/-- Decide a Deadline request on one instance with everything placed, debited and checked for power (10 R342 steps 3-5). -/
def State.decideOn (s : State) (r : Request) (l : Load) (i : Inst) (extra : Nat) : Except (Nat × State) (Nat × State) :=
  match s.terms r l i extra with
  | .error e => .error e
  | .ok (rho, s0) =>
    let ready := Nat.max (s0.now + rho) (s0.seqReady r)
    let (pid, s1) := s0.fresh
    let s2 := s1.modReq r.id (fun q => { q with inst := i.id, ready := ready, bucket := r.bucket, entry := r.entry, load := l.id, graft := r.graft })
    match s2.placeOn { r with inst := i.id, ready := ready } i pid with
    | none => .error (0x10, s0)
    | some none => .error (0x13, s0)
    | some (some p) =>
      let occ := ((p.new.find? (fun q => q.id == p.passId)).map (·.members.length)).getD 1
      match nrgLookup l.image r.entry s2.level r.bucket occ with
      | none => .error (0x12, s0)
      | some uj =>
        let d := s2.debitOf uj
        let s3 := (s2.modReq r.id (fun q => { q with debit := d, uj := uj })).setPlan p.old p.new
        if s3.bucket r.stand < (d : Int) ∨ s0.powerFits s3 (p.spans s2) = false ∨ s3.rbit Reg.pwrStatus 5 = true then .error (0x12, s0)
        else
          let s4 := (s3.accept r (fun q => q)).addBucket r.stand (-(d : Int))
          .ok (p.fin, (s4.startLoads i r.entry false).wake i.branches)

/-- The instances of an entry of a load, by home branch. -/
def State.instsOf (s : State) (l : Load) (e : Nat) : List Inst :=
  (s.sv.insts.filter (fun i => i.load == l.id && i.entry == e)).mergeSort (fun a b => decide (a.home ≤ b.home))

/-- The best outcome over the instances: the earliest projected completion, ties to the lower home branch (10 R344). -/
def bestOf : List (Except (Nat × State) (Nat × State)) → Except (Nat × State) (Nat × State) → Except (Nat × State) (Nat × State)
  | [], b => b
  | x :: xs, b =>
    match x, b with
    | .ok (f, s), .ok (g, s') => bestOf xs (if f < g then .ok (f, s) else .ok (g, s'))
    | .ok y, .error _ => bestOf xs (.ok y)
    | .error _, b => bestOf xs b

/-- Refuse a request, giving back what its decision took from s on. -/
def State.refusedBy (s : State) (r : Request) (e : Nat × State) : State := (s.giveBack e.2).refuse r e.1

/-- A Bulk request: energy at occupancy 1, no plan (10 R347, 14 R487). -/
def State.decideBulk (s : State) (r : Request) (l : Load) (i : Inst) (extra : Nat) : State :=
  match s.terms r l i extra with
  | .error e => s.refusedBy r e
  | .ok (rho, s1) =>
    match nrgLookup l.image r.entry s1.level r.bucket 1 with
    | none => s.refusedBy r (0x12, s1)
    | some uj =>
      let d := s1.debitOf uj
      if s1.bucket r.stand < (d : Int) ∨ s1.rbit Reg.pwrStatus 5 = true then s.refusedBy r (0x12, s1)
      else
        let s2 := (s1.accept r (fun q => { q with inst := i.id, ready := Nat.max (s1.now + rho) (s1.seqReady r), debit := d, uj := uj, load := l.id,
                                                  entry := r.entry, bucket := r.bucket, graft := r.graft })).addBucket r.stand (-(d : Int))
        (s2.startLoads i r.entry false).wake i.branches

/-! ### Express (10 R348, R349) -/

/-- A contract's burst and rate. -/
def State.xBurst (s : State) (sd c : Nat) : Nat := s.rf (Reg.stdXcon sd c) 47 32
def State.xRate (s : State) (sd c : Nat) : Nat := s.rf (Reg.stdXcon sd c) 31 0
/-- A contract's credits in units of 10^-9 request: BURST at first, RATE per second up to BURST. -/
def State.credits (s : State) (sd c : Nat) : Nat :=
  match s.sv.credits.find? (fun x => x.1 == sd * 8 + c) with
  | none => s.xBurst sd c * 1000000000
  | some (_, k) => Nat.min (s.xBurst sd c * 1000000000) (k.level + s.xRate sd c * (s.now + 1 - k.time))
/-- Store a contract's credits as of now (the stored time is one more, so that no entry is the table's default). -/
def State.setCredits (s : State) (sd c v : Nat) : State :=
  s.modSv (fun x => { x with credits := tset ⟨0, 0⟩ x.credits (sd * 8 + c) ⟨v, s.now + 1⟩ })

/-- The largest Express SERVICE_NS of an entry at a level with full slots (10 R348). -/
def sFull (img : List Byte) (e level : Nat) : Nat :=
  ((latRows (entLat img e)).filter (fun r => r.1 == 0 && r.2.1 == level && r.2.2.1 == entSlots img e)).foldl
    (fun m r => Nat.max m r.2.2.2.2) 0
/-- The contract latency at a level (10 R348). -/
def State.xLatency (s : State) (sd c : Nat) (img : List Byte) (e level : Nat) : Nat :=
  (cdiv (s.xBurst sd c) (entSlots img e) + 1) * sFull img e level

/-- Waiting requests of an instance's Express queue. -/
def State.xQueue (s : State) (i : Nat) : List Request :=
  s.sv.requests.filter (fun r => r.cls == 0 && r.phase == .waiting && r.inst == i)

/-- Decide an Express request that has passed steps 1 and 2, on an instance and contract (10 R349). Within its contract nothing delays it: the
fetch of its graft version is queued, and no term is added (DEDUCED, log entry 20). -/
def State.decideExpress (s : State) (r : Request) (l : Load) (i : Inst) (c : Nat) : State :=
  if (s.res r.stand).reload then s.refuse r 0x10
  else if s.credits r.stand c < 1000000000 then s.refuse r 0x13
  else if (r.deadline : Int) - r.arrival < s.xLatency r.stand c l.image r.entry s.level then s.refuse r 0x10
  else
    let uj := (nrgLookup l.image r.entry s.level r.bucket 1).getD 0
    let d := s.debitOf uj
    (((s.takeGraft r).1.setCredits r.stand c (s.credits r.stand c - 1000000000)).accept r (fun q =>
      { q with inst := i.id, load := l.id, entry := r.entry, bucket := r.bucket, contract := c, debit := d, uj := uj, ready := s.now,
               graft := r.graft })).addBucket r.stand (-(d : Int))

/-- The binding of an Express ring and the instance with the fewest waiting requests (10 R348, R349). -/
def State.ringTarget (s : State) (r : Request) (l : Load) : Option (Nat × Inst) :=
  match s.sv.ringBinds.find? (fun b => b.stand == r.stand && b.ring == r.ring && b.load == l.id) with
  | none => none
  | some b => (minBy (fun i => (s.xQueue i.id).length) (s.instsOf l r.entry)).map (fun i => (b.contract, i))

/-! ### The decision -/

/-- Steps 3 to 5 for a request whose entry and bucket are known. -/
def State.decideRest (s : State) (r : Request) (l : Load) (extra : Nat) : State :=
  if r.cls = 0 then
    match s.ringTarget r l with
    | none => s.refuse r 0x13
    | some (c, i) => s.decideExpress r l i c
  else if s.rbit Reg.rootStatus 2 = false ∨ 1024 ≤ s.inflight r.stand then s.refuse r 0x13
  else if r.cls = 1 ∧ r.deadline ≤ s.now then s.refuse r 0x10
  else if r.cls = 2 then
    match s.instsOf l r.entry with
    | i :: _ => s.decideBulk r l i extra
    | [] => s.refuse r 0x14
  else
    match (s.instsOf l r.entry).map (fun i => s.decideOn r l i extra) with
    | [] => s.refuse r 0x14
    | x :: xs => match bestOf xs x with
      | .ok (_, s1) => s1
      | .error e => s.refusedBy r e

/-- The stand's first undecided request, if its opcode is the one given. -/
def State.firstUndecided (s : State) (sd : Nat) : Option Request :=
  s.sv.requests.find? (fun r => r.stand == sd && r.phase == .undecided)

/-- A failed translation of IN_ADDR or OUT_ADDR ends the request itself with ACCESS_VIOLATION (10 R333, R350). -/
def State.badBuffers (s : State) (r : Request) : Option Nat :=
  if s.bufOk r.stand (fieldLE r.desc 32 8) r.inLen .read = false then some (fieldLE r.desc 32 8)
  else if s.bufOk r.stand (fieldLE r.desc 40 8) r.outMax .write = false then some (fieldLE r.desc 40 8)
  else none

/-- End an undecided request with an error status and its address. -/
def State.failUndecided (s : State) (r : Request) (status addr : Nat) : State :=
  (s.dropReq r.id).sendRecord r (recordBytes r.tag status (s.cflagsOf r) 0 s.now addr 0) []

/-- The translated IN_ADDR and OUT_ADDR that movers add to a template (05 R176) are stand addresses: translation of the final
address happens at each access. -/
def State.decideInfer (s : State) (r : Request) : State :=
  if r.opcode ≠ 1 ∨ r.seqId ≠ 0 ∨ r.aux ≠ 0 then s.refuse r 0x14
  else match s.entryCheck r with
    | none => s.refuse r 0x14
    | some (l, e, g) =>
      match s.badBuffers r with
      | some a => (s.violation r.stand 3 3 0 0 a r.tag).failUndecided r 0x40 a
      | none =>
        match shapeCheck l.image e r.shape r.inLen r.outMax with
        | none => s.refuse r 0x11
        | some k =>
          let r' := { r with load := l.id, entry := e, bucket := k, graft := g, inAddr := fieldLE r.desc 32 8, outAddr := fieldLE r.desc 40 8 }
          let s1 := s.modReq r.id (fun _ => r')
          (s1.decideRest r' l 0)

/-- The opcodes that have a decision of their own. -/
def knownOpcode (op : Nat) : Bool := op == 2 || op == 3 || op == 4 || op == 0x10 || op == 0x20 || op == 0x21

/-- INFER: the admission decision of the stand's first undecided descriptor where its opcode is INFER or reserved (10 R336, R342). -/
def execInfer (t sd : Nat) (s : State) : Host.Outcome State Fault Refusal :=
  let s1 := s.at t
  match s1.firstUndecided sd with
  | none => .next s1
  | some r => if knownOpcode r.opcode || !s1.serving || s1.stdState sd == 3 then .next s1 else .next ((s1.decideInfer r).decided r)

/-- EXPRESS_CREDIT_REFILL: a contract's credits as of now (10 R349). -/
def execExpressCreditRefill (t sd c : Nat) (s : State) : Host.Outcome State Fault Refusal :=
  let s1 := s.at t
  .next (s1.setCredits sd c (s1.credits sd c))

end Sys2Proof.Machine
end

