-- ==== Sys2Proof/Machine/PacketPlane.lean ====
section
/-! DEFINITION. The packet plane: deterministic routes, virtual channels, link cycles and the arbitration rule (04 R154-R164). -/

namespace Sys2Proof.Machine

/-- Plane coordinates of a leaf's router (01 R22). -/
def State.leafXY (s : State) (l : Nat) : Nat × Nat :=
  let p := s.branchXY (l / 64)
  (p.1 * 8 + l % 8, p.2 * 8 + l % 64 / 8)

/-- The leaf at plane coordinates, 0 where the plane holds none (01 R22). -/
def State.leafAt (s : State) (x y : Nat) : Nat :=
  match s.branchAt (x / 8) (y / 8) with
  | some b => b * 64 + y % 8 * 8 + x % 8
  | none => 0

/-- Hops in X from column x to column x' of row y: (router, side left through). -/
def State.hopsX (s : State) (y x x' : Nat) : List (Nat × Nat) :=
  if x ≤ x' then (List.range (x' - x)).map (fun i => (s.leafAt (x + i) y, 1))
  else (List.range (x - x')).map (fun i => (s.leafAt (x - i) y, 3))

/-- Hops in Y from row y to row y' of column x. -/
def State.hopsY (s : State) (x y y' : Nat) : List (Nat × Nat) :=
  if y ≤ y' then (List.range (y' - y)).map (fun i => (s.leafAt x (y + i), 2))
  else (List.range (y - y')).map (fun i => (s.leafAt x (y - i), 0))

/-- Between routers of one die: first in X, then in Y (04 R156). -/
def State.hopsIn (s : State) (a b : Nat × Nat) : List (Nat × Nat) := s.hopsX a.2 a.1 b.1 ++ s.hopsY b.1 a.2 b.2

/-- Die coordinates of plane coordinates. -/
def dieOf (p : Nat × Nat) : Nat × Nat := (p.1 / 32, p.2 / 32)

/-- From a router straight to a hub of its own die (0 N, 1 E, 2 S, 3 W), the outward hop at the edge router included
(04 R156). -/
def State.hopsToHub (s : State) (p : Nat × Nat) (hub : Nat) : List (Nat × Nat) :=
  let d := dieOf p
  if hub = 0 then s.hopsY p.1 p.2 (d.2 * 32) ++ [(s.leafAt p.1 (d.2 * 32), 0)]
  else if hub = 1 then s.hopsX p.2 p.1 (d.1 * 32 + 31) ++ [(s.leafAt (d.1 * 32 + 31) p.2, 1)]
  else if hub = 2 then s.hopsY p.1 p.2 (d.2 * 32 + 31) ++ [(s.leafAt p.1 (d.2 * 32 + 31), 2)]
  else s.hopsX p.2 p.1 (d.1 * 32) ++ [(s.leafAt (d.1 * 32) p.2, 3)]

/-- From a hub of the destination's die to the destination router: it enters at the edge router of the destination's row (hubs 1
and 3) or column (hubs 0 and 2) (04 R156). -/
def State.hopsFromHub (s : State) (hub : Nat) (p : Nat × Nat) : List (Nat × Nat) :=
  let d := dieOf p
  if hub = 0 then s.hopsY p.1 (d.2 * 32) p.2
  else if hub = 1 then s.hopsX p.2 (d.1 * 32 + 31) p.1
  else if hub = 2 then s.hopsY p.1 (d.2 * 32 + 31) p.2
  else s.hopsX p.2 (d.1 * 32) p.1

/-- The hub of a die that a packet leaves through towards another die: X first, then Y (04 R156). -/
def hubTowards (a b : Nat × Nat) : Nat := if a.1 < b.1 then 1 else if b.1 < a.1 then 3 else if a.2 < b.2 then 2 else 0

/-- The hub of the destination die that a packet from another die enters: the last move is in Y unless the dies share a row. -/
def hubEntered (a b : Nat × Nat) : Nat :=
  if a.2 < b.2 then 0 else if b.2 < a.2 then 2 else if a.1 < b.1 then 3 else 1

/-- Coordinates of a die in the die grid (01 R21). -/
def State.dieXY (s : State) (d : Nat) : Nat × Nat := (d % s.dieCols, d / s.dieCols)

/-- The die and hub an end attaches to, for ends that are not routers (04 R155, 01 R23): near-tier stacks at hub 0 or 2 of their
die; a bark die at the west or east edge, in the row of the other end. -/
def State.hubOf (s : State) (p : Place) (other : Nat × Nat) : (Nat × Nat) × Nat :=
  match p with
  | .router l _ => (dieOf (s.leafXY l), 4)
  | .stack n => (s.dieXY (n / 2), if n % 2 = 0 then 0 else 2)
  | .bark d => if d = 0 then ((0, other.2), 3) else ((s.dieCols - 1, other.2), 1)

/-- The router hops of a packet from one end to another (04 R156). -/
def State.route (s : State) (a b : Place) : List (Nat × Nat) :=
  match a, b with
  | .router la _, .router lb _ =>
    let p := s.leafXY la
    let q := s.leafXY lb
    if dieOf p = dieOf q then s.hopsIn p q
    else s.hopsToHub p (hubTowards (dieOf p) (dieOf q)) ++ s.hopsFromHub (hubEntered (dieOf p) (dieOf q)) q
  | .router la _, other =>
    let p := s.leafXY la
    let h := s.hubOf other (dieOf p)
    if h.1 = dieOf p then s.hopsToHub p h.2 else s.hopsToHub p (hubTowards (dieOf p) h.1)
  | other, .router lb _ =>
    let q := s.leafXY lb
    let h := s.hubOf other (dieOf q)
    if h.1 = dieOf q then s.hopsFromHub h.2 q else s.hopsFromHub (hubEntered h.1 (dieOf q)) q
  | _, _ => []

/-- Payload flits of n bytes. -/
def flitsFor (n : Nat) : Nat := 1 + cdiv n 32

/-- The input of the first router of a way, for a way that begins outside the routers: the hub entered (04 R156, R163). -/
def State.firstInput (s : State) (src dst : Place) : Nat :=
  match src, dst with
  | .router _ p, _ => p
  | other, .router l _ =>
    let q := dieOf (s.leafXY l)
    let h := s.hubOf other q
    if h.1 = q then h.2 else hubEntered h.1 q
  | _, _ => 0
/-- The input of a router behind an output: the facing side of a neighbouring router, or the hub entered on another die. -/
def State.nextInput (s : State) (a : Nat × Nat) (r : Nat) : Nat :=
  let p := dieOf (s.leafXY a.1)
  let q := dieOf (s.leafXY r)
  if p = q then oppSide a.2 else hubEntered p q
/-- The routers of a way with the input of each (04 R154, R156): an end at a router is reached through its own port. -/
def State.hopList (s : State) (ord : Nat) (src dst : Place) : List Hop :=
  let way := s.route src dst ++ (match dst with | .router l p => [(l, p)] | _ => [])
  way.zipIdx.map (fun x =>
    let inp := match x.2 with
      | 0 => s.firstInput src dst
      | n + 1 => s.nextInput (way.getD n (0, 0)) x.1.1
    ⟨x.1.1, x.1.2, inp, if x.2 = 0 then ord else 0, 0, false, if x.2 = 0 then (s.branch (x.1.1 / 64)).linkCycle else 0⟩)

/-- Send one packet (04 R157). It waits at its first router behind those its source has sent before. -/
def State.sendPacket (s : State) (vc : Nat) (src dst : Place) (isResp : Bool) (flits acc : Nat) : State :=
  { s with
    packets := s.packets ++ [⟨s.nextPacket, vc, src, dst, isResp, flits, s.hopList s.nextPacket src dst, acc⟩],
    nextPacket := s.nextPacket + 1 }

/-- The packets of a transfer of n payload bytes: one, or on VC0 one for each 32 bytes (04 R157). -/
def packetCount (vc n : Nat) : Nat := Nat.max 1 (cdiv n (if vc = 0 then 32 else 4096))
/-- The bytes of packet i of a transfer of n bytes. -/
def packetBytes (vc n i : Nat) : Nat := let z := if vc = 0 then 32 else 4096; Nat.min z (n - z * i)

/-- Send the requests of a transfer of n bytes; the payload travels with the request of a write and with the response of a
read. -/
def State.sendTransfer (s : State) (vc : Nat) (src dst : Place) (write : Bool) (n acc : Nat) : State :=
  (List.range (packetCount vc n)).foldl
    (fun s i =>
      let f := flitsFor (packetBytes vc n i)
      s.sendPacket vc src dst false (if write then f else 1) acc) s

/-- R159's order of the virtual channels in a link cycle. -/
def vcOrder (c : Nat) : List Nat :=
  if c % 4 = 0 then [0, 1, 3, 2]
  else if c % 16 = 6 then [2, 1, 0, 3]
  else if c % 16 = 10 then [3, 1, 0, 2]
  else [1, 0, 3, 2]

/-- R163: the winner among requester indices, by the smallest (i - q) mod N with q = T[19:4] mod N. -/
def arbWinner (now n : Nat) (reqs : List Nat) : Option Nat :=
  let q := now / 16 % 65536 % n
  reqs.foldl (fun best i =>
    match best with
    | none => some i
    | some j => if (i + n - q) % n < (j + n - q) % n then some i else some j) none

/-- Ports of a router: 7 where a tile mover and a branch-memory port attach (04 R154, R163). -/
def routerPorts (leaf : Nat) : Nat := if (moverAt (leaf % 64)).isSome then 7 else 5

/-! ### Flits at a router (04 R158) -/

/-- Flits of a packet that have come to its i-th router. -/
def Packet.came (p : Packet) (i : Nat) : Nat :=
  match i with
  | 0 => p.flits
  | n + 1 => ((p.hops[n]?).map (·.sent)).getD p.flits
/-- A packet at a router: its number in the list, the packet, the number of the hop and the hop. -/
structure AtRouter where
  n : Nat
  p : Packet
  i : Nat
  h : Hop
/-- The packets of a virtual channel some of whose flits have come to a router and not all left. -/
def packetsAt (ps : List Packet) (router vc : Nat) : List AtRouter :=
  ps.zipIdx.flatMap (fun x => if x.1.vc = vc then x.1.hops.zipIdx.filterMap (fun y =>
    if y.1.router = router ∧ 0 < x.1.came y.2 ∧ y.1.sent < x.1.flits then some ⟨x.2, x.1, y.2, y.1⟩ else none) else [])
/-- The packet at the head of an input's queue of a virtual channel: the first to have come. -/
def inputHead (ps : List Packet) (router vc inp : Nat) : Option AtRouter :=
  minBy (fun a => a.h.ord) ((packetsAt ps router vc).filter (fun a => a.h.inp == inp))
/-- The packet that holds an output of a router on a virtual channel. -/
def holderOf (ps : List Packet) (router out vc : Nat) : Option AtRouter :=
  (packetsAt ps router vc).find? (fun a => a.h.holds && a.h.out == out)
/-- Flits of a virtual channel in an input's buffer; the first router's is filled from the source's own queue. -/
def bufferFill (ps : List Packet) (router vc inp : Nat) : Nat :=
  (((packetsAt ps router vc).filter (fun a => a.h.inp == inp && decide (0 < a.i))).map (fun a => a.p.came a.i - a.h.sent)).sum
/-- The holder of an output can send a flit: one is there, and the next router's input has room for it (8 flits a virtual channel). The spec
does not state the buffers of hubs and endpoints: full has a bit for each virtual channel on which what stands behind the output takes
none now (log entry 24); at an endpoint a response always is taken (04 R160). -/
def AtRouter.canSend (ps : List Packet) (full : BitVec 4) (a : AtRouter) : Bool :=
  decide (a.h.sent < a.p.came a.i) &&
  (match a.p.hops[a.i + 1]? with
   | none => (a.p.isResp && decide (4 ≤ a.h.out)) || !full.getLsbD a.p.vc
   | some h' => decide (bufferFill ps h'.router a.p.vc h'.inp < 8))

/-- Change the packets. -/
def State.modPackets (s : State) (f : List Packet → List Packet) : State := { s with packets := f s.packets }
/-- Change one hop of a packet. -/
def modHop (n i : Nat) (f : Hop → Hop) (ps : List Packet) : List Packet :=
  match ps[n]? with
  | none => ps
  | some p => match p.hops[i]? with
    | none => ps
    | some h => ps.set n { p with hops := p.hops.set i (f h) }

/-- A flit leaves on the output its packet holds; the head flit joins the queue of the next router's input, the last flit frees the
output (04 R158). A VC0 head flit's wait at the output counts (04 R165). -/
def State.flitLeaves (s : State) (a : AtRouter) : State :=
  let b := a.h.router / 64
  let head := a.h.sent = 0
  let s1 := s.modPackets (modHop a.n a.i (fun h => { h with sent := h.sent + 1, holds := decide (h.sent + 1 < a.p.flits) }))
  let s2 := if head then
      { s1.modPackets (modHop a.n (a.i + 1) (fun h => { h with ord := s1.nextPacket, since := (s1.branch (h.router / 64)).linkCycle })) with
        nextPacket := s1.nextPacket + 1 }
    else s1
  s2.modBranch b (fun x => { x with
    pktFlits := tmod 0 x.pktFlits a.p.vc (fun n => sat32 (n + 1)),
    vc0max := if head ∧ a.p.vc = 0 then Nat.max x.vc0max (Nat.min 0xFFFF (x.linkCycle - a.h.since)) else x.vc0max })

/-- LINK_CYCLE_VC_SELECT: in a cycle of its island an output of a router sends one flit of the first virtual channel in the cycle's order
that has a flit ready and a credit (04 R158, R159). out 0-3 are the sides, 4 the endpoint, 5 the tile mover, 6 the branch-memory port; full: what
stands behind it beyond the routers takes no flit on these virtual channels. -/
def execLinkCycleVcSelect (t leaf out : Nat) (full : BitVec 4) (s : State) : Host.Outcome State Fault Refusal :=
  if s.nLeaves ≤ leaf then .fault .absentUnit
  else
    let b := leaf / 64
    let s1 := s.at t
    let c := (s1.branch b).linkCycle
    let key := leaf % 64 * 8 + out
    if s1.frozen = true ∨ 7 ≤ out ∨ tget 0 (s1.branch b).outCycle key = c + 1 then .next s1
    else
      match (vcOrder c).find? (fun v => match holderOf s1.packets leaf out v with | some a => a.canSend s1.packets full | none => false) with
      | none => .next s1
      | some v =>
        match holderOf s1.packets leaf out v with
        | none => .next s1
        | some a => .next ((s1.flitLeaves a).modBranch b (fun x => { x with outCycle := tset 0 x.outCycle key (c + 1) }))

/-- The packets whose head flit waits for an output of a router on a virtual channel: each is at the head of its input's queue. -/
def waitingFor (ps : List Packet) (router out vc : Nat) : List AtRouter :=
  (List.range 7).filterMap (fun inp => match inputHead ps router vc inp with
    | some a => if a.h.out = out ∧ a.h.sent = 0 then some a else none
    | none => none)

/-- Arbitration at an output of a router: among the packets of a virtual channel whose head flit waits for it, the one on the winning
input takes the output until its last flit (04 R158, R163). -/
def State.arbitrate (s : State) (leaf out vc : Nat) : State :=
  if (holderOf s.packets leaf out vc).isSome then s
  else
    let ws := waitingFor s.packets leaf out vc
    match arbWinner s.now (routerPorts leaf) (ws.map (·.h.inp)) with
    | none => s
    | some w => match ws.find? (fun a => a.h.inp == w) with
      | none => s
      | some a => s.modPackets (modHop a.n a.i (fun h => { h with holds := true }))

/-- Every flit of a packet has left its last router. -/
def Packet.through (p : Packet) : Bool := p.hops.all (fun h => decide (h.sent = p.flits))

end Sys2Proof.Machine
end

