-- ==== Sys2Proof/Machine/ReedSolomon.lean ====
section
/-! DEFINITION. Reed-Solomon codes of the near and warm tiers: the fields, the check symbols, and the decoder (06 R206-R209, R214). -/

namespace Sys2Proof.Machine

/-- A field GF(2^bits) by its polynomial, x^bits included; α is 2. -/
structure Gf where
  bits : Nat
  poly : Nat
  deriving DecidableEq, Repr

/-- a times x. -/
def Gf.xt (g : Gf) (a : Nat) : Nat := if (2 * a).testBit g.bits then (2 * a) ^^^ g.poly else 2 * a
/-- The product of two elements. -/
def Gf.mul (g : Gf) (a b : Nat) : Nat :=
  ((List.range g.bits).foldl (fun (x : Nat × Nat) i => (if b.testBit i then x.1 ^^^ x.2 else x.1, g.xt x.2)) (0, a)).1
/-- A power, by the binary digits of the exponent (below 2^17). -/
def Gf.pow (g : Gf) (a n : Nat) : Nat :=
  ((List.range 17).foldl (fun (x : Nat × Nat) i => (if n.testBit i then g.mul x.1 x.2 else x.1, g.mul x.2 x.2)) (1, a)).1
/-- The inverse of a nonzero element. -/
def Gf.inv (g : Gf) (a : Nat) : Nat := g.pow a (2 ^ g.bits - 2)
/-- The value of a polynomial, coefficients from the lowest. -/
def Gf.eval (g : Gf) (p : List Nat) (x : Nat) : Nat := p.foldr (fun c v => g.mul v x ^^^ c) 0
/-- Sum of two polynomials. -/
def polyAdd : List Nat → List Nat → List Nat
  | [], q => q
  | p, [] => p
  | a :: p, b :: q => (a ^^^ b) :: polyAdd p q
/-- A polynomial times an element. -/
def Gf.scale (g : Gf) (c : Nat) (p : List Nat) : List Nat := p.map (g.mul c)
/-- Product of two polynomials. -/
def Gf.polyMul (g : Gf) : List Nat → List Nat → List Nat
  | [], _ => []
  | a :: p, q => polyAdd (g.scale a q) (0 :: g.polyMul p q)

/-- A systematic code of n symbols, r of them check symbols; generator roots α^0 to α^(r-1). Symbol 0 is the highest-order coefficient, the
check symbols are the lowest (06 R206). -/
structure Rs where
  gf : Gf
  n : Nat
  r : Nat
  deriving DecidableEq, Repr

/-- RS(68, 64) over GF(2^8), x^8 + x^4 + x^3 + x^2 + 1 (06 R206). -/
def nearCode : Rs := ⟨⟨8, 0x11D⟩, 68, 4⟩
/-- RS(40, 32) over GF(2^16), x^16 + x^12 + x^3 + x + 1 (06 R214). -/
def warmCode : Rs := ⟨⟨16, 0x1100B⟩, 40, 8⟩

/-- The generator polynomial, from the lowest coefficient. -/
def Rs.generator (c : Rs) : List Nat := (List.range c.r).foldl (fun p i => c.gf.polyMul p [c.gf.pow 2 i, 1]) [1]
/-- The check symbols of data symbols: the remainder of data times x^r by the generator, highest first. -/
def Rs.check (c : Rs) (data : List Nat) : List Nat :=
  let low := (c.generator.take c.r).reverse
  data.foldl (fun rem d =>
    let f := d ^^^ rem.headD 0
    (List.range c.r).map (fun i => (rem.getD (i + 1) 0) ^^^ c.gf.mul f (low.getD i 0))) (List.replicate c.r 0)
/-- The syndromes of a word. -/
def Rs.syndromes (c : Rs) (w : List Nat) : List Nat := (List.range c.r).map (fun j => c.gf.eval w.reverse (c.gf.pow 2 j))
/-- The locator of a symbol. -/
def Rs.loc (c : Rs) (y : Nat) : Nat := c.gf.pow 2 (c.n - 1 - y)

/-- One step of the Berlekamp-Massey iteration with rho erasures: locator, correction polynomial, length. -/
def Rs.bmStep (c : Rs) (syn : List Nat) (rho : Nat) (x : List Nat × List Nat × Nat) (k : Nat) : List Nat × List Nat × Nat :=
  let (lam, b, len) := x
  let d := lam.zipIdx.foldl (fun v e => if e.2 < k then v ^^^ c.gf.mul e.1 (syn.getD (k - 1 - e.2) 0) else v) 0
  let xb := 0 :: b
  if d = 0 then (lam, xb, len)
  else
    let t := polyAdd lam (c.gf.scale d xb)
    if 2 * len ≤ k - 1 + rho then (t, c.gf.scale (c.gf.inv d) lam, k + rho - len) else (t, xb, len)
/-- The error locator of syndromes with erased symbols. -/
def Rs.locator (c : Rs) (syn erased : List Nat) : List Nat :=
  let gam := erased.foldl (fun p y => c.gf.polyMul p [1, c.loc y]) [1]
  let rho := erased.length
  ((List.range (c.r - rho)).foldl (fun x i => c.bmStep syn rho x (rho + 1 + i)) (gam, gam, rho)).1

/-- The error pattern (symbol, difference) of a word: that with at most (r - e) / 2 symbols beside e erased ones and the word's syndromes;
none where there is none (06 R206-R209, R214). -/
def Rs.pattern (c : Rs) (w erased : List Nat) : Option (List (Nat × Nat)) :=
  let syn := c.syndromes w
  if syn.all (· == 0) then some []
  else
    let lam := c.locator syn erased
    let at_ := (List.range c.n).filter (fun y => c.gf.eval lam (c.gf.inv (c.loc y)) == 0)
    let om := (c.gf.polyMul syn lam).take c.r
    let der := lam.zipIdx.map (fun e => if e.2 % 2 = 1 then e.1 else 0)
    let es := (at_.map (fun y =>
      let xi := c.gf.inv (c.loc y)
      (y, c.gf.mul (c.gf.eval om xi) (c.gf.inv (c.gf.eval der xi))))).filter (fun e => e.2 != 0)
    let fix := (List.range c.n).map (fun y => ((es.find? (fun e => e.1 == y)).map (·.2)).getD 0)
    if c.syndromes fix = syn ∧ (es.filter (fun e => !erased.contains e.1)).length ≤ (c.r - erased.length) / 2 then some es else none

end Sys2Proof.Machine
end

