-- ==== Sys2Proof/Machine/Routing.lean ====
section
/-! DEFINITION. Routing blocks: fork steps, group steps, expert entries and group bindings, and their load checks (09 R296-R299). -/

namespace Sys2Proof.Machine

/-- Fork step k of a routing block. -/
def forkStep (rt : List Byte) (k : Nat) : List Byte := slice rt (64 + 64 * k) 64
def nForks (rt : List Byte) : Nat := if rt.isEmpty then 0 else fieldLE rt 4 1
def nGroups (rt : List Byte) : Nat := if rt.isEmpty then 0 else fieldLE rt 5 1
/-- Group step k. -/
def groupStep (rt : List Byte) (k : Nat) : List Byte := slice rt (64 + 64 * nForks rt + 64 * k) 64
/-- Expert entry k. -/
def expertEntry (rt : List Byte) (k : Nat) : List Byte := slice rt (64 + 64 * nForks rt + 64 * nGroups rt + 16 * k) 16
/-- Group binding k. -/
def groupBind (rt : List Byte) (k : Nat) : List Byte :=
  slice rt (64 + 64 * nForks rt + 64 * nGroups rt + 16 * fieldLE rt 6 2 + 8 * k) 8

def fkHier (f : List Byte) : Bool := fieldLE f 1 1 == 0
def fkK (f : List Byte) : Nat := fieldLE f 2 1
def fkRenorm (f : List Byte) : Bool := fld (fieldLE f 3 1) 0 0 == 1
def fkCapf (f : List Byte) : Bool := fld (fieldLE f 3 1) 1 1 == 1
def fkJexa (f : List Byte) : Bool := fld (fieldLE f 3 1) 2 2 == 1
def fkE (f : List Byte) : Nat := fieldLE f 4 2
def fkCap (f : List Byte) : Nat := fieldLE f 6 2
def fkNmax (f : List Byte) : Nat := fieldLE f 8 2
def fkRel (f : List Byte) : Nat := fieldLE f 10 1
def fkXfmt (f : List Byte) : Nat := fieldLE f 11 1
def fkD (f : List Byte) : Nat := fieldLE f 12 2
def fkDout (f : List Byte) : Nat := fieldLE f 14 2
def fkList (f : List Byte) : Nat := fieldLE f 16 4
def fkSrc (f : List Byte) : Nat := fieldLE f 20 4
def fkIdx (f : List Byte) : Nat := fieldLE f 24 4
def fkRet (f : List Byte) : Nat := fieldLE f 28 4
def fkOut (f : List Byte) : Nat := fieldLE f 32 4
def fkRdy (f : List Byte) : Nat := fieldLE f 36 4
def fkDb (f : List Byte) : Nat := fieldLE f 40 4
def fkOfmt (f : List Byte) : Nat := fieldLE f 44 1
def fkOsat (f : List Byte) : Bool := fieldLE f 45 1 % 2 == 1
def fkWfmt (f : List Byte) : Nat := fieldLE f 46 1
def fkRfmt (f : List Byte) : Nat := fieldLE f 47 1
def fkExp (f : List Byte) : Nat := fieldLE f 48 2
def fkTrig (f : List Byte) : Nat := fieldLE f 50 1

def gsRel (g : List Byte) : Nat := fieldLE g 1 1
def gsForkFed (g : List Byte) : Bool := fieldLE g 2 1 == 0
def gsNsrc (g : List Byte) : Nat := fieldLE g 3 1
def gsEntries (g : List Byte) : Nat := fieldLE g 4 2
def gsTrigs (g : List Byte) : Nat := fieldLE g 6 1
def gsTable (g : List Byte) : Nat := fieldLE g 8 4
def gsDb (g : List Byte) : Nat := fieldLE g 12 4
def gsRdy (g : List Byte) : Nat := fieldLE g 16 4
def gsRows (g : List Byte) : Nat := fieldLE g 20 4
def gsIn (g : List Byte) : Nat := fieldLE g 36 4
def gsInStride (g : List Byte) : Nat := fieldLE g 40 4
def gsOut (g : List Byte) : Nat := fieldLE g 44 4
def gsOutStride (g : List Byte) : Nat := fieldLE g 48 4
def gsOrg (g : List Byte) : Nat := fieldLE g 52 4

/-- Capacity of a slot with n tokens (09 R303). -/
def capacityOf (f : List Byte) (n : Nat) : Nat :=
  if fkCapf f then cdiv (fkCap f * n * fkK f) (256 * fkE f) else fkCap f
/-- The target of an expert: peer, relative branch, group step, entry. -/
def expTarget (x : List Byte) : Nat × Nat × Nat × Nat := (fieldLE x 0 1, fieldLE x 1 1, fieldLE x 2 1, fieldLE x 4 2)

/-- The checks of one fork step (09 R297, R299); a peer's group steps are those of the same configuration (R309). -/
def forkOk (bs : List Byte) (c : Nat) (rt : List Byte) (k : Nat) : Bool :=
  let f := forkStep rt k
  let exps := (List.range (fkE f)).map (fun e => expertEntry rt (fkExp f + e))
  let in16 := fun n => decide (1 ≤ n ∧ n ≤ 65535)
  let width := fun n => decide (n % 32 = 0 ∧ 32 ≤ n ∧ n ≤ 32768)
  decide (fieldLE f 0 1 = k) && decide (fieldLE f 1 1 < 2) && decide (1 ≤ fkK f ∧ fkK f ≤ 8) && decide (fieldLE f 3 1 < 8) &&
  decide (1 ≤ fkE f ∧ fkE f ≤ 1024) && in16 (fkCap f) && in16 (fkNmax f) && decide (fkRel f < cfgBranches bs c) &&
  decide (fkXfmt f < 32) && !isReservedCode (fkXfmt f) && width (fkD f) && width (fkDout f) &&
  [fkList f, fkSrc f, fkIdx f, fkRet f, fkOut f].all (fun o => decide (o % 64 = 0)) && decide (fkRdy f % 4 = 0) && decide (fkDb f % 4 = 0) &&
  decide (fieldLE f 45 1 < 2) && (fkWfmt f == 0 || fkWfmt f == 3) && resv bs f 51 13 && decide (fkOfmt f < 32) &&
  (if fkJexa f then fkWfmt f == 3 && fkRfmt f == 30 && okExaOut (fkOfmt f)
   else (fkRfmt f == 0 || fkRfmt f == 1 || fkRfmt f == 2) && okCanonOut (fkOfmt f)) &&
  decide (fkNmax f * cfgSlots bs c ≤ 65535) && decide (fkExp f + fkE f ≤ fieldLE rt 6 2) &&
  exps.all (fun x =>
    let t := expTarget x
    let g := groupStep rt t.2.2.1
    (decide (nGroups rt ≤ t.2.2.1) || decide (fkTrig f < gsTrigs g)) &&
    (decide (t.1 ≠ 0) ||
    (decide (t.2.2.1 < nGroups rt) && decide (gsRel g = t.2.1) && gsForkFed g && decide (t.2.2.2 < gsEntries g) &&
     decide (capacityOf f (fkNmax f) * cfgSlots bs c * gsNsrc g ≤ gsRows g)))) &&
  decide ((exps.map expTarget).eraseDups.length = exps.length)

/-- The checks of one group step (09 R298, R299). -/
def groupOk (bs : List Byte) (c : Nat) (rt : List Byte) (k : Nat) : Bool :=
  let g := groupStep rt k
  let x := brSect bs c (gsRel g)
  let range := fun (o : Nat) (p : List Byte → Bool) =>
    decide (fieldLE g o 1 + fieldLE g (o + 1) 1 ≤ brNtmpl x) &&
      (List.range (fieldLE g (o + 1) 1)).all (fun i => p (brTmpl x (fieldLE g o 1 + i)))
  decide (fieldLE g 0 1 = k) && decide (gsRel g < cfgBranches bs c) && decide (fieldLE g 2 1 < 2) && decide (1 ≤ gsNsrc g ∧ gsNsrc g ≤ 16) &&
  decide (1 ≤ gsEntries g ∧ gsEntries g ≤ 1024) && decide (1 ≤ gsTrigs g) && resv bs g 7 1 && decide (gsTable g % 64 = 0) &&
  decide (gsDb g % 4 = 0) && decide (gsRdy g % 4 = 0) && decide (1 ≤ gsRows g ∧ gsRows g ≤ 1048576) && resv bs g 34 2 && resv bs g 56 8 &&
  decide (fieldLE g 30 2 + fieldLE g 32 2 ≤ fieldLE rt 8 2) &&
  range 24 (fun tm => fld (fieldLE tm 10 1) 3 0 == 2) && range 26 (fun tm => fieldLE tm 2 1 == 3) && range 28 (fun tm => fieldLE tm 2 1 == 3)

/-- The checks of a configuration's routing block, and that nothing else stands in its place (09 R296, R299). -/
def routingOk (bs : List Byte) (c : Nat) : Bool :=
  let r := (cfgSect bs c).drop (up64 (cfgEdgeEnd bs c))
  let rt := routing bs c
  let rest := (cfgSect bs c).drop (up64 (up64 (cfgEdgeEnd bs c) + routingSize rt))
  (r.isEmpty || fieldLE r 0 4 == 0x42524B57 || fieldLE r 0 4 == 0x42534B57) && (rest.isEmpty || fieldLE rest 0 4 == 0x42534B57) &&
  (rt.isEmpty ||
    (!imgLyorn bs && decide (nForks rt ≤ 64) && decide (nGroups rt ≤ 64) && decide (fieldLE rt 8 2 ≤ 4096) && decide (routingSize rt ≤ rt.length) &&
     resv bs rt 11 1 && resv bs rt 16 48 && (fieldLE rt 12 4 == 0xFFFFFFFF || decide (fieldLE rt 10 1 < cfgBranches bs c)) &&
     (List.range (nForks rt)).all (forkOk bs c rt) && (List.range (nGroups rt)).all (groupOk bs c rt) &&
     (List.range (fieldLE rt 6 2)).all (fun k => let x := expertEntry rt k
       decide (fieldLE x 0 1 < 16) && decide (fieldLE x 2 1 < 64) && resv bs x 3 1 && resv bs x 6 2) &&
     (List.range (fieldLE rt 8 2)).all (fun k => let b := groupBind rt k
       decide (fieldLE b 0 1 < 64) && decide (fieldLE b 1 1 < 32) && decide (fieldLE b 2 1 < 8) && resv bs b 3 5)))

/-- Group steps of a configuration on a relative branch. -/
def groupsOn (rt : List Byte) (rel : Nat) : List Nat := (List.range (nGroups rt)).filter (fun k => gsRel (groupStep rt k) == rel)

end Sys2Proof.Machine
end

