-- ==== Sys2Proof/Machine/Ring.lean ====
section
/-! DEFINITION. The rings of the tile movers (07 R248, R250-R252, R255). -/

namespace Sys2Proof.Machine

/-! ### Descriptor fields (07 R248) -/

def RingDesc.kind (d : RingDesc) : Nat := fld (fieldLE d.bytes 0 1) 3 0
def RingDesc.chain (d : RingDesc) : Bool := (fieldLE d.bytes 1 1).testBit 0
def RingDesc.tok (d : RingDesc) : Bool := (fieldLE d.bytes 1 1).testBit 1
def RingDesc.srcKind (d : RingDesc) : Nat := fld (fieldLE d.bytes 2 1) 3 0
def RingDesc.dstKind (d : RingDesc) : Nat := fld (fieldLE d.bytes 2 1) 7 4
def RingDesc.srcLay (d : RingDesc) : Nat := fld (fieldLE d.bytes 3 1) 1 0
def RingDesc.dstLay (d : RingDesc) : Nat := fld (fieldLE d.bytes 3 1) 3 2
def RingDesc.fmt (d : RingDesc) : Nat := fld (fieldLE d.bytes 4 1) 4 0
def RingDesc.profile (d : RingDesc) : Nat := fld (fieldLE d.bytes 5 1) 1 0
def RingDesc.mode (d : RingDesc) : Nat := fld (fieldLE d.bytes 5 1) 3 2
def RingDesc.count (d : RingDesc) : Nat := fieldLE d.bytes 6 2
def RingDesc.srcAddr (d : RingDesc) : Nat := fieldLE d.bytes 8 8
def RingDesc.dstAddr (d : RingDesc) : Nat := fieldLE d.bytes 16 8
def RingDesc.pitch (d : RingDesc) : Nat := fieldLE d.bytes 24 4
def RingDesc.token (d : RingDesc) : Nat := fieldLE d.bytes 28 2
def RingDesc.seq0 (d : RingDesc) : Nat := fieldLE d.bytes 30 2
/-- The move has the raw layout. -/
def RingDesc.raw (d : RingDesc) : Bool := d.srcLay == 2 || d.dstLay == 2
/-- Bytes of a tile of the descriptor's format (07 R242). -/
def RingDesc.tileBytes (d : RingDesc) : Nat := 64 + 32 * rowBytes d.fmt
/-- Bytes of a raw move: COUNT is in 16 KiB blocks where an end is a volume (07 R248). -/
def RingDesc.rawBytes (d : RingDesc) : Nat := if d.srcKind = 3 ∨ d.dstKind = 3 then d.count * 16384 else d.count
/-- Waiting to start. -/
def RingDesc.ready (d : RingDesc) : Bool := d.fetched && !d.started && !d.abandoned
/-- In progress. -/
def RingDesc.running (d : RingDesc) : Bool := d.started && !d.done && !d.abandoned
/-- Neither completed nor abandoned. -/
def RingDesc.open' (d : RingDesc) : Bool := !d.done && !d.abandoned
/-- A descriptor as placed. -/
def RingDesc.placed (bytes : List Byte) (req : Option Nat) (base addr limit : Nat) : RingDesc :=
  ⟨0, bytes, req, base, addr, limit, false, false, false, false, false, false, false, none, [], 0, false, 0, 0, [], 0, 0⟩

def State.modDesc (s : State) (b m i : Nat) (f : RingDesc → RingDesc) : State :=
  s.modMover b m (fun x => { x with ring := x.ring.modify i f })
/-- The i-th descriptor in a mover's ring. -/
def State.desc (s : State) (b m i : Nat) : Option RingDesc := ((s.branch b).mover m).ring[i]?
/-- Every descriptor placed in a branch's rings has completed or was abandoned. -/
def State.ringsIdle (s : State) (b : Nat) : Bool := (s.branch b).movers.all (fun m => m.2.ring.all (fun d => !d.open'))
/-- The ring entry number of the i-th descriptor of a pass. -/
def Mover.entryOf (x : Mover) (i : Nat) : Nat := (x.tail + 256 - x.ring.length % 256 + i) % 256

/-- A count that saturates at 64 ones (07 R265). -/
def sat64 (n : Nat) : Nat := Nat.min n (2 ^ 64 - 1)

/-! ### Placing, tokens and abandonment -/

/-- Place descriptors in a mover's ring (07 R250). -/
def Mover.place (m : Mover) (ds : List RingDesc) : Mover := { m with ring := m.ring ++ ds, tail := (m.tail + ds.length) % 256 }

/-- Completion tokens leave in ring order: the descriptors before the first that has neither completed nor been abandoned (07 R252,
R255). -/
def Mover.emitTokens (m : Nat) (x : Mover) : Mover × Nat :=
  let n := (findIdx RingDesc.open' x.ring 0).map (·.1) |>.getD x.ring.length
  let send := (x.ring.take n).filter (fun d => d.done && d.tok && !d.tokSent)
  ({ x with
      ring := (x.ring.take n).map (fun d => if d.done then { d with tokSent := true } else d) ++ x.ring.drop n,
      outTokens := x.outTokens ++ send.map (fun d => (d.upto, BitVec.ofNat 32 ((0xF000 + m) * 65536 + d.token))) }, send.length)
/-- Emit a mover's tokens; a token is a movement for the sentinel (04 R148). -/
def State.ringTokens (s : State) (b m : Nat) : State :=
  let r := ((s.branch b).mover m).emitTokens m
  let s1 := s.modMover b m (fun _ => r.1)
  if r.2 = 0 then s1 else s1.moved b

/-- A descriptor is abandoned (07 R255): one that has not started or waits for a token at once; a move that has issued the reads of a tile or
piece stops when that tile or piece is done. A move from the slot plane stops at once (log entry 31). -/
def RingDesc.abandon (d : RingDesc) : RingDesc :=
  if d.running && d.kind == 1 && d.asked && !d.moved then { d with stopping := true } else { d with abandoned := true, got := [], buf := [] }
/-- Abandon the open descriptors that satisfy a condition; each counts. -/
def Mover.abandonIf (p : RingDesc → Bool) (x : Mover) : Mover :=
  let hit := fun (d : RingDesc) => d.open' && !d.stopping && p d
  { x with ring := mapIf hit RingDesc.abandon x.ring, abandon := sat64 (x.abandon + (x.ring.filter hit).length) }
/-- Abandon descriptors of some branches; tokens held behind them leave. -/
def State.abandonIn (s : State) (bs : List Nat) (p : RingDesc → Bool) : State :=
  s.each bs (fun s b => s.each (List.range 4) (fun s m => (s.modMover b m (Mover.abandonIf p)).ringTokens b m))

end Sys2Proof.Machine
end

