-- ==== Sys2Proof/Machine/Sequences.lean ====
section
/-! DEFINITION. Sequences: the generation opcodes, how their requests end, cancellation (11 R364-R388). -/

namespace Sys2Proof.Machine

/-! ### Records and pages -/

def State.seq (s : State) (sd id : Nat) : Option Seq := s.sv.seqs.find? (fun q => q.stand == sd && q.id == id)
def State.modSeq (s : State) (sd id : Nat) (f : Seq → Seq) : State :=
  s.modSv (fun v => { v with seqs := mapIf (fun q => q.stand == sd && q.id == id) f v.seqs })
/-- The accepted, uncompleted steps of a sequence, in acceptance order. -/
def State.seqSteps (s : State) (sd id : Nat) : List Request :=
  s.sv.requests.filter (fun r => r.live && r.stand == sd && r.seqId == id && decide (2 ≤ r.opcode ∧ r.opcode ≤ 4))
/-- DRAFTS, KEEP and TOPN of AUX (11 R374). -/
def Request.drafts (r : Request) : Nat := fld r.aux 11 9
def Request.keep (r : Request) : Nat := fld r.aux 14 12
def Request.topn (r : Request) : Nat := fld r.aux 8 0
/-- LENGTH and SPEC as they will stand once every accepted step has committed (11 R375). -/
def State.projected (s : State) (q : Seq) : Nat × Nat :=
  match (s.seqSteps q.stand q.id).getLast? with
  | some r => (r.start + r.shape 0, r.drafts)
  | none => (q.length, q.spec)
/-- Pages per layer that cover n positions. -/
def pagesFor (n : Nat) : Nat := cdiv n 64
/-- A page's number in its record: layer and page. -/
def pageIndex (layer j : Nat) : Nat := layer * 2 ^ 20 + j
/-- The page of a record, if it is held. -/
def State.pageOf (s : State) (sd id layer j : Nat) : Option PoolObj :=
  s.sv.objs.find? (fun o => o.kind == 2 && o.stand == sd && o.manifest == id && o.index == pageIndex layer j)

/-- Pages of the sequence that an allocation in progress pins (06 R232, 11 R371). -/
def pageOfSeq (q : Seq) (o : PoolObj) : Bool := o.kind == 2 && o.stand == q.stand && o.manifest == q.id
/-- Allocate pages that a record does not hold (11 R371); false where the pool cannot. -/
def State.takePages (s : State) (q : Seq) : List (Nat × Nat) → State × Bool
  | [] => (s, true)
  | lj :: l =>
    if (s.pageOf q.stand q.id lj.1 lj.2).isSome then s.takePages q l
    else match s.newObj q.stand 2 q.id (pageIndex lj.1 lj.2) (64 * geoKvBytes q.geometry) [] (pageOfSeq q) with
      | (s1, none) => (s1, false)
      | (s1, some id) =>
        ((s1.modObj id (fun p => { p with state := .verified })).modSeq q.stand q.id (fun y => { y with pages := y.pages ++ [id] })).takePages q l
/-- The pages of every layer below page n (11 R371). -/
def State.allocPages (s : State) (q : Seq) (n : Nat) : State × Bool :=
  s.takePages q ((List.range (geoLayers q.geometry)).flatMap (fun l => (List.range n).map (fun j => (l, j))))

/-- Free a record, its pages and their spilled copies (11 R384). -/
def State.freeSeq (s : State) (sd id : Nat) : State :=
  s.modSv (fun v => { v with
    objs := v.objs.filter (fun o => !(o.kind == 2 && o.stand == sd && o.manifest == id)),
    seqs := v.seqs.filter (fun q => !(q.stand == sd && q.id == id)) })

/-- Pages that hold no valid position are used least recently of all (11 R372). -/
def State.markSpare (s : State) (sd id len : Nat) : State :=
  s.modSv (fun v => { v with objs := v.objs.map (fun o =>
    if o.kind == 2 && o.stand == sd && o.manifest == id && decide (len ≤ o.index % 2 ^ 20 * 64) then { o with lastUse := 0 } else o) })

/-- Frames for the spilled pages of a list; false where they do not suffice. -/
def State.reframes (s : State) : List PoolObj → State × Bool
  | [] => (s, true)
  | o :: l => match s.reframe o with
    | (s1, false) => (s1, false)
    | (s1, true) => s1.reframes l
/-- Restore the spilled pages of a step's sequence through the fetch queue; the term of the last one, none where their frames do not suffice
(11 R372). -/
def State.restorePages (s : State) (sd id : Nat) : State × Option Nat :=
  let sp := s.sv.objs.filter (fun o => o.kind == 2 && o.stand == sd && o.manifest == id && o.spilled)
  match s.reframes sp with
  | (s1, false) => (s1, none)
  | (s1, true) =>
    let s2 := s1.each sp (fun s o => if s.sv.fetches.any (fun f => f.obj == o.id) then s else s.queueFetch o.id o.size)
    (s2, some ((((s2.sv.fetches.filter (fun f => sp.any (fun o => o.id == f.obj))).map (·.fin)).foldl Nat.max s2.now) - s2.now))

/-! ### How a request ends -/

/-- A request leaves its pass and its plan; an undispatched pass without members is removed (11 R386). -/
def State.leavePass (s : State) (id : Nat) : State :=
  s.modSv (fun v => { v with
    passes := (v.passes.map (fun p => { p with members := p.members.filter (fun m => m != id) })).filter
      (fun p => p.dispatched || !p.members.isEmpty) })

/-- The charged share of a request: its pass's share while it runs, else 0 (14 R488). -/
def State.shareOf (s : State) (r : Request) : Nat :=
  match s.sv.passes.find? (fun p => p.members.contains r.id) with
  | some p => if p.dispatched then passShare p else 0
  | none => 0

/-- An OLD graft version that no live request uses any more is retired (08 R290). -/
def State.retireOld (s : State) : State :=
  let dead := s.sv.grafts.filter (fun g => g.state == .old &&
    !s.sv.requests.any (fun r => r.live && r.stand == g.stand && r.graft == some (g.id, g.version)))
  s.modSv (fun v => { v with
    grafts := v.grafts.filter (fun g => !dead.contains g),
    objs := v.objs.filter (fun o => !(o.kind == 1 && dead.any (fun g => g.stand == o.stand && g.id == o.manifest && g.version == o.index))) })

/-- What the end of one request does beside its record (11 R376, R380-R383): the commit of a step, the release of a KV_SHIP's
destination, the end of a source's shipping; a SEQ_RELEASE that was cancelled leaves its record. -/
def State.settleSeq (s : State) (r : Request) (status : Nat) : State :=
  if decide (2 ≤ r.opcode ∧ r.opcode ≤ 4) && status == 0 then
    (s.modSeq r.stand r.seqId (fun q => { q with length := r.start + r.shape 0, spec := r.drafts })).markSpare r.stand r.seqId (r.start + r.shape 0)
  else if r.opcode = 0x10 then
    let src := fieldLE r.desc 32 8
    let s1 := if src / 2 ^ 48 = s.ownPid then s.modSeq (fld src 45 40) (src % 2 ^ 32) (fun q => { q with state := if q.state = .shipping then .ready else q.state }) else s
    if status = 0 then
      let s2 := s1.modSeq r.stand r.seqId (fun q => { q with state := .ready, length := r.inLen, spec := 0 })
      if r.aux % 2 = 1 ∧ src / 2 ^ 48 = s.ownPid then s2.freeSeq (fld src 45 40) (src % 2 ^ 32) else s2
    else s1.freeSeq r.stand r.seqId
  else if r.opcode = 0x21 then s.modSeq r.stand r.seqId (fun q => { q with releasing := none })
  else s

/-- The accepted requests that a step's failure cancels: later steps of its sequence and KV_SHIPs that read it (11 R376). -/
def State.followers (s : State) (r : Request) : List Nat :=
  if decide (2 ≤ r.opcode ∧ r.opcode ≤ 4) || r.opcode == 0x10 then
    (s.sv.requests.filter (fun q => q.live && decide (r.id < q.id) &&
      ((q.stand == r.stand && q.seqId == r.seqId && decide (2 ≤ q.opcode ∧ q.opcode ≤ 4)) ||
       (q.opcode == 0x10 && fieldLE q.desc 32 8 == s.ownPid * 2 ^ 48 + r.stand * 2 ^ 40 + r.seqId)))).map (·.id)
  else []

/-- A request's ACCEPTED byte: the KEEP a VERIFY_STEP applied (11 R376). -/
def acceptedOf (r : Request) : Nat := if r.opcode = 4 then r.keep else 0

/-- Objects whose last pin has been released since s0 are used now (06 R232); a spare page stays at time 0 (11 R372). -/
def State.unpinned (s0 s : State) : State := s.useObjs (fun o => s0.objPinned o && !s.objPinned o && !s.isSpare o)

/-- End one request: its record, then its place, its sequence and its graft. -/
def State.endOne (s : State) (r0 : Request) (st : Nat) (result : List Byte) (flr : Bool) : State :=
  let r := s.withPoison r0
  let status := s.onTime r st
  s.unpinned ((((s.finish r st (acceptedOf r) (s.shareOf r) result flr).leavePass r.id).settleSeq r status).retireOld)

/-- End a request, and with any other status than DONE every accepted request that depends on it with CANCELLED, each as soon
as its predecessor's record is written (11 R376). -/
def State.endReq (s : State) (r : Request) (status : Nat) (result : List Byte) (flr : Bool) : State :=
  let s1 := s.endOne r status result flr
  if s.onTime r status = 0 then s1
  else s1.each (s.followers r) (fun s id => match s.req id with
    | some q => s.endOne q 0x20 [] flr
    | none => s)

/-- SEQ_RELEASE requests whose sequence has no live step and no ship free the record and complete (11 R382, R384). -/
def State.runReleases (s : State) : State :=
  s.each (s.sv.requests.filter (fun r => r.phase == .waiting && r.opcode == 0x21)) (fun s r =>
    let busy := !(s.seqSteps r.stand r.seqId).isEmpty || s.sv.requests.any (fun q => q.live && q.opcode == 0x10 && q.stand == r.stand && q.seqId == r.seqId) ||
      (match s.seq r.stand r.seqId with | some q => q.state == .shipping | none => false)
    if busy then s else (s.freeSeq r.stand r.seqId).endReq r 0 [] false)

/-! ### Admin responses (13 R454, R455) -/

/-- A response header and body (13 R455). -/
def respBytes (a : Admin) (status time : Nat) (body : List Byte) : List Byte :=
  leBytes 2 (a.type + 0x8000) ++ leBytes 2 (32 + body.length) ++ leBytes 4 a.tag ++ leBytes 1 status ++ leBytes 7 0 ++ leBytes 8 time ++
    leBytes 8 0 ++ body

/-- End an admin message: its response by its route, and stand vector 14 or PF vector 0 (13 R454). -/
def State.adminEnd (s : State) (id status : Nat) (body : List Byte) : State :=
  match s.sv.admins.find? (fun a => a.id == id) with
  | none => s
  | some a =>
    let s1 := s.modSv (fun v => { v with admins := v.admins.filter (fun x => x.id != id) })
    let bs := respBytes a status s.now body
    let told := fun (s : State) => match a.src with
      | .stand sd => s.setVector sd 14
      | _ => s
    match a.route with
    | .ring k f n =>
      let base := s.reg (Reg.hptAqBase k f) / 4096 * 4096 + 1024 * n
      let s2 := (s1.emit (.hostWrite s.now k (base + 2) (bs.drop 2))).emit (.hostWrite s.now k base (bs.take 2))
      if f = 0 then s2.emit (.msix s.now k 0 0) else s2.setVector (f - 1) 14
    | .smbus => { s1 with mg := { s1.mg with resp := bs, respPos := 0, state := if s1.mg.state = 3 then 3 else 2 } }
    | .part pid tag => (s1.sendTx { s1.ownTx 0x10 pid 0 0 0x80 0 0 bs 7 with tag := tag }).1
    | .host k tag => told (s1.queueTx (16 + k) { s1.ownTx 0x10 0 0 4 0 0 0 bs 7 with tag := tag })
    | .row => told (s1.emit (.admin s.now a.src bs))

/-! ### Releasing an evicted image (05 R190) -/

/-- A context number of a branch still holds a configuration. -/
def State.ctxValid (s : State) (b n : Nat) : Bool := (tget BrcCtx.empty (s.branch b).ctxs n).valid

/-- Contexts, seed-bank slots, instances, bindings and CFG_IDs of a load are released, with its image's near copy. Quarantined copies of its
manifest go (08 R275), and copies that have not arrived once no load is left that fills them. -/
def State.releaseLoad (s : State) (l : Load) : State :=
  let bs := ((s.sv.insts.filter (fun i => i.load == l.id)).flatMap (·.branches)).eraseDups
  let mine := (s.sv.insts.filter (fun i => i.load == l.id)).map (·.id)
  let man := manId l.manifest
  let last := fun (sd : Option Nat) => s.sv.loads.all (fun x => x.id == l.id || x.manifest.isEmpty || manId x.manifest != man || (match sd with | some k => x.stand != k | none => false))
  let gone := fun (q : CopyState) (here : Bool) => !l.manifest.isEmpty && (q == .quarantined || (q == .unverified && here))
  let s1 := s.each bs (fun s b => s.modBranch b (fun x =>
    let y := { x with ctxs := x.ctxs.filter (fun c => c.2.load != l.id), seeds := x.seeds.filter (fun c => c.2.load != l.id) }
    if s.sv.insts.any (fun i => i.load != l.id && i.branches.contains b) then y else { y with hasInst := false, instHome := 0, instRel := 0, crossings := [] }))
  let s2 := s1.each bs (fun s b => s.modLeavesOf b (fun lf => { lf with
    ctxs := lf.ctxs.map (fun c => if s.ctxValid b c.1 then c else (c.1, { c.2 with valid := false })) }))
  s2.modSv (fun v => { v with
    loads := v.loads.filter (fun x => x.id != l.id), insts := v.insts.filter (fun i => i.load != l.id),
    cfgLoads := v.cfgLoads.filter (fun c => c.load != l.id), inlets := v.inlets.filter (fun n => !mine.contains n.inst),
    ringBinds := v.ringBinds.filter (fun b => b.load != l.id)
    jobs := v.jobs.filter (fun j => !(j.stand == l.stand && j.manifest == man && last (some l.stand)))
    warm := v.warm.filter (fun w => !(w.manifest == man && gone w.state (last none)))
    objs := v.objs.filter (fun o => !(o.kind == 3 && o.manifest == l.id) &&
      !(o.kind == 0 && o.stand == l.stand && o.manifest == man && gone o.state (last (some l.stand)))) })

/-- Evictions whose last accepted request has completed are released and their messages end with DONE (05 R190). -/
def State.runEvictions (s : State) : State :=
  s.each (s.sv.loads.filter (fun l => l.phase == .evicting)) (fun s l =>
    if s.sv.requests.any (fun r => r.live && r.load == l.id && decide (r.opcode < 0x20)) then s
    else match l.evictMsg with
      | some m => (s.releaseLoad l).adminEnd m 0 []
      | none => s.releaseLoad l)

/-- After requests have ended: waiting releases and evictions run. -/
def State.afterEnds (s : State) : State := s.runReleases.runEvictions

/-- The response body of MODEL_LOAD from byte 32 (08 R277, 13 R458). -/
def State.loadBody (s : State) (l : Load) (status : Nat) : List Byte :=
  leBytes 8 l.admitTime ++ leBytes 8 l.residentTime ++ leBytes 8 s.now ++
  (if status = 0 then leBytes 2 l.cfgBase ++ leBytes 2 l.count else leBytes 4 0) ++ leBytes 4 0 ++
  ((l.inletNums ++ List.replicate 16 0xFF).take 16).map (BitVec.ofNat 8)
/-- End a load: its response; with any other status than DONE its CFG_IDs are free again and nothing of it stays bound. Where requests
were accepted on it meanwhile they run to completion first (05 R187, R190). -/
def State.endLoad (s : State) (l : Load) (status : Nat) : State :=
  let s1 := s.adminEnd l.msg status (s.loadBody l status)
  let s2 := if status = 0 then s1.modLoad l.id (fun x => { x with phase := .ready })
    else if s1.sv.requests.any (fun r => r.live && r.load == l.id) then
      s1.modLoad l.id (fun x => { x with phase := .evicting, bound := false, reserved := false })
    else s1.releaseLoad l
  s.unpinned s2

/-! ### Steps (11 R365, R374-R378) -/

/-- Bytes of one distribution block (11 R378). -/
def blockBytes (g : List Byte) (topn : Nat) : Nat :=
  if topn = 0 then up64 (16 + 2 * geoVocab g) else up64 (16 + 8 * Nat.min topn (geoVocab g))
/-- Output positions of a step (11 R377). -/
def outPositions (r : Request) : Nat := if r.opcode = 4 then 1 + r.drafts else 1

/-- The field rules of a step's opcode (11 R374). -/
def stepFieldsOk (r : Request) (g : List Byte) : Bool :=
  decide (r.flags % 4 ≠ 0) && decide (r.seqId ≠ 0) && decide (r.topn ≤ geoTopN g) &&
  (if r.opcode = 2 then decide (1 ≤ r.shape 0) && r.drafts == 0
   else if r.opcode = 3 then r.shape 0 == 1 && r.drafts == 0 && !r.aux.testBit 15
   else decide (1 ≤ r.drafts ∧ r.drafts ≤ geoBuds g) && r.shape 0 == 1 + r.drafts && !r.aux.testBit 15) &&
  r.shape 1 == 0

/-- The record a step works on: an existing one, or a new one for a PREFILL (11 R365); an error is the refusal. -/
def State.stepSeq (s : State) (r : Request) (g : List Byte) : Except Nat (State × Seq) :=
  match s.seq r.stand r.seqId with
  | some q => if q.geometry = g ∧ q.state ≠ .lost ∧ q.releasing = none then .ok (s, q) else .error 0x14
  | none =>
    if r.opcode ≠ 2 then .error 0x14
    else if (s.res r.stand).seqQuota ≤ (s.sv.seqs.filter (fun q => q.stand == r.stand)).length ∨ 65536 ≤ s.sv.seqs.length then .error 0x13
    else
      let q : Seq := ⟨r.stand, r.seqId, g, 0, 0, [], .ready, false, none⟩
      .ok (s.modSv (fun v => { v with seqs := v.seqs ++ [q] }), q)

/-- Undo a record that a refused PREFILL created. -/
def State.undoSeq (s0 s1 : State) (r : Request) : State :=
  if (s0.seq r.stand r.seqId).isSome then s1 else s1.freeSeq r.stand r.seqId

/-- The pages of a step: those its record lacks are allocated, the spilled ones are to be restored; their term, none where the pool cannot
(11 R371, R372). -/
def State.stepPages (s : State) (q : Seq) (n : Nat) : State × Option Nat :=
  match s.allocPages q n with
  | (s1, false) => (s1, none)
  | (s1, true) => s1.restorePages q.stand q.id
/-- PREFILL, DECODE_STEP or VERIFY_STEP: the decision (11 R365, R371, R374, R375). -/
def State.decideStep (s : State) (r : Request) : State :=
  match s.entryCheck r with
  | none => s.refuse r 0x14
  | some (l, e, gr) =>
    let g := entGeometry l.image e
    if stepFieldsOk r g = false then s.refuse r 0x14
    else match s.stepSeq r g with
      | .error x => s.refuse r x
      | .ok (s1, q) =>
        let (len, spec) := s1.projected q
        if spec < r.keep then (State.undoSeq s s1 r).refuse r 0x14
        else
          let start := len - spec + r.keep
          let new := r.shape 0
          let shapes := fun d => if d = 1 then pagesFor (start + new) else r.shape d
          let sh := entShape l.image e
          match s1.badBuffers r with
          | some a => ((State.undoSeq s s1 r).violation r.stand 3 3 0 0 a r.tag).failUndecided r 0x40 a
          | none =>
            if r.inLen ≠ 4 * new ∨ geoMaxPos g < start + new ∨ r.outMax < outPositions r * (1 + geoBuds g) * blockBytes g r.topn ∨
               (List.range 4).all (fun d => decide (shapes d ≤ shapeMax sh d) && (shapeUsed sh d || shapes d == 0)) = false then
              (State.undoSeq s s1 r).refuse r 0x11
            else match bucketOf sh shapes with
              | none => (State.undoSeq s s1 r).refuse r 0x11
              | some k =>
                match s1.stepPages q (pagesFor (start + new)) with
                | (s2, none) => (s.giveBack (State.undoSeq s s2 r)).refuse r 0x13
                | (s2, some term) =>
                  let r' := { r with load := l.id, entry := e, bucket := k, graft := gr, start := start,
                                     inAddr := fieldLE r.desc 32 8, outAddr := fieldLE r.desc 40 8 }
                  let s4 := (s2.modReq r.id (fun _ => r')).decideRest r' l term
                  if s4.sv.requests.any (fun x => x.id == r.id && x.live)
                  then (if r.opcode = 2 ∧ r.aux.testBit 15 then s4.modSeq r.stand r.seqId (fun x => { x with exportable := true }) else s4)
                  else s.giveBack (State.undoSeq s s4 r)

/-- The decision of a step opcode where the stand's first undecided descriptor has it. -/
def State.stepDecision (s : State) (sd op : Nat) : State :=
  match s.firstUndecided sd with
  | none => s
  | some r => if r.opcode != op || !s.serving || s.stdState sd == 3 then s else (s.decideStep r).decided r

/-- PREFILL (11 R374). -/
def execPrefill (t sd : Nat) (s : State) : Host.Outcome State Fault Refusal := .next ((s.at t).stepDecision sd 2)
/-- DECODE_STEP (11 R374). -/
def execDecodeStep (t sd : Nat) (s : State) : Host.Outcome State Fault Refusal := .next ((s.at t).stepDecision sd 3)
/-- VERIFY_STEP (11 R374). -/
def execVerifyStep (t sd : Nat) (s : State) : Host.Outcome State Fault Refusal := .next ((s.at t).stepDecision sd 4)

/-! ### KV_SHIP (11 R380-R383) -/

/-- The bound of a ship in ns: 10 us plus its bytes at the stand's Urren share of 400 GB/s (11 R381). -/
def State.shipBound (s : State) (sd : Nat) (g : List Byte) (n : Nat) : Nat :=
  let bytes := pagesFor n * geoLayers g * 64 * geoKvBytes g
  let w := Nat.min 256 (s.rf (Reg.stdCfg sd) 40 32)
  10000 + (if w = 0 then 0 else cdiv (bytes * 256) (w * 400))

/-- A source record that may be shipped (11 R382). -/
def shipSourceOk (q : Seq) (n : Nat) (g : List Byte) : Bool :=
  q.state != .lost && q.exportable && q.spec == 0 && decide (n ≤ q.length) && q.geometry == g

/-- Plan a ship as a pass of its own on the stand's ship server (11 R381); none = no place. -/
def State.planShip (s : State) (r : Request) (bound : Nat) : Option State :=
  let prev := ((s.shipPlan r.stand).map (·.fin)).foldl Nat.max s.now
  let st := Nat.max prev r.ready
  if r.cls = 1 ∧ r.deadline < st + bound then none
  else
    let (id, s1) := s.fresh
    some (s1.modSv (fun v => { v with passes := v.passes ++
      [⟨id, r.stand, none, r.cls, 0, [r.id], st, bound, st + bound, false, false, 0, 0, false, 0, 0⟩] }))

/-- KV_SHIP: the decision (11 R374, R380). -/
def State.decideShip (s : State) (r : Request) : State :=
  let src := fieldLE r.desc 32 8
  let fieldsOk := s.flagsOk r && decide (r.flags % 4 ≠ 0) && decide (r.seqId ≠ 0) && decide (r.aux < 2) && zeros r.desc 16 4 && zeros r.desc 24 8 &&
    zeros r.desc 40 8 && zeros r.desc 52 4 && fld src 47 46 == 0 && fld src 39 32 == 0
  match s.binding r.stand r.cfgId with
  | none => s.refuse r 0x14
  | some (l, e) =>
    let g := entGeometry l.image e
    let seg := (List.range 48).any (fun n => s.rbit (Reg.stdSegA r.stand n) 63 && s.rbit (Reg.stdSegA r.stand n) 62 &&
      s.rf (Reg.stdSegA r.stand n) 15 0 == src / 2 ^ 48)
    let localLost := src / 2 ^ 48 == s.ownPid && (match s.seq (fld src 45 40) (src % 2 ^ 32) with | some q => q.state == .lost | none => false)
    if fieldsOk = false ∨ (s.seq r.stand r.seqId).isSome ∨ geoLayers g = 0 ∨ seg = false ∨ localLost = true ∨ r.inLen = 0 ∨
       (entClasses l.image e).testBit (r.flags % 4) = false then s.refuse r 0x14
    else if geoMaxPos g < r.inLen then s.refuse r 0x11
    else if s.rbit Reg.rootStatus 2 = false ∨ 1024 ≤ s.inflight r.stand then s.refuse r 0x13
    else if (s.res r.stand).seqQuota ≤ (s.sv.seqs.filter (fun q => q.stand == r.stand)).length ∨ 65536 ≤ s.sv.seqs.length then s.refuse r 0x13
    else
      let q : Seq := ⟨r.stand, r.seqId, g, 0, 0, [], .arriving, false, none⟩
      match (s.modSv (fun v => { v with seqs := v.seqs ++ [q] })).allocPages q (pagesFor r.inLen) with
      | (s1, false) => (s1.freeSeq r.stand r.seqId).refuse r 0x13
      | (s1, true) =>
        match s1.planShip r (s1.shipBound r.stand g r.inLen) with
        | none => (s1.freeSeq r.stand r.seqId).refuse r 0x10
        | some s2 => if s2.rbit Reg.pwrStatus 5 then (s1.freeSeq r.stand r.seqId).refuse r 0x12
                     else s2.accept r (fun x => { x with load := l.id, entry := e })

/-- KV_SHIP (11 R380). -/
def execKvShip (t sd : Nat) (s : State) : Host.Outcome State Fault Refusal :=
  let s1 := s.at t
  match s1.firstUndecided sd with
  | none => .next s1
  | some r => if r.opcode != 0x10 || !s1.serving || s1.stdState sd == 3 then .next s1 else .next ((s1.decideShip r).decided r)

/-- Copy the pages of a local source record to a destination record (11 R382, R383). -/
def State.copyPages (s : State) (ssd sid dsd did n : Nat) (g : List Byte) : State :=
  s.each ((List.range (geoLayers g)).flatMap (fun l => (List.range (pagesFor n)).map (fun j => (l, j)))) (fun s lj =>
    match s.pageOf ssd sid lj.1 lj.2, s.pageOf dsd did lj.1 lj.2 with
    | some a, some b => s.objWrite b 0 (s.objRead a 0 a.size)
    | _, _ => s)

/-- The pass of a stand's running KV_SHIP; stage 1 once the last page has arrived from another part. -/
def State.shipPass (s : State) (sd : Nat) : Option Pass := s.sv.passes.find? (fun p => p.inst == none && p.stand == sd && p.dispatched)
/-- The KV_SHIP whose pass runs for a stand. -/
def State.shipRunning (s : State) (sd : Nat) : Option Request := (s.shipPass sd).bind (fun p => (p.members.head?).bind s.req)

/-- KV_SHIP_COMPLETE: the last page of a stand's running ship has arrived; the destination record becomes READY and the request
completes with DONE. A local source that R382 does not allow ends it with ACCESS_VIOLATION (11 R382, R383). -/
def execKvShipComplete (t sd : Nat) (s : State) : Host.Outcome State Fault Refusal :=
  let s1 := s.at t
  if s1.frozen then .next s1 else
  match s1.shipRunning sd with
  | none => .next s1
  | some r =>
    let src := fieldLE r.desc 32 8
    let g := ((s1.seq sd r.seqId).map (·.geometry)).getD []
    if r.fault ≠ 0 then .next ((s1.endReq { r with faultAddr := src } r.fault [] false).afterEnds)
    else if src / 2 ^ 48 = s1.ownPid then
      match s1.seq (fld src 45 40) (src % 2 ^ 32) with
      | some q =>
        if shipSourceOk q r.inLen g
        then .next (((s1.copyPages q.stand q.id sd r.seqId r.inLen g).endReq r 0 [] false).afterEnds)
        else .next (((s1.violation sd 0 3 0 0 src r.tag).endReq { r with faultAddr := src } 0x40 [] false).afterEnds)
      | none => .next (((s1.violation sd 0 3 0 0 src r.tag).endReq { r with faultAddr := src } 0x40 [] false).afterEnds)
    else if ((s1.shipPass sd).map (·.stage)).getD 0 = 1 then .next ((s1.endReq r 0 [] false).afterEnds) else .next s1

/-! ### SEQ_RELEASE and CANCEL (11 R384-R388) -/

/-- The quota that every opcode meets: the part drains, or the stand holds 1,024 accepted requests (10 R342 step 3). -/
def State.full (s : State) (sd : Nat) : Bool := !s.rbit Reg.rootStatus 2 || decide (1024 ≤ s.inflight sd)
/-- SEQ_RELEASE: frees the record at once, or when its steps and ship have ended (11 R365, R374, R384). -/
def State.decideRelease (s : State) (r : Request) : State :=
  let ok := s.flagsOk r && decide (r.flags % 4 ≠ 0) && r.cfgId == 0 && decide (r.seqId ≠ 0) && zeros r.desc 16 4 && zeros r.desc 24 32 && r.aux == 0
  match s.seq r.stand r.seqId with
  | none => s.refuse r 0x14
  | some _ => if ok = false then s.refuse r 0x14
              else if s.full r.stand = true then s.refuse r 0x13
              else if r.deadline ≤ s.now then s.refuse r 0x10
              else ((s.accept r (fun x => x)).modSeq r.stand r.seqId (fun q => { q with releasing := some r.id })).runReleases

/-- SEQ_RELEASE (11 R384). -/
def execSeqRelease (t sd : Nat) (s : State) : Host.Outcome State Fault Refusal :=
  let s1 := s.at t
  match s1.firstUndecided sd with
  | none => .next s1
  | some r => if r.opcode != 0x21 || !s1.serving || s1.stdState sd == 3 then .next s1 else .next ((s1.decideRelease r).decided r)

/-- ABORT to every leaf of some branches, whose movers abandon what is placed (07 R255). -/
def State.abortBranches (s : State) (bs : List Nat) : State :=
  (s.each bs (fun s b => (branchLeaves b).foldl State.leafAbort s)).abandonIn bs (fun _ => true)

/-- A pass whose members are all gone is aborted (11 R386). -/
def State.abortEmpty (s : State) : State :=
  s.each (s.sv.passes.filter (fun p => p.dispatched && p.members.isEmpty)) (fun s p =>
    match p.inst.bind s.inst with
    | some i => (s.abortBranches i.branches).dropPass p.id
    | none => s.dropPass p.id)

/-- The descriptors a request's templates placed are abandoned (07 R255). -/
def State.abandonReq (s : State) (id : Nat) : State :=
  match (s.req id).bind (fun r => s.inst r.inst) with
  | some i => s.abandonIn i.branches (fun d => d.req == some id)
  | none => s
/-- CANCEL: every accepted, uncompleted request of the stand with the tag ends with CANCELLED; the CANCEL completes with DONE
after them; without a target it is refused (11 R385-R388). -/
def State.decideCancel (s : State) (r : Request) : State :=
  let ok := s.flagsOk r && r.cfgId == 0 && r.seqId == 0 && zeros r.desc 16 4 && zeros r.desc 24 8 && zeros r.desc 36 20 && r.aux == 0
  let tag := fieldLE r.desc 32 4
  let targets := (s.sv.requests.filter (fun q => q.live && q.stand == r.stand && q.tag == tag && q.opcode != 0x20)).map (·.id)
  if ok = false ∨ targets = [] then s.refuse r 0x14
  else if s.full r.stand = true then s.refuse r 0x13
  else if r.deadline ≤ s.now then s.refuse r 0x10
  else
    let s1 := s.each targets (fun s id => match s.req id with
      | some q => (s.abandonReq id).endReq { q with fault := 0 } 0x20 [] false
      | none => s)
    ((s1.abortEmpty.accept r (fun x => x)).endReq { r with phase := .waiting } 0 [] false).afterEnds

/-- CANCEL (11 R385). -/
def execCancel (t sd : Nat) (s : State) : Host.Outcome State Fault Refusal :=
  let s1 := s.at t
  match s1.firstUndecided sd with
  | none => .next s1
  | some r => if r.opcode != 0x20 || !s1.serving || s1.stdState sd == 3 then .next s1 else .next ((s1.decideCancel r).decided r)

end Sys2Proof.Machine
end

