-- ==== Sys2Proof/Machine/Passes.lean ====
section
/-! DEFINITION. Passes: their start on the branches, dispatch, completion and the deadline guard; Express passes, inlets and
outlets (05 R174-R176, 08 R294, 10 R346-R352, 11 R369, R370, R392-R395). -/

namespace Sys2Proof.Machine

/-! ### Scratch -/

/-- The memory key of a scratch offset of a branch (01 R26). -/
def scratchKey (b off : Nat) : Nat := memKey 2 (b * 2 ^ 25 + 2 ^ 24 + off)
def State.scratchRead (s : State) (b off n : Nat) : List Byte := s.memRead (scratchKey b off) n
def State.scratchWrite (s : State) (b off : Nat) (bs : List Byte) : State := s.store 2 (b * 2 ^ 25 + 2 ^ 24 + off) bs
/-- Branch of an instance by its relative number in the entry's first configuration. -/
def Inst.rel (i : Inst) (k : Nat) : Nat := i.branches.getD k 0
/-- The configuration an instance runs: that of its running pass's stage, else the entry's first. -/
def State.runCfg (s : State) (i : Inst) : Nat :=
  let st := ((s.sv.passes.find? (fun p => p.dispatched && p.inst == some i.id)).map (·.stage)).getD 0
  (entCfgs (s.image i.load) i.entry).getD st 0
/-- Branch of an instance by its relative number in the configuration it runs (05 R171). -/
def State.relNow (s : State) (i : Inst) (k : Nat) : Nat := s.relB i (s.runCfg i) k

/-! ### What is written before PC 0 -/

/-- The value a shape binding gives (05 R174). -/
def bindValue (fn v : Nat) : Nat :=
  if fn = 0 then v else if fn = 1 then cdiv v 32 else if fn = 2 then v % 32 else v - 1

/-- SHAPE[DIM] of the request in a slot, with SHAPE1 as admission set it for a step (11 R375); 0 for an empty slot. -/
def State.slotShape (s : State) (p : Pass) (slot d : Nat) : Nat :=
  match s.slotReq p slot with
  | some r => if decide (2 ≤ r.opcode ∧ r.opcode ≤ 4) && d == 1 then pagesFor (r.start + r.shape 0) else r.shape d
  | none => 0

/-- Apply the shape bindings of a branch section to its leaves' context n (05 R174). -/
def State.bindShapes (s : State) (p : Pass) (b n : Nat) (x : List Byte) : State :=
  s.each (List.range (brNbind x)) (fun s k =>
    let e := brBind x k
    let v := bindValue (fieldLE e 4 1) (s.slotShape p (fieldLE e 2 1) (fieldLE e 3 1))
    s.modLeaf (b * 64 + fieldLE e 0 1) (fun lf => { lf with ctxs := tmod Ctx.empty lf.ctxs n (fun c =>
      { c with regs := tset 0 c.regs (fieldLE e 1 1) (BitVec.ofNat 32 v) }) }))

/-- One record of the sequence table (11 R369). -/
def State.seqRecord (s : State) (p : Pass) (slot : Nat) : List Byte :=
  match s.slotReq p slot with
  | some r =>
    if 2 ≤ r.opcode ∧ r.opcode ≤ 4 then
      leBytes 4 r.seqId ++ leBytes 4 r.start ++ leBytes 2 (r.shape 0) ++ leBytes 1 r.drafts ++ leBytes 1 (outPositions r) ++
        leBytes 2 r.topn ++ leBytes 2 0 ++ leBytes 4 (pagesFor (r.start + r.shape 0)) ++ leBytes 12 0
    else leBytes 32 0
  | none => leBytes 32 0

/-- The distinct graft versions of a pass, ordered by the lowest slot that uses them (08 R294). -/
def State.passGrafts (s : State) (p : Pass) : List (Nat × Nat) :=
  ((List.range 64).filterMap (fun k => (s.slotReq p k).bind (·.graft))).eraseDups
/-- The graft gather table (08 R294). -/
def State.gatherTable (s : State) (p : Pass) : List Byte :=
  let gs := s.passGrafts p
  leBytes 1 gs.length ++ leBytes 63 0 ++
  (List.range 64).flatMap (fun k => leBytes 1 (match (s.slotReq p k).bind (·.graft) with
    | some g => gs.idxOf g
    | none => 0xFF)) ++
  gs.flatMap (fun g =>
    let o := ((s.sv.objs.find? (fun o => o.kind == 1 && o.stand == p.stand && o.manifest == g.1 && o.index == g.2)).map (·.id)).getD 0
    let mask := (List.range 64).foldl (fun a k => if (s.slotReq p k).bind (·.graft) = some g then a + 2 ^ k else a) 0
    leBytes 3 g.1 ++ leBytes 1 g.2 ++ leBytes 4 o ++ leBytes 8 mask ++ leBytes 16 0)

/-- Clear the doorbell and ready words of a configuration (09 R301). -/
def State.clearDoorbells (s : State) (i : Inst) (c : Nat) (rt : List Byte) : State :=
  let s1 := s.each (List.range (fieldLE rt 4 1)) (fun s k =>
    let f := slice rt (64 + 64 * k) 64
    let b := s.relB i c (fieldLE f 10 1)
    (s.scratchWrite b (fieldLE f 36 4) (leBytes 4 0)).scratchWrite b (fieldLE f 40 4) (leBytes 4 0))
  s1.each (List.range (fieldLE rt 5 1)) (fun s k =>
    let f := slice rt (64 + 64 * fieldLE rt 4 1 + 64 * k) 64
    let b := s.relB i c (fieldLE f 1 1)
    (s.scratchWrite b (fieldLE f 12 4) (leBytes 4 0)).scratchWrite b (fieldLE f 16 4) (leBytes 4 0))

/-! ### Mover templates (05 R176, 08 R279, 11 R370) -/

/-- Replace n bytes of a list at an offset. -/
def patch (bs : List Byte) (a : Nat) (new : List Byte) : List Byte := bs.take a ++ new ++ bs.drop (a + new.length)

/-- The object id of the stand's copy in place of a shard index in bits [63:32] of a pool-object address (08 R279). -/
def State.bindShard (s : State) (l : Load) (d : List Byte) (off : Nat) (isPool : Bool) : List Byte :=
  if isPool then
    let o := ((s.nearShard l.stand (manId l.manifest) (fieldLE d (off + 4) 4)).map (·.id)).getD 0
    patch d (off + 4) (leBytes 4 o)
  else d

/-- A template's descriptor with its objects bound. -/
def State.bindDesc (s : State) (l : Load) (d : List Byte) : List Byte :=
  s.bindShard l (s.bindShard l d 8 (fld (fieldLE d 2 1) 3 0 == 2)) 16 (fld (fieldLE d 2 1) 7 4 == 2)

/-- The pieces of a KV range: page object, offset in the page, bytes (11 R370). -/
def State.kvPieces (s : State) (sd id layer lo hi kv : Nat) : List (Nat × Nat × Nat) :=
  if hi ≤ lo then []
  else (List.range ((hi - 1) / 64 + 1 - lo / 64)).flatMap (fun k =>
    let j := lo / 64 + k
    let a := (Nat.max lo (64 * j) - 64 * j) * kv
    let z := (Nat.min hi (64 * j + 64) - 64 * j) * kv
    let o := ((s.pageOf sd id layer j).map (·.id)).getD 0
    (List.range (cdiv (z - a) 32768)).map (fun q => (o, a + 32768 * q, Nat.min 32768 (z - a - 32768 * q))))

/-- The descriptors a KV binding's template expands to (11 R370). -/
def State.expandKv (s : State) (r : Request) (g kb d : List Byte) : List (List Byte) :=
  let dir := fieldLE kb 2 1
  let pieces := s.kvPieces r.stand r.seqId (fieldLE kb 4 2) (if dir = 0 then 0 else r.start) (if dir = 0 then r.start else r.start + r.shape 0)
    (geoKvBytes g)
  let other := if dir = 0 then 16 else 8
  let otherMem := (if dir = 0 then fld (fieldLE d 2 1) 7 4 else fld (fieldLE d 2 1) 3 0) == 0
  let fl := fieldLE d 1 1
  if pieces = [] then [leBytes 1 0 ++ leBytes 1 fl ++ leBytes 26 0 ++ slice d 28 2 ++ leBytes 2 0]
  else pieces.zipIdx.map (fun p =>
    let before := ((pieces.take p.2).map (·.2.2)).foldl (· + ·) 0
    let flags := (if p.2 = 0 then fl % 2 else 0) + (if p.2 + 1 = pieces.length then fl / 2 % 2 * 2 else 0) + fl / 4 % 2 * 4
    let d1 := patch (patch d 1 (leBytes 1 flags)) 6 (leBytes 2 p.1.2.2)
    let d2 := patch d1 (if dir = 0 then 8 else 16) (leBytes 4 p.1.2.1 ++ leBytes 4 p.1.1)
    let d3 := if otherMem then patch d2 other (leBytes 8 (fieldLE d2 other 8 + before)) else d2
    if p.2 + 1 = pieces.length then d3 else patch d3 28 (leBytes 2 0))

/-- Whether a template belongs to a group step's ranges, whose runs place it (09 R315). -/
def inGroupRange (rt : List Byte) (rel t : Nat) : Bool :=
  (List.range (fieldLE rt 5 1)).any (fun k =>
    let f := slice rt (64 + 64 * fieldLE rt 4 1 + 64 * k) 64
    fieldLE f 1 1 == rel && [24, 26, 28].any (fun o => decide (fieldLE f o 1 ≤ t ∧ t < fieldLE f o 1 + fieldLE f (o + 1) 1)))

/-- A ring descriptor for a template's descriptor and the request in its slot, whatever its BASE (10 R350). -/
def ringOf (base : Nat) (r : Request) (d : List Byte) : RingDesc :=
  .placed d (some r.id) base (if base = 1 then r.inAddr else if base = 2 then r.outAddr else 0)
    (if base = 1 then r.inLen else if base = 2 then r.outMax else 0)
/-- The descriptors a pass places in each mover of a relative branch, in template order. -/
def State.placed (s : State) (p : Pass) (l : Load) (c rel : Nat) : List (Nat × RingDesc) :=
  let x := brSect l.image c rel
  let sb := servingBlk l.image c
  let rt := routing l.image c
  (List.range (brNtmpl x)).flatMap (fun k =>
    let tm := brTmpl x k
    let base := fieldLE tm 2 1
    if inPreload l.image c rel k || inGroupRange rt rel k then []
    else match s.slotReq p (fieldLE tm 1 1) with
      | none => []
      | some r =>
        let d := s.bindDesc l (tm.drop 8)
        match (List.range (fieldLE sb 28 2)).find? (fun q => fieldLE (kvBind sb q) 0 1 == rel && fieldLE (kvBind sb q) 1 1 == k) with
        | some q => (s.expandKv r (slice sb 4 18) (kvBind sb q) (tm.drop 8)).map (fun e => (fieldLE tm 0 1, ringOf base r e))
        | none => [(fieldLE tm 0 1, ringOf base r d)])

/-! ### Starting a configuration of a pass -/

/-- The context number that holds a configuration on every branch of an instance. -/
def State.commonCtx (s : State) (i : Inst) (c : Nat) : Option Nat :=
  (List.range 8).find? (fun n => (s.rels i c).all (fun x => s.ctxOf x.1 i.load c x.2 == some n))

/-- The node, side and lane of the circuits on which slot set n of a branch reads from a bark die, in ascending order. -/
def State.inletLanes (s : State) (b n : Nat) : List (Nat × Nat × Nat) :=
  let x := s.branch b
  (List.range 64).flatMap (fun node => (List.range 4).flatMap (fun side =>
    if (nodeNeighbour node side).isNone && s.facesBark b side then
      (List.range 16).filterMap (fun lane =>
        if (List.range 384).any (fun k => let e := x.entry n node (k / 32) (k % 32)
            (entDsrc e == side + 1 || entTsrc e == side + 1) && entLane e == lane) then some (node, side, lane) else none)
    else []))
/-- The node, side and lane of the circuits on which slot set n of a branch sends to a bark die, in ascending order. -/
def State.outletLanes (s : State) (b n : Nat) : List (Nat × Nat × Nat) :=
  let x := s.branch b
  (List.range 64).flatMap (fun node => (List.range 4).flatMap (fun side =>
    if (nodeNeighbour node side).isNone && s.facesBark b side then
      (List.range 16).filterMap (fun lane =>
        if (List.range 32).any (fun k => let e := x.entry n node side k; e != 0 && entLane e == lane) then some (node, side, lane) else none)
    else []))

/-- The inlets bound to an instance with their branch and circuit in slot set n: the k-th of those that enter at one branch takes the k-th
inlet circuit there (DESIGN CHOICE, log entry 27). -/
def State.inletsOf (s : State) (i : Inst) (n : Nat) : List (Inlet × Nat × (Nat × Nat × Nat)) :=
  let img := s.image i.load
  let rel := fun (x : Inlet) => fieldLE (declRec img x.decl) 12 1
  let mine := s.sv.inlets.filter (fun x => x.inst == i.id)
  mine.filterMap (fun x =>
    let b := i.rel (rel x)
    ((s.inletLanes b n)[((mine.filter (fun y => rel y == rel x)).map (·.num)).idxOf x.num]?).map (fun k => (x, b, k)))
/-- The outlet declarations of an instance's entry that its MODEL_LOAD bound, with their branch and circuit in slot set n. -/
def State.outletsOf (s : State) (i : Inst) (n : Nat) : List (Nat × Nat × (Nat × Nat × Nat)) :=
  match s.load i.load with
  | none => []
  | some l =>
    let rel := fun k => fieldLE (declRec l.image k) 12 1
    let mine := ((l.binds.filter (fun x => x.kind == 1 && fieldLE (declRec l.image x.decl) 0 2 == i.entry)).map (·.decl)).eraseDups
    mine.filterMap (fun k =>
      let b := i.rel (rel k)
      ((s.outletLanes b n)[(mine.filter (fun y => rel y == rel k)).idxOf k]?).map (fun q => (k, b, q)))

/-- Enable the crossings of an instance's branches for slot set n: those between two of them, and at the inlets and outlets that are bound
to it (04 R135). -/
def State.openCrossings (s : State) (i : Inst) (n : Nat) : State :=
  let ext := (s.inletsOf i n).map (·.2) ++ (s.outletsOf i n).map (·.2)
  s.each i.branches (fun s b =>
    let sides := (List.range 4).filter (fun d => match s.branchNeighbour b d with | some q => i.branches.contains q | none => false)
    let bark := (ext.filter (fun k => k.1 == b)).map (fun k => 100 + k.2.1 * 4 + k.2.2.1)
    s.modBranch b (fun x => { x with crossings := (sides ++ bark).eraseDups }))

/-- A branch is the instance's and goes to context n: its leaves are asked to switch, together (04 R136); a set already active takes its LIMIT
at its first activation after the load (04 R149). -/
def State.toContext (s : State) (b n : Nat) : State :=
  if (s.branch b).active = n ∧ (s.branch b).handover = false then
    if (tget BrcCtx.empty (s.branch b).ctxs n).used then s else s.takeLimit b
  else s.each (branchLeaves b) (fun s l =>
    let lf := s.leaf l
    if lf.active ≠ n ∧ (lf.mode = .waitPass ∨ lf.mode = .idle) then (s.modLeaf l (fun lf => { lf with ctxNext := n })).leafSwitchReq l else s)
/-- A branch stands ready for a pass of context n: its set is active and every leaf waits (03 R84, 04 R137). -/
def State.atContext (s : State) (b n : Nat) : Bool :=
  (s.branch b).active == n && !(s.branch b).handover && (branchLeaves b).all (fun l => (s.leaf l).active == n && (s.leaf l).mode == .waitPass)

/-- Split bytes into beats of 64, the last padded with zeros. -/
def toBeats (bs : List Byte) : List (List Byte) :=
  (List.range (cdiv bs.length 64)).map (fun k => let x := slice bs (64 * k) 64; x ++ List.replicate (64 - x.length) 0)
/-- What an inlet unit sends for the members of an Express pass in slot order: payload beats and a slot token each, then END (11 R394). -/
def inletItems (ms : List Request) (num : Nat) : List SlotItem :=
  ms.flatMap (fun r => (toBeats r.payload).map (fun d => SlotItem.beat ⟨0, d⟩) ++
    [SlotItem.tok ⟨0, BitVec.ofNat 32 ((0xE000 + num) * 65536 + r.slot)⟩]) ++
  [SlotItem.tok ⟨0, BitVec.ofNat 32 ((0xE000 + num) * 65536 + 0xFFFF)⟩]
/-- The inlet units of an Express pass begin to send, as far as credits allow (04 R130, 11 R394). -/
def State.sendInlets (s : State) (p : Pass) (i : Inst) (n : Nat) : State :=
  s.each (s.inletsOf i n) (fun s x =>
    let ms := (p.members.filterMap s.req).filter (fun r => r.ring == 8 && r.inlet == x.1.num)
    let key := laneKey x.2.2.1 x.2.2.2.1 x.2.2.2.2
    (s.modBranch x.2.1 (fun y => { y with inlets := tmod [] y.inlets key (fun q => q ++ inletItems ms x.1.num) })).inletPump x.2.1 key 48)

/-- The objects a pass references (06 R232): its manifest's shards, its members' graft versions and pages. -/
def State.passRefs (s : State) (p : Pass) (l : Load) (o : PoolObj) : Bool :=
  o.stand == p.stand &&
  ((o.kind == 0 && !l.manifest.isEmpty && o.manifest == manId l.manifest) || (o.kind == 3 && o.manifest == l.id) ||
   (p.members.filterMap s.req).any (fun r => (o.kind == 1 && r.graft == some (o.manifest, o.index)) || (o.kind == 2 && r.seqId == o.manifest)))

/-- A configuration of a pass starts on an instance whose branches stand ready in context n: shape bindings, ring descriptors, doorbells, the
sequence and gather tables, then PC 0 (03 R84, 05 R174, R176, 08 R294, 11 R369). -/
def State.beginStage (s : State) (p : Pass) (i : Inst) (l : Load) (c n : Nat) : State :=
  let sb := servingBlk l.image c
  let s1 := (s.modPass p.id (fun q => { q with started := true })).useObjs (s.passRefs p l)
  let s2 := s1.each (s.rels i c) (fun s x =>
    let b := x.1
    let s3 := (s.modBranch b (fun y => { y with ctxs := tmod BrcCtx.empty y.ctxs n (fun k => { k with lastUse := s.now }) })).bindShapes p b n
      (brSect l.image c x.2)
    s3.each (s.placed p l c x.2) (fun s d => s.modMover b d.1 (fun m => m.place [d.2])))
  let s5 := s2.clearDoorbells i c (routing l.image c)
  let s6 := if sb.isEmpty ∨ fieldLE sb 24 4 = 0xFFFFFFFF ∨ geoLayers (slice sb 4 18) = 0 then s5
    else s5.scratchWrite (s.relB i c (fieldLE sb 22 1)) (fieldLE sb 24 4) ((List.range 64).flatMap (s5.seqRecord p))
  let s7 := if manGraftable l.manifest ∧ 0 < brScratch l.image c 0
    then s6.scratchWrite (s.relB i c 0) (brScratch l.image c 0 * 2 ^ 20 - 4096) (s6.gatherTable p) else s6
  let s8 := s7.each i.branches (fun s b => s.modLeavesOf b Leaf.startPass)
  if p.cls = 0 ∧ p.stage = 0 then s8.sendInlets p i n else s8

/-- Start the current configuration of a pass. Where its context is not valid on every branch the pass waits (05 R193); where the branches have
another set active they switch first, and the pass starts once they stand ready (04 R136, R137). -/
def State.runStage (s : State) (pid : Nat) : State :=
  match s.pass pid with
  | none => s
  | some p =>
    match p.inst.bind s.inst with
    | none => s
    | some i =>
      match s.load i.load with
      | none => s
      | some l =>
        let c := (entCfgs l.image i.entry).getD p.stage 0
        match s.commonCtx i c with
        | none => s
        | some n =>
          if p.started then s
          else
            let s1 := ((s.wake i.branches).each i.branches.zipIdx (fun s x =>
              s.modBranch x.1 (fun y => { y with hasInst := true, instHome := i.home, instRel := x.2 }))).openCrossings i n
            let s2 := s1.each i.branches (fun s b => s.toContext b n)
            if i.branches.all (fun b => s2.atContext b n && s2.ringsIdle b) then s2.beginStage p i l c n else s2
/-- Passes that wait for a context or a handover go on where they can (05 R193, 04 R137). -/
def State.resumeStages (s : State) : State :=
  s.each (s.sv.passes.filter (fun p => p.dispatched && !p.started)) (fun s p => s.runStage p.id)

/-! ### Dispatch (10 R346, R347, 11 R394) -/

/-- A server's running pass. -/
def State.runningOn (s : State) (i : Nat) : Option Pass := (s.planOf i).find? (·.dispatched)
/-- Give the members of a pass their batch slots, from a slot on. -/
def State.assignSlots (s : State) (ids : List Nat) (at_ : Nat) : State :=
  s.each ids.zipIdx (fun s x => s.modReq x.1 (fun r => { r with slot := at_ + x.2, phase := .running }))

/-- The payload of a DISPATCH record (16 R541): the home branch and the CFG_ID are those of the pass's entry. -/
def State.dispatchBytes (s : State) (p : Pass) : List Byte :=
  let i := p.inst.bind s.inst
  let cfg := (i.bind (fun i => (s.load i.load).map (fun l => l.cfgBase + i.entry))).getD 0
  leBytes 2 ((i.map (·.home)).getD 0) ++ leBytes 1 p.stand ++ leBytes 1 p.members.length ++ leBytes 2 cfg ++ leBytes 2 0 ++ leBytes 8 p.fin
/-- A dispatching pass takes its branches from ballast at once (14 R493). -/
def State.takeBallast (s : State) (bs : List Nat) : State :=
  let w := s.pw.ballastW.filter (fun x => !bs.contains x.1)
  ({ s with pw := { s.pw with ballastW := w } }).wbit Reg.pwrStatus 0 (!w.isEmpty)
/-- Dispatch a pass that is in its server's list. -/
def State.dispatch (s0 : State) (p : Pass) : State :=
  let s := s0.traceStand p.stand 3 (s0.dispatchBytes p)
  let uj := ((p.members.filterMap s.req).map (·.uj)).foldl (· + ·) 0
  ((((s.takeBallast (((p.inst.bind s.inst).map (·.branches)).getD [])).modPass p.id (fun q =>
    { q with dispatched := true, dispatchTime := s.now, compiled := uj })).assignSlots p.members 0)).runStage p.id

/-- Ask the source part of a KV_SHIP for its pages: ARG holds the source SEQ_ID and the positions (11 R382, 12 R411); FN bit 0 carries
RELEASE and the data the geometry that R382 compares, a layout of the model's own (log entry 21). -/
def State.fetchKv (s : State) (r : Request) (src : Nat) : State :=
  let g := ((s.seq r.stand r.seqId).map (·.geometry)).getD []
  let t := s.ownTx 9 (src / 2 ^ 48) (fld src 45 40 * 2 ^ 40) 0 r.stand (r.aux % 2) (src % 2 ^ 32 + r.inLen * 2 ^ 32) g (if r.cls = 1 then 2 else 4)
  match s.launch t (.ship r.id) with
  | (s1, none) => s1
  | (s1, some e) => s1.charge r.id (respStatus e) src
/-- A KV_SHIP pass of a stand starts (11 R381, R382): a local source is SHIPPING. -/
def State.dispatchShip (s : State) (sd : Nat) : State :=
  match (s.shipPlan sd).find? (·.dispatched), (s.shipPlan sd).find? (fun p => !p.dispatched) with
  | none, some p =>
    let s1 := (s.modPass p.id (fun q => { q with dispatched := true, dispatchTime := s.now })).assignSlots p.members 0
    match (p.members.head?).bind s.req with
    | some r =>
      let src := fieldLE r.desc 32 8
      if src / 2 ^ 48 = s.ownPid then s1.modSeq (fld src 45 40) (src % 2 ^ 32) (fun q => { q with state := if q.state = .ready then .shipping else q.state })
      else s1.fetchKv r src
    | none => s1
  | _, _ => s

/-- Bulk requests waiting for an entry, ready and with every shard verified (10 R347, 08 R284). -/
def State.bulkWaiting (s : State) (i : Inst) (bucket : Option Nat) : List Request :=
  s.sv.requests.filter (fun r => r.cls == 2 && r.phase == .waiting && decide (r.opcode ≤ 4) && r.load == i.load && r.entry == i.entry &&
    decide (r.ready ≤ s.now) && (match bucket with | some k => r.bucket == k | none => true) &&
    (match s.load i.load with | some l => l.manifest.isEmpty || (s.missing l).isEmpty | none => false))

/-- Fill free slots of a Deadline pass that dispatches with Bulk requests, while the row of the larger occupancy stays within the pass's
bound (10 R347). -/
def State.fillBulk (s : State) (p : Pass) (i : Inst) : State :=
  s.each (s.bulkWaiting i (some p.bucket)) (fun s r =>
    match s.pass p.id with
    | none => s
    | some q =>
      match latLookup (s.image i.load) i.entry 1 s.level p.bucket (q.members.length + 1) with
      | none => s
      | some b =>
        if q.members.length < entSlots (s.image i.load) i.entry ∧ b ≤ q.bound
        then (s.modPass q.id (fun x => { x with members := x.members ++ [r.id] })).modReq r.id (fun x => { x with inst := i.id })
        else s)

/-- A server's next planned pass dispatches once the previous one has completed and its members are ready (10 R346); a Deadline pass takes Bulk
requests into its free slots (10 R347). -/
def State.dispatchNext (s : State) (inst : Nat) : State :=
  match s.runningOn inst, (s.planOf inst).find? (fun p => !p.dispatched) with
  | none, some p =>
    if s.maxReady p ≤ s.now ∧ s.serving = true then
      let s1 := match p.inst.bind s.inst with
        | some i => if p.cls = 1 then s.fillBulk p i else s
        | none => s
      match s1.pass p.id with
      | some q => s1.dispatch q
      | none => s1
    else s
  | _, _ => s

/-- PASS_DISPATCH: a server's next planned pass starts (10 R346); the passes of a stand's KV_SHIPs have a server of their own (11 R381). -/
def execPassDispatch (t : Nat) (srv : Server) (s : State) : Host.Outcome State Fault Refusal :=
  let s1 := s.at t
  if s1.frozen then .next s1 else
  match srv with
  | .ship sd => .next (if s1.serving then s1.dispatchShip sd else s1)
  | .inst inst => .next (s1.dispatchNext inst)

/-- BULK_PASS_DISPATCH: a server with an empty plan starts a Bulk pass; where a Deadline pass is due, it dispatches with Bulk requests in its
free slots (10 R347). -/
def execBulkPassDispatch (t inst : Nat) (s : State) : Host.Outcome State Fault Refusal :=
  let s1 := s.at t
  if s1.frozen then .next s1 else
  match s1.inst inst with
  | none => .next s1
  | some i =>
    match s1.planOf inst, s1.bulkWaiting i none with
    | [], r :: rs =>
      let ms := (r :: (rs.filter (fun q => q.bucket == r.bucket))).take (entSlots (s1.image i.load) i.entry)
      let row := latLookup (s1.image i.load) i.entry 1 s1.level r.bucket ms.length
      let (id, s2) := s1.fresh
      let p : Pass := ⟨id, i.load |> fun l => ((s1.load l).map (·.stand)).getD 0, some inst, 2, r.bucket, ms.map (·.id), s1.now, row.getD 0,
        s1.now + row.getD 0, row.isNone, false, 0, 0, false, 0, 0⟩
      let s3 := (s2.modSv (fun v => { v with passes := v.passes ++ [p] })).each ms (fun s m => s.modReq m.id (fun x => { x with inst := inst }))
      if s1.serving then .next (s3.dispatch p) else .next s1
    | [], [] => .next s1
    | _ :: _, _ => .next (s1.dispatchNext inst)

/-- EXPRESS_PASS_DISPATCH: an idle instance starts a pass of its waiting Express requests in arrival order (10 R349, 11 R394). -/
def execExpressPassDispatch (t inst : Nat) (s : State) : Host.Outcome State Fault Refusal :=
  let s1 := s.at t
  if s1.frozen then .next s1 else
  match s1.inst inst, s1.runningOn inst with
  | some i, none =>
    match s1.xQueue inst with
    | [] => .next s1
    | q =>
      let img := s1.image i.load
      let ms := q.take (entSlots img i.entry)
      let bound := (ms.map (fun r => (latLookup img i.entry 0 s1.level r.bucket ms.length).getD 0)).foldl Nat.max 0
      let (id, s2) := s1.fresh
      let p : Pass := ⟨id, ((s1.load i.load).map (·.stand)).getD 0, some inst, 0, 0, ms.map (·.id), s1.now, bound, s1.now + bound, false,
        false, 0, 0, false, 0, 0⟩
      if s1.serving then .next ((s2.modSv (fun v => { v with passes := v.passes ++ [p] })).dispatch p) else .next s1
  | _, _ => .next s1

/-! ### Inlets and outlets -/

/-- A descriptor built from an inlet frame's header, so that a request has one form (11 R392): opcode INFER, class Express. -/
def frameDesc (f : List Byte) (deadline cfg : Nat) : List Byte :=
  leBytes 2 1 ++ leBytes 2 cfg ++ slice f 0 4 ++ leBytes 8 deadline ++ leBytes 8 0 ++ slice f 16 8 ++ leBytes 16 0 ++ slice f 4 2 ++ leBytes 14 0

/-- A frame arrives at an inlet and is decided (11 R392, R393). An inlet whose image is no longer bound takes no frame: under MODEL_EVICT it is
unadmittable at once (05 R190), and the window is no bound inlet's (13 R441). -/
def State.inletFrame (s : State) (num : Nat) (f : List Byte) : State :=
  match s.sv.inlets.find? (fun n => n.num == num) with
  | none => s
  | some n =>
    match s.inst n.inst with
    | none => s
    | some i =>
      match s.load i.load with
      | none => s
      | some l =>
        if l.bound = false then s
        else if fieldLE f 28 4 ≠ recCheck (fieldLE f 0 4) (f.take 28) then
          (s.bump (Reg.stdRingErrCnt n.stand) 31 0 1).setVector n.stand 12
        else
          let (id, s1) := s.fresh
          let dl := fieldLE f 8 8
          let dl' := if dl = 0 then s.now + s.xLatency n.stand n.contract l.image i.entry s.level else dl
          let d := frameDesc f dl' (l.cfgBase + i.entry)
          let shape := fun k => fieldLE f (16 + 2 * k) 2
          let sh := entShape l.image i.entry
          let r : Request := ⟨id, n.stand, 8, num, n.contract, d, f.drop 32, s.now, dl', .undecided, l.id, i.entry, i.id, 0, s.now, 0, 0, 0, 0, 0, 0, 0,
            0, 0, none, 0, false, []⟩
          let s2 := s1.modSv (fun v => { v with requests := v.requests ++ [r] })
          if fieldLE f 6 2 ≠ 0 ∨ fieldLE f 24 4 ≠ 0 then s2.refuse r 0x14
          else if fieldLE f 4 2 ≠ declSize (declRec l.image n.decl) shape ∨ 4064 < fieldLE f 4 2 ∨ (f.drop 32).length ≠ fieldLE f 4 2 ∨
            (List.range 4).all (fun k => decide (shape k ≤ shapeMax sh k) && (shapeUsed sh k || shape k == 0)) = false then s2.refuse r 0x11
          else match bucketOf sh shape with
            | none => s2.refuse r 0x11
            | some k => ((s2.modReq id (fun q => { q with bucket := k })).decideExpress { r with bucket := k } l i n.contract).decided r

/-- INLET_FRAME in Urren host mode: a WRITE on VC0 to an inlet's window, decided as it arrives (11 R391-R393); a frozen part holds it until
THAW (16 R532), a stopped one drops it. -/
def execInletFrame (t num : Nat) (f : List Byte) (s : State) : Host.Outcome State Fault Refusal :=
  let s1 := s.at t
  if s1.frozen then
    .next (s1.holdTx 16 { s1.ownTx 2 s1.ownPid (num * 0x1000) 4 0 0 0 f 0 with src := 0 })
  else if s1.serving then .next (s1.inletFrame num f) else .next s1

/-- The beats before the first token of a lane, that token, and what follows. -/
def untilTok : List SlotItem → Option (List Beat × Tok × List SlotItem)
  | [] => none
  | .beat b :: l => (untilTok l).map (fun x => (b :: x.1, x.2.1, x.2.2))
  | .tok k :: l => some ([], k, l)

/-- CFLAGS.EARLY_EXIT of a slot: its exit word is nonzero (09 R325). -/
def State.exitFlag (s : State) (i : Inst) (slot : Nat) : Nat :=
  let c := s.runCfg i
  let rt := routing (s.image i.load) c
  if rt.isEmpty ∨ fieldLE rt 12 4 = 0xFFFFFFFF then 0
  else if leNat (s.scratchRead (s.relB i c (fieldLE rt 10 1)) (fieldLE rt 12 4 + 4 * slot) 4) = 0 then 0 else 1
/-- A request as its pass leaves it: its first poison event and EARLY_EXIT. -/
def State.asEnded (s : State) (i : Inst) (r : Request) : Request :=
  let q := s.withPoison r
  { q with cflags := q.cflags ||| s.exitFlag i q.slot }

/-- OUTLET_FRAME_SEND: the outlet unit of an instance takes the next slot's beats and token from its circuit, whose entries it frees, and sends
the result with the completion trailer; a different beat count ends the request with INTERNAL (11 R395). Of several outlets the first
that holds a token is served (log entry 35). -/
def execOutletFrameSend (t inst : Nat) (s : State) : Host.Outcome State Fault Refusal :=
  let s1 := s.at t
  if s1.frozen then .next s1 else
  match s1.inst inst with
  | none => .next s1
  | some i =>
    let n := (s1.branch i.home).active
    match (s1.outletsOf i n).findSome? (fun o =>
        let lk := barkKey o.2.2.1 o.2.2.2.1 o.2.2.2.2
        (untilTok (tget Lane.empty (s1.branch o.2.1).lanes lk).ready).map (fun x => (o.1, o.2.1, lk, x))) with
    | none => .next s1
    | some (k, b, lk, beats, tok, rest) =>
      let s2 := ((s1.modLane b lk (fun x => { x with ready := rest })).freeCredits b (beats.map (·.src)) true).freeCredit b tok.src false
      if isEndTok tok.word then .next s2
      else match (s2.runningOn inst).bind (fun p => s2.slotReq p (tokValue tok.word)) with
        | none => .next s2
        | some r =>
          let size := declSize (declRec (s2.image i.load) k) r.shape
          let q := s2.asEnded i r
          if beats.length ≠ cdiv size 64 then .next ((s2.endReq q (if q.fault ≠ 0 then q.fault else 0x5F) [] false).afterEnds)
          else .next ((s2.endReq q q.endStatus ((beats.flatMap (·.data)).take size) false).afterEnds)

/-! ### Completion and guard -/

/-- Every group step on a branch has completed its last trigger (09 R316). -/
def State.groupsDone (s : State) (p : Pass) (i : Inst) : Bool :=
  let img := s.image i.load
  let rt := routing img ((entCfgs img i.entry).getD p.stage 0)
  (List.range (nGroups rt)).all (fun k =>
    match s.sv.groups.find? (fun x => x.pass == p.id && x.gstep == k) with
    | some r => decide (gsTrigs (groupStep rt k) ≤ r.done) && !r.active
    | none => false)
/-- The fork and group steps of an instance's configuration end with it (09 R301). -/
def State.dropRouting (s : State) (p : Pass) : State :=
  s.modSv (fun v => { v with
    rows := v.rows.filter (fun r => p.inst != some r.inst), groups := v.groups.filter (fun g => g.pass != p.id),
    forks := v.forks.filter (fun f => f.pass != p.id) })

/-- Every leaf of an instance has reported END and every placed descriptor has completed (07 R250). -/
def State.stageDone (s : State) (i : Inst) : Bool :=
  i.branches.all (fun b => (branchLeaves b).all (fun l => (s.leaf l).mode == .waitPass || (s.leaf l).mode == .idle) &&
    s.ringsIdle b)

/-- The outlet units have taken everything that the instance sent them. -/
def State.outletsDone (s : State) (i : Inst) : Bool :=
  (s.outletsOf i (s.branch i.home).active).all (fun o =>
    let ln := tget Lane.empty (s.branch o.2.1).lanes (barkKey o.2.2.1 o.2.2.2.1 o.2.2.2.2)
    ln.flight.isEmpty && ln.ready.isEmpty)
/-- Empty the rings of an instance's movers. -/
def State.clearRings (s : State) (i : Inst) : State :=
  s.modBranches i.branches (fun x => { x with movers := x.movers.map (fun m => (m.1, { m.2 with ring := [] })) })

/-- A pass ends: every member that has none gets its record (an inlet's request whose slot token never came ends with INTERNAL), COEF's
figures are kept, the pass leaves the plan (10 R350-R352, 14 R486). -/
def State.endPass (s : State) (p : Pass) (i : Inst) : State :=
  let s1 := s.each p.members (fun s id => match s.req id with
    | some r =>
      let q := s.asEnded i r
      s.endReq q (if q.ring = 8 ∧ q.endStatus = 0 then 0x5F else q.endStatus) [] false
    | none => s)
  let s1 := { s1 with poisonLog := s1.poisonLog.filter (fun e => !i.branches.contains e.branch) }
  let s2 := { s1 with pw := { s1.pw with passesDone := s1.pw.passesDone ++ [(s.now, p.energy, p.compiled)] } }
  ((((s2.clearRings i).dropRouting p).dropPass p.id).modBranches i.branches (fun x => { x with idleSince := s.now })).afterEnds

/-- PASS_COMPLETE: the running configuration of an instance has ended; the next of CFG_SEQ starts, or the pass ends. -/
def execPassComplete (t inst : Nat) (s : State) : Host.Outcome State Fault Refusal :=
  let s1 := s.at t
  if s1.frozen then .next s1 else
  match s1.inst inst with
  | none => .next s1
  | some i =>
    match (s1.planOf inst).find? (fun p => p.dispatched && p.inst == some inst) with
    | none => .next s1
    | some p =>
      if p.started = false then .next (s1.runStage p.id)
      else if s1.stageDone i && s1.outletsDone i && s1.groupsDone p i then
        if p.stage + 1 < (entCfgs (s1.image i.load) i.entry).length then
          .next ((((s1.clearRings i).dropRouting p).modPass p.id (fun q => { q with stage := q.stage + 1, started := false })).runStage p.id)
        else .next (s1.endPass p i)
      else .next s1

/-- DEADLINE_GUARD: at DEADLINE - G a live request without a record ends with its fault or INTERNAL, and leaves its slot (10 R352). -/
def execDeadlineGuard (t id : Nat) (s : State) : Host.Outcome State Fault Refusal :=
  let s1 := s.at t
  if s1.frozen then .next s1 else
  match s1.req id with
  | none => .next s1
  | some r => if r.live = true ∧ r.deadline ≤ s1.now + guardNs
              then .next ((s1.endReq r (if r.fault ≠ 0 then r.fault else 0x5F) [] false).afterEnds) else .next s1

end Sys2Proof.Machine
end

