-- ==== Sys2Proof/Machine/Repair.lean ====
section
/-! DEFINITION. Repair of plans after a fault, and the loss of pool objects and pages (06 R212, 10 R353, 11 R373). -/

namespace Sys2Proof.Machine

/-- New starts for a server's undispatched passes from the present time (10 R353 step 1). -/
def State.reshift (s : State) (i : Nat) : State :=
  let plan := s.planOf i
  let und := plan.filter (fun p => !p.dispatched)
  let prev := ((plan.filter (·.dispatched)).map (·.fin)).foldl Nat.max s.now
  s.setPlan (und.map (·.id)) (s.shift prev und)

/-- The member a repair revokes: of the lowest class among the planned members, the one with the latest deadline, ties to the higher
REQ_TAG (10 R353 step 2). Class 2 is the lowest. -/
def worstOf (rs : List Request) : Option Request :=
  rs.foldl (fun best r => match best with
    | none => some r
    | some b => if b.cls < r.cls ∨ (b.cls = r.cls ∧ (b.deadline < r.deadline ∨ (b.deadline = r.deadline ∧ b.tag < r.tag))) then some r else some b)
    none
/-- The members of a server's undispatched passes. -/
def State.plannedOf (s : State) (i : Nat) : List Request :=
  ((s.planOf i).filter (fun p => !p.dispatched)).flatMap (fun p => p.members.filterMap s.req)
/-- A server's plan keeps every least deadline. -/
def State.planKept (s : State) (i : Nat) : Bool := s.planOk ((s.planOf i).filter (fun p => !p.dispatched))

/-- Revoke until every planned pass meets its members' deadlines (10 R353). -/
def State.repairLoop (s : State) (i : Nat) : Nat → State
  | 0 => s
  | n + 1 =>
    let s1 := s.reshift i
    if s1.planKept i then s1
    else match worstOf (s1.plannedOf i) with
      | none => s1
      | some r => (s1.endReq r 0x21 [] false).repairLoop i n
/-- Repair one server's plan. -/
def State.repairServer (s : State) (i : Nat) : State := (s.repairLoop i (s.sv.requests.length + 1)).afterEnds
/-- Repair the plan of every server. -/
def State.repairAll (s : State) : State := s.each (s.sv.insts.map (·.id)) State.repairServer

/-! ### Lost objects -/

/-- End requests with TIER_ERROR at an address. -/
def State.endTier (s : State) (ids : List Nat) (addr : Nat) : State :=
  s.each ids (fun s id => match s.req id with
    | some r => s.endReq { r with faultAddr := if r.fault = 0 then addr else r.faultAddr } (if r.fault = 0 then 0x30 else r.fault) [] false
    | none => s)

/-- A sequence record becomes LOST (11 R373): its steps and the ships that read or fill it end with TIER_ERROR. -/
def State.loseSeq (s : State) (sd id : Nat) : State :=
  let s1 := s.modSeq sd id (fun q => { q with state := .lost })
  let ids := (s.sv.requests.filter (fun r => r.live &&
    ((r.stand == sd && r.seqId == id && (decide (2 ≤ r.opcode ∧ r.opcode ≤ 4) || r.opcode == 0x10)) ||
     (r.opcode == 0x10 && fieldLE r.desc 32 8 == s.ownPid * 2 ^ 48 + sd * 2 ^ 40 + id)))).map (·.id)
  (s1.endTier ids 0).afterEnds

/-- Pool objects are gone without a copy (06 R233, 11 R373): spare pages only leave PAGES; any other page loses its record. -/
def State.loseObjs (s : State) (p : PoolObj → Bool) : State :=
  let gone := s.sv.objs.filter p
  let s1 := s.each gone (fun s o => s.dropObj o.id)
  s1.each ((gone.filter (fun o => o.kind == 2 && !s.isSpare o)).map (fun o => (o.stand, o.manifest))).eraseDups
    (fun s q => s.loseSeq q.1 q.2)

end Sys2Proof.Machine
end

