-- ==== Sys2Proof/Machine/Tiers.lean ====
section
/-! DEFINITION. The near and warm tiers: sector decoding, poison, scrub and loss (06 R204-R219, R235-R237), and the accesses of
leaves through the packet plane (03 R115, R116). -/

namespace Sys2Proof.Machine

def State.modTiers (s : State) (f : Tiers → Tiers) : State := { s with tiers := f s.tiers }

/-! ### Sector decoding (06 R206-R210, R214) -/

/-- What a decoder makes of a word: clean, corrected by an error pattern, or detected and not corrected. -/
inductive Decoded where
  | clean
  | corrected (es : SectorErr)
  | detected
  deriving DecidableEq, Repr

/-- A word with differences in some symbols. -/
def addErrors (w : List Nat) (es : SectorErr) : List Nat := es.foldl (fun l e => l.set e.1 (l.getD e.1 0 ^^^ e.2)) w
/-- The byte lane of a symbol of a near sector: data byte i on lane i mod 32, check byte j on lane 32 + j mod 2 (06 R207). -/
def nearLane (y : Nat) : Nat := if y < 64 then y % 32 else 32 + (y - 64) % 2
/-- Decoding of a near word by mode, with or without a failed lane of its group (06 R208, R209). -/
def nearDecode (mode : Nat) (failed : Option Nat) (w : List Nat) : Decoded :=
  match nearCode.pattern w (match failed with | some l => (List.range 68).filter (fun y => nearLane y == l) | none => []) with
  | none => .detected
  | some [] => .clean
  | some es =>
    if failed.isSome ∨ mode = 0 ∨ mode = 3 then .corrected es
    else if mode = 1 ∧ (es.length = 1 ∨ (es.map (fun e => nearLane e.1)).eraseDups.length = 1) then .corrected es
    else .detected
/-- Decoding of a warm word: symbols 4d to 4d + 3 are device d's (06 R214). -/
def warmDecode (failed : Option Nat) (w : List Nat) : Decoded :=
  match warmCode.pattern w (match failed with | some d => (List.range 4).map (fun i => 4 * d + i) | none => []) with
  | none => .detected
  | some [] => .clean
  | some es => .corrected es

/-- The codeword of a stored near sector (06 R206). -/
def nearWord (bs : List Byte) : List Nat := let d := bs.map (·.toNat); d ++ nearCode.check d
/-- The data bytes of a near word. -/
def nearBytes (w : List Nat) : List Byte := (w.take 64).map (BitVec.ofNat 8)
/-- The codeword of a stored warm sector: data symbol i is bytes 2i and 2i + 1, little-endian (06 R214; log entry 14). -/
def warmWord (bs : List Byte) : List Nat := let d := (List.range 32).map (fun i => fieldLE bs (2 * i) 2); d ++ warmCode.check d
/-- The data bytes of a warm word. -/
def warmData (w : List Nat) : List Byte := (w.take 32).flatMap (leBytes 2)

/-- Enter a sector in the poison map (06 R210). -/
def State.poisonSector (s : State) (key : Nat) (reason : Byte) : State :=
  s.modTiers (fun x => { x with poison := tset 0 x.poison (key / 64) reason })
/-- Enter every sector of a range in the poison map with a reason (07 R258). -/
def State.poisonRange (s : State) (space off n why : Nat) : State :=
  if why = 0 ∨ n = 0 then s
  else s.each (List.range ((off + n - 1) / 64 + 1 - off / 64)) (fun s i => s.poisonSector (memKey space (off / 64 * 64 + 64 * i)) (BitVec.ofNat 8 why))

/-! ### Near tier -/

/-- NTC_CFG fields (06 R238). -/
def State.laneThresh (s : State) (k : Nat) : Nat := Nat.max 1 (s.rf (Reg.ntcCfg k) 23 16)
/-- The failed lane of a group. -/
def State.failedLane (s : State) (k g : Nat) : Option Nat := (List.range 34).find? (fun l => s.rbit (Reg.ntcLane k g) l)
/-- A first event of NTC_ERR_LOG, with an EVENT record for each (06 R238, 16 R541). -/
def State.ntcEvent (s : State) (k kind lane group off : Nat) : State :=
  let v := kind * 2 ^ 60 + lane * 2 ^ 54 + group * 2 ^ 51 + off
  (s.firstEvent (Reg.ntcErrLog k) (Reg.ntcErrTime k) v).event 4 k (2 ^ 63 + v) 0

/-- Change an access. -/
def State.modAcc (s : State) (id : Nat) (f : Access → Access) : State :=
  s.modTiers (fun x => { x with accesses := mapIf (fun b => b.id == id) f x.accesses })
/-- The branch that issued an access. -/
def Access.branch (a : Access) : Option Nat :=
  match a.serves with | .leaf l _ _ => some (l / 64) | .mover b _ _ _ => some b | _ => none
/-- The address a fault of an access records: the stand address of a refused one, else the canopy address (10 R341). -/
def Access.faultAddr (a : Access) (status : Nat) : Nat := if status = 0x40 then a.addr else (Canopy.mk a.pid a.space a.off).addr

/-- The status an access got. A leaf's is charged to the requests it served (03 R116, 06 R237); the others are when the access ends. -/
def State.failAccess (s : State) (a : Access) (status : Nat) : State :=
  (match a.serves with
   | .leaf l _ _ => s.chargePass (l / 64) status (a.faultAddr status)
   | _ => s).modAcc a.id (fun b => { b with err := status })

/-- The branch-memory port an address goes through: lines rotate over the four (DESIGN CHOICE, log entry 24). -/
def bmPort (off : Nat) : Nat := off / 64 % 4
/-- The node of port m (04 R154). -/
def bmNode (m : Nat) : Nat := if m = 0 then 27 else if m = 1 then 28 else if m = 2 then 35 else 36
/-- Where an access is served: a stack, the bark die of a channel or of the route's port, the router of a leaf or branch-memory port. A read
that the branch cache serves goes to its branch's memory. The FTL engine answers volume accesses (space 8 here) at bark die 0 (DESIGN CHOICE, log
entry 24). -/
def State.accPlace (s : State) (a : Access) : Place :=
  if a.hit then .router ((a.branch.getD 0) * 64 + bmNode (bmPort a.off)) 6
  else if a.pid ≠ s.ownPid then .bark (match s.routeTx (s.ownTx (a.kind + 1) a.pid 0 0 0 0 0 [] (if a.cls = 2 then 4 else 2)) with
    | .ok n => n / 10
    | .error _ => 0)
  else if a.space = 0 then .stack (nearStack a.off)
  else if a.space = 1 then .bark (match s.warmPlace a.off with | some (c, _) => c / 12 | none => 0)
  else if a.space = 8 then .bark 0
  else
    let b := a.off / 2 ^ 25
    let r := a.off % 2 ^ 25
    if r < 2 ^ 24 then .router (b * 64 + r / 0x40000) 4 else .router (b * 64 + bmNode (bmPort a.off)) 6

/-- Responses leave the place of an access (04 R158, R160). -/
def State.answer (s : State) (id : Nat) : State :=
  match s.tiers.accesses.find? (fun a => a.id == id) with
  | none => s
  | some a =>
    let s1 := s.modAcc id (fun b => { b with entered := none, toReturn := b.packets })
    s1.each (List.range a.packets) (fun s i =>
      let n := if a.kind = 0 ∧ a.err = 0 then packetBytes a.vc a.len i else if a.kind = 2 then 4 else 0
      s.sendPacket a.vc (s.accPlace a) a.src true (flitsFor n) id)

/-- An access whose controller answers with an error. -/
def State.errorOut (s : State) (a : Access) (status : Nat) : State := (s.failAccess a status).answer a.id

/-- The accesses queued at a near stack or a warm channel. -/
def State.queuedAt (s : State) (near : Bool) (k : Nat) : List Access :=
  s.tiers.accesses.filter (fun a => a.entered.isSome && !a.hit && a.pid == s.ownPid &&
    (if near then a.space == 0 && nearStack a.off == k
     else a.space == 1 && (match s.warmPlace a.off with | some (c, _) => c == k | none => false)))

/-- Map a stack out (06 R212, 17 R553). -/
def State.stackOut (s : State) (k group off : Nat) : State :=
  if s.rf (Reg.ntcStatus k) 2 0 = 4 then s
  else
    let s1 := ((s.wf (Reg.ntcStatus k) 2 0 4).wf (Reg.ntcStatus k) 15 8 0).ntcEvent k 5 0 group off
    let s2 := s1.each (s1.queuedAt true k) (fun s a => s.errorOut a 0x30)
    (s2.loseObjs (fun o => o.frames.any (fun f => f.1 == k))).repairAll

/-- A lane's count reaches its threshold: the lane is marked, or a second one of its group maps the stack out (06 R209). -/
def State.markLane (s : State) (k g lane off : Nat) : State :=
  if s.rbit (Reg.ntcLane k g) lane then s
  else if (s.failedLane k g).isSome then s.stackOut k g off
  else (((s.wbit (Reg.ntcLane k g) lane true).bump (Reg.ntcStatus k) 31 24 1).wf (Reg.ntcStatus k) 2 0 3).ntcEvent k 3 lane g off
/-- Count corrected symbols by byte lane (06 R209). -/
def State.countLanes (s : State) (k g off : Nat) (es : SectorErr) : State :=
  s.each es (fun s e =>
    let lane := nearLane e.1
    let key := (k * 8 + g) * 64 + lane
    if s.failedLane k g = some lane then s
    else
      let s1 := s.modTiers (fun x => { x with laneCount := tmod 0 x.laneCount key (· + 1) })
      if s1.laneThresh k ≤ tget 0 s1.tiers.laneCount key then s1.markLane k g lane off else s1)

/-- Read one near sector whose word comes with differences (06 R208-R211): the state after its counts and logs, and its bytes as
delivered. failed is the lane that was marked at the granule's boundary. A scrub writes a corrected sector back. -/
def State.nearSector (s : State) (k off : Nat) (errs : SectorErr) (failed : Option Nat) (scrub : Bool) : State × List Byte :=
  let key := memKey 0 (k * 2 ^ 37 + off)
  let g := off / 256 % 8
  let w := addErrors (nearWord (s.memRead key 64)) errs
  match nearDecode (s.rf (Reg.ntcCfg k) 1 0) failed w with
  | .clean => (s, nearBytes w)
  | .corrected es =>
    let bs := nearBytes (addErrors w es)
    let s1 := (s.bump (Reg.ntcCeCnt k) 31 0 1).count (0x960 + 4 * k) 1
    ((if scrub then s1.memWrite key bs else s1).countLanes k g off es, bs)
  | .detected =>
    (((((s.memWrite key (nearBytes w)).bump (Reg.ntcUeCnt k) 31 0 1).count (0x962 + 4 * k) 1).poisonSector key 3).ntcEvent k (if scrub then 2 else 1) 0 g
      off, nearBytes w)

/-- Read sectors of a stack that come with differences, in order: the delivered sectors by byte address. A lane marked by one granule counts
as failed from the next granule on (06 R209). -/
def State.nearSectors (s : State) (k : Nat) (errs : List (Nat × SectorErr)) (scrub : Bool) : State × List (Nat × List Byte) :=
  let r := errs.foldl (fun (x : State × List (Nat × List Byte) × Option (Nat × Option Nat)) e =>
    let off := e.1 / 64 * 64
    if 0xFE0000000 ≤ off then x
    else
      let failed := match x.2.2 with
        | some (g, f) => if g = off / 256 then f else x.1.failedLane k (off / 256 % 8)
        | none => x.1.failedLane k (off / 256 % 8)
      let y := x.1.nearSector k off e.2 failed scrub
      (y.1, x.2.1 ++ [(k * 2 ^ 37 + off, y.2)], some (off / 256, failed))) (s, [], none)
  (r.1, r.2.1)

/-! ### Warm tier -/

/-- The SPACE 1 offset of a DIMM address of a channel (06 R216). -/
def State.warmOff (s : State) (c m : Nat) : Nat :=
  let p := s.tiers.pGib * 2 ^ 30
  if m < p ∧ s.tiers.stripe.contains c then
    ((m / 4096) * s.tiers.stripe.length + s.tiers.stripe.idxOf c) * 4096 + m % 4096
  else 0x100000000000 + c * 2 ^ 39 + (m - (if s.tiers.stripe.contains c then p else 0))

/-- The failed device of a subchannel (06 R239). -/
def State.failedDev (s : State) (c sub : Nat) : Option Nat :=
  let v := if sub = 0 then s.rf (Reg.wtcStatus c) 23 20 else s.rf (Reg.wtcStatus c) 19 16
  if v = 0 then none else some (v - 1)
def State.wtcEvent (s : State) (c kind sub dev m : Nat) : State :=
  let v := kind * 2 ^ 60 + sub * 2 ^ 59 + dev * 2 ^ 55 + m
  (s.firstEvent (Reg.wtcErrLog c) (Reg.wtcErrTime c) v).event 5 c (2 ^ 63 + v) 0

/-- Form the stripe set over the channels that are up (06 R215): L from the seed image, P from the smallest capacity. A channel lost in
operation keeps its place in SPACE 1, where every access fails (06 R218). -/
def State.formStripe (s : State) : State :=
  let up := (List.range 24).filter (fun c => s.rf (Reg.wtcStatus c) 2 0 == 2 || s.rf (Reg.wtcStatus c) 2 0 == 3)
  let caps := up.map s.dimmGib
  let p := caps.foldl Nat.min (caps.headD 0) - s.tiers.lGib
  let set := if p < 1 then [] else up
  let s1 := s.modTiers (fun x => { x with
    stripe := set, pGib := if p < 1 then 0 else p,
    warmCap := tabOf 0 24 (fun c => if up.contains c then s.dimmGib c else tget 0 x.warmCap c) })
  s1.each (List.range 24) (fun s c =>
    (s.wbit (Reg.wtcStatus c) 8 (set.contains c)).putReg (Reg.wtcLayout c)
      (set.length * 2 ^ 56 + (if p < 1 then 0 else p) * 2 ^ 40 + s.tiers.lGib * 2 ^ 24))

/-- The place of a SPACE 1 byte after a channel is lost and P has grown from p to p' GiB: striped contents and the lost channel's are
gone, a local byte keeps its DIMM address (06 R216, R218). -/
def rekeyPlace (lost p p' k : Nat) : Option Nat :=
  let off := k % 2 ^ 45
  let c := (off - 0x100000000000) / 2 ^ 39
  let y := (off - 0x100000000000) % 2 ^ 39
  if k / 2 ^ 45 ≠ 1 then some k
  else if off < 0x100000000000 ∨ c = lost then none
  else if p ≤ p' then (if y < (p' - p) * 2 ^ 30 then none else some (k - (p' - p) * 2 ^ 30))
  else some (k + (p - p') * 2 ^ 30)
/-- Memory, and the poison map by sector, with that change. -/
def rekeyWarm (lost p p' : Nat) (mem : List Host.Cell) : List Host.Cell :=
  mem.foldl (fun m e => match rekeyPlace lost p p' e.1 with | some k => tset 0 m k e.2 | none => m) []
def rekeyPoison (lost p p' : Nat) (t : Tab Byte) : Tab Byte :=
  t.foldl (fun m e => match rekeyPlace lost p p' (e.1 * 64) with | some k => tset 0 m (k / 64) e.2 | none => m) []

/-- A spilled page lay, in part, on a lost channel or in what the striped space has taken since (06 R218). -/
def State.spillLost (s : State) (c : Nat) (o : PoolObj) : Bool :=
  o.spilled && (s.unitsOf (s.res o.stand).kvFirst o.spillAt o.size).any (fun u => u.1 == c || (s.localOff u.1 u.2).isNone)
/-- The striped space is gone: warm copies and the images of graft versions. Loads in progress from warm end with TIER_ERROR, the others'
copies are filled again, and the schedules of copy jobs are revised (06 R218, 08 R278, R285). -/
def State.warmLost (s : State) : State :=
  let s1 := s.modSv (fun v => { v with warm := [], grafts := v.grafts.map (fun g => { g with place := [], taken := false, copy := .unverified }) })
  let s2 := s1.each (s1.sv.loads.filter (fun l => !l.manifest.isEmpty && !manLyorn l.manifest && !l.warmOnly && l.phase == .loading)) (fun s l => s.endLoad l 0x30)
  let s3 := s2.each (s2.sv.loads.filter (fun l => !l.manifest.isEmpty && !manLyorn l.manifest && (l.phase == .loading || l.phase == .ready))) (fun s l =>
    s.fillWarm l (warmNeeds l))
  s3.reviseJobs (fun _ => true)
/-- Map a warm channel out (06 R218, 17 R553). -/
def State.channelOut (s : State) (c sub m : Nat) : State :=
  if s.rf (Reg.wtcStatus c) 2 0 = 4 then s
  else
    let s1 := (s.wf (Reg.wtcStatus c) 2 0 4).wtcEvent c 5 sub 0 m
    let s2 := s1.each (s1.queuedAt false c) (fun s a => s.errorOut a 0x30)
    let p := s2.tiers.pGib
    let s3 := s2.formStripe
    let s4 := { s3 with mem := rekeyWarm c p s3.tiers.pGib s3.mem }
    let s5 := s4.modTiers (fun x => { x with poison := rekeyPoison c p s3.tiers.pGib x.poison })
    let lost := (s5.sv.objs.filter (s5.spillLost c)).map (·.id)
    (s5.warmLost.loseObjs (fun o => lost.contains o.id)).repairAll

/-- A device's count reaches DEV_THRESH: the device is marked, or a second one of its subchannel maps the channel out (06 R214). -/
def State.markDev (s : State) (c sub dev m : Nat) : State :=
  match s.failedDev c sub with
  | some d => if d = dev then s else s.channelOut c sub m
  | none =>
    (((if sub = 0 then s.wf (Reg.wtcStatus c) 23 20 (dev + 1) else s.wf (Reg.wtcStatus c) 19 16 (dev + 1))).wf (Reg.wtcStatus c) 2 0 3).wtcEvent
      c 3 sub dev m
def State.countDevs (s : State) (c sub m : Nat) (es : SectorErr) : State :=
  s.each es (fun s e =>
    let dev := e.1 / 4
    let key := (c * 2 + sub) * 16 + dev
    if s.failedDev c sub = some dev then s
    else
      let s1 := s.modTiers (fun x => { x with devCount := tmod 0 x.devCount key (· + 1) })
      if Nat.max 1 (s1.rf (Reg.wtcCfg c) 23 16) ≤ tget 0 s1.tiers.devCount key then s1.markDev c sub dev m else s1)

/-- Read one warm sector at a DIMM address (06 R214). -/
def State.warmSector (s : State) (c m : Nat) (errs : SectorErr) (scrub : Bool) : State × List Byte :=
  let key := memKey 1 (s.warmOff c m)
  let sub := m / 64 % 2
  let w := addErrors (warmWord (s.memRead key 64)) errs
  match warmDecode (s.failedDev c sub) w with
  | .clean => (s, warmData w)
  | .corrected es =>
    let bs := warmData (addErrors w es)
    let s1 := (s.bump (Reg.wtcCeCnt c) 31 0 1).count (0x960 + 4 * (16 + c)) 1
    ((if scrub then s1.memWrite key bs else s1).countDevs c sub m es, bs)
  | .detected =>
    (((((s.memWrite key (warmData w)).bump (Reg.wtcUeCnt c) 31 0 1).count (0x962 + 4 * (16 + c)) 1).poisonSector key 4).wtcEvent c
      (if scrub then 2 else 1) sub 0 m, warmData w)

/-! ### The branch cache (06 R202, 05 R194, R195) -/

/-- Sets of a branch's cache: 8 MiB less the scratch part, in lines of 256 bytes and 8 ways. -/
def Branch.cacheSets (x : Branch) : Nat := (8 - x.scratch) * 512
/-- The line that holds a granule. -/
def Branch.cacheLine (x : Branch) (g : Nat) : Option CacheLine :=
  if x.cacheSets = 0 then none else (tget [] x.cache (g % x.cacheSets)).find? (fun l => l.granule == g)
/-- The granules of a range. -/
def granules (off n : Nat) : List Nat := if n = 0 then [] else (List.range ((off + n - 1) / 256 + 1 - off / 256)).map (off / 256 + ·)
/-- Use the line of a granule: it becomes the most recently used; on a miss it is fetched in place of the least recently used. -/
def Branch.cacheUse (x : Branch) (g : Nat) (bytes why : List Byte) : Branch :=
  if x.cacheSets = 0 then x
  else
    let set := tget [] x.cache (g % x.cacheSets)
    let put := fun (l : List CacheLine) => { x with cache := tset [] x.cache (g % x.cacheSets) l }
    match set.find? (fun l => l.granule == g) with
    | some l => put (l :: set.filter (fun y => y.granule != g))
    | none =>
      if set.length < 8 then put (⟨g, ((List.range 8).find? (fun w => set.all (fun y => y.way != w))).getD 0, bytes, why⟩ :: set)
      else put (⟨g, ((set.getLast?).map (·.way)).getD 0, bytes, why⟩ :: set.dropLast)
/-- A write of the branch updates the cached copies (05 R195). -/
def Branch.cacheWrite (x : Branch) (off : Nat) (bs : List Byte) : Branch :=
  { x with cache := x.cache.map (fun e => (e.1, e.2.map (fun l =>
      { l with
        bytes := l.bytes.zipIdx.map (fun y => let k := l.granule * 256 + y.2; if off ≤ k ∧ k < off + bs.length then bs.getD (k - off) 0 else y.1)
        why := l.why.zipIdx.map (fun y => let k := l.granule * 256 + y.2 * 64; if off ≤ k ∧ k + 64 ≤ off + bs.length then 0 else y.1) }))) }
/-- Every granule of a range is cached. -/
def Branch.cacheHit (x : Branch) (off n : Nat) : Bool := decide (0 < n) && (granules off n).all (fun g => (x.cacheLine g).isSome)
/-- The bytes of a range as a branch sees them: cached copies first, other bytes as delivered. -/
def Branch.cacheBytes (x : Branch) (off n : Nat) (mem : Nat → Byte) : List Byte :=
  (List.range n).map (fun i => match x.cacheLine ((off + i) / 256) with
    | some l => l.bytes.getD ((off + i) % 256) 0
    | none => mem (off + i))
/-- The poison of a range as a branch sees it. -/
def State.cacheWhy (s : State) (b off n : Nat) : Byte :=
  if n = 0 then 0
  else ((List.range ((off + n - 1) / 64 + 1 - off / 64)).map (fun i =>
    let k := off / 64 + i
    match (s.branch b).cacheLine (k / 4) with
    | some l => l.why.getD (k % 4) 0
    | none => s.poisonIn 0 (k * 64) 64)).foldl (fun r x => if r ≠ 0 then r else x) 0
/-- A read of a range uses its lines and fetches the missing ones. -/
def State.cacheFill (s : State) (b off n : Nat) (mem : Nat → Byte) : State :=
  s.each (granules off n) (fun s g =>
    s.modBranch b (fun x => x.cacheUse g ((List.range 256).map (fun i => mem (g * 256 + i))) ((List.range 4).map (fun i => s.poisonIn 0 (g * 256 + i * 64) 64))))

/-! ### Serving an access (03 R115, R116, 06 R205, R235) -/

/-- ATOM's new value (03 R115). -/
def atomValue (fn : Nat) (old rb rc : Word) : Word :=
  if fn = 0 then old + rb
  else if fn = 1 then (fp32Add old rb).1
  else if fn = 2 then (if rb.slt old then rb else old)
  else if fn = 3 then (if old.slt rb then rb else old)
  else if fn = 4 then rb
  else if old = rc then rb else old

/-- A byte with some delivered sectors in place of the stored ones; latest holds (byte address, 64 bytes). -/
def State.byteOver (s : State) (space : Nat) (latest : List (Nat × List Byte)) (k : Nat) : Byte :=
  match latest.find? (fun o => decide (o.1 = k / 64 * 64)) with
  | some o => o.2.getD (k % 64) 0
  | none => s.memByte (memKey space k)

/-- The branch whose cache an access goes through: that of a near-tier access a branch has issued, reads with BYPASS excepted (05 R195). -/
def Access.cacheOf (a : Access) : Option Nat := if a.space = 0 ∧ a.bypass = false then a.branch else none
/-- The poison an atomic or a plain read meets. -/
def State.readWhy (s : State) (a : Access) : Byte :=
  match a.kind, a.cacheOf with
  | 0, some b => s.cacheWhy b a.off a.len
  | _, _ => s.poisonIn a.space a.off a.len
/-- A write of an access goes to its place, and to its branch's cache where that holds a copy (05 R195, 06 R210). -/
def State.accStore (s : State) (a : Access) (bs : List Byte) : State :=
  let s1 := s.store a.space a.off bs
  match a.space, a.branch with
  | 0, some b => s1.modBranch b (fun x => x.cacheWrite a.off bs)
  | _, _ => s1

/-- The word at an on-die place that an access reads is uncorrectable: it carries reason 0x02 (06 R201). -/
def State.spoilAcc (s : State) (id : Nat) (bad : Bool) : State :=
  if bad then s.modAcc id (fun y => if y.kind = 1 then y else { y with poison := if y.poison = 0 then 0x02 else y.poison }) else s
/-- Perform an access at its controller and send its responses (03 R115, 12 R411). -/
def State.serveAccess (s : State) (a : Access) (latest : List (Nat × List Byte)) : State :=
  let mem := s.byteOver a.space latest
  if a.hit then s.answer a.id
  else if a.kind = 0 then
    match a.cacheOf with
    | some b =>
      let s1 := s.modAcc a.id (fun y => { y with data := (s.branch b).cacheBytes a.off a.len mem, poison := s.readWhy a })
      (s1.cacheFill b a.off a.len mem).answer a.id
    | none => (s.modAcc a.id (fun y => { y with data := (List.range a.len).map (fun i => mem (a.off + i)), poison := s.readWhy a })).answer a.id
  else if a.kind = 1 then ((s.accStore a a.data).poisonRange a.space a.off a.len a.poison.toNat).answer a.id
  else
    let old := BitVec.ofNat 32 (leNat ((List.range 4).map (fun i => mem (a.off + i))))
    let s1 := if a.fn = 5 ∧ old ≠ a.rc then s else s.accStore a (leBytes 4 (atomValue a.fn old a.rb a.rc).toNat)
    (s1.modAcc a.id (fun b => { b with data := leBytes 4 old.toNat, poison := s.readWhy a })).answer a.id

/-- Requesters of a controller's queue: 36 at a near stack, 5 at a warm channel (06 R235). -/
def queuePorts (near : Bool) : Nat := if near then 36 else 5
/-- The order of arrival at a controller's queue: ring time, then R163's order of the requester indices. -/
def Access.arrival (near : Bool) (a : Access) : Nat :=
  let e := a.entered.getD 0
  let n := queuePorts near
  (e * 64 + (a.inIdx + n - e / 16 % 65536 % n) % n) * 2 ^ 64 + a.id
/-- R235's order: Express, then Deadline by deadline, then Bulk, each in order of arrival. An earlier access to the same granule of a stack
goes first (06 R205). -/
def State.nextAccess (s : State) (near : Bool) (k : Nat) : Option Access :=
  let q := s.queuedAt near k
  let ready := q.filter (fun x => !near || q.all (fun b => decide (x.arrival near ≤ b.arrival near) ||
    decide (b.off + b.len ≤ x.off / 256 * 256) || decide ((x.off + x.len + 255) / 256 * 256 ≤ b.off)))
  minBy (fun x => (x.cls * 2 ^ 64 + (if x.cls = 1 then x.deadline else 0)) * 2 ^ 200 + x.arrival near) ready

/-- NEAR_ACCESS: the controller of a stack decodes sectors, whose errors the devices deliver, and serves its queue's next access.
Errors of sectors that other requesters read enter the same way (06 R205, R208-R210, R235). -/
def execNearAccess (t k : Nat) (errs : List (Nat × SectorErr)) (s : State) : Host.Outcome State Fault Refusal :=
  let s1 := s.at t
  if s1.nStacks ≤ k then .fault .absentUnit
  else if s1.frozen then .next s1
  else
    let r := s1.nearSectors k errs false
    match r.1.nextAccess true k with
    | none => .next r.1
    | some a => .next (r.1.serveAccess a r.2)

/-- WARM_ACCESS: the same for a warm channel; errors are named by DIMM address (06 R214, R216, R235). -/
def execWarmAccess (t c : Nat) (errs : List (Nat × SectorErr)) (s : State) : Host.Outcome State Fault Refusal :=
  let s1 := s.at t
  if 24 ≤ c ∨ s1.frozen = true then .next s1
  else
    let r := errs.foldl (fun (x : State × List (Nat × List Byte)) e =>
      let m := e.1 / 64 * 64
      let y := x.1.warmSector c m e.2 false
      (y.1, x.2 ++ [(x.1.warmOff c m, y.2)])) (s1, [])
    match r.1.nextAccess false c with
    | none => .next r.1
    | some a => .next (r.1.serveAccess a r.2)

/-- NEAR_PATROL_SCRUB: the next granule of a stack is read and corrected (06 R211). -/
def execNearPatrolScrub (t k : Nat) (errs : List (Nat × SectorErr)) (s : State) : Host.Outcome State Fault Refusal :=
  let s1 := s.at t
  if s1.nStacks ≤ k then .fault .absentUnit
  else if s1.frozen = true ∨ (s1.rf (Reg.ntcStatus k) 2 0 ≠ 2 ∧ s1.rf (Reg.ntcStatus k) 2 0 ≠ 3) then .next s1
  else
    let g := s1.rf (Reg.ntcScrubPos k) 31 0
    let s2 := (s1.nearSectors k ((List.range 4).map (fun i => (g * 256 + i * 64, (errs.find? (fun e => e.1 == i)).map (·.2) |>.getD []))) true).1
    if g + 1 < 266338304 then .next (s2.wf (Reg.ntcScrubPos k) 31 0 (g + 1))
    else
      .next (((s2.wf (Reg.ntcScrubPos k) 31 0 0).bump (Reg.ntcScrubPos k) 63 48 1).modTiers (fun x => { x with
        laneCount := x.laneCount.filter (fun e => e.1 / 512 != k) }))

/-- WARM_PATROL_SCRUB: the next sector of a channel; at the end of a pass the devices' on-die counts are read. rfm refresh-management
commands have been issued since the last scrub (06 R211, R213, R214, R239). -/
def execWarmPatrolScrub (t c : Nat) (errs : SectorErr) (odecc rfm : Nat) (s : State) : Host.Outcome State Fault Refusal :=
  let s1 := s.at t
  if 24 ≤ c ∨ s1.frozen = true ∨ (s1.rf (Reg.wtcStatus c) 2 0 ≠ 2 ∧ s1.rf (Reg.wtcStatus c) 2 0 ≠ 3) then .next s1
  else
    let m := tget 0 s1.tiers.warmScrub c
    let s2 := ((s1.warmSector c (m * 64) errs true).1).bump (Reg.wtcRfm c) 31 0 rfm
    if m + 1 < s1.dimmGib c * 2 ^ 24 then .next (s2.modTiers (fun x => { x with warmScrub := tset 0 x.warmScrub c (m + 1) }))
    else .next ((s2.putReg (Reg.wtcOdecc c) (sat32 odecc)).modTiers (fun x => { x with
      warmScrub := tset 0 x.warmScrub c 0, devCount := x.devCount.filter (fun e => e.1 / 32 != c) }))

/-- STACK_MAP_OUT: the controller of a stack loses its interface (06 R212). -/
def execStackMapOut (t k : Nat) (s : State) : Host.Outcome State Fault Refusal :=
  let s1 := s.at t
  if s1.nStacks ≤ k then .fault .absentUnit else .next (s1.stackOut k 0 0)

/-- WARM_CHANNEL_MAP_OUT: a channel's DIMM stops responding (06 R218). -/
def execWarmChannelMapOut (t c : Nat) (s : State) : Host.Outcome State Fault Refusal :=
  let s1 := s.at t
  if 24 ≤ c ∨ s1.rf (Reg.wtcStatus c) 2 0 = 0 then .next s1 else .next (s1.channelOut c 0 0)

/-- The limit of a tier access: 2 us near, 12 us warm (06 R236). -/
def Access.limit (a : Access) : Nat := if a.space = 0 then 2000 else 12000
/-- TIER_ACCESS_LATE: an access still unserved at its limit gets an error response and is logged (06 R236, R237). -/
def execTierAccessLate (t id : Nat) (s : State) : Host.Outcome State Fault Refusal :=
  let s1 := s.at t
  if s1.frozen then .next s1 else
  match s1.tiers.accesses.find? (fun a => a.id == id && a.pid == s1.ownPid && decide (a.space < 2) && !a.hit) with
  | none => .next s1
  | some a =>
    match a.entered with
    | none => .next s1
    | some e =>
      if s1.now < e + a.limit then .next s1
      else
        let s2 := if a.space = 0 then s1.ntcEvent (nearStack a.off) 4 0 (a.off / 256 % 8) (a.off % 2 ^ 36 / 64 * 64)
          else match s1.warmPlace a.off with
            | some (c, m) => s1.wtcEvent c 4 (m / 64 % 2) 0 (m / 64 * 64)
            | none => s1
        .next (s2.errorOut a 0x30)

/-! ### Leaf accesses (03 R115, R116, 04 R156-R161) -/

/-- The class of a branch's running pass, and the least deadline of its members; without a pass Bulk. -/
def State.accClass (s : State) (b : Nat) : Nat × Nat :=
  match s.passOn b with
  | some p => (p.cls, s.minDeadline p)
  | none => (2, 0)
/-- REQ_TAG of a violation of a branch: the tag of its pass's only member, else 0. -/
def State.passTag (s : State) (b : Nat) : Nat :=
  match (s.passOn b).map (fun p => p.members.filterMap s.req) with
  | some [r] => r.tag
  | _ => 0

/-- An access leaves its source: the request's packets; a read that the branch cache holds is served from it (04 R157, 06 R202). -/
def State.launchAccess (s : State) (a : Access) : State :=
  let hit := a.kind == 0 && a.pid == s.ownPid && (match a.cacheOf with | some b => (s.branch b).cacheHit a.off a.len | none => false)
  let b := (a.branch).getD 0
  let a1 := if hit then { a with hit := true, data := (s.branch b).cacheBytes a.off a.len (fun _ => 0), poison := s.cacheWhy b a.off a.len } else a
  let s1 := s.modTiers (fun x => { x with accesses := x.accesses ++ [a1] })
  let s2 := if hit then s1.cacheFill b a.off a.len (fun _ => 0) else s1
  s2.sendTransfer a.vc a.src (s2.accPlace a1) (a.kind == 1 || a.kind == 2) a.len a.id
/-- A fresh access with no packets on their way yet. -/
def newAccess (id : Nat) (sv : AccFor) (src : Place) (kind fn : Nat) (rb rc : Word) (c : Canopy) (addr : Nat) (data : List Byte) (len : Nat)
    (bypass : Bool) (cls deadline vc : Nat) : Access :=
  ⟨id, sv, src, kind, fn, rb, rc, c.pid, c.space, c.off, addr, data, len, bypass, false, cls, deadline, vc, packetCount vc len, packetCount vc len,
   0, none, 0, 0, 0⟩

/-- Issue of a packet access: translation, the request's packets, the command in the packet unit; a refused translation is an
error response (03 R116, 10 R333). -/
def State.startAccess (s : State) (l kind : Nat) (ladr rd fn : Nat) (rb rc : Word) (addr len : Nat) (data : List Byte) : State :=
  let b := l / 64
  let sd := (s.branch b).stand
  let op : MemOp := if kind = 0 then .read else if kind = 1 then .write else .atomic
  let (id, s1) := s.fresh
  let dst : Option (BitVec 5) := if kind = 2 then some (BitVec.ofNat 5 rd) else none
  let queue := fun (s : State) (left : Nat) => s.modLeaf l (fun lf => { lf with
    queue := lf.queue ++ [⟨.packet, 0, ladr, left, id, 0, 0, 0, .access id (if left = 0 then none else dst), lf.ctx.pc, []⟩] })
  let refused := fun (s : State) =>
    let s2 := ((s.violation sd kind 0 b (l % 64) addr (s.passTag b)).chargePass b 0x40 addr).leafFault l 1 (s.leaf l).ctx.pc ladr
    queue (if kind = 2 then s2.modLeaf l (fun lf => lf.setReg (BitVec.ofNat 5 rd) 0) else s2) 0
  match s1.translate sd addr op with
  | none => refused s1
  | some c =>
    if crosses4k c.off len ∨ (c.pid = s1.ownPid ∧ s1.localOk c.space c.off len = some .violation) then refused s1
    else
      let (cls, dl) := s1.accClass b
      (queue s1 1).launchAccess (newAccess id (.leaf l ladr rd) (.router l 4) kind fn rb rc c addr data len false cls dl (Nat.min cls 2))

/-- The packets of a leaf's access have all returned: the leaf takes the data, or records the fault at the PC of its instruction (03 R116).
After an abort the result is discarded (03 R86). -/
def State.finishLeaf (s : State) (a : Access) (l ladr rd : Nat) : State :=
  let s1 := s.moved (l / 64)
  match (s1.leaf l).queue.find? (fun c => c.unit == .packet && c.upto == a.id) with
  | none => s1
  | some c =>
    let s2 := s1.modLeaf l (fun lf => { lf with
      queue := mapIf (fun c => c.unit == .packet && c.upto == a.id) (fun c => { c with left := 0, op := .access a.id none }) lf.queue })
    if a.err ≠ 0 then
      let s3 := s2.leafFault l 1 c.pc ladr
      if a.kind = 2 then s3.modLeaf l (fun lf => lf.setReg (BitVec.ofNat 5 rd) 0) else s3
    else
      let s3 := if a.kind = 0 then s2.leafStore l .packet [(ladr, a.data)]
        else if a.kind = 2 then s2.modLeaf l (fun lf => lf.setReg (BitVec.ofNat 5 rd) (BitVec.ofNat 32 (leNat a.data))) else s2
      if a.poison ≠ 0 ∧ a.kind ≠ 1 then s3.consume l (some a.poison) c.pc ladr else s3

/-- The 64-bit stand address in registers RA and RA + 1 (03 R115). -/
def Leaf.address (lf : Leaf) (ra : BitVec 5) : Nat := (lf.reg ra).toNat + (lf.reg (ra + 1)).toNat * 2 ^ 32

/-- GET (03 R115): the field holds bytes - 1 (03 R120). -/
def execGet (l : Nat) (g : Guard) (rl ra : BitVec 5) (len : BitVec 12) (s : State) : Host.Outcome State Fault Refusal :=
  if ra.toNat % 2 = 1 then .refused .reservedLeafCode
  else s.issue l g [.g rl, .g ra, .g (ra + 1)] (fun s =>
    let lf := s.leaf l
    if lf.hasRoom .packet 0 then
      .done (s.startAccess l 0 (lineOf (lf.reg rl).toNat) 0 0 0 0 (lf.address ra) (len.toNat + 1) [])
    else .queueWait)

/-- PUT (03 R115). -/
def execPut (l : Nat) (g : Guard) (rl ra : BitVec 5) (len : BitVec 12) (s : State) : Host.Outcome State Fault Refusal :=
  if ra.toNat % 2 = 1 then .refused .reservedLeafCode
  else s.issue l g [.g rl, .g ra, .g (ra + 1)] (fun s =>
    let lf := s.leaf l
    let n := len.toNat + 1
    let a := lineOf (lf.reg rl).toNat
    if lf.hasRoom .packet 0 then
      .done (s.startAccess l 1 a 0 0 0 0 (lf.address ra) n (s.leafRead l .packet a n))
    else .queueWait)

/-- ATOM (03 R115). -/
def execAtom (l : Nat) (g : Guard) (rd ra rb rc : BitVec 5) (fn : BitVec 3) (s : State) : Host.Outcome State Fault Refusal :=
  if ra.toNat % 2 = 1 ∨ 5 < fn.toNat then .refused .reservedLeafCode
  else s.issue l g [.g rd, .g ra, .g (ra + 1), .g rb, .g rc] (fun s =>
    let lf := s.leaf l
    if lf.hasRoom .packet 0 then
      .done (s.startAccess l 2 0 rd.toNat fn.toNat (lf.reg rb) (lf.reg rc) (lf.address ra) 4 [])
    else .queueWait)

/-- The hub of a die that packets of a source come in by (04 R155, R156). -/
def State.hubFrom (s : State) (src : Place) (d : Nat) : Nat :=
  match src with
  | .router l _ => hubEntered (dieOf (s.leafXY l)) (s.dieXY d)
  | .stack k => hubEntered (s.dieXY (k / 2)) (s.dieXY d)
  | .bark n => if n = 0 then 3 else 1
/-- The requester index of an access at its controller (06 R235). -/
def State.queueIndex (s : State) (a : Access) : Nat :=
  match s.accPlace a with
  | .stack k =>
    let home := if k % 2 = 0 then 0 else 2
    let own := match a.src with | .router l _ => dieOf (s.leafXY l) == s.dieXY (k / 2) | _ => false
    if own then (match a.src with | .router l _ => (s.leafXY l).1 % 32 | _ => 0)
    else
      let h := s.hubFrom a.src (k / 2)
      if h = home then 35 else 32 + ((List.range 4).filter (fun x => x != home && decide (x < h))).length
  | .bark _ => match a.serves, a.src with
    | .tx _ _, _ => 3
    | .host _ _, _ => 2
    | _, .router l _ => (dieOf (s.leafXY l)).2
    | _, _ => 4
  | _ => 0

/-- The last request packet of an access has arrived: leaf memory serves it, a branch memory or tier queues it or, where it has failed,
answers with an error, another part is reached over Urren. -/
def State.accessArrived (s : State) (a : Access) : State :=
  let wait := s.modAcc a.id (fun b => { b with entered := some s.now, inIdx := s.queueIndex a })
  if a.hit then wait
  else if a.pid ≠ s.ownPid then
    let vc := if a.cls = 2 then 4 else 2
    let arg := if a.kind = 2 then a.rb.toNat + a.rc.toNat * 2 ^ 32 else 0
    let addr := (Canopy.mk a.pid a.space a.off).addr
    let tx := s.ownTx (a.kind + 1) a.pid addr (if a.kind = 1 then 1 else 0) (s.branch ((a.branch).getD 0)).stand (if a.kind = 2 then a.fn else 0) arg
      (if a.kind = 1 then a.data else []) vc
    let tx' := if a.kind = 0 then { tx with len := a.len } else tx
    match s.launch tx' (.access a.id) with
    | (s1, none) => s1
    | (s1, some e) => s1.errorOut a (respStatus e)
  else if a.space = 2 then (if a.off % 2 ^ 25 < 2 ^ 24 then s.serveAccess a [] else wait)
  else if a.space = 8 then (if s.rf Reg.ftlStatus 2 0 = 0 ∨ 4 < s.rf Reg.ftlStatus 2 0 ∨ (a.kind = 1 ∧ s.rf Reg.ftlStatus 2 0 = 4) then s.errorOut a 0x30 else wait)
  else if s.localOk a.space a.off a.len = some .tierFailed then s.errorOut a 0x30
  else wait

/-! ### Arbitration (04 R163) -/

/-- The oldest access that waits at branch-memory port m of a branch. -/
def State.bmHead (s : State) (b m : Nat) : Option Access :=
  minBy (fun a => (a.entered.getD 0) * 2 ^ 64 + a.id)
    (s.tiers.accesses.filter (fun a => a.entered.isSome && s.accPlace a == .router (b * 64 + bmNode m) 6))
/-- One grant of the branch-memory banks (atomic = false) or the atomic unit among the branch-memory ports. -/
def State.bmGrant (s : State) (b : Nat) (atomic bad : Bool) : State :=
  let heads := (List.range 4).filterMap (fun m => (s.bmHead b m).bind (fun a => if (a.kind == 2) == atomic then some (m, a) else none))
  match arbWinner s.now 4 (heads.map (·.1)) with
  | none => s
  | some w => match heads.find? (fun h => h.1 == w) with
    | some (_, a) => (s.serveAccess a []).spoilAcc a.id bad
    | none => s

/-- PACKET_ARBITRATION: R163 at an output of a router on a virtual channel (port: 0-3 the sides, 4 endpoint, 5 tile mover, 6 branch-memory
port, and the channel), at the banks of the branch memory (7), which the model takes as one resource (log entry 24), or at its atomic unit
(8). bad: a word the granted access reads there is uncorrectable (06 R201). -/
def execPacketArbitration (t leaf : Nat) (port : Nat × Nat) (bad : Bool) (s : State) : Host.Outcome State Fault Refusal :=
  if s.nLeaves ≤ leaf then .fault .absentUnit
  else
    let s1 := s.at t
    if s1.frozen then .next s1
    else if port.1 = 7 then .next (s1.bmGrant (leaf / 64) false bad)
    else if port.1 = 8 then .next (s1.bmGrant (leaf / 64) true bad)
    else .next (s1.arbitrate leaf port.1 port.2)

end Sys2Proof.Machine
end

