-- ==== Sys2Proof/Machine/Deep.lean ====
section
/-! DEFINITION. The deep tier: volumes through the flash translation layer (06 R220-R230, 17 R553). -/

namespace Sys2Proof.Machine

def State.modFtl (s : State) (f : Ftl → Ftl) : State := s.modTiers (fun x => { x with ftl := f x.ftl })
def State.ftlState (s : State) : Nat := s.rf Reg.ftlStatus 2 0
/-- Bytes of a logical block (06 R222). -/
def blockSize : Nat := 16384
/-- The memory key of a byte of the volumes. -/
def volKey (block off : Nat) : Nat := memKey 8 (block * 16384 + off)

/-! ### Superblocks (06 R221, R227) -/

/-- Data pages of a superblock. -/
def State.sbRoom (s : State) (b : SuperBlock) : Nat := s.tiers.ftl.pagesPerBlock * (b.chans.length - 1)
/-- The channel of data page i: the parity page of stripe p lies on position (id + p) mod W. -/
def SuperBlock.chanOf (b : SuperBlock) (i : Nat) : Nat :=
  let w := b.chans.length
  let par := (b.id + i / (w - 1)) % w
  let j := i % (w - 1)
  b.chans.getD (if j < par then j else j + 1) 0
/-- The channels that a superblock can be written over: those of the stripe set whose chip enable answers and whose block is good (06 R221,
R227). -/
def Ftl.usable (x : Ftl) (b : SuperBlock) : List Nat := x.channels.filter (fun c => !b.bad.contains c && !x.offCe.contains (c, b.ce))
/-- A free superblock: nothing is written on it, and two of its blocks are good. -/
def State.sbFree (s : State) (b : SuperBlock) : Bool := b.pages.isEmpty && decide (2 ≤ (s.tiers.ftl.usable b).length)
/-- The parity page of the stripe of data page i is programmed (06 R225). -/
def SuperBlock.closed (b : SuperBlock) (i : Nat) : Bool := let w := b.chans.length - 1; decide ((i / w + 1) * w ≤ b.pages.length)
def State.sb (s : State) (id : Nat) : Option SuperBlock := s.tiers.ftl.blocks.find? (fun b => b.id == id)
def State.modSb (s : State) (id : Nat) (f : SuperBlock → SuperBlock) : State :=
  s.modFtl (fun x => { x with blocks := mapIf (fun b => b.id == id) f x.blocks })

/-- Logical capacity (06 R222), recomputed at bring-up and when the rewriting of R228 ends: FTL_CAP holds it. -/
def State.ftlCap (s : State) : Nat :=
  let w := s.tiers.ftl.channels.length
  let op := Nat.max 3 (Nat.min 50 (s.rf Reg.ftlCfg 7 0))
  if w = 0 then 0 else s.tiers.ftl.goodPages * (w - 1) / w * (100 - op) / 100
/-- FTL_FREE, FTL_WEAR and REBUILD_PCT follow the superblocks; at 1 % free or less the FTL is read-only (06 R227, R228, R241). -/
def State.ftlRegs (s : State) : State :=
  let f := s.tiers.ftl
  let free := (f.blocks.filter s.sbFree).length
  let pes := f.blocks.map (·.pe)
  let s1 := (s.putReg Reg.ftlFree free).putReg Reg.ftlWear (pes.foldl Nat.max 0 * 2 ^ 32 + pes.foldl Nat.min (pes.headD 0))
  let s2 := s1.wf Reg.ftlJournal 31 0 (f.journal / 1024)
  let left := ((f.lostPos.map (·.1)).eraseDups).length
  let s3 := if f.rebuilding = true ∧ f.rebuildOf ≠ 0 then s2.wf Reg.ftlStatus 23 16 ((f.rebuildOf - left) * 100 / f.rebuildOf) else s2
  if free * 100 ≤ f.blocks.length ∧ (s3.ftlState = 2 ∨ s3.ftlState = 3) ∧ f.blocks ≠ [] then s3.wf Reg.ftlStatus 2 0 4 else s3

/-- Count NAND pages programmed. -/
def State.nandWr (s : State) (n : Nat) : State := s.bump Reg.ftlNandWr 63 0 n
/-- Pages of a checkpoint of the whole map (06 R222, R223). -/
def State.mapPages (s : State) : Nat := cdiv (s.ftlCap * 8) 16384
/-- A journal record; past 1 GiB the map is checkpointed and a new journal starts (06 R223). -/
def State.journalAdd (s : State) : State :=
  let j := s.tiers.ftl.journal
  let j' := j + Config.journalBytes s.free
  let s1 := s.tick.nandWr (j' / 16384 - j / 16384)
  if 2 ^ 30 < j' then (s1.nandWr s1.mapPages).modFtl (fun x => { x with journal := 0 })
  else s1.modFtl (fun x => { x with journal := j' })

/-- The superblock that takes the next page: the open one, or the free one with the lowest erase count (06 R227). -/
def State.openSb (s : State) : Option SuperBlock :=
  let fresh := minBy (fun x => x.pe) (s.tiers.ftl.blocks.filter s.sbFree)
  match s.tiers.ftl.openBlk.bind s.sb with
  | some b => if b.pages.length < s.sbRoom b then some b else fresh
  | none => fresh

/-! ### The map in the warm tier (06 R223) -/

/-- The unit and byte at which byte x of a list of unit ranges lies, the ranges filled in order. -/
def rangeByte : List (Nat × Nat) → Nat → Option (Nat × Nat)
  | [], _ => none
  | r :: l, x => if x < r.2 * 2 ^ 21 then some (r.1, x) else rangeByte l (x - r.2 * 2 ^ 21)
/-- The SPACE 1 offset of a logical block's 8-byte map entry. -/
def State.mapOff (s : State) (block : Nat) : Option Nat := (rangeByte s.tiers.ftlRanges (8 * block)).bind (fun r => s.unitOff r.1 r.2)
/-- A map entry can be read: its place is there, its channel answers, its bytes are not poisoned. An access whose entry cannot be read ends
with an error (DEDUCED from 06 R218 and R223, log entry 30). -/
def State.mapReadable (s : State) (block : Nat) : Bool :=
  match s.mapOff block with
  | none => false
  | some off => (s.localOk 1 off 8).isNone && s.poisonIn 1 off 8 == 0
/-- A map entry is written: bit 63, the superblock and the page (a layout of the model's: log entry 30). -/
def State.setMap (s : State) (block sb page : Nat) : State :=
  let s1 := s.modFtl (fun x => { x with map := tset none x.map block (some (sb, page)) })
  match s.mapOff block with
  | some off => if (s.localOk 1 off 8).isNone then s1.store 1 off (leBytes 8 (2 ^ 63 + sb * 2 ^ 32 + page)) else s1
  | none => s1

/-- Program the data page of a logical block and its journal record, then map it there (06 R221, R223, R224, R227); none where no
superblock is free. A full stripe's parity page follows. -/
def State.program (s : State) (block : Nat) : Option State :=
  match s.openSb with
  | none => none
  | some b =>
    let i := b.pages.length
    let chans := if b.pages.isEmpty then s.tiers.ftl.usable b else b.chans
    let w := chans.length
    let s1 := match tget none s.tiers.ftl.map block with
      | some (o, p) => s.modSb o (fun x => { x with pages := x.pages.set p none })
      | none => s
    let s2 := s1.modSb b.id (fun x => { x with chans := chans, pages := x.pages ++ [some block] })
    let full := w ≤ 1 ∨ (i + 1) % (w - 1) = 0
    let s3 := s2.modFtl (fun x => { x with
      openBlk := some b.id
      openSince := if full then none else (match x.openSince with | some t => some t | none => some s.now) })
    some (((s3.setMap block b.id i).nandWr (if full then 2 else 1)).journalAdd.ftlRegs)

/-- Close the open stripe: padding, then its parity page (06 R225). -/
def State.closeStripe (s : State) : State :=
  match s.tiers.ftl.openSince, s.tiers.ftl.openBlk.bind s.sb with
  | some _, some b =>
    let w := b.chans.length - 1
    let pad := (w - b.pages.length % w) % w
    ((s.modSb b.id (fun x => { x with pages := x.pages ++ List.replicate pad none })).modFtl (fun x => { x with openSince := none })).nandWr (pad + 1)
  | _, _ => s
/-- The deep tier at work: a stripe whose first page is 100 ms old has been closed (06 R225). -/
def State.deepAt (s : State) (t : Nat) : State :=
  let s1 := s.at t
  match s1.tiers.ftl.openSince with
  | some t0 => if s1.frozen = false ∧ t0 + 100000000 ≤ s1.now then s1.closeStripe else s1
  | none => s1

/-! ### Decoding (06 R226) -/

/-- Lost codewords of a block are delivered poisoned with the deep-tier reason until it is written again. -/
def State.loseCw (s : State) (block cw : Nat) : State :=
  s.each (List.range 64) (fun s i => s.poisonSector (volKey block (cw * 4096 + i * 64)) 5)
/-- Decode one codeword of a page on a channel. -/
inductive CwOut where
  | hard
  | soft
  | rebuilt (soft : Bool)
  | lost (soft : Bool)
/-- How a codeword of data page i is decoded when the devices fail so many stages (1 hard, 2 soft, 3 other pages of the stripe): a page on a
lost position has parity alone, and parity serves where it is programmed and no other position of the stripe is lost (06 R225-R228). -/
def State.cwOutcome (s : State) (b : SuperBlock) (i fails : Nat) : CwOut :=
  let lost := (s.tiers.ftl.lostPos.filter (fun p => p.1 == b.id)).map (·.2)
  let gone := lost.contains (b.chanOf i)
  let can := b.closed i && decide (fails < 3) && (lost.filter (fun c => c != b.chanOf i)).isEmpty
  if gone then (if can then .rebuilt false else .lost false)
  else if fails = 0 then .hard
  else if fails = 1 then .soft
  else if can then .rebuilt true else .lost true
def State.decodeCw (s : State) (ch block cw : Nat) (out : CwOut) : State :=
  let s1 := s.bump (Reg.dtcCwRead ch) 31 0 1
  let soft := fun (s : State) (x : Bool) => if x then s.bump (Reg.dtcCwSoft ch) 31 0 1 else s
  match out with
  | .hard => s1
  | .soft => (soft s1 true).count (0x960 + 4 * (40 + ch)) 1
  | .rebuilt x => ((soft s1 x).bump (Reg.dtcCwRebuilt ch) 31 0 1).count (0x960 + 4 * (40 + ch)) 1
  | .lost x => (((soft s1 x).bump (Reg.dtcCwLost ch) 31 0 1).count (0x962 + 4 * (40 + ch)) 1).loseCw block cw
/-- Read data page i of a superblock: fails[k] are the failed stages of codeword k. Each block counts its reads: two more for a soft decode, one
on each other channel for a rebuild (06 R226, R227; log entry 30). -/
def State.readPage (s : State) (b : SuperBlock) (i block : Nat) (fails : List Nat) : State :=
  let ch := b.chanOf i
  let worst := ((List.range 4).map (fun k => fails.getD k 0)).foldl Nat.max 0
  let gone := s.tiers.ftl.lostPos.contains (b.id, ch)
  let s1 := s.modSb b.id (fun x => { x with reads := x.chans.foldl (fun r c =>
    let n := if c = ch then (if gone then 0 else if worst = 0 then 1 else 3) else if worst ≥ 2 ∨ gone = true then 1 else 0
    if n = 0 then r else tmod 0 r c (· + n)) x.reads })
  s1.each (List.range 4) (fun s k => s.decodeCw ch block k (s.cwOutcome b i (fails.getD k 0)))
/-- Read a logical block; one never written reads as zeros without a device read (06 R229). -/
def State.readBlock (s : State) (block : Nat) (fails : List Nat) : State :=
  let s1 := s.bump Reg.ftlHostRd 63 0 1
  match tget none s.tiers.ftl.map block with
  | none => s1
  | some (id, i) => match s.sb id with
    | none => s1
    | some b => s1.readPage b i block fails

/-- Move a superblock's valid pages and erase it: nothing of it is then on a lost position (06 R227, R228). -/
def State.moveSb (s : State) (id : Nat) : State :=
  match s.sb id with
  | none => s
  | some b =>
    let s0 := s.modFtl (fun x => { x with openBlk := if x.openBlk = some id then none else x.openBlk,
                                          openSince := if x.openBlk = some id then none else x.openSince })
    let s1 := s0.each b.pages.zipIdx (fun s p => match p.1 with
      | some blk => if s.openSb.isSome then ((s.readPage b p.2 blk []).program blk).getD s else s
      | none => s)
    let kept := match s1.sb id with | some x => x.pages.any (·.isSome) | none => false
    if kept then s1.ftlRegs
    else (((s1.modSb id (fun x => { x with pages := [], reads := [], pe := x.pe + 1 })).modFtl (fun x => { x with
      lostPos := x.lostPos.filter (fun p => p.1 != id) })).bump Reg.ftlMoved 63 0 1).ftlRegs

/-! ### Volumes (06 R229) -/

/-- The logical block of a volume's block for a stand; none is a violation. -/
def State.volBlock (s : State) (sd v blk : Nat) : Option Nat :=
  if 256 ≤ v then none
  else
    let a := s.reg (Reg.ftlVolA v)
    let size := s.rf (Reg.ftlVolB v) 47 0
    if a.testBit 63 = false ∨ fld a 61 56 ≠ sd ∨ size ≤ blk then none else some (fld a 47 0 + blk)
/-- The bytes of a block: zeros where it was never written. -/
def State.volBytes (s : State) (block n : Nat) : List Byte := s.memRead (volKey block 0) n
/-- The poison reason of a range of the volumes. -/
def State.volPoison (s : State) (block off n : Nat) : Byte := s.poisonIn 8 (block * 16384 + off) n
/-- The FTL answers accesses: replay has ended, and a checkpoint was read (06 R223). -/
def State.ftlReady (s : State) : Bool := s.ftlState == 2 || s.ftlState == 3 || s.ftlState == 4
/-- The FTL takes writes. -/
def State.ftlWrites (s : State) : Bool := s.ftlState == 2 || s.ftlState == 3

/-- Write bytes of a logical block: its page and its journal record are programmed first (06 R224); false where the map or the
superblocks do not allow it. -/
def State.volWrite (s : State) (block off : Nat) (bs : List Byte) : State × Bool :=
  if s.mapReadable block = false then (s, false)
  else match s.program block with
    | none => (s, false)
    | some s1 => ((s1.store 8 (block * 16384 + off) bs).bump Reg.ftlHostWr 63 0 1, true)

/-- The access that the deep tier serves next: class order, then deadline, then arrival (06 R235). -/
def State.nextVol (s : State) : Option Access :=
  minBy (fun x => (x.cls * 2 ^ 64 + (if x.cls = 1 then x.deadline else 0)) * 2 ^ 200 + x.arrival false)
    (s.tiers.accesses.filter (fun a => a.entered.isSome && a.space == 8 && a.pid == s.ownPid))

/-- VOLUME_READ: a logical block is read; fails[i] is how many decoding stages fail for codeword i as the devices show it (0 hard
decodes, 3 the other pages of the stripe do not rebuild it). Where the access the tier serves next reads that block, it is served;
otherwise the root processor reads it. Until replay ends it waits (06 R223, R226, R229, R235). -/
def execVolumeRead (t block : Nat) (fails : List Nat) (s : State) : Host.Outcome State Fault Refusal :=
  let s1 := s.deepAt t
  if s1.ftlReady = false ∨ s1.frozen = true then .next s1
  else match s1.nextVol with
    | some a =>
      if a.kind = 0 ∧ a.off / 16384 = block then
        if s1.mapReadable block then .next ((s1.readBlock block fails).serveAccess a []) else .next (s1.errorOut a 0x30)
      else .next (s1.readBlock block fails)
    | none => .next (s1.readBlock block fails)

/-- VOLUME_WRITE: a logical block is programmed and journalled. Where the access the tier serves next writes that block, its data are
written; otherwise the root processor writes data. The FTL refuses it while read-only or failed, and it waits during
replay (06 R223, R224, R227). -/
def execVolumeWrite (t block : Nat) (data : List Byte) (s : State) : Host.Outcome State Fault Refusal :=
  let s1 := s.deepAt t
  if s1.ftlState = 1 ∨ s1.frozen = true then .next s1
  else
    let root := if s1.ftlWrites = false ∨ s1.rf Reg.ftlCap 47 0 ≤ block then s1
      else (s1.volWrite block 0 ((data ++ List.replicate 16384 0).take 16384)).1
    match s1.nextVol with
    | some a =>
      if a.kind = 1 ∧ a.off / 16384 = block then
        if s1.ftlWrites = false ∨ s1.rf Reg.ftlCap 47 0 ≤ block then .next (s1.errorOut a 0x30)
        else match s1.volWrite block (a.off % 16384) a.data with
          | (s2, false) => .next (s2.errorOut a 0x30)
          | (s2, true) => .next ((s2.poisonRange 8 a.off a.len a.poison.toNat).answer a.id)
      else .next root
    | none => .next root

/-- The extent of the volumes (06 R229). -/
def State.volExtent (s : State) : Nat :=
  (List.range 256).foldl (fun n v =>
    if s.rbit (Reg.ftlVolA v) 63 then Nat.max n (s.rf (Reg.ftlVolA v) 47 0 + s.rf (Reg.ftlVolB v) 47 0) else n) 0

/-- Checkpoint and journal give the map, which is written to its place in the warm tier (06 R223). -/
def State.loadMap (s : State) : State :=
  s.each s.tiers.ftl.map (fun s e => match e.2 with
    | some (b, p) => s.setMap e.1 b p
    | none => s)
/-- FTL_REPLAY_END: the map is in place and volume accesses proceed (06 R223). -/
def execFtlReplayEnd (t : Nat) (s : State) : Host.Outcome State Fault Refusal :=
  let s1 := s.at t
  if s1.ftlState ≠ 1 ∨ s1.frozen = true then .next s1
  else .next ((s1.loadMap.wf Reg.ftlStatus 2 0 (if s1.tiers.ftl.rebuilding then 3 else 2)).ftlRegs)

/-- STRIPE_CLOSE: the open stripe is padded and its parity page programmed (06 R225). -/
def execStripeClose (t : Nat) (s : State) : Host.Outcome State Fault Refusal :=
  let s1 := s.at t
  if s1.frozen then .next s1 else .next s1.closeStripe

/-- STATIC_WEAR_LEVEL_MOVE (06 R227). -/
def execStaticWearLevelMove (t : Nat) (s : State) : Host.Outcome State Fault Refusal :=
  let s1 := s.deepAt t
  let bs := s1.tiers.ftl.blocks
  match minBy (fun b => b.pe) bs with
  | none => .next s1
  | some b => if s1.frozen = true ∨ (bs.map (·.pe)).foldl Nat.max 0 ≤ b.pe + s1.rf Reg.ftlCfg 39 24 then .next s1 else .next (s1.moveSb b.id)

/-- READ_LIMIT_RELOCATE: a block of the superblock has reached RD_LIMIT reads (06 R227). -/
def execReadLimitRelocate (t id : Nat) (s : State) : Host.Outcome State Fault Refusal :=
  let s1 := s.deepAt t
  match s1.sb id with
  | none => .next s1
  | some b => if s1.frozen = true ∨ b.chans.all (fun c => decide (tget 0 b.reads c < s1.rf Reg.ftlCfg 63 40)) = true then .next s1 else .next (s1.moveSb id)

/-- FTL_PATROL_READ: a written page is read; where a codeword needs soft decode its superblock's data is moved (06 R227). -/
def execFtlPatrolRead (t id page : Nat) (fails : List Nat) (s : State) : Host.Outcome State Fault Refusal :=
  let s1 := s.deepAt t
  match s1.sb id with
  | none => .next s1
  | some b =>
    match b.pages[page]? with
    | some (some block) =>
      if s1.frozen = true ∨ s1.ftlReady = false then .next s1
      else
        let s2 := s1.readPage b page block fails
        if (List.range 4).any (fun k => fails.getD k 0 != 0) then .next (s2.moveSb id) else .next s2
    | _ => .next s1

/-- The data pages of the good blocks of some superblocks on a channel leave the count of good pages (06 R222, R227, R228). -/
def State.dropPages (s : State) (ch : Nat) (ids : List Nat) : State :=
  let n := (s.tiers.ftl.blocks.filter (fun b => ids.contains b.id && (s.tiers.ftl.usable b).contains ch)).length
  s.modFtl (fun x => { x with goodPages := x.goodPages - x.pagesPerBlock * n })

/-- NAND_PROGRAM_FAIL: the block of a superblock on a channel fails a program or erase: it is retired, and its stripes' data is
rewritten elsewhere (06 R227). -/
def execNandProgramFail (t id ch : Nat) (s : State) : Host.Outcome State Fault Refusal :=
  let s1 := s.deepAt t
  match s1.sb id with
  | none => .next s1
  | some b =>
    if b.bad.contains ch = true ∨ 32 ≤ ch ∨ s1.frozen = true then .next s1
    else .next ((((s1.bump (Reg.dtcRetired ch) 31 0 1).dropPages ch [id]).modSb id (fun x => { x with bad := x.bad ++ [ch] })).moveSb id).ftlRegs

/-- Pages on a lost position that parity does not give read as lost: those of an open stripe and those of a stripe that has lost two (06 R225,
R228). -/
def State.loseStripes (s : State) : State :=
  s.each s.tiers.ftl.blocks (fun s b =>
    s.each b.pages.zipIdx (fun s p => match p.1 with
      | some block => if s.tiers.ftl.lostPos.contains (b.id, b.chanOf p.2) then
          (match s.cwOutcome b p.2 0 with
           | .lost _ => s.each (List.range 4) (fun s k => s.loseCw block k)
           | _ => s) else s
      | none => s))

/-- DEEP_CHANNEL_LOSS: a whole channel, or one chip enable of it, fails: a ready FTL is degraded, and rewriting begins (06 R228, 17
R553). -/
def execDeepChannelLoss (t ch ce : Nat) (whole : Bool) (s : State) : Host.Outcome State Fault Refusal :=
  let s1 := s.deepAt t
  if s1.tiers.ftl.channels.contains ch = false ∨ (whole = false ∧ 8 ≤ ce) then .next s1
  else
    let on := (s1.tiers.ftl.blocks.filter (fun b => whole || b.ce == ce)).map (·.id)
    let hit := s1.tiers.ftl.blocks.filter (fun b => on.contains b.id && b.chans.contains ch && !b.pages.isEmpty)
    let s2 := if whole then s1.wf (Reg.dtcStatus ch) 2 0 4
      else ((s1.wf (Reg.dtcStatus ch) 2 0 3).wbit (Reg.dtcStatus ch) (16 + ce) true).faultLog 10 (ch * 8 + ce) 0
    let s3 := if s2.ftlState = 2 then s2.wf Reg.ftlStatus 2 0 3 else s2
    let s4 := (s3.dropPages ch on).modFtl (fun x =>
      let lost := (x.lostPos ++ hit.map (fun b => (b.id, ch))).eraseDups
      { x with
        rebuilding := true, channels := if whole then x.channels.filter (fun c => c != ch) else x.channels
        offCe := if whole then x.offCe else x.offCe ++ [(ch, ce)]
        lostPos := lost, rebuildOf := ((lost.map (·.1)).eraseDups).length, openBlk := none, openSince := none })
    .next s4.loseStripes.ftlRegs

/-- FTL_REBUILD_END: every stripe with a page on a lost position has been rewritten; the state returns to ready, or to read-only
where the capacity no longer holds the volumes (06 R228). -/
def execFtlRebuildEnd (t : Nat) (s : State) : Host.Outcome State Fault Refusal :=
  let s1 := s.deepAt t
  if s1.tiers.ftl.rebuilding = false ∨ s1.frozen = true ∨ s1.ftlReady = false then .next s1
  else
    let s2 := s1.each ((s1.tiers.ftl.lostPos.map (·.1)).eraseDups) State.moveSb
    if s2.tiers.ftl.lostPos ≠ [] then .next s2
    else
      let s3 := s2.modFtl (fun x => { x with rebuilding := false, rebuildOf := 0 })
      let s4 := ((s3.putReg Reg.ftlCap s3.ftlCap).wf Reg.ftlStatus 15 8 s3.tiers.ftl.channels.length).wf Reg.ftlStatus 23 16 100
      .next ((s4.wf Reg.ftlStatus 2 0 (if s4.ftlCap < s4.volExtent then 4 else 2)).ftlRegs)

end Sys2Proof.Machine
end

