-- ==== Sys2Proof/Machine/Admin.lean ====
section
/-! DEFINITION. Admin messages: their header, senders and receipt (13 R454-R457). -/

namespace Sys2Proof.Machine

def Admin.stop (a : Admin) (s : State) (status : Nat) : State := s.adminEnd a.id status []
/-- The stand that sends, if a stand does; the management path else (13 R455). -/
def sourceStand : Source → Option Nat
  | .stand sd => some sd
  | .hostPort f => if f = 0 then none else some (f - 1)
  | _ => none
/-- STAND and MGMT match the sender (13 R455). -/
def headerOk (src : Source) (m : List Byte) : Bool :=
  zeros m 9 7 && zeros m 16 16 &&
  (match sourceStand src with
   | some sd => decide (fieldLE m 8 1 = sd)
   | none => (fieldLE m 8 1).testBit 7 && !(fieldLE m 8 1).testBit 6)
/-- Messages of one sender in progress (13 R457). -/
def State.inProgress (s : State) (src : Source) : Nat :=
  (s.sv.admins.filter (fun a => if (sourceStand src).isSome then a.src == src else (sourceStand a.src).isNone)).length

/-- Leave part S2: every branch wakes, and PWR_WAKE holds the cause; ACCEPTING stays 0 (14 R477, R478). -/
def State.leaveS2 (s : State) (cause source : Nat) : State :=
  if s.rf Reg.pwrStatus 18 16 ≠ 2 then s
  else (((s.wf Reg.pwrStatus 18 16 0).wf Reg.pwrWake 2 0 cause).wf Reg.pwrWake 15 8 source).wake (List.range s.nBranches)

/-- A message that a freeze leaves running: CAP_SET, FREEZE and THAW (16 R533). -/
def runsFrozen (type : Nat) : Bool := type == 0x20 || type == 0x60 || type == 0x61
/-- Take a message in: sender permitted (0 a stand, 1 management, 2 either), LEN, reserved bytes, and the limit of 64 (13 R456, R457);
then its type's own work. -/
def State.takeMsg (s : State) (src : Source) (route : AdminRoute) (m : List Byte) (who size : Nat) (bodyOk : Bool) (work : State → Admin → State) :
    State :=
  let (id, s1) := s.fresh
  let sd := (sourceStand src).getD 0
  let a : Admin := ⟨id, src, sd, fieldLE m 0 2, fieldLE m 4 4, route, m⟩
  let full := 64 ≤ s.inProgress src
  let s2 := s1.modSv (fun v => { v with admins := v.admins ++ [a] })
  let permitted := who == 2 || ((who == 0) == (sourceStand src).isSome)
  if full then a.stop s2 0x13
  else if permitted && headerOk src m && m.length == size && fieldLE m 2 2 == size && bodyOk then work s2 a
  else a.stop s2 0x14
/-- Receive a message; during a freeze it waits until THAW (16 R533). One from the management path wakes the part from part S2
(14 R478). -/
def State.receive (s : State) (src : Source) (route : AdminRoute) (m : List Byte) (who size : Nat) (bodyOk : Bool) (work : State → Admin → State) :
    State :=
  if s.frozen && !runsFrozen (fieldLE m 0 2) then s.modDb (fun d => { d with heldAdmin := d.heldAdmin ++ [(src, route, m)] })
  else ((if (sourceStand src).isNone then s.leaveS2 4 0 else s)).takeMsg src route m who size bodyOk work

/-- A PART_DRAIN is in progress (12 R428). -/
def State.draining (s : State) : Bool := !s.ur.draining.isEmpty
/-- Log a violation of an admin message: OP 6, REQ 6 (06 R229, 10 R363). -/
def State.adminViolation (s : State) (a : Admin) (addr : Nat) : State := s.violation a.stand 6 6 0 0 addr a.tag

/-- What the root processor's read of a stand's volume gives: the bytes, or the status that ends the message (06 R229, R230). -/
inductive VolGot where
  | bytes (bs : List Byte)
  | lost
  | violation
  | wait

/-- The logical blocks of n bytes from a block of a stand's volume. -/
def State.volBlocks (s : State) (sd v block n : Nat) : List (Option Nat) := (List.range (cdiv n 16384)).map (fun i => s.volBlock sd v (block + i))
/-- Read n bytes from a block of a stand's volume (06 R226, R229). -/
def State.volGet (s : State) (sd v block n : Nat) : VolGot :=
  let blks := s.volBlocks sd v block n
  if blks.any (·.isNone) then .violation
  else if s.ftlReady = false then (if s.ftlState = 1 then .wait else .lost)
  else
    let bs := blks.filterMap (fun b => b)
    if bs.zipIdx.any (fun b => !s.mapReadable b.1 || s.volPoison b.1 0 (Nat.min 16384 (n - b.2 * 16384)) != 0) then .lost
    else .bytes ((bs.flatMap (fun b => s.volBytes b 16384)).take n)
/-- The blocks of a read that the root processor made are counted where they lie; fails is how many stages of decoding the devices fail for
each codeword of the read (06 R226, R227, R240, R241). -/
def State.countVol (s : State) (sd v block n : Nat) (fails : List Nat := []) : State :=
  s.each ((s.volBlocks sd v block n).filterMap (fun b => b)).zipIdx (fun s b => s.readBlock b.1 ((fails.drop (4 * b.2)).take 4))
/-- A read of a stand's volume by the root processor with the devices' failures: what is counted, and what it gives (06 R226). -/
def State.rootRead (s : State) (sd v block n : Nat) (fails : List Nat) : State × VolGot :=
  match s.volGet sd v block n with
  | .violation => (s, .violation)
  | .wait => (s, .wait)
  | _ => (s.countVol sd v block n fails, (s.countVol sd v block n fails).volGet sd v block n)

end Sys2Proof.Machine
end

