-- ==== Sys2Proof/Machine/Loading.lean ====
section
/-! DEFINITION. Loading of canopy images, manifests and shards; contexts and seed banks; eviction (05 R169-R194, 08 R271-R286, 11
R389-R391). -/

namespace Sys2Proof.Machine

/-! ### Image checks -/

/-- An entry of the Express or Deadline class holds no volume descriptor (06 R230). -/
def volTmplOk (bs : List Byte) (e : Nat) : Bool :=
  decide (entClasses bs e % 4 = 0) || (entCfgs bs e).all (fun c => (List.range (cfgBranches bs c)).all (fun i =>
    let x := brSect bs c i
    (List.range (brNtmpl x)).all (fun k => let ends := fieldLE (brTmpl x k) 10 1
      decide (fld ends 3 0 ≠ 3) && decide (fld ends 7 4 ≠ 3))))

/-- Every check of a canopy image that needs no manifest (05 R169-R183, 06 R230, 09 R299, 11 R367, R389). -/
def imageOk (dies : Nat) (bs : List Byte) : Bool :=
  containerOk dies bs && resv bs (sectOf bs 8 0) 40 24 &&
  (List.range (imgConfigs bs)).all (fun c => configOk bs c && routingOk bs c && (List.range (cfgBranches bs c)).all (branchOk bs c)) &&
  declsOk bs && (List.range (imgEntries bs)).all (fun e => entryOk bs e && servingOk bs e && expressTmplOk bs e && volTmplOk bs e)

/-- The shard a template endpoint names, if it names one (08 R279): KV bindings and weight templates take theirs later. -/
def tmplShards (bs : List Byte) : List Nat :=
  (List.range (imgConfigs bs)).flatMap (fun c => (List.range (cfgBranches bs c)).flatMap (fun i =>
    let x := brSect bs c i
    let rt := routing bs c
    let sb := servingBlk bs c
    (List.range (brNtmpl x)).flatMap (fun k =>
      let kv := (List.range (fieldLE sb 28 2)).any (fun q => fieldLE (kvBind sb q) 0 1 == i && fieldLE (kvBind sb q) 1 1 == k)
      let wt := (groupsOn rt i).any (fun g => let f := groupStep rt g
        decide (fieldLE f 24 1 ≤ k ∧ k < fieldLE f 24 1 + fieldLE f 25 1))
      let d := (brTmpl x k).drop 8
      if kv || wt then []
      else (if fld (fieldLE d 2 1) 3 0 = 2 then [fieldLE d 12 4] else []) ++ (if fld (fieldLE d 2 1) 7 4 = 2 then [fieldLE d 20 4] else []))))

/-- The checks of an image against its manifest: its templates' shards, and the gather table's room (08 R279, R294). -/
def imageManifestOk (l : Load) (m : List Byte) : Bool :=
  let mine := if m.isEmpty then [] else shardsOf m l.member
  (tmplShards l.image).all mine.contains &&
  (m.isEmpty || !manGraftable m || (List.range (imgEntries l.image)).all (fun e =>
    (entCfgs l.image e).all (fun c => decide (0 < brScratch l.image c 0)))) &&
  (m.isEmpty || decide (l.member < fieldLE m 20 2))

/-! ### Placement (05 R172, R175, 10 R328, 11 R389) -/

/-- The branches of an entry's configuration at an origin, where each exists. -/
def State.branchesAt (s : State) (img : List Byte) (c x0 y0 : Nat) : Option (List Nat) :=
  (List.range (cfgBranches img c)).mapM (fun i =>
    let f := cfgFoot img c i
    let x := (x0 : Int) + f.1
    let y := (y0 : Int) + f.2
    if x < 0 ∨ y < 0 then none else s.branchAt x.toNat y.toNat)
/-- A branch may hold an instance of an entry of a load. -/
def State.branchFree (s : State) (l : Load) (e b scratch : Nat) : Bool :=
  s.owner b == some l.stand && (s.isExpress l.stand b == decide (entClasses l.image e = 1)) &&
  s.sv.insts.all (fun i => !i.branches.contains b || (i.load == l.id && i.entry == e)) &&
  ((List.range 8).all (fun n => !(tget BrcCtx.empty (s.branch b).ctxs n).valid) || decide ((s.branch b).scratch = scratch))
/-- A placement is valid. -/
def State.placementOk (s : State) (l : Load) (e : Nat) (bs : List Nat) : Bool :=
  let img := l.image
  let xy := fun i => s.branchXY (bs.getD i 0)
  bs.zipIdx.all (fun b => s.branchFree l e b.1 (brScratch img (entCfg img e) b.2)) &&
  (entCfgs img e).all (fun c => (List.range (cfgEdges img c)).all (fun k =>
    let g := cfgEdge img c k
    let p := xy g.1
    let q := xy g.2.1
    decide (p.1 / 4 ≠ q.1 / 4 ∨ p.2 / 4 ≠ q.2 / 4) == decide (g.2.2 = 1))) &&
  (decide (entClasses img e ≠ 1) || (List.range (nDecls img)).all (fun k => let d := declRec img k
    decide (fieldLE d 0 2 ≠ e) || decide (fieldLE d 2 1 < 2) || decide ((xy (fieldLE d 12 1)).1 + 1 = s.planeX)))
/-- The first valid placement in ascending Y0, then X0. -/
def State.findPlace (s : State) (l : Load) (e : Nat) : Option (List Nat) :=
  ((List.range (s.planeX * s.planeY)).filterMap (fun k => s.branchesAt l.image (entCfg l.image e) (k % s.planeX) (k / s.planeX))).find?
    (s.placementOk l e)
/-- Place the instances of every entry; none where an instance has no place. -/
def State.placeAll (s : State) (l : Load) : Option State :=
  ((List.range (imgEntries l.image)).flatMap (fun e => List.replicate (Nat.max 1 l.instances) e)).foldl
    (fun (o : Option State) e => match o with
      | none => none
      | some s => (s.findPlace l e).map (fun bs =>
        let (id, s1) := s.fresh
        let i : Inst := ⟨id, l.id, e, bs⟩
        (s1.modSv (fun v => { v with insts := v.insts ++ [i] })).each bs.zipIdx (fun s b =>
          s.modBranch b.1 (fun x => { x with hasInst := true, instHome := i.home, instRel := b.2 }))))
    (some s)

/-! ### Express bindings (10 R348, 11 R392, 13 R458) -/

/-- The checks of a binding record. -/
def State.bindOk (s : State) (sd : Nat) (img : List Byte) (r : List Byte) : Bool :=
  let k := fieldLE r 0 1
  let d := declRec img (fieldLE r 1 1)
  decide (k < 3) && zeros r 5 3 &&
  (if k = 2 then zeros r 1 1 && zeros r 4 1 && zeros r 8 8 && decide (fieldLE r 2 1 < 8) && decide (fieldLE r 3 1 < 8) &&
      s.rbit (Reg.stdXcon sd (fieldLE r 2 1 % 8)) 63
   else decide (fieldLE r 1 1 < nDecls img) && fieldLE d 2 1 == k + 2 &&
      (if k = 0 then decide (fieldLE r 2 1 < 8) && s.rbit (Reg.stdXcon sd (fieldLE r 2 1 % 8)) 63 else decide (fieldLE r 4 1 < 4)))
/-- A binding record as data. -/
def bindOf (r : List Byte) : Bind := ⟨fieldLE r 0 1, fieldLE r 1 1, fieldLE r 2 1, fieldLE r 3 1, fieldLE r 4 1, fieldLE r 8 8, 0xFF⟩
/-- The contracts a load's bindings bind to an instance of an Express entry. -/
def contractsOf (l : Load) (e : Nat) : List Nat :=
  (l.binds.filter (fun b => b.kind == 2 || (b.kind == 0 && fieldLE (declRec l.image b.decl) 0 2 == e))).map (·.contract)
/-- The sum of RATE × S_full over an instance's contracts is at most BATCH_SLOTS at every level (10 R348). -/
def State.contractsFit (s : State) (l : Load) : Bool :=
  (List.range (imgEntries l.image)).all (fun e => decide (entClasses l.image e ≠ 1) || (List.range 8).all (fun p =>
    decide (((contractsOf l e).map (fun c => s.xRate l.stand c * sFull l.image e p)).foldl (· + ·) 0 ≤ entSlots l.image e * 1000000000)))
/-- The lowest inlet number not in use on the part. -/
def State.freeInlet (s : State) : Option Nat := (List.range 64).find? (fun n => s.sv.inlets.all (fun i => i.num != n))
/-- The host port and address an inlet's outlet frames go to: those of the outlet binding of the same entry, the k-th for the entry's k-th
instance where there are several (11 R395; log entry 27). -/
def outletOf (l : Load) (e k : Nat) : Nat × Nat :=
  let os := l.binds.filter (fun b => b.kind == 1 && fieldLE (declRec l.image b.decl) 0 2 == e)
  match os[k]?, os.head? with
  | some b, _ => (b.port, b.target)
  | none, some b => (b.port, b.target)
  | none, none => (0, 0)
/-- Bind a load's inlets, outlets and rings: the k-th binding of a declaration belongs to the entry's k-th instance. -/
def State.bindExpress (s : State) (l : Load) : State :=
  let s1 := s.each l.binds.zipIdx (fun s b =>
    let e := fieldLE (declRec l.image b.1.decl) 0 2
    let i := (s.instsOf l e).zipIdx.find? (fun i => s.sv.inlets.all (fun n => !(n.inst == i.1.id && n.decl == b.1.decl)))
    if b.1.kind = 0 then
      match s.freeInlet, i with
      | some n, some (i, k) =>
        let o := outletOf l e k
        (s.modSv (fun v => { v with inlets := v.inlets ++ [⟨n, l.stand, i.id, b.1.decl, b.1.contract, o.1, o.2⟩] })).modLoad
          l.id (fun x => { x with inletNums := x.inletNums.set b.2 n })
      | _, _ => s
    else if b.1.kind = 2 then s.modSv (fun v => { v with ringBinds := v.ringBinds ++ [⟨l.stand, b.1.ring, b.1.contract, l.id⟩] })
    else s)
  s1.modLoad l.id (fun x => { x with bound := true })

/-! ### Image read, checks and placement (05 R187 steps 1-3) -/

/-- CFG_IDs of a load are reserved or bound (05 R187). -/
def State.cfgTaken (s : State) (sd base n but : Nat) : Bool :=
  s.sv.loads.any (fun l => l.stand == sd && l.id != but && l.reserved && decide (base < l.cfgBase + Nat.max 1 l.count ∧ l.cfgBase < base + n))
/-- The load's first recorded failure (08 R281). -/
def State.noteFailure (s : State) (id status : Nat) : State := s.modLoad id (fun x => { x with failure := if x.failure = 0 then status else x.failure })
/-- Verify, check and place a load's image, and keep its near copy; the load ends with REFUSED_CONFIG where a check fails, with REFUSED_QUOTA
where the pool has no frames for it (05 R187, 06 R231-R233). -/
def State.takeImage (s : State) (l : Load) (img : List Byte) : State :=
  let n := imgEntries img
  let m : List Byte := match s.sv.admins.find? (fun a => a.id == l.msg) with | some a => a.bytes | none => []
  let recs := (List.range (fieldLE m 112 1)).map (fun b => slice m (128 + 16 * b) 16)
  let l' := { l with image := img, count := n, binds := recs.map bindOf, inletNums := List.replicate recs.length 0xFF, rxImage := [] }
  if sigOk img (img.length - 256) s.sv.imageKeys = false ∨ s.cfgTaken l.stand l.cfgBase n l.id = true ∨ 65536 < l.cfgBase + n ∨
     imageOk s.part.dies img = false ∨ recs.all (s.bindOk l.stand img) = false then s.endLoad l 0x14
  else
    let s1 := s.modLoad l.id (fun _ => l')
    match s1.placeAll l' with
    | none => s1.endLoad l' 0x14
    | some s2 =>
      if s2.contractsFit l' = false then s2.endLoad l' 0x14
      else match s2.newObj l.stand 3 l.id 0 img.length (chunkDigest img) (fun _ => false) with
        | (s3, none) => s3.endLoad l' 0x13
        | (s3, some id) => match s3.sv.objs.find? (fun o => o.id == id) with
          | some o => (s3.objWrite o 0 img).modObj id (fun o => { o with state := .verified })
          | none => s3

/-- A load's volume read is refused: ACCESS_VIOLATION, logged (06 R229). -/
def State.loadViolation (s : State) (l : Load) (block : Nat) : State :=
  let s1 := match s.sv.admins.find? (fun a => a.id == l.msg) with
    | some a => s.adminViolation a block
    | none => s
  s1.endLoad l 0x40
/-- Read a load's image from its volume, if its admin message is still there (06 R226, R229). -/
def State.readImage (s : State) (l : Load) (fails : List Nat) : State :=
  match s.sv.admins.find? (fun a => a.id == l.msg) with
  | none => s
  | some a =>
    let n := fieldLE a.bytes 64 4
    let v := fieldLE a.bytes 41 1
    let b := fieldLE a.bytes 56 8
    match s.rootRead l.stand v b n fails with
    | (s1, .violation) => s1.loadViolation l b
    | (s1, .lost) => s1.endLoad l 0x30
    | (s1, .wait) => s1
    | (s1, .bytes img) => s1.takeImage l img

/-- The active tree entry of a tree id: its two registers (12 R422, R436). -/
def State.treeOf (s : State) (id : Nat) : Option (Nat × Nat) :=
  ((List.range 16).map (fun t => (tget 0 s.ur.mcActive (2 * t), tget 0 s.ur.mcActive (2 * t + 1)))).find? (fun e => e.1.testBit 63 && e.1 % 65536 == id)

/-- The body rules of MODEL_LOAD (08 R277, 13 R458). -/
def modelLoadOk (m : List Byte) : Bool :=
  decide (fieldLE m 34 1 < 3) && decide (fieldLE m 35 1 < 2) && decide (fieldLE m 36 2 < 256) && decide (fieldLE m 38 1 ≤ 16) && decide (fieldLE m 39 1 ≤ 16) &&
  zeros m 42 6 && decide (fieldLE m 112 1 ≤ 16) && zeros m 113 15 && (decide (fieldLE m 34 1 ≠ 2) || zeros m 40 28) &&
  zeros m (128 + 16 * fieldLE m 112 1) (256 - 16 * fieldLE m 112 1)
/-- Receipt of a MODEL_LOAD: CFG_BASE is reserved, its trees must be installed, and the image is read (05 R187, 12 R422). -/
def State.beginLoad (s : State) (a : Admin) : State :=
  let m := a.bytes
  let base := fieldLE m 32 2
  if s.draining then a.stop s 0x13
  else if s.cfgTaken a.stand base 1 0 then a.stop s 0x14
  else
    let (id, s1) := s.fresh
    let l : Load := ⟨id, a.stand, a.id, base, 1, true, [], [], fieldLE m 34 1, fieldLE m 35 1 == 1, fieldLE m 36 2,
      (List.range (fieldLE m 38 1)).map (fun k => fieldLE m (80 + 2 * k) 2), [fieldLE m 68 2, fieldLE m 70 2], fieldLE m 40 1, fieldLE m 48 8,
      fieldLE m 39 1, fieldLE m 72 8, .manifest, false, false, 0, 0, 0, [], [], 0, none, [], []⟩
    let s2 := s1.modSv (fun v => { v with loads := v.loads ++ [l] })
    if l.trees.any (fun t => (s2.treeOf t).isNone) then s2.endLoad l 0x14 else if l.role = 2 then s2 else s2.readImage l []
/-- MODEL_LOAD (05 R187, 08 R277, 13 R458). -/
def State.msgModelLoad (s : State) (src : Source) (route : AdminRoute) (m : List Byte) : State :=
  s.receive src route m 0 384 (modelLoadOk m) State.beginLoad
def execModelLoad (t : Nat) (src : Source) (m : List Byte) (s : State) : Host.Outcome State Fault Refusal :=
  .next ((s.at t).msgModelLoad src .row m)

/-! ### Contexts and seed banks (05 R187-R194) -/

/-- Queue the fills of a placement's seed banks, where a slot can be replaced (05 R187 step 4). -/
def State.fillSeeds (s : State) (l : Load) : State :=
  s.each (s.sv.insts.filter (fun i => i.load == l.id)) (fun s i =>
    s.each (entCfgs l.image i.entry).eraseDups (fun s c => s.each (s.rels i c) (fun s b =>
      if (s.seedOf b.1 l.id c b.2).isSome ∨ (s.pickSeed b.1).isNone ∨
         s.sv.cfgLoads.any (fun q => q.branch == b.1 && q.load == l.id && q.cfg == c && q.rel == b.2) then s
      else s.modSv (fun v => { v with cfgLoads := v.cfgLoads ++ [⟨b.1, l.id, c, b.2, 8, true, false, false, s.now + 40000 + s.imageTerm l.id⟩] }))))

/-- The SPACE 4 offset of a seed-bank slot (05 R191). -/
def seedAddr (b k : Nat) : Nat := b * 0x400000 + 0x10000 + k * 0x54000
/-- A directory entry's bytes (05 R191). -/
def dirBytes (image cfg rel size crc : Nat) : List Byte :=
  leBytes 8 image ++ leBytes 2 cfg ++ leBytes 1 rel ++ leBytes 1 1 ++ leBytes 4 size ++ leBytes 4 crc ++ leBytes 12 0
/-- Replace or drop the first queued load of a branch that meets a test; then the next load command may go out. -/
def State.nextCfg (s : State) (b : Nat) (p : CfgLoad → Bool) (f : CfgLoad → Option CfgLoad) : State :=
  match findIdx (fun c => c.branch == b && p c) s.sv.cfgLoads 0 with
  | none => s
  | some (i, c) => (s.modSv (fun v => { v with
      cfgLoads := v.cfgLoads.take i ++ (match f c with | some c' => [c'] | none => []) ++ v.cfgLoads.drop (i + 1) })).beginLoads [b]

/-- SEED_BANK_FILL: the next fill of a branch completes: section, directory entry, CRC-32C (05 R191, R192). An image whose near copy is gone
is fetched first. A fill that finds no slot is dropped, and its configuration stays at NEAR. -/
def execSeedBankFill (t b : Nat) (s : State) : Host.Outcome State Fault Refusal :=
  let s1 := s.at t
  if s1.frozen then .next s1 else
  match s1.sv.cfgLoads.find? (fun c => c.branch == b && c.fill) with
  | none => .next s1
  | some c =>
    match s1.imageObj c.load with
    | none => .next (s1.fetchImage c.load)
    | some o =>
      if o.state ≠ .verified then .next (s1.fetchImage c.load)
      else match s1.pickSeed b with
        | none => .next (s1.nextCfg b (·.fill) (fun c => if c.ctx < 8 then some c else none))
        | some k =>
          let img := s1.objRead o 0 o.size
          let x := brSect img c.cfg c.rel
          let crc := crc32c x
          let s2 := (s1.memWrite (memKey 4 (seedAddr b k)) x).memWrite (memKey 4 (b * 0x400000 + k * 32)) (dirBytes (imgId img) c.cfg c.rel x.length crc)
          let s3 := s2.modBranch b (fun y => { y with
            seeds := tset SeedSlot.empty y.seeds k ⟨true, c.load, c.cfg, c.rel, x.length, crc, s1.now⟩, loads := sat32 (y.loads + 1) })
          .next (s3.nextCfg b (·.fill) (fun c => if c.ctx < 8 then some { c with fill := false, fin := s1.now + 8000 } else none))

/-- A leaf's context n from seed-bank slot k's branch section: declarations, registers, code (05 R173, R192, 03 R83, R122). A leaf that has it
active without a configuration then waits for a pass. -/
def Leaf.loadCtx (lf : Leaf) (n j : Nat) (x : List Byte) (k : Nat) (ok : Bool) : Leaf :=
  let d := fieldLE x (64 + j) 1
  { lf with
    mode := if ok = true ∧ lf.active = n ∧ lf.mode = .idle then .waitPass else lf.mode
    ctxs := tset Ctx.empty lf.ctxs n ⟨ok, if ok then k else 0, fld d 4 3, fld d 6 5, d.testBit 7, 0,
      tabOf 0 32 (fun r => BitVec.ofNat 32 (brReg x j r)), tabOf 0 8 (fun r => BitVec.ofNat 32 (brReg x j (32 + r))), [], 0⟩,
    code := (List.range 512).foldl (fun c pc => tset 0 c (n * 512 + pc) (BitVec.ofNat 64 (brCode x j pc))) lf.code }
/-- Slot set n of a branch from a section (05 R173, 04 R166). -/
def Branch.loadSlots (y : Branch) (n : Nat) (x : List Byte) : Branch :=
  { y with
    slots := (List.range 64).foldl (fun t node => (List.range 384).foldl (fun t k =>
      tset 0 t ((n * 64 + node) * 384 + k) (brEntry x node (k / 32) (k % 32))) t) y.slots
    steerCfg := (List.range 64).foldl (fun t node => (List.range 64).foldl (fun t k =>
      tset 0 t ((n * 64 + node) * 64 + k) (BitVec.ofNat 8 (brSteer x node (k / 32) (k % 32)))) t) y.steerCfg }

/-- The cache is empty after a load unless every valid context is of the same image, and after a change of the split (05 R194, R195). -/
def Branch.cacheKept (y : Branch) : Branch :=
  let vs := ((List.range 8).map (tget BrcCtx.empty y.ctxs)).filter (·.valid)
  if (vs.map (·.image)).eraseDups.length ≤ 1 then y else { y with cache := [] }
/-- CONTEXT_LOAD: the next load of a branch completes: the slot's bytes with the upsets that the read found, their CRC against the
directory's; a mismatch invalidates slot and context, sets ERR and repeats fill and load (05 R192-R194). A load into the active context
waits until no leaf runs. -/
def execContextLoad (t b : Nat) (flips : List (Nat × Byte)) (s : State) : Host.Outcome State Fault Refusal :=
  let s1 := (s.at t).beginLoads (if (s.at t).frozen then [] else [b])
  if s1.frozen then .next s1 else
  let again := fun (s : State) => s.nextCfg b (fun c => !c.fill) (fun c => some { c with fill := true, begun := false, fin := s.now + 48000 + s.imageTerm c.load })
  match s1.sv.cfgLoads.find? (fun c => c.branch == b && !c.fill) with
  | none => .next s1
  | some c =>
    let n := c.ctx
    let y := s1.branch b
    match s1.seedOf b c.load c.cfg c.rel with
    | none => .next (again s1)
    | some k =>
      if c.begun = false then .next s1
      else
        let sl := tget SeedSlot.empty y.seeds k
        let x := flips.foldl (fun (l : List Byte) f => l.modify f.1 (fun v => v ^^^ f.2)) (s1.memRead (memKey 4 (seedAddr b k)) sl.size)
        let ok := crc32c x == sl.crc
        let img := s1.image c.load
        let none8 := (List.range 8).all (fun m => m == n || !(tget BrcCtx.empty y.ctxs m).valid)
        let s2 := s1.each (branchLeaves b) (fun s l => s.modLeaf l (fun lf => lf.loadCtx n (l % 64) x k ok))
        let s3 := s2.modBranch b (fun y => y.loadSlots n x)
        if ok then
          let split := if none8 then fieldLE x 3 1 else y.scratch
          let s4 := s3.modBranch b (fun y => ({ y with
            ctxs := tset BrcCtx.empty y.ctxs n ⟨true, c.pin, c.cfg, imgId img % 2 ^ 32, c.load, c.rel, 0, cfgSentLimit img c.cfg, false⟩
            seeds := tmod SeedSlot.empty y.seeds k (fun q => { q with lastUse := s1.now })
            scratch := split, loads := sat32 (y.loads + 1), cache := if split = y.scratch then y.cache else [] }).cacheKept)
          .next ((s4.nextCfg b (fun c => !c.fill) (fun _ => none)).resumeStages)
        else
          let s4 := s3.modBranch b (fun y => { y with
            loadErr := true, ctxs := tset BrcCtx.empty y.ctxs n BrcCtx.empty, seeds := tset SeedSlot.empty y.seeds k SeedSlot.empty })
          .next (again (s4.memSet (memKey 4 (b * 0x400000 + k * 32 + 11)) 0))

/-! ### Warm residency (08 R278) -/

/-- A manifest that some stand has loaded (08 R278). -/
def State.manLoaded (s : State) (w : WarmCopy) : Bool :=
  s.sv.loads.any (fun l => !l.manifest.isEmpty && manId l.manifest == w.manifest && Crypto.sha256 l.manifest == w.digest)
/-- Evict warm copies no loaded manifest needs, by earliest last use, until places for shards of the sizes are free. -/
def State.warmRoom (s : State) (sizes : List Nat) : Nat → Option State
  | 0 => none
  | fuel + 1 =>
    let need := (sizes.map (fun n => cdiv n 64 * 64)).foldl (· + ·) 0
    if (s.warmAlloc need).isSome then some s
    else match minBy (fun w => w.lastUse) (s.sv.warm.filter (fun w => !s.manLoaded w)) with
      | none => none
      | some w => (s.modSv (fun v => { v with warm := v.warm.filter (fun x => x.id != w.id) })).warmRoom sizes fuel

/-! ### Progress of loads -/

/-- Copies a load waits for: warm copies and near copies not verified. -/
def State.warmMissing (s : State) (l : Load) : List Nat :=
  (shardsOf l.manifest l.member).filter (fun k => match s.warmShard l.manifest k with
    | some w => w.state != .verified
    | none => true)
/-- A copy of the load's shards has failed at every source (08 R275). -/
def State.copyFailed (s : State) (l : Load) : Bool :=
  (shardsOf l.manifest l.member).any (fun k =>
    (match s.warmShard l.manifest k with | some w => w.state == .quarantined && decide (3 ≤ w.tries) | none => false) ||
    (match s.nearShard l.stand (manId l.manifest) k with | some o => o.state == .quarantined && decide (3 ≤ o.tries) | none => false))
/-- Entries of a load with PIN = 1. -/
def pinEntries (img : List Byte) : List Nat := (List.range (imgEntries img)).filter (entPin img)
/-- Start the context loads of the PIN entries; none where one cannot be made (05 R187, 11 R390). Fills that MODEL_LOAD has queued become part
of them. -/
def State.pinLoads (s : State) (l : Load) : Option State :=
  (s.sv.insts.filter (fun i => i.load == l.id && entPin l.image i.entry)).foldl (fun (o : Option State) i => match o with
    | none => none
    | some s => if (entCfgs l.image i.entry).eraseDups.all (fun c => (s.cfgTerm i c).isSome) then some (s.startLoads i i.entry true) else none) (some s)
/-- The binding of a load whose manifest is verified: at once, or, for PIN entries, after their preloads (05 R187, 11 R390). -/
def State.bindLoad (s : State) (l : Load) : State :=
  if (pinEntries l.image).isEmpty then s.bindExpress l
  else match s.pinLoads l with
    | none => s.endLoad l 0x13
    | some s1 => s1

/-- A load that has everything ends with DONE; one whose copy has failed everywhere ends with its first recorded failure (08 R275, R277, R281, R286). -/
def State.settleLoad (s : State) (id : Nat) : State :=
  match s.load id with
  | none => s
  | some l =>
    if l.phase ≠ .loading then s
    else if l.manifest ≠ [] ∧ s.copyFailed l = true then s.endLoad l (if l.failure = 0 then 0x32 else l.failure)
    else
      let near := l.manifest.isEmpty || (s.missing l).isEmpty
      let warm := l.manifest.isEmpty || manLyorn l.manifest || (s.warmMissing l).isEmpty
      let s1 := if near = true ∧ l.residentTime = 0 then s.modLoad id (fun x => { x with residentTime := s.now }) else s
      let lyornBind := !l.manifest.isEmpty && manLyorn l.manifest && near && !l.bound
      let s2 := if lyornBind then s1.bindLoad l else s1
      match s2.load id with
      | none => s2
      | some l2 =>
        if l2.phase = .loading ∧ l2.bound = true ∧ warm = true ∧ (l2.warmOnly || near) = true then s2.endLoad l2 0 else s2
/-- Waiting Bulk requests whose shards have become warm get their copy job (08 R284). -/
def State.bulkJobs (s : State) : State :=
  s.each s.sv.loads (fun s l =>
    if l.phase = .ready ∧ l.manifest ≠ [] ∧ (s.missing l) ≠ [] ∧ (s.warmMissing l) = [] ∧ manLyorn l.manifest = false ∧
       s.sv.jobs.all (fun j => !(j.stand == l.stand && j.manifest == manId l.manifest)) = true ∧
       s.sv.requests.any (fun r => r.live && r.load == l.id) = true
    then (s.queueJob l).1 else s)
def State.settleLoads (s : State) : State := (s.each (s.sv.loads.map (·.id)) State.settleLoad).bulkJobs

/-- What follows a verified manifest: warm copies and their room, the near copy job, seed banks, binding (08 R277, R278, R282, R286). -/
def State.startLoading (s : State) (l : Load) : State :=
  let s0 := (s.modLoad l.id (fun _ => l)).fillSeeds l
  if l.manifest.isEmpty then (s0.modLoad l.id (fun x => { x with admitTime := s.now, residentTime := s.now })).bindLoad l
  else if manLyorn l.manifest then
    match s0.allocShards l.stand l.manifest (shardsOf l.manifest l.member) with
    | (s1, false) => s1.endLoad l 0x13
    | (s1, true) => s1
  else
    let new := (warmNeeds l).filter (fun k => (s0.warmShard l.manifest k).isNone)
    match s0.warmRoom (new.map (shardSize l.manifest)) (s0.sv.warm.length + 1) with
    | none => s0.endLoad l 0x13
    | some s1 =>
      let s2 := s1.fillWarm l new
      if l.warmOnly then (s2.modLoad l.id (fun x => { x with admitTime := s.now })).bindLoad l
      else if (s2.missing l).isEmpty then (s2.modLoad l.id (fun x => { x with admitTime := s.now })).bindLoad l
      else match s2.queueJob l with
        | (s3, false) => s3.endLoad l 0x13
        | (s3, true) =>
          let adm := ((s3.sv.jobs.getLast?).map (fun j => jobAdmit l.manifest j.ready)).getD 0
          (s3.modLoad l.id (fun x => { x with admitTime := Nat.max s.now adm })).bindLoad l

/-- Check a load's manifest against its image and go on (08 R271, R279, R294). -/
def State.takeManifest (s : State) (l : Load) (m : List Byte) : State :=
  if imgManifestId l.image = 0 then
    if imageManifestOk l [] then (s.startLoading { l with phase := .loading }).settleLoads else s.endLoad l 0x14
  else if manifestOk s.sv.imageKeys l.image m && imageManifestOk l m then
    (s.startLoading { l with manifest := m, phase := .loading }).settleLoads
  else s.endLoad l 0x14

/-- MANIFEST_VERIFIED: a load's manifest read ends and is checked. A receiver's image and manifest are those that have come on TREE[0]; any
other load reads them from its stand's volumes, whose devices fail so many stages of decoding for the codewords of the image and of the
manifest (06 R226, 08 R271, R277). -/
def execManifestVerified (t id : Nat) (img man : List Nat) (s : State) : Host.Outcome State Fault Refusal :=
  let s1 := s.at t
  match s1.load id with
  | none => .next s1
  | some l0 =>
    if l0.phase ≠ .manifest ∨ s1.frozen = true then .next s1
    else if l0.role = 2 ∧ (fieldLE l0.rxManifest 16 4 = 0 ∨ l0.rxManifest.length < fieldLE l0.rxManifest 16 4) then .next s1
    else if l0.role = 2 ∧ l0.image = [] ∧ (imgSize l0.rxImage = 0 ∨ l0.rxImage.length < imgSize l0.rxImage) then .next s1
    else
      let s2 := if l0.image.isEmpty then (if l0.role = 2 then s1.takeImage l0 (l0.rxImage.take (imgSize l0.rxImage)) else s1.readImage l0 img) else s1
      match s2.load id with
      | none => .next s2
      | some l =>
        if l.image.isEmpty then .next s2
        else if l.role = 2 then .next (s2.takeManifest { l with rxManifest := [] } (l.rxManifest.take (fieldLE l.rxManifest 16 4)))
        else if imgManifestId l.image = 0 then .next (s2.takeManifest l [])
        else match s2.volGet l.stand l.volume l.block 64 with
          | .bytes h =>
            (match s2.rootRead l.stand l.volume l.block (fieldLE h 16 4) man with
            | (s3, .bytes m) => .next (s3.takeManifest l m)
            | (s3, .violation) => .next (s3.loadViolation l l.block)
            | (s3, .lost) => .next (s3.endLoad l 0x30)
            | (s3, .wait) => .next s3)
          | .violation => .next (s2.loadViolation l l.block)
          | .lost => .next (s2.endLoad l 0x30)
          | .wait => .next s2

/-! ### Preload (11 R390, R391) -/

/-- A ring descriptor that serves no request. -/
def ringPlain (base : Nat) (d : List Byte) : RingDesc := .placed d none base 0 0
/-- The PIN instances of a load. -/
def State.pinInsts (s : State) (l : Load) : List Inst := s.sv.insts.filter (fun i => i.load == l.id && entPin l.image i.entry)
/-- Every configuration of the PIN instances is in a context. -/
def State.pinReady (s : State) (l : Load) : Bool :=
  (s.pinInsts l).all (fun i => (entCfgs l.image i.entry).all (fun c => (s.commonCtx i c).isSome))
/-- Place every preload range of a PIN instance once, in range order. -/
def State.placePreloads (s : State) (l : Load) (i : Inst) : State :=
  s.each (entCfgs l.image i.entry).eraseDups (fun s c =>
    let sb := servingBlk l.image c
    s.each ((List.range (fieldLE sb 30 2)).map (preRange sb)) (fun s r =>
      let b := s.relB i c (fieldLE r 0 1)
      let x := brSect l.image c (fieldLE r 0 1)
      (s.wake [b]).each (List.range (fieldLE r 2 1)) (fun s k =>
        let tm := brTmpl x (fieldLE r 1 1 + k)
        s.modMover b (fieldLE tm 0 1) (fun m => m.place [ringPlain (fieldLE tm 2 1) (s.bindDesc l (tm.drop 8))]))))
/-- The preload moves of a load have ended. -/
def State.preloadsDone (s : State) (l : Load) : Bool :=
  (s.pinInsts l).all (fun i => i.branches.all (fun b => s.ringsIdle b))
/-- PRELOAD_RUN: with every configuration of the PIN entries in a context and the model's shards near, the preload ranges are placed;
once their moves have ended the load is bound, unless its Express commitment breaks the limit of 14 R490, and its message can end. After a stand reset the same runs again (11 R390, R391). -/
def execPreloadRun (t id : Nat) (s : State) : Host.Outcome State Fault Refusal :=
  let s1 := s.at t
  if s1.frozen then .next s1 else
  match s1.load id with
  | none => .next s1
  | some l =>
    let near := l.manifest.isEmpty || (s1.missing l).isEmpty
    if (pinEntries l.image).isEmpty ∨ (l.phase ≠ .loading ∧ l.phase ≠ .ready) ∨ near = false ∨ s1.pinReady l = false ∨ s1.serving = false then .next s1
    else if l.preloaded = false then
      .next (((s1.pinInsts l).foldl (fun s i => s.placePreloads l i) s1).modLoad id (fun x => { x with preloaded := true }))
    else if s1.preloadsDone l = false then .next s1
    else
      let s2 := (s1.pinInsts l).foldl State.clearRings s1
      if l.phase = .ready then
        .next (if (s2.res l.stand).reload = true ∧ s2.sv.loads.all (fun x => x.stand != l.stand || (pinEntries x.image).isEmpty || x.preloaded) = true
          then s2.modRes l.stand (fun r => { r with reload := false }) else s2)
      else if l.bound then .next s2
      else if (pinEntries l.image).any (fun e => entClasses l.image e == 1) = true ∧ s2.powerFits (s2.bindExpress l) [(s2.now, s2.now + 1)] = false then .next ((s2.endLoad l 0x12).settleLoads)
      else .next ((s2.bindExpress l).settleLoads)

/-! ### Eviction (05 R190, 13 R457) -/

/-- MODEL_EVICT: a load in progress at the CFG_BASE ends with CANCELLED; what is bound becomes unadmittable, and is released after its
last accepted request. -/
def State.beginEvict (s : State) (a : Admin) : State :=
  match s.sv.loads.find? (fun l => l.stand == a.stand && l.reserved && l.cfgBase == fieldLE a.bytes 32 2) with
  | none => a.stop s 0x14
  | some l =>
    if l.phase = .evicting then a.stop s 0x14
    else
      let s1 := if l.phase = .ready then s else s.adminEnd l.msg 0x20 (s.loadBody l 0x20)
      (s1.modLoad l.id (fun x => { x with phase := .evicting, bound := false, evictMsg := some a.id })).runEvictions
def State.msgModelEvict (s : State) (src : Source) (route : AdminRoute) (m : List Byte) : State :=
  s.receive src route m 0 64 (zeros m 34 30) State.beginEvict
def execModelEvict (t : Nat) (src : Source) (m : List Byte) (s : State) : Host.Outcome State Fault Refusal :=
  .next ((s.at t).msgModelEvict src .row m)
/-- IMAGE_RELEASE: an evicted image without accepted requests is released and its MODEL_EVICT ends (05 R190). -/
def execImageRelease (t id : Nat) (s : State) : Host.Outcome State Fault Refusal :=
  let s1 := s.at t
  if s1.frozen then .next s1 else
  match s1.load id with
  | some l => if l.phase = .evicting then .next s1.runEvictions else .next s1
  | none => .next s1

end Sys2Proof.Machine
end

