-- ==== Sys2Proof/Machine/Copies.lean ====
section
/-! DEFINITION. Copies of shards and grafts: arrival, digest scrub, re-fetch, the copier, load deadlines, graft versions (08 R272-R294). -/

namespace Sys2Proof.Machine

/-! ### Copies -/

def State.warmCopy (s : State) (id : Nat) : Option WarmCopy := s.sv.warm.find? (fun w => w.id == id)
def State.modWarm (s : State) (id : Nat) (f : WarmCopy → WarmCopy) : State :=
  s.modSv (fun v => { v with warm := mapIf (fun w => w.id == id) f v.warm })
def State.obj (s : State) (id : Nat) : Option PoolObj := s.sv.objs.find? (fun o => o.id == id)

/-- The loads of a manifest that are in progress keep a first failure (08 R281). -/
def State.noteFailures (s : State) (man status : Nat) : State :=
  s.each (s.sv.loads.filter (fun l => l.phase == .loading && !l.manifest.isEmpty && manId l.manifest == man)) (fun s l => s.noteFailure l.id status)
/-- The load whose stand's volume holds the shards of a warm copy: any but a receiver's (08 R277, R280). -/
def State.readerOf (s : State) (man : Nat) (digest : List Byte) : Option Load :=
  s.sv.loads.find? (fun l => !l.manifest.isEmpty && manId l.manifest == man && Crypto.sha256 l.manifest == digest && l.role != 2)
/-- The load of a stand that an object of a shard belongs to. -/
def State.objLoad (s : State) (o : PoolObj) : Option Load :=
  s.sv.loads.find? (fun l => l.stand == o.stand && !l.manifest.isEmpty && manId l.manifest == o.manifest)
/-- Read a shard in the volume of a load (06 R229, R230). A refused read ends the load. -/
def State.volShard (s : State) (l : Load) (k : Nat) : State × VolGot :=
  let b := l.block + shardBlock l.manifest k
  let n := shardSize l.manifest k
  match s.volGet l.stand l.volume b n with
  | .violation => (s.loadViolation l b, .violation)
  | .wait => (s, .wait)
  | g => (s.countVol l.stand l.volume b n, g)
/-- The bytes of a read, if it gave any. -/
def VolGot.got : VolGot → Option (List Byte)
  | .bytes bs => some bs
  | _ => none

/-- A warm copy takes bytes that have arrived and its digest is compared; a failed arrival counts as a mismatch (06 R230, 08 R273, R275, R280). -/
def State.warmArrive (s : State) (w : WarmCopy) (bs : Option (List Byte)) : State :=
  let s1 := match bs with
    | some b => s.placeWrite w.place (b.take w.size)
    | none => s
  if bs.isSome ∧ chunkDigest (s1.warmBytes w) = w.expect then s1.modWarm w.id (fun x => { x with state := .verified, lastUse := s.now })
  else (s1.modWarm w.id (fun x => { x with state := .quarantined })).noteFailures w.manifest 0x32
/-- A near copy likewise; a delay of a copy job revises its schedule (08 R285). -/
def State.nearArrive (s : State) (o : PoolObj) (bs : Option (List Byte)) : State :=
  let s1 := match bs with
    | some b => s.objWrite o 0 (b.take o.size)
    | none => s
  if bs.isSome ∧ chunkDigest (s1.objRead o 0 o.size) = o.expect then s1.modObj o.id (fun x => { x with state := .verified })
  else
    let s2 := s1.modObj o.id (fun x => { x with state := .quarantined })
    if o.kind = 0 then (s2.noteFailures o.manifest 0x32).reviseJobs (fun j => j.stand == o.stand && j.manifest == o.manifest) else s2

/-- What the next lower tier holds of a near copy: nothing, an unverified copy, a quarantined one, a verified one's bytes (08 R275, R282, R286). -/
inductive Lower where
  | absent
  | unverified
  | quarantined
  | bytes (bs : List Byte)

/-- A copy in warm residency as the source of a near copy. -/
def lowerOf (st : CopyState) (bs : List Byte) : Lower :=
  match st with
  | .verified => .bytes bs
  | .quarantined => .quarantined
  | .unverified => .unverified
/-- The graft version a near copy belongs to. -/
def State.graftOf (s : State) (o : PoolObj) : Option Graft := s.sv.grafts.find? (fun g => g.stand == o.stand && g.id == o.manifest && g.version == o.index)
/-- The warm copy of a shard's near copy. -/
def State.warmOf (s : State) (o : PoolObj) : Option WarmCopy := (s.objLoad o).bind (fun l => s.warmShard l.manifest o.index)
/-- The source of a near copy in warm residency: a shard's warm copy, or a graft version's image. -/
def State.lower (s : State) (o : PoolObj) : Lower :=
  if o.kind = 1 then (match s.graftOf o with
    | some g => if g.place = [] then .absent else lowerOf g.copy (s.graftBytes g)
    | none => .absent)
  else match s.warmOf o with
    | some w => lowerOf w.state (s.warmBytes w)
    | none => .absent
/-- The copier reads a warm copy (08 R278). -/
def State.useWarm (s : State) (o : PoolObj) : State :=
  match s.warmOf o with
  | some w => s.modWarm w.id (fun x => { x with lastUse := s.now })
  | none => s

/-- A shard of a job has not arrived in the near tier. -/
def State.jobOpen (s : State) (j : CopyJob) (k : Nat) : Bool :=
  match s.nearShard j.stand j.manifest k with
  | some o => o.state == .unverified
  | none => false
/-- Running jobs end when every shard of them has arrived, or their manifest is gone; what they pinned is used now (06 R232, 08 R282). -/
def State.endJobs (s : State) : State :=
  s.unpinned (s.modSv (fun v => { v with jobs := v.jobs.filter (fun j => (s.jobLoad j).isSome && (j.started.isNone || j.shards.any (s.jobOpen j))) }))
/-- The running job stops. -/
def State.stopJob (s : State) : State := s.unpinned (s.modSv (fun v => { v with jobs := v.jobs.filter (fun x => x.started.isNone) }))

/-- SHARD_ARRIVAL_VERIFY: the last byte of a shard has arrived and its digest is compared: a warm copy from the volume (a receiver's
from what its trees brought), or the near copy the copier is at; a Lyorn shard comes straight from the volume. A job stops at a shard
without a warm copy, and at any shard while a PART_DRAIN runs (08 R273, R280-R286, 12 R428). -/
def execShardArrivalVerify (t : Nat) (near : Bool) (id : Nat) (s : State) : Host.Outcome State Fault Refusal :=
  let s1 := s.at t
  if s1.frozen then .next s1 else
  if near then
    match s1.obj id with
    | none => .next s1
    | some o =>
      match s1.objLoad o with
      | none => .next s1
      | some l =>
        if o.kind ≠ 0 ∨ o.state ≠ .unverified then .next s1
        else if manLyorn l.manifest then
          let r := s1.volShard l o.index
          match r.2 with
          | .wait => .next s1
          | g => .next (r.1.nearArrive o g.got).settleLoads
        else match s1.sv.jobs.find? (fun j => j.started.isSome) with
          | none => .next s1
          | some j =>
            if j.stand ≠ o.stand ∨ j.manifest ≠ o.manifest ∨ j.shards.find? (s1.jobOpen j) ≠ some o.index then .next s1
            else if s1.draining then .next s1.stopJob
            else match s1.lower o with
              | .absent => .next s1.stopJob
              | .unverified => .next s1
              | .quarantined => .next ((s1.nearArrive o none).endJobs).settleLoads
              | .bytes bs => .next (((s1.useWarm o).nearArrive o (some bs)).endJobs).settleLoads
  else
    match s1.warmCopy id with
    | none => .next s1
    | some w =>
      if w.state ≠ .unverified then .next s1
      else match s1.readerOf w.manifest w.digest with
        | none => .next (s1.warmArrive w (some (s1.warmBytes w))).settleLoads
        | some l =>
          let r := s1.volShard l w.shard
          match r.2 with
          | .wait => .next s1
          | g => .next (r.1.warmArrive w g.got).settleLoads

/-- A graft version by the number of its warm image. -/
def State.graftNum (s : State) (num : Nat) : Option Graft := s.sv.grafts.find? (fun g => g.num == num)
def State.modGraftNum (s : State) (num : Nat) (f : Graft → Graft) : State :=
  s.modSv (fun v => { v with grafts := mapIf (fun g => g.num == num) f v.grafts })

/-- DIGEST_SCRUB: the digest of a verified near copy, or of a verified warm copy or graft image, is computed again; a difference quarantines
it (08 R274, R275). -/
def execDigestScrub (t : Nat) (near : Bool) (id : Nat) (s : State) : Host.Outcome State Fault Refusal :=
  let s1 := s.at t
  if s1.frozen then .next s1 else
  if near then
    match s1.obj id with
    | some o => if o.kind < 2 ∧ o.state = .verified ∧ chunkDigest (s1.objRead o 0 o.size) ≠ o.expect
                then .next ((s1.nearArrive o none).modObj id (fun x => { x with tries := 0 })) else .next s1
    | none => .next s1
  else
    match s1.warmCopy id, s1.graftNum id with
    | some w, _ => if w.state = .verified ∧ chunkDigest (s1.warmBytes w) ≠ w.expect
                   then .next ((s1.warmArrive w none).modWarm id (fun x => { x with tries := 0 })) else .next s1
    | none, some g => if g.copy = .verified ∧ chunkDigest (s1.graftBytes g) ≠ g.digest
                      then .next (s1.modGraftNum id (fun x => { x with copy := .quarantined, tries := 0 })) else .next s1
    | none, none => .next s1

/-- REPLICA_PID n of the MODEL_LOAD of a manifest names a part (08 R275). -/
def State.replicaOf (s : State) (man n : Nat) : Bool :=
  s.sv.loads.any (fun l => !l.manifest.isEmpty && manId l.manifest == man && l.replicas.getD n 0xFFFF != 0xFFFF)
/-- A replica that is named and does not answer is a failure of its own (08 R281). -/
def State.noAnswer (s : State) (man n : Nat) (rx : Option (List Byte)) : State :=
  if s.replicaOf man n = true ∧ rx.isNone then s.noteFailures man 0x41 else s
/-- What replica n has sent. -/
def State.replicaBytes (s : State) (man n : Nat) (rx : Option (List Byte)) : Option (List Byte) := if s.replicaOf man n then rx else none

/-- The first source of a re-fetch of a near copy (08 R275, R286). -/
def State.nearAgain (s : State) (o : PoolObj) : State × VolGot :=
  let low := match s.lower o with | .bytes bs => VolGot.bytes bs | _ => VolGot.lost
  match s.objLoad o with
  | some l => if o.kind = 0 ∧ manLyorn l.manifest = true then s.volShard l o.index else (s.useWarm o, low)
  | none => (s, low)
/-- The first source of a re-fetch of a warm copy: the volume this part read it from (08 R275). -/
def State.warmAgain (s : State) (w : WarmCopy) : State × VolGot :=
  match s.readerOf w.manifest w.digest with
  | some l => s.volShard l w.shard
  | none => (s, .lost)

/-- COPY_JOB_START: the copier takes the next queued job and fixes its ready times, which the loads that wait for it report; a job with no shard left
ends at once (08 R282, R283). -/
def execCopyJobStart (t : Nat) (s : State) : Host.Outcome State Fault Refusal :=
  let s1 := s.at t
  if s1.frozen = true ∨ s1.draining = true then .next s1 else
  match s1.sv.jobs with
  | [] => .next s1
  | j :: js =>
    if j.started.isSome then .next s1
    else match s1.jobLoad j with
      | none => .next s1.endJobs
      | some l =>
        let ready := s1.jobReady l.manifest j.shards s1.now
        let s2 := s1.modSv (fun v => { v with jobs := { j with started := some s1.now, ready := ready } :: js })
        .next ((s2.modSv (fun v => { v with
          loads := mapIf (fun x => x.stand == j.stand && x.phase == .loading && !x.manifest.isEmpty && manId x.manifest == j.manifest)
            (fun x => { x with admitTime := Nat.max j.queued (jobAdmit l.manifest ready) }) v.loads })).endJobs).settleLoads

/-- LOAD_DEADLINE_EXPIRY: a receiver's load ends where a shard is not verified in warm by LOAD_DEADLINE: with the first recorded failure,
or FABRIC_UNREACHABLE (08 R281). -/
def execLoadDeadlineExpiry (t id : Nat) (s : State) : Host.Outcome State Fault Refusal :=
  let s1 := s.at t
  if s1.frozen then .next s1 else
  match s1.load id with
  | none => .next s1
  | some l =>
    let lacks := l.manifest.isEmpty || !(s1.warmMissing l).isEmpty
    if l.role = 2 ∧ l.deadline ≠ 0 ∧ l.deadline ≤ s1.now ∧ lacks = true ∧ (l.phase = .loading ∨ l.phase = .manifest)
    then .next (s1.endLoad l (if l.failure = 0 then 0x41 else l.failure)) else .next s1

/-! ### Grafts (08 R287-R294) -/

def State.graft (s : State) (sd id ver : Nat) : Option Graft := s.sv.grafts.find? (fun g => g.stand == sd && g.id == id && g.version == ver)
def State.modGraft (s : State) (sd id ver : Nat) (f : Graft → Graft) : State :=
  s.modSv (fun v => { v with grafts := mapIf (fun g => g.stand == sd && g.id == id && g.version == ver) f v.grafts })
/-- A version goes: its warm image and its near copies (08 R290). -/
def State.dropGraft (s : State) (g : Graft) : State :=
  s.modSv (fun v => { v with
    grafts := v.grafts.filter (fun x => !(x.stand == g.stand && x.id == g.id && x.version == g.version)),
    objs := v.objs.filter (fun o => !(o.kind == 1 && o.stand == g.stand && o.manifest == g.id && o.index == g.version)) })
/-- Discard a version and end its message. -/
def State.discardGraft (s : State) (g : Graft) (status : Nat) : State :=
  match g.msg with
  | some m => (s.dropGraft g).adminEnd m status []
  | none => s.dropGraft g
/-- The manifest a stand has loaded with an id. -/
def State.standManifest (s : State) (sd man : Nat) : Option (List Byte) :=
  (s.sv.loads.find? (fun l => l.stand == sd && l.phase != .evicting && !l.manifest.isEmpty && manId l.manifest == man)).map (·.manifest)

/-- A 4 KiB piece of a graft image at a stand address: here, or by a READ of its part (06 R229, 08 R289). A refused or failed read ends
the message. -/
def State.readPiece (s : State) (g : Graft) (a : Admin) (at_ pos n : Nat) : State :=
  let refuse := fun (s : State) => (s.adminViolation a (at_ + pos)).discardGraft g 0x40
  if (s.graftNum g.num).isNone then s
  else match s.translate a.stand (at_ + pos) .read with
    | none => refuse s
    | some c =>
      if c.pid = s.ownPid then
        match s.localOk c.space c.off n with
        | none => s.placeWrite (placeFrom g.place pos) (s.memRead (memKey c.space c.off) n)
        | some .violation => refuse s
        | some .tierFailed => s.discardGraft g 0x30
      else
        let tx := { s.ownTx 1 c.pid c.addr 0 a.stand 0 0 [] 4 with len := n }
        match s.launch tx (.graft g.num pos) with
        | (s1, none) => s1.modGraftNum g.num (fun x => { x with waits := x.waits + 1 })
        | (s1, some e) => s1.discardGraft g (respStatus e)
/-- The pieces of n bytes from a stand address that cross no 4 KiB boundary: position and length. -/
def pieces4k (at_ n : Nat) : List (Nat × Nat) :=
  ((List.range (cdiv n 4096 + 1)).map (fun k =>
    let lo := Nat.max at_ ((at_ / 4096 + k) * 4096)
    (lo - at_, Nat.min (at_ + n) ((at_ / 4096 + k + 1) * 4096) - lo))).filter (fun p => p.2 != 0)
/-- Read a graft version's image into its place in warm residency, which it gets now if it has none; a failure ends its message (08 R289). -/
def State.readGraft (s : State) (g0 : Graft) (a : Admin) : State :=
  match (if g0.place = [] then (s.warmRoom [g0.size] (s.sv.warm.length + 1)).bind (fun s1 => (s1.warmAlloc g0.size).map (fun p => (s1, p))) else some (s, g0.place)) with
  | none => s.discardGraft g0 0x13
  | some (s1, place) =>
    let g := { g0 with place := place }
    let s2 := s1.modGraftNum g.num (fun x => { x with place := place })
    let at_ := fieldLE g.source 8 8
    if fieldLE g.source 0 1 = 1 then
      let v := fieldLE g.source 1 1
      match s2.volGet a.stand v at_ g.size with
      | .bytes bs => ((s2.countVol a.stand v at_ g.size).placeWrite place bs).modGraftNum g.num (fun x => { x with taken := true })
      | .violation => (s2.adminViolation a at_).discardGraft g 0x40
      | .lost => (s2.countVol a.stand v at_ g.size).discardGraft g 0x30
      | .wait => s2
    else (s2.each (pieces4k at_ g.size) (fun s p => s.readPiece g a at_ p.1 p.2)).modGraftNum g.num (fun x => { x with taken := true })
/-- The message a graft version waits for. -/
def State.graftMsg (s : State) (g : Graft) : Option Admin := g.msg.bind (fun m => s.sv.admins.find? (fun a => a.id == m))
/-- A READ of a graft image has been answered (12 R412): its bytes, or the end of the message. -/
def State.graftGot (s : State) (num pos status : Nat) (data : List Byte) : State :=
  match s.graftNum num with
  | none => s
  | some g =>
    if g.state ≠ .staging ∨ g.waits = 0 then s
    else if status = 0 then (s.placeWrite (placeFrom g.place pos) data).modGraftNum num (fun x => { x with waits := x.waits - 1 })
    else
      let st := respStatus status
      match s.graftMsg g with
      | some a => (if st = 0x40 then s.adminViolation a (fieldLE g.source 8 8 + pos) else s).discardGraft g st
      | none => s.discardGraft g st

/-- GRAFT_PUT: refused at once, or the version enters STAGING and its image is read (08 R287, R289). -/
def State.beginGraft (s : State) (a : Admin) : State :=
  let m := a.bytes
  let id := fieldLE m 32 3
  let ver := fieldLE m 35 1
  let mine := s.sv.grafts.filter (fun g => g.stand == a.stand && g.id == id)
  if s.draining then a.stop s 0x13
  else if 2 ≤ mine.length then a.stop s 0x15
  else match s.standManifest a.stand (fieldLE m 48 8) with
    | none => a.stop s 0x14
    | some man =>
      if mine.any (fun g => g.version == ver) ∨ manGraftable man = false then a.stop s 0x14
      else
        let (num, s1) := s.fresh
        let g : Graft := ⟨a.stand, id, ver, fieldLE m 48 8, fieldLE m 36 4, slice m 72 32, fieldLE m 40 8, [], .staging, some a.id, num, slice m 56 16, false, 0,
          .unverified, 0⟩
        (s1.modSv (fun v => { v with grafts := v.grafts ++ [g] })).readGraft g a
/-- The body rules of GRAFT_PUT. -/
def graftPutOk (m : List Byte) : Bool :=
  decide (1 ≤ fieldLE m 32 3) && decide (1 ≤ fieldLE m 35 1) && decide (64 ≤ fieldLE m 36 4 ∧ fieldLE m 36 4 ≤ 1073741824) &&
  decide (fieldLE m 56 1 < 2) && zeros m 58 6 && zeros m 104 24
def State.msgGraftPut (s : State) (src : Source) (route : AdminRoute) (m : List Byte) : State :=
  s.receive src route m 0 128 (graftPutOk m) State.beginGraft
def execGraftPut (t : Nat) (src : Source) (m : List Byte) (s : State) : Host.Outcome State Fault Refusal :=
  .next ((s.at t).msgGraftPut src .row m)

/-- A matrix operand's group under 02 R60: the wide group for 1, the narrow group for 0. -/
def inGroup (wide : Nat) (fmt : Nat) : Bool := okMatrix fmt && (isWide fmt == decide (wide = 1))
/-- The byte ranges of the tiles of a graft record: A, then B (08 R288). -/
def graftTiles (r p : List Byte) : (Nat × Nat) × (Nat × Nat) :=
  let rank := fieldLE r 2 2
  ((fieldLE r 16 4, cdiv rank 32 * cdiv (fieldLE p 4 4) 32 * tileBytes (fieldLE r 4 1)),
   (fieldLE r 20 4, cdiv (fieldLE p 8 4) 32 * cdiv rank 32 * tileBytes (fieldLE r 5 1)))
/-- The checks of a graft image, b its bytes (08 R288, R289). -/
def graftOk (g : Graft) (b man : List Byte) : Bool :=
  let n := fieldLE b 6 2
  let recs := (List.range n).map (fun k => slice b (64 + 32 * k) 32)
  let tiles := recs.flatMap (fun r => let t := graftTiles r (projRec man (fieldLE r 0 2)); [t.1, t.2])
  decide (fieldLE b 0 4 = 0x46474B57) && decide (fieldLE b 4 1 = 0 ∧ fieldLE b 5 1 = 1) && decide (1 ≤ n ∧ n ≤ 4096) &&
  decide (fieldLE b 8 8 = g.manifest) && decide (fieldLE b 16 3 = g.id) && decide (fieldLE b 19 1 = g.version) && decide (fieldLE b 20 4 = g.size) &&
  zeros b 24 40 &&
  recs.all (fun r =>
    let p := projRec man (fieldLE r 0 2)
    let t := fieldLE p 13 1
    decide (fieldLE r 0 2 < manProjs man) && decide (4 ≤ fieldLE r 2 2 ∧ fieldLE r 2 2 ≤ fieldLE p 2 2) && zeros r 6 2 && zeros r 12 4 && zeros r 24 8 &&
    decide (fieldLE r 8 4 / 2 ^ 23 % 256 ≠ 255) &&
    graftFmt (fieldLE r 4 1) && graftFmt (fieldLE r 5 1) && graftFmt t && inGroup (fieldLE p 12 1) (fieldLE r 4 1) &&
    (isWide (fieldLE r 5 1) == isWide t)) &&
  tiles.all (fun x => decide (x.1 + x.2 ≤ g.size)) &&
  (List.range tiles.length).all (fun i => (List.range i).all (fun j =>
    let x := tiles.getD i (0, 0)
    let y := tiles.getD j (0, 0)
    decide (x.1 + x.2 ≤ y.1 ∨ y.1 + y.2 ≤ x.1)))

/-- A READY version becomes CURRENT; the version it follows becomes OLD, and goes where nothing pins it (08 R290). -/
def State.commitGraft (s : State) (g : Graft) : State :=
  let older := mapIf (fun (x : Graft) => x.stand == g.stand && x.id == g.id && x.state == .current) (fun x => { x with state := .old }) s.sv.grafts
  let s1 := (s.modSv (fun v => { v with grafts := older })).modGraft g.stand g.id g.version (fun x => { x with state := .current, msg := none })
  let s2 := s1.retireOld
  match g.msg with
  | some m => s2.adminEnd m 0 (leBytes 8 s.now)
  | none => s2

/-- GRAFT_READY: the image of a staging version has been read; its digest is compared, and a verified one is checked. One that differs is
quarantined and its sources are tried in turn (08 R273, R275, R289, R290). -/
def execGraftReady (t sd id ver : Nat) (s : State) : Host.Outcome State Fault Refusal :=
  let s1 := s.at t
  if s1.frozen then .next s1 else
  match s1.graft sd id ver with
  | none => .next s1
  | some g =>
    if g.state ≠ .staging ∨ g.waits ≠ 0 then .next s1
    else if g.commit ≠ 0 ∧ g.commit ≤ s1.now then .next (s1.discardGraft g 0x10)
    else if g.taken = false then (match s1.graftMsg g with
      | some a => .next (s1.readGraft g a)
      | none => .next s1)
    else
      let bs := s1.graftBytes g
      if g.copy = .quarantined then .next s1
      else if g.copy = .unverified ∧ chunkDigest bs ≠ g.digest then .next (s1.modGraftNum g.num (fun x => { x with copy := .quarantined, tries := 0 }))
      else match s1.standManifest sd g.manifest with
        | none => .next (s1.discardGraft g 0x14)
        | some man =>
          if graftOk g bs man = false then .next (s1.discardGraft g 0x14)
          else
            let g' := { g with state := .ready, copy := .verified }
            let s2 := s1.modGraft sd id ver (fun _ => g')
            if g.commit = 0 then .next (s2.commitGraft g') else .next s2
/-- GRAFT_COMMIT: at COMMIT_TIME a READY version becomes CURRENT; a version still STAGING is discarded (08 R290). -/
def execGraftCommit (t sd id ver : Nat) (s : State) : Host.Outcome State Fault Refusal :=
  let s1 := s.at t
  if s1.frozen then .next s1 else
  match s1.graft sd id ver with
  | none => .next s1
  | some g =>
    if g.commit = 0 ∨ s1.now < g.commit then .next s1
    else if g.state = .ready then .next (s1.commitGraft g)
    else if g.state = .staging then .next (s1.discardGraft g 0x10)
    else .next s1

/-- GRAFT_RETIRE names a version, or every version of a graft with version 0 (08 R291). -/
def State.beginRetire (s : State) (a : Admin) : State :=
  let id := fieldLE a.bytes 32 3
  let ver := fieldLE a.bytes 35 1
  let hit := s.sv.grafts.filter (fun g => g.stand == a.stand && g.id == id && (ver == 0 || g.version == ver))
  if hit.isEmpty then a.stop s 0x14
  else
    let s1 := s.each hit (fun s g =>
      if g.state = .staging ∨ g.state = .ready then s.discardGraft g 0x20
      else if g.state = .current then s.modGraft g.stand g.id g.version (fun x => { x with state := .old })
      else s)
    s1.retireOld.adminEnd a.id 0 []
def State.msgGraftRetire (s : State) (src : Source) (route : AdminRoute) (m : List Byte) : State :=
  s.receive src route m 0 64 (decide (1 ≤ fieldLE m 32 3) && zeros m 36 28) State.beginRetire
def execGraftRetire (t : Nat) (src : Source) (m : List Byte) (s : State) : Host.Outcome State Fault Refusal :=
  .next ((s.at t).msgGraftRetire src .row m)

/-- A graft version's image that the warm tier has lost is read again from its volume (06 R218). -/
def State.refillGraft (s : State) (g : Graft) : State :=
  if g.place ≠ [] ∨ fieldLE g.source 0 1 ≠ 1 then s
  else match (s.warmRoom [g.size] (s.sv.warm.length + 1)).bind (fun s1 => (s1.warmAlloc g.size).map (fun p => (s1, p))) with
    | none => s
    | some (s1, place) => match s1.volGet g.stand (fieldLE g.source 1 1) (fieldLE g.source 8 8) g.size with
      | .bytes bs =>
        let s2 := (s1.modGraftNum g.num (fun x => { x with place := place, taken := true })).placeWrite place bs
        s2.modGraftNum g.num (fun x => { x with copy := if chunkDigest (s2.placeRead place g.size) = g.digest then .verified else .quarantined, tries := 1 })
      | _ => s1
/-- The first source of a re-fetch of a graft image: its volume (08 R275). -/
def State.graftAgain (s : State) (g : Graft) : State × VolGot :=
  let v := fieldLE g.source 1 1
  let b := fieldLE g.source 8 8
  if fieldLE g.source 0 1 ≠ 1 then (s, .lost)
  else match s.volGet g.stand v b g.size with
    | .wait => (s, .wait)
    | r => (s.countVol g.stand v b g.size, r)
/-- One try of a re-fetch of a graft image; a staging version whose sources have all failed is discarded (08 R275, R290). -/
def State.graftTry (s : State) (g : Graft) (bs : Option (List Byte)) : State :=
  let s1 := match bs with
    | some b => s.placeWrite g.place (b.take g.size)
    | none => s
  let ok := bs.isSome && chunkDigest (s1.graftBytes g) == g.digest
  let s2 := s1.modGraftNum g.num (fun x => { x with copy := if ok then .verified else .quarantined, tries := g.tries + 1 })
  if ok = false ∧ g.tries = 2 ∧ g.state = .staging then s2.discardGraft g 0x32 else s2

/-- REFETCH_COMPLETE: the next source of a quarantined copy has been read: first the next lower tier, then REPLICA_PID 0 and 1, whose bytes rx
arrive from Urren (none: nothing came). A verified one replaces the copy at this ring time. id names a near copy, or a warm copy or graft image
(08 R275). -/
def execRefetchComplete (t : Nat) (near : Bool) (id : Nat) (rx : Option (List Byte)) (s : State) : Host.Outcome State Fault Refusal :=
  let s1 := s.at t
  if s1.frozen then .next s1 else
  if near then
    match s1.obj id with
    | none => .next s1
    | some o =>
      if o.state ≠ .quarantined ∨ 3 ≤ o.tries ∨ 2 ≤ o.kind then .next s1
      else
        let r := if o.tries = 0 then s1.nearAgain o else (s1.noAnswer o.manifest (o.tries - 1) rx, (s1.replicaBytes o.manifest (o.tries - 1) rx).elim .lost .bytes)
        match r.2 with
        | .wait => .next s1
        | g => .next ((((r.1.nearArrive o g.got).modObj id (fun x => { x with tries := o.tries + 1 })).reviseJobs (fun j =>
            j.stand == o.stand && j.manifest == o.manifest && o.kind == 0)).endJobs).settleLoads
  else
    match s1.warmCopy id, s1.graftNum id with
    | some w, _ =>
      if w.state ≠ .quarantined ∨ 3 ≤ w.tries then .next s1
      else
        let r := if w.tries = 0 then s1.warmAgain w else (s1.noAnswer w.manifest (w.tries - 1) rx, (s1.replicaBytes w.manifest (w.tries - 1) rx).elim .lost .bytes)
        match r.2 with
        | .wait => .next s1
        | g => .next ((r.1.warmArrive w g.got).modWarm id (fun x => { x with tries := w.tries + 1 })).settleLoads
    | none, some g =>
      if g.copy ≠ .quarantined ∨ 3 ≤ g.tries then .next s1
      else
        let r := if g.tries = 0 then s1.graftAgain g else (s1, (s1.replicaBytes g.manifest (g.tries - 1) rx).elim .lost .bytes)
        match r.2 with
        | .wait => .next s1
        | x => .next (r.1.graftTry g x.got)
    | none, none => .next s1

/-- GRAFT_FETCH: the fetch at the head of the queue ends: a graft version's or image's near copy has arrived, a spilled page has its bytes in frames
again; one that still lacks frames goes to the end of the queue (06 R233, R234, 08 R293, 11 R372). -/
def execGraftFetch (t : Nat) (s : State) : Host.Outcome State Fault Refusal :=
  let s1 := s.at t
  if s1.frozen then .next s1 else
  match s1.sv.fetches with
  | [] => .next s1
  | f :: fs =>
    let s2 := s1.modSv (fun v => { v with fetches := fs })
    match s2.obj f.obj with
    | none => .next s2
    | some o =>
      if o.kind = 1 then
        let s3 := match s2.graftOf o with
          | some g => s2.refillGraft g
          | none => s2
        .next (s3.nearArrive o (match s3.lower o with | .bytes bs => some bs | _ => none))
      else if o.kind = 3 then
        match s2.load o.manifest with
        | some l => .next ((s2.objWrite o 0 l.image).modObj o.id (fun x => { x with state := .verified }))
        | none => .next s2
      else if o.spilled then
        let r := s2.reframe o
        match r.1.obj o.id with
        | some o' => if r.2 then .next (r.1.moveObj o' { o' with spilled := false, lastUse := r.1.now })
                     else .next (r.1.modSv (fun v => { v with fetches := v.fetches ++ [f] }))
        | none => .next r.1
      else .next s2

end Sys2Proof.Machine
end

