-- ==== Sys2Proof/Machine/Fork.lean ====
section
/-! DEFINITION. Fork units, group steps and join units (09 R296-R326). -/

namespace Sys2Proof.Machine

/-! ### Records and faults -/

def State.modFork (s : State) (id : Nat) (f : ForkRun → ForkRun) : State :=
  s.modSv (fun v => { v with forks := mapIf (fun x => x.id == id) f v.forks })
def State.forkRun (s : State) (pass step : Nat) : Option ForkRun := s.sv.forks.find? (fun x => x.pass == pass && x.step == step)
def State.groupRun (s : State) (pass gstep : Nat) : Option GroupRun := s.sv.groups.find? (fun x => x.pass == pass && x.gstep == gstep)
def State.modGroup (s : State) (pass gstep : Nat) (f : GroupRun → GroupRun) : State :=
  s.modSv (fun v => { v with groups := mapIf (fun x => x.pass == pass && x.gstep == gstep) f v.groups })
/-- FORK_STATUS: fork steps in progress, triggers running (09 R326). -/
def State.forkStatus (s : State) : State :=
  (s.wf Reg.forkStatus 15 0 (s.sv.forks.filter (fun x => !x.joined)).length).wf Reg.forkStatus 31 16 (s.sv.groups.filter (·.active)).length
/-- Log a fault in FORK_FAULT (09 R326, 16 R541). -/
def State.forkFault (s : State) (kind sd step peer token : Nat) : State :=
  let v := kind * 2 ^ 60 + sd * 2 ^ 54 + step * 2 ^ 48 + peer * 2 ^ 44 + token
  (s.firstEvent Reg.forkFault Reg.forkFaultTime v).eventOf (some sd) 7 0 (2 ^ 63 + v) 0
/-- A word of an instance's scratch. -/
def State.relWord (s : State) (i : Inst) (rel off : Nat) : Nat := leNat (s.scratchRead (s.relNow i rel) off 4)
def State.putRelWord (s : State) (i : Inst) (rel off v : Nat) : State := s.scratchWrite (s.relNow i rel) off (leBytes 4 v)
/-- What is running on an instance: pass, image bytes, routing block. -/
def State.runningCfg (s : State) (i : Inst) : Option (Pass × Load × Nat × List Byte) :=
  match s.runningOn i.id, s.load i.load with
  | some p, some l =>
    if p.inst = some i.id ∧ p.started = true then
      let c := (entCfgs l.image i.entry).getD p.stage 0
      some (p, l, c, routing l.image c)
    else none
  | _, _ => none
/-- The instance whose running pass a branch serves, with its relative branch. -/
def State.instOn (s : State) (b : Nat) : Option (Inst × Nat) :=
  match (s.passOn b).bind (fun p => p.inst.bind s.inst) with
  | some i => ((s.rels i (s.runCfg i)).find? (fun x => x.1 == b)).map (fun x => (i, x.2))
  | none => none

/-! ### Choice lists and assignment (09 R300-R307) -/

/-- A record: slot, choices present, and each choice's expert and weight word. -/
structure Choices where
  slot : Nat
  n : Nat
  picks : List (Nat × Nat)

/-- Record i of a step's choice list. -/
def State.choiceRec (s : State) (b : Nat) (f : List Byte) (i : Nat) : Choices :=
  let k := fkK f
  let r := s.scratchRead b (fkList f + i * (8 + 8 * k)) (8 + 8 * k)
  ⟨fieldLE r 0 1, Nat.min k (fieldLE r 1 1), (List.range k).map (fun x => (fieldLE r (8 + 8 * x) 2, fieldLE r (12 + 8 * x) 4))⟩
/-- Records that take part, and why the others do not: 2 invalid slot, 3 over NMAX (09 R302). A slot whose request has ended since the step began
keeps its part in it (09 R321). -/
def recordFault (held : List Nat) (f : List Byte) (rs : List Choices) (i : Nat) : Nat :=
  match rs[i]? with
  | none => 2
  | some r =>
    if held.contains r.slot = false then 2
    else if fkNmax f ≤ ((rs.take i).filter (fun q => q.slot == r.slot)).length then 3 else 0

/-- The state of the assignment: rows taken by (slot, expert), and each choice's status in the order decided. -/
structure Assign where
  taken : List ((Nat × Nat) × Nat)
  done : List ((Nat × Nat) × Nat)

def Assign.count (a : Assign) (k : Nat × Nat) : Nat := ((a.taken.find? (fun x => x.1 == k)).map (·.2)).getD 0
/-- Decide choice (i, r): 0 accepted, 1 capacity, 2 duplicate, 3 invalid (09 R304). -/
def Assign.decide (a : Assign) (experts cap i r : Nat) (c : Choices) : Assign :=
  let e := (c.picks.getD r (0, 0)).1
  let dup := (List.range r).any (fun q => (c.picks.getD q (0, 0)).1 == e && a.done.any (fun x => x.1 == (i, q) && x.2 == 0))
  if experts ≤ e then { a with done := a.done ++ [((i, r), 3)] }
  else if dup then { a with done := a.done ++ [((i, r), 2)] }
  else if cap ≤ a.count (c.slot, e) then { a with done := a.done ++ [((i, r), 1)] }
  else ⟨((c.slot, e), a.count (c.slot, e) + 1) :: a.taken.filter (fun x => x.1 != (c.slot, e)), a.done ++ [((i, r), 0)]⟩
/-- The assignment of the records that take part, rank-major and token-minor (09 R304). -/
def assignAll (f : List Byte) (ranks : Nat) (rs : List Choices) (ok : Nat → Bool) : Assign :=
  (List.range ranks).foldl (fun a r => rs.zipIdx.foldl (fun a x =>
    if ok x.2 && decide (r < x.1.n) then
      let n := (rs.zipIdx.filter (fun y => ok y.2 && y.1.slot == x.1.slot)).length
      a.decide (fkE f) (capacityOf f n) x.2 r x.1
    else a) a) ⟨[], []⟩
/-- The status of a choice: 4 where it is absent or its record dropped (09 R306). -/
def Assign.status (a : Assign) (i r : Nat) : Nat := ((a.done.find? (fun x => x.1 == (i, r))).map (·.2)).getD 4

/-! ### Weights (09 R305) -/

/-- The quotient of two FP32 words, rounded once: the integer quotient carries a sticky bit. -/
def fp32Div (a b : Word) : Word :=
  match ofFp32 a, ofFp32 b with
  | .fin s1 m1 e1, .fin s2 m2 e2 =>
    if m2 = 0 then fp32Nan
    else
      let q := m1 * 2 ^ 80 / m2
      (toFp32 (.fin (s1 != s2) (2 * q + (if m1 * 2 ^ 80 % m2 = 0 then 0 else 1)) (e1 - e2 - 81))).1
  | .nan, _ => fp32Nan
  | _, .nan => fp32Nan
  | .inf x, .fin y _ _ => if x = y then fp32PInf else fp32NInf
  | _, _ => fp32Nan
/-- A weight word as FP32. -/
def weight32 (wfmt w : Nat) : Word := if wfmt = 3 then (toFp32 (decFloat fmtE4m3 (w % 256))).1 else BitVec.ofNat 32 w
/-- Back to the weight format. -/
def weightBack (wfmt : Nat) (w : Word) : Nat := if wfmt = 3 then (encFloat fmtE4m3 true (ofFp32 w)).1 else w.toNat
/-- The weights of a token after RENORM. -/
def weightsOf (f : List Byte) (a : Assign) (i : Nat) (c : Choices) : List Nat :=
  let st := (List.range (fkK f)).map (fun r => a.status i r)
  let ws := (List.range (fkK f)).map (fun r => (c.picks.getD r (0, 0)).2)
  let acc := ((List.range (fkK f)).filter (fun r => st.getD r 4 == 0)).map (fun r => weight32 (fkWfmt f) (ws.getD r 0))
  if fkRenorm f && st.any (fun x => decide (1 ≤ x ∧ x ≤ 3)) && !acc.isEmpty then
    let sum := (acc.drop 1).foldl (fun x w => (fp32Add x w).1) (acc.headD 0)
    match ofFp32 sum with
    | .fin _ m _ => if m = 0 then ws else (List.range (fkK f)).map (fun r =>
        if st.getD r 4 = 0 then weightBack (fkWfmt f) (fp32Div (weight32 (fkWfmt f) (ws.getD r 0)) sum) else ws.getD r 0)
    | _ => ws
  else ws

/-! ### Rows (09 R308-R312) -/

/-- Bytes a row takes for one column tile: its column mask, scale and poison, then its elements. -/
def rowPiece (fmt : Nat) : Nat := 8 + rowBytes fmt
/-- The address of column tile c of row i in tiled rows of n columns, in scratch. -/
def rowTile (base fmt cols i c : Nat) : Nat := base + (i / 32 * (cols / 32) + c) * tileBytes fmt
/-- Row i of tiled rows: its pieces and the first poison reason of its tiles. -/
def State.readRow (s : State) (b base fmt cols i : Nat) : List Byte × Byte :=
  (List.range (cols / 32)).foldl (fun acc c =>
    let a := rowTile base fmt cols i c
    let h := parseHdr (s.scratchRead b a 64)
    let why := h.why.getD 0
    (acc.1 ++ leBytes 4 h.colMask.toNat ++ [h.scales.getD (i % 32) 0, if why = 0 then 0 else 1, why, 0] ++
      s.scratchRead b (a + 64 + i % 32 * rowBytes fmt) (rowBytes fmt), if acc.2 = 0 then why else acc.2)) ([], 0)
/-- Write a row's pieces as row j of an entry's input buffer (09 R308). -/
def State.writeRow (s : State) (b base fmt cols j : Nat) (bytes : List Byte) : State :=
  s.each (List.range (cols / 32)) (fun s c =>
    let a := rowTile base fmt cols j c
    let x := slice bytes (c * rowPiece fmt) (rowPiece fmt)
    let old := parseHdr (s.scratchRead b a 64)
    let h0 : TileHdr := if j % 32 = 0 then ⟨fmt, false, false, 0, 0, 0, 0, 0, j / 32, c, List.replicate 32 0⟩ else old
    let bad := fieldLE x 5 1 == 1
    let h : TileHdr := { h0 with
      fmt := fmt, rowMask := h0.rowMask ||| BitVec.ofNat 32 (2 ^ (j % 32)), colMask := BitVec.ofNat 32 (fieldLE x 0 4)
      scales := h0.scales.set (j % 32) (x.getD 4 0), poison := h0.poison || bad, reason := if h0.poison then h0.reason else if bad then x.getD 6 0 else 0 }
    (s.scratchWrite b a (hdrBytes h)).scratchWrite b (a + 64 + j % 32 * rowBytes fmt) (x.drop 8))

/-- The class channel of a pass's Urren traffic (12 R411). -/
def classVc (cls : Nat) : Nat := if cls = 0 then 0 else if cls = 1 then 2 else 4
/-- The key of a target: peer, relative branch, group step. -/
def targetKey (x : Nat × Nat × Nat × Nat) : Nat := x.1 * 65536 + x.2.1 * 256 + x.2.2.1
/-- The origin bytes of a row (09 R311). -/
def originBytes (pid sd step token rank inst : Nat) : List Byte :=
  leBytes 2 pid ++ leBytes 1 sd ++ leBytes 1 step ++ leBytes 2 token ++ leBytes 1 rank ++ leBytes 1 inst
/-- An instance's order of placement within its stand. -/
def State.instOrder (s : State) (i : Inst) : Nat :=
  let sd := (s.load i.load).map (·.stand)
  (s.sv.insts.filter (fun x => (s.load x.load).map (·.stand) == sd)).findIdx (fun x => x.id == i.id)
/-- A stand's instance by its order of placement. -/
def State.instByOrder (s : State) (sd k : Nat) : Option Inst :=
  (s.sv.insts.filter (fun x => (s.load x.load).map (·.stand) == some sd))[k]?

/-- What becomes of a row at its target: taken, refused beyond BUF_ROWS, waiting for the table, or no such target. -/
inductive RowFate where
  | taken (s : State)
  | full
  | wait
  | noTarget

/-- Take a row at a group step of the running pass of an instance (09 R308, R311, R313, R316). -/
def State.takeRow (s : State) (i : Inst) (r : ForkRow) : RowFate :=
  match s.runningCfg i with
  | none => .noTarget
  | some (p, _, _, rt) =>
    let g := groupStep rt r.gstep
    let f := forkStep rt (fieldLE r.origin 3 1)
    if nGroups rt ≤ r.gstep ∨ gsForkFed g = false ∨ gsEntries g ≤ r.entry ∨ gsTrigs g ≤ r.trig then .noTarget
    else
      let done := ((s.groupRun p.id r.gstep).map (·.done)).getD 0
      if done + 2 ≤ r.trig then .wait
      else
        let b := s.relNow i (gsRel g)
        let e := gsTable g + r.trig % 2 * gsEntries g * 32 + r.entry * 32
        let j := leNat (s.scratchRead b (e + 4) 4)
        if gsRows g ≤ j then .full
        else
          let mine := ((List.range (fkE f)).map (fun k => (k, expertEntry rt (fkExp f + k)))).filter (fun x => (expTarget x.2).2 == (gsRel g, r.gstep, r.entry))
          let x := (mine.find? (fun x => (expTarget x.2).1 == 0)).or mine.head?
          let inOff := gsIn g + r.entry * gsInStride g
          let org := gsOrg g + r.entry * gsRows g * 8
          let ent := leBytes 2 (match x with | some (k, _) => k | none => 0) ++ leBytes 2 0 ++ leBytes 4 (j + 1) ++
            (match x with | some (_, y) => slice y 8 8 | none => leBytes 8 0) ++ leBytes 4 inOff ++ leBytes 4 (gsOut g + r.entry * gsOutStride g) ++
            leBytes 4 org ++ leBytes 4 0
          .taken (((s.scratchWrite b e ent).writeRow b inOff (fkXfmt f) (fkD f) j r.bytes).scratchWrite b (org + j * 8) r.origin)

/-- End the requests of a slot's row on a failed transfer (09 R321). -/
def State.chargeSlot (s : State) (p : Pass) (slot status : Nat) : State :=
  match s.slotReq p slot with
  | some r => s.charge r.id status 0
  | none => s
/-- A row that fails: its source counts it as received with the value +0, and its request ends (09 R321). -/
def State.failRow (s : State) (p : Pass) (run : ForkRun) (i : Inst) (f : List Byte) (token rank status : Nat) : State :=
  let slot := (s.choiceRec (s.relNow i (fkRel f)) f token).slot
  (s.modFork run.id (fun x => { x with failed := x.failed ++ [(token, rank)] })).chargeSlot p slot status

/-- The part a message for a peer goes to, and its ADDR: with HIER a remote grove is reached through its lowest-numbered valid peer, which forwards
the message to the part that ADDR then names (09 R310; its place is log entry 32's). -/
def forkVia (run : ForkRun) (f : List Byte) (peer : Nat) : Nat × Nat :=
  let w := fun k => run.peers.getD k 0
  let pid := fld (w peer) 15 0
  let own := fld (w 0) 31 16
  if fkHier f = false ∨ fld (w peer) 31 16 = own then (pid, 0)
  else
    let gate := fld (w (((List.range 16).find? (fun k => decide (0 < k) && (w k).testBit 63 && fld (w k) 31 16 == fld (w peer) 31 16)).getD peer)) 15 0
    if gate = pid then (pid, 0) else (gate, pid * 2 ^ 48 + 1)
/-- A message to a target on a peer: kind 0 rows, 1 release (09 R309, 12 R411). -/
def State.forkTx (s : State) (p : Pass) (run : ForkRun) (f : List Byte) (x : Nat × Nat × Nat × Nat) (kind : Nat) (data : List Byte) (why : Byte) : Tx :=
  let w := run.peers.getD x.1 0
  let via := forkVia run f x.1
  let arg := kind + x.2.1 * 256 + x.2.2.1 * 65536 + fkTrig f * 2 ^ 24 + x.2.2.2 * 2 ^ 32 + fld w 55 52 * 2 ^ 48
  { s.ownTx 8 via.1 via.2 ((if p.cls = 0 then 0 else 1) + (if why = 0 then 0 else 2)) (fld w 61 56) 0 arg data (classVc p.cls) with reason := why.toNat }
/-- Dispatch accepted choices (token, rank) of one target to it: within the part row by row, to a peer as one message (09 R308-R310, R312). -/
def State.dispatchRows (s : State) (p : Pass) (i : Inst) (run : ForkRun) (f : List Byte) (x : Nat × Nat × Nat × Nat) (cs : List (Nat × Nat)) : State :=
  let b := s.relNow i (fkRel f)
  let org := fun (c : Nat × Nat) => originBytes s.ownPid p.stand (fieldLE f 0 1) c.1 c.2 (s.instOrder i)
  let rows := cs.map (fun c => (c, s.readRow b (fkSrc f) (fkXfmt f) (fkD f) c.1))
  let failed := fun (s : State) (peer status : Nat) => cs.foldl (fun (s : State) c =>
    (s.forkFault 5 p.stand (fieldLE f 0 1) peer c.1).failRow p run i f c.1 c.2 status) s
  if x.1 = 0 then
    s.each rows (fun s c =>
      let r : ForkRow := ⟨0, i.id, x.2.2.1, fkTrig f, x.2.2.2, org c.1, c.2.1, c.2.2⟩
      match s.takeRow i r with
      | .taken s1 => s1
      | .wait => s.modSv (fun v => { v with rows := v.rows ++ [r] })
      | .full => ((s.forkFault 4 p.stand x.2.2.1 0 c.1.1).failRow p run i f c.1.1 c.1.2 0x5F)
      | .noTarget => (s.forkFault 5 p.stand (fieldLE f 0 1) 0 c.1.1).failRow p run i f c.1.1 c.1.2 0x41)
  else if (run.peers.getD x.1 0).testBit 63 = false then failed s x.1 0x41
  else
    let why := (rows.map (fun r => r.2.2)).foldl (fun w y => if w ≠ 0 then w else y) 0
    let tx := s.forkTx p run f x 0 (cs.flatMap org ++ rows.flatMap (fun r => r.2.1)) why
    match s.launch tx (.fork run.id (targetKey x)) with
    | (s1, none) => (s1.bump Reg.forkRemote 31 0 cs.length).modFork run.id (fun y => { y with waits := if p.cls = 0 then y.waits else y.waits ++ [targetKey x] })
    | (s1, some e) => failed s1 x.1 (respStatus e)
/-- Bytes of a row in a message: its pieces (09 R308; log entry 32). -/
def rowSize (f : List Byte) : Nat := fkD f / 32 * rowPiece (fkXfmt f)
/-- Accepted choices by target, in the order given: with HIER neighbours of one target share a message of at most 4 KiB (09 R310, 12 R410). -/
def forkBatches (f : List Byte) (target : Nat × Nat → Nat × Nat × Nat × Nat) (acc : List (Nat × Nat)) : List ((Nat × Nat × Nat × Nat) × List (Nat × Nat)) :=
  let most := if fkHier f then Nat.max 1 (4096 / (8 + rowSize f)) else 1
  acc.foldl (fun l c => match l.getLast? with
    | some (x, cs) => if x = target c ∧ cs.length < most then l.dropLast ++ [(x, cs ++ [c])] else l ++ [(target c, [c])]
    | none => [(target c, [c])]) []

/-- The order in which HIER sends: by destination grove (own first), part, relative branch, entry; EAGER sends in assignment order
(09 R310). -/
def State.sendOrder (s : State) (run : ForkRun) (f : List Byte) (target : Nat × Nat → Nat × Nat × Nat × Nat) (acc : List (Nat × Nat)) : List (Nat × Nat) :=
  let key := fun (x : Nat × Nat) =>
    let t := target x
    let own := fld (run.peers.getD 0 0) 31 16
    let grove := fld (run.peers.getD t.1 0) 31 16
    ((if t.1 = 0 ∨ grove = own then 0 else grove + 1) * 65536 + (if t.1 = 0 then s.ownPid else fld (run.peers.getD t.1 0) 15 0)) * 2 ^ 24 +
      t.2.1 * 65536 + t.2.2.2
  if fkHier f then acc.mergeSort (fun a b => decide (key a ≤ key b)) else acc

/-- Write the index list and count what the step decided (09 R305, R306). -/
def State.writeIndex (s : State) (p : Pass) (i : Inst) (f : List Byte) (rs : List Choices) (a : Assign) : State :=
  let b := s.relNow i (fkRel f)
  let s1 := s.each rs.zipIdx (fun s x =>
    let ws := weightsOf f a x.2 x.1
    s.each (List.range (fkK f)) (fun s r => s.scratchWrite b (fkIdx f + (x.2 * fkK f + r) * 8)
      (leBytes 2 (x.1.picks.getD r (0, 0)).1 ++ leBytes 1 (a.status x.2 r) ++ leBytes 1 0 ++ leBytes 4 (ws.getD r 0))))
  let lost := rs.zipIdx.filter (fun x => decide (1 ≤ x.1.n) && (List.range x.1.n).all (fun r => decide (1 ≤ a.status x.2 r ∧ a.status x.2 r ≤ 3)))
  let s2 := ((s1.bump Reg.forkChoices 31 0 a.done.length).bump Reg.forkDropped 31 0 (a.done.filter (fun x => x.2 != 0)).length).bump
    Reg.forkTokdrop 31 0 lost.length
  s2.each lost (fun s x => match s.slotReq p x.1.slot with
    | some r => s.modReq r.id (fun q => { q with cflags := q.cflags ||| 2 })
    | none => s)

/-! ### Commands of the fork unit -/

/-- The fork step begins: its peer table is fixed (09 R326). -/
def State.startFork (s : State) (p : Pass) (i : Inst) (c step : Nat) : ForkRun × State :=
  match s.forkRun p.id step with
  | some r => (r, s)
  | none =>
    let (id, s1) := s.fresh
    let r : ForkRun := ⟨id, p.id, i.id, c, step, 0, false, (List.range 16).map (fun k => if k = 0 then 2 ^ 63 + p.stand * 2 ^ 56 +
      s.instOrder i * 2 ^ 52 + Config.ownGrove.toNat * 65536 + s.ownPid else s.reg (Reg.forkPeer p.stand k)),
      (List.range (cfgSlots (s.image i.load) c)).filter (fun k => (s.slotReq p k).isSome), 0, false, [], [], [], [], false⟩
    (r, s1.modSv (fun v => { v with forks := v.forks ++ [r] }))

/-- FORK_DOORBELL: the step's fork unit reads its doorbell word. A lower COUNT, or a write after FINAL, is ignored and logged. EAGER with
an absolute capacity dispatches rank 0 of the records announced; FINAL decides and dispatches all the rest (09 R301-R310). -/
def execForkDoorbell (t b step : Nat) (s : State) : Host.Outcome State Fault Refusal :=
  let s1 := s.at t
  if s1.frozen then .next s1 else
  match s1.instOn b with
  | none => .next s1
  | some (i, rel) =>
    match s1.runningCfg i with
    | none => .next s1
    | some (p, _, c, rt) =>
      let f := forkStep rt step
      if nForks rt ≤ step ∨ fkRel f ≠ rel then .next s1
      else
        let (run, s2) := s1.startFork p i c step
        let w := leNat (s2.scratchRead b (fkDb f) 4)
        if run.final = true ∨ w % 65536 < run.count then .next (s2.forkFault 6 p.stand step 0 0).forkStatus
        else
          let fin := w.testBit 31
          let s3 := s2.modFork run.id (fun x => { x with count := w % 65536, final := fin })
          let rs := (List.range (w % 65536)).map (s3.choiceRec b f)
          let bad := (List.range rs.length).map (recordFault run.slots f rs)
          let ok := fun k => bad.getD k 2 == 0
          let target := fun (x : Nat × Nat) => expTarget (expertEntry rt (fkExp f + (((rs[x.1]?).map (fun c => (c.picks.getD x.2 (0, 0)).1)).getD 0)))
          let send := fun (s : State) (acc : List (Nat × Nat)) => s.each (forkBatches f target (s.sendOrder run f target acc)) (fun s x => s.dispatchRows p i run f x.1 x.2)
          let accepted := fun (a : Assign) => (a.done.filter (fun x => x.2 == 0)).map (·.1)
          if fin then
            let a := assignAll f (fkK f) rs ok
            let s4 := s3.each bad.zipIdx (fun s x => if x.1 = 0 then s else s.forkFault x.1 p.stand step 0 x.2)
            let s5 := s4.each (a.done.filter (fun x => x.2 == 3)) (fun s x => s.forkFault 1 p.stand step 0 x.1.1)
            let s6 := s5.writeIndex p i f rs a
            .next ((send s6 ((accepted a).filter (fun x => !(x.2 == 0 && decide (x.1 < run.rank0))))).modFork run.id
              (fun x => { x with decided := true })).forkStatus
          else if fkHier f ∨ fkCapf f then .next s3.forkStatus
          else
            let a := assignAll f 1 rs ok
            .next ((send s3 ((accepted a).filter (fun x => decide (run.rank0 ≤ x.1)))).modFork run.id (fun x => { x with rank0 := rs.length })).forkStatus

/-- The response to a fork row: its target has one transfer less to acknowledge; an error ends the requests of its slot (09 R312, R321). -/
def State.forkAck (s : State) (run target status : Nat) : State :=
  match s.sv.forks.find? (fun x => x.id == run) with
  | none => s
  | some x =>
    let s1 := s.modFork run (fun y => { y with waits := y.waits.erase target })
    if status = 0 then s1
    else match s1.inst x.inst, s1.pass x.pass with
      | some i, some p =>
        let s2 := s1.forkFault 5 p.stand x.step (target / 65536) 0
        match s2.runningCfg i with
        | none => s2
        | some (_, _, _, rt) =>
          let f := forkStep rt x.step
          let b := s.relNow i (fkRel f)
          let lost := ((List.range x.count).flatMap (fun i => (List.range (fkK f)).map (fun r => (i, r)))).filter (fun y =>
            let e := s2.scratchRead b (fkIdx f + (y.1 * fkK f + y.2) * 8) 8
            fieldLE e 2 1 == 0 && targetKey (expTarget (expertEntry rt (fkExp f + fieldLE e 0 2))) == target &&
            !x.failed.contains y && !x.returned.any (fun z => z.1 == y.1 && z.2.1 == y.2))
          s2.each lost (fun s y => s.failRow p x i f y.1 y.2 (respStatus status))
      | _, _ => s1
/-- A fork message with these low bits of ARG has not left the part: a posted one is acknowledged with its last flit (09 R312). -/
def State.forkQueued (s : State) (dst arg : Nat) : Bool :=
  let mine := fun (t : Tx) => t.op == 8 && t.dst == dst && t.src == s.ownPid && t.arg % 2 ^ 32 == arg
  s.ur.links.any (fun l => l.2.txq.any (fun q => mine q.tx)) || s.ur.flows.any (fun f => f.waiting.any mine)
/-- The next target of a fork step whose rows are all acknowledged: peer, relative branch and group step (09 R311, R312). -/
def State.releaseTarget (s : State) (p : Pass) (i : Inst) (run : ForkRun) (rt f : List Byte) (step : Nat) : Option (Nat × Nat × Nat) :=
  let targets := ((List.range (fkE f)).map (fun e => expTarget (expertEntry rt (fkExp f + e)))).map (fun x => (x.1, x.2.1, x.2.2.1))
  targets.eraseDups.find? (fun x => let k := targetKey (x.1, x.2.1, x.2.2, 0)
    !run.released.contains k && !run.waits.contains k &&
    (x.1 == 0 || !s.forkQueued (forkVia run f x.1).1 (x.2.1 * 256 + x.2.2 * 65536 + fkTrig f * 2 ^ 24)) &&
    !(x.1 == 0 && s.sv.rows.any (fun r => r.kind == 0 && r.inst == i.id && r.gstep == x.2.2 && r.origin.take 4 == (originBytes s.ownPid p.stand step 0 0 0).take 4)))

/-- FORK_RELEASE: the next target whose rows are all acknowledged is released: an addition of 1 to its doorbell word, or a release
message to its part (09 R311, R312, R314). -/
def execForkRelease (t b step : Nat) (s : State) : Host.Outcome State Fault Refusal :=
  let s1 := s.at t
  if s1.frozen then .next s1 else
  match s1.instOn b with
  | none => .next s1
  | some (i, rel) =>
    match s1.runningCfg i with
    | none => .next s1
    | some (p, _, _, rt) =>
      let f := forkStep rt step
      match s1.forkRun p.id step with
      | none => .next s1
      | some run =>
        match s1.releaseTarget p i run rt f step with
        | none => .next s1
        | some x =>
          if run.decided = false ∨ fkRel f ≠ rel then .next s1
          else
            let k := targetKey (x.1, x.2.1, x.2.2, 0)
            let s2 := s1.modFork run.id (fun y => { y with released := y.released ++ [k] })
            if x.1 = 0 then
              let g := groupStep rt x.2.2
              .next (s2.putRelWord i (gsRel g) (gsDb g) ((s2.relWord i (gsRel g) (gsDb g) + 1) % 2 ^ 32))
            else
              if (run.peers.getD x.1 0).testBit 63 = false then .next (s2.forkFault 5 p.stand step x.1 0)
              else match s2.launch (s2.forkTx p run f (x.1, x.2.1, x.2.2, 0) 1 [] 0) (.fork run.id k) with
                | (s3, none) => .next s3
                | (s3, some e) => .next (s3.forkAck run.id k e)

/-! ### Group steps (09 R313-R316) -/

/-- The group run of a pass, begun where it is not yet. -/
def State.startGroup (s : State) (p : Pass) (i : Inst) (c gstep : Nat) : GroupRun × State :=
  match s.groupRun p.id gstep with
  | some g => (g, s)
  | none =>
    let g : GroupRun := ⟨p.id, i.id, c, gstep, 0, false, 0, false, false, 0⟩
    (g, s.modSv (fun v => { v with groups := v.groups ++ [g] }))
/-- Entry e of a group step's table of trigger t: its offset in scratch. -/
def gtEntry (g : List Byte) (t e : Nat) : Nat := gsTable g + t % 2 * gsEntries g * 32 + e * 32
/-- GROUP_TRIGGER: the doorbell word has reached NSRC: it is written 0 and the next trigger walks its table (09 R314). -/
def execGroupTrigger (t b gstep : Nat) (s : State) : Host.Outcome State Fault Refusal :=
  let s1 := s.at t
  if s1.frozen then .next s1 else
  match s1.instOn b with
  | none => .next s1
  | some (i, rel) =>
    match s1.runningCfg i with
    | none => .next s1
    | some (p, _, c, rt) =>
      let g := groupStep rt gstep
      let (run, s2) := s1.startGroup p i c gstep
      if nGroups rt ≤ gstep ∨ gsRel g ≠ rel then .next s1
      else if run.active = true ∨ gsTrigs g ≤ run.done ∨ leNat (s2.scratchRead b (gsDb g) 4) < gsNsrc g then .next s2
      else .next ((s2.scratchWrite b (gsDb g) (leBytes 4 0)).modGroup p.id gstep (fun x => { x with active := true, entry := 0, running := false })).forkStatus

/-- The value of a group binding's FIELD (09 R314). -/
def groupField (e : List Byte) (k idx t : Nat) : Nat :=
  let rows := fieldLE e 4 4
  if k = 0 then fieldLE e 0 2 else if k = 1 then rows else if k = 2 then cdiv rows 32 else if k = 3 then rows % 32
  else if k = 4 then fieldLE e 16 4 else if k = 5 then fieldLE e 20 4 else if k = 6 then idx else t
/-- The descriptors of a group run: weights, then inputs, then outputs, in template order (09 R315). -/
def State.groupDescs (s : State) (l : Load) (x g e : List Byte) : List (Nat × RingDesc) :=
  let tms := fun o => (List.range (fieldLE g (o + 1) 1)).map (fun k => (fieldLE g o 1 + k, brTmpl x (fieldLE g o 1 + k)))
  let obj := if fieldLE e 2 1 = 1 then fieldLE e 8 4 else ((s.nearShard l.stand (manId l.manifest) (fieldLE e 8 4)).map (·.id)).getD 0
  let blocks := cdiv (fieldLE e 4 4) 32
  let wt := (tms 24).map (fun tm => let d := tm.2.drop 8
    (tm.1, fieldLE tm.2 0 1, ringPlain (fieldLE tm.2 2 1) (patch d 8 (leBytes 4 (fieldLE d 8 4 + fieldLE e 12 4) ++ leBytes 4 obj))))
  let io := fun o field at_ => (tms o).map (fun tm => let d := tm.2.drop 8
    (tm.1, fieldLE tm.2 0 1, ringPlain 3 (patch (patch d 6 (leBytes 2 (fieldLE d 6 2 * blocks))) at_ (leBytes 8 (fieldLE d at_ 8 + fieldLE e field 4)))))
  ((wt ++ io 26 16 8 ++ io 28 20 16).mergeSort (fun a b => decide (a.1 ≤ b.1))).map (fun y => y.2)
/-- A branch's leaves and movers are idle. -/
def State.branchIdle (s : State) (b : Nat) : Bool :=
  (branchLeaves b).all (fun l => (s.leaf l).mode != .run && (s.leaf l).mode != .stall) &&
    s.ringsIdle b
/-- The next entry of a trigger's table with rows. -/
def State.nextEntry (s : State) (b : Nat) (g : List Byte) (t from_ : Nat) : Option Nat :=
  (List.range (gsEntries g)).find? (fun e => decide (from_ ≤ e) && leNat (s.scratchRead b (gtEntry g t e + 4) 4) != 0)
/-- Start the run of an entry: bindings, templates, a pass of the active context (09 R315). -/
def State.runEntry (s : State) (b gstep : Nat) (p : Pass) (l : Load) (c rel : Nat) (rt g : List Byte) (done e : Nat) : State :=
  let ent := s.scratchRead b (gtEntry g done e) 32
  let s1 := s.each (List.range (fieldLE g 32 2)) (fun s k =>
    let bd := groupBind rt (fieldLE g 30 2 + k)
    s.modLeaf (b * 64 + fieldLE bd 0 1) (fun lf => lf.setReg (BitVec.ofNat 5 (fieldLE bd 1 1))
      (BitVec.ofNat 32 (groupField ent (fieldLE bd 2 1) e done))))
  let s2 := s1.each (s1.groupDescs l (brSect l.image c rel) g ent) (fun s d => s.modMover b d.1 (fun m => m.place [d.2]))
  ((s2.modLeavesOf b Leaf.startPass).bump Reg.forkRuns 31 0 1).modGroup p.id gstep (fun x => { x with entry := e, running := true })

/-- GROUP_RUN: the run in hand has ended, or none is: the next entry with rows gets its run: bindings, templates, a pass of the active
context (09 R314, R315). -/
def execGroupRun (t b gstep : Nat) (s : State) : Host.Outcome State Fault Refusal :=
  let s1 := s.at t
  if s1.frozen then .next s1 else
  match s1.instOn b with
  | none => .next s1
  | some (i, rel) =>
    match s1.runningCfg i with
    | none => .next s1
    | some (p, l, c, rt) =>
      match s1.groupRun p.id gstep with
      | none => .next s1
      | some run =>
        let g := groupStep rt gstep
        if run.active = false ∨ run.returning = true ∨ s1.branchIdle b = false ∨ gsRel g ≠ rel then .next s1
        else
          let from_ := if run.running then run.entry + 1 else run.entry
          let s2 := if run.running then s1.modBranch b (fun x => { x with movers := x.movers.map (fun m => (m.1, { m.2 with ring := [] })) }) else s1
          match s2.nextEntry b g run.done from_ with
          | none => .next (s2.modGroup p.id gstep (fun x => { x with entry := gsEntries g, running := false }))
          | some e =>
            .next (s2.runEntry b gstep p l c rel rt g run.done e)

/-- Send one output row of a fork-fed step back to its origin (09 R316, R318). -/
def State.returnRow (s : State) (p : Pass) (i : Inst) (rt g : List Byte) (gstep trig e j : Nat) : State :=
  let b := s.relNow i (gsRel g)
  let ent := s.scratchRead b (gtEntry g trig e) 32
  let org := s.scratchRead b (fieldLE ent 24 4 + j * 8) 8
  let f := forkStep rt (fieldLE org 3 1)
  let row := s.readRow b (fieldLE ent 20 4) (fkRfmt f) (fkDout f) j
  let bytes := (List.range (fkDout f / 32)).flatMap (fun c => slice row.1 (c * rowPiece (fkRfmt f) + 8) (rowBytes (fkRfmt f)))
  if fieldLE org 0 2 = s.ownPid then
    (s.modSv (fun v => { v with rows := v.rows ++ [⟨2, i.id, gstep, trig, e, org, bytes, row.2⟩] })).modGroup p.id gstep (fun x => { x with waits := x.waits + 1 })
  else
    let arg := 2 + gsRel g * 256 + gstep * 65536 + trig * 2 ^ 24 + e * 2 ^ 32 + fieldLE org 7 1 * 2 ^ 48
    let tx := { s.ownTx 8 (fieldLE org 0 2) 0 0 p.stand 0 arg (org ++ bytes) (classVc p.cls) with
      stand := fieldLE org 2 1 % 64, flags := (if p.cls = 0 then 0 else 1) + (if row.2 = 0 then 0 else 2), reason := row.2.toNat }
    match s.launch tx (.forkReturn i.id gstep) with
    | (s1, none) => if p.cls = 0 then s1 else s1.modGroup p.id gstep (fun x => { x with waits := x.waits + 1 })
    | (s1, some _) => s1.forkFault 5 p.stand gstep 0 (fieldLE org 4 2)
/-- Rows that waited for a table are taken now, in their order (09 R316). -/
def State.retryRows (s : State) : State :=
  let ws := s.sv.rows.filter (fun r => r.kind == 0)
  (s.modSv (fun v => { v with rows := v.rows.filter (fun r => r.kind != 0) })).each ws (fun s r =>
    match s.inst r.inst with
    | none => s
    | some i => match s.takeRow i r with
      | .taken s1 => s1
      | .wait => s.modSv (fun v => { v with rows := v.rows ++ [r] })
      | _ => s)
/-- Return every fork-fed row of a trigger (09 R316). -/
def State.returnRows (s : State) (b gstep : Nat) (p : Pass) (i : Inst) (rt g : List Byte) (done : Nat) : State :=
  (s.each (List.range (gsEntries g)) (fun x e => x.each (List.range (leNat (s.scratchRead b (gtEntry g done e + 4) 4)))
    (fun x j => x.returnRow p i rt g gstep done e j))).modGroup p.id gstep (fun x => { x with returning := true, running := false })
/-- End a trigger whose returns are acknowledged: ROWS is written 0, the rings are emptied, the ready word gets the count (09 R316). -/
def State.endTrigger (s : State) (b gstep pass : Nat) (g : List Byte) (done : Nat) : State :=
  let s1 := s.each (List.range (gsEntries g)) (fun s e => s.scratchWrite b (gtEntry g done e + 4) (leBytes 4 0))
  let s2 := (s1.modBranch b (fun x => { x with movers := x.movers.map (fun m => (m.1, { m.2 with ring := [] })) })).modGroup pass gstep (fun x => { x with
    done := done + 1, active := false, returning := false, running := false, entry := 0 })
  (s2.scratchWrite b (gsRdy g) (leBytes 4 (done + 1))).retryRows.forkStatus

/-- Returns of a group step have not left the part (09 R312). -/
def State.returnsQueued (s : State) (gstep : Nat) : Bool :=
  let mine := fun (t : Tx) => t.op == 8 && t.src == s.ownPid && t.flags % 2 == 0 && fld t.arg 7 0 == 2 && fld t.arg 23 16 == gstep
  s.ur.links.any (fun l => l.2.txq.any (fun q => mine q.tx)) || s.ur.flows.any (fun f => f.waiting.any mine)
/-- TRIGGER_COMPLETE: every run of the trigger has ended: fork-fed rows are returned; once every return is acknowledged ROWS is written 0
and the ready word gets the number of completed triggers (09 R316). -/
def execTriggerComplete (t b gstep : Nat) (s : State) : Host.Outcome State Fault Refusal :=
  let s1 := s.at t
  if s1.frozen then .next s1 else
  match s1.instOn b with
  | none => .next s1
  | some (i, rel) =>
    match s1.runningCfg i with
    | none => .next s1
    | some (p, _, _, rt) =>
      match s1.groupRun p.id gstep with
      | none => .next s1
      | some run =>
        let g := groupStep rt gstep
        if run.active = false ∨ gsRel g ≠ rel ∨ s1.branchIdle b = false ∨ (s1.nextEntry b g run.done (if run.running then run.entry + 1 else run.entry)).isSome = true
        then .next s1
        else
          let s2 := if run.returning = true ∨ gsForkFed g = false then s1 else s1.returnRows b gstep p i rt g run.done
          if ((s2.groupRun p.id gstep).map (·.waits)).getD 0 ≠ 0 ∨ s2.returnsQueued gstep = true then .next s2
          else .next (s2.endTrigger b gstep p.id g run.done)

/-! ### Returns and the join (09 R318-R320) -/

/-- A returned row lands in its source's scratch. -/
def State.landRow (s : State) (org bytes : List Byte) (why : Byte) : State :=
  match s.instByOrder (fieldLE org 2 1 % 64) (fieldLE org 7 1) with
  | none => s
  | some i =>
    match s.runningCfg i with
    | none => s
    | some (p, _, _, rt) =>
      let f := forkStep rt (fieldLE org 3 1)
      let tok := fieldLE org 4 2
      let rank := fieldLE org 6 1
      match s.forkRun p.id (fieldLE org 3 1) with
      | none => s
      | some run => (s.scratchWrite (s.relNow i (fkRel f)) (fkRet f + (tok * fkK f + rank) * (fkDout f * codeBits (fkRfmt f) / 8)) bytes).modFork run.id
          (fun x => { x with returned := x.returned ++ [(tok, rank, why.toNat)] })
/-- RETURNED_ROW_ARRIVAL: the oldest returned row lands at its token and rank, and its group step has its acknowledgement (09 R318). -/
def execReturnedRowArrival (t : Nat) (s : State) : Host.Outcome State Fault Refusal :=
  let s1 := s.at t
  if s1.frozen then .next s1 else
  match findIdx (fun r => r.kind == 2) s1.sv.rows 0 with
  | none => .next s1
  | some (k, r) =>
    let s2 := (s1.modSv (fun v => { v with rows := v.rows.take k ++ v.rows.drop (k + 1) })).landRow r.origin r.bytes r.poison
    .next (s2.modSv (fun v => { v with groups := mapIf (fun g => g.inst == r.inst && g.gstep == r.gstep) (fun g => { g with waits := g.waits - 1 }) v.groups }))

/-- The integer of an E4M3 weight in units of 2^-9, none for NaN. -/
def weightInt (w : Nat) : Option Int :=
  match decFloat fmtE4m3 (w % 256) with
  | .fin n m e => some (inUnits n m e (-9))
  | _ => none
/-- Add a weighted container to a sum (09 R318). -/
def AccElem.weigh (e : AccElem) (wlsb : Int) (w : Nat) (c : AccElem × Int) : AccElem :=
  match weightInt w with
  | none => { e with nan := true }
  | some q =>
    if c.2 ≠ wlsb then { e with nan := true }
    else
      let r := accAdd e.a (c.1.a.toInt * q)
      let inf := c.1.pinf || c.1.ninf
      ⟨r.1, e.nan || c.1.nan || (inf && decide (q = 0)), e.pinf || (c.1.pinf && decide (0 < q)) || (c.1.ninf && decide (q < 0)),
        e.ninf || (c.1.ninf && decide (0 < q)) || (c.1.pinf && decide (q < 0)), e.ovf || c.1.ovf || r.2⟩
/-- The join of one token: a row accumulator per column tile, whose row 0 is the token's output. -/
def State.joinTile (s : State) (b : Nat) (f : List Byte) (bad : Nat → Bool) (tok c : Nat) : Acc :=
  let k := fkK f
  let n := codeBits (fkRfmt f)
  let idx := (List.range k).map (fun r => s.scratchRead b (fkIdx f + (tok * k + r) * 8) 8)
  let acc := (List.range k).filter (fun r => fieldLE (idx.getD r []) 2 1 == 0)
  let raws := acc.map (fun r => (r, if bad r then List.replicate 32 0 else
    unpackRow n (s.scratchRead b (fkRet f + (tok * k + r) * (fkDout f * n / 8) + c * (4 * n)) (4 * n)) 32))
  let w := fun r => fieldLE (idx.getD r []) 4 4
  let els := (List.range 32).map (fun j =>
    if fkJexa f then
      let cs := raws.map (fun x => (x.1, unContainer (x.2.getD j 0)))
      let w0 := ((cs.find? (fun x => !bad x.1)).map (fun x => x.2.2)).getD (-32)
      cs.foldl (fun e x => if bad x.1 then e else e.weigh w0 (w x.1) x.2) AccElem.empty
    else
      let ps := raws.map (fun x => (fp32Mul (weight32 (fkWfmt f) (w x.1))
        (match formatOf (fkRfmt f) with | .plain e _ => (toFp32 (decElem e (x.2.getD j 0))).1 | _ => 0)).1)
      AccElem.ofWord ((ps.drop 1).foldl (fun a p => (fp32Add a p).1) (ps.headD 0)))
  let w0 := ((raws.find? (fun x => !bad x.1)).map (fun x => (unContainer (x.2.headD 0)).2)).getD (-32)
  ⟨!fkJexa f, if fkJexa f then w0 - 9 else -32, lowOnes 1, lowOnes 32, tabOf AccElem.empty 32 (fun j => els.getD j AccElem.empty), none⟩

/-- The token and rank pairs a join waits for: the accepted choices of its index (09 R318). -/
def State.joinWant (s : State) (b : Nat) (f : List Byte) (count : Nat) : List (Nat × Nat) :=
  ((List.range count).flatMap (fun i => (List.range (fkK f)).map (fun r => (i, r)))).filter (fun x =>
    leNat (s.scratchRead b (fkIdx f + (x.1 * fkK f + x.2) * 8 + 2) 1) == 0)
/-- Write every output tile of a join and report the poison of the tokens that have any (09 R319, R320). -/
def State.joinTiles (s : State) (b : Nat) (p : Pass) (f : List Byte) (run : ForkRun) : State :=
  let why := fun tok => ((run.returned.find? (fun y => y.1 == tok && y.2.2 != 0)).map (fun y => y.2.2)).getD 0
  let s1 := s.each (List.range (cdiv run.count 32)) (fun s rb => s.each (List.range (fkDout f / 32)) (fun s c =>
    let toks := (List.range 32).map (fun r => rb * 32 + r)
    let rows := toks.map (fun tok => if tok < run.count then
        (s.joinTile b f (fun r => run.failed.contains (tok, r)) tok c).outRow (fkOfmt f) (fkOsat f) 0
      else (0, List.replicate (rowBytes (fkOfmt f)) 0, 0))
    let bad := (((toks.filter (fun x => decide (x < run.count))).map why).find? (fun x => x != 0)).getD 0
    let h : TileHdr := ⟨fkOfmt f, bad != 0, false, BitVec.ofNat 8 bad, lowOnes (Nat.min 32 (run.count - rb * 32)), lowOnes 32, 0, 0, rb, c,
      rows.map (·.1)⟩
    s.scratchWrite b (rowTile (fkOut f) (fkOfmt f) (fkDout f) (rb * 32) c) (hdrBytes h ++ (rows.map (fun r => r.2.1)).flatten)))
  s1.each ((List.range run.count).filter (fun x => why x != 0)) (fun s tok =>
    match s.slotReq p (s.choiceRec b f tok).slot with
    | some r => s.reportPoison b 1 4 (BitVec.ofNat 8 (why tok)) (some r.id) 0
    | none => s)

/-- JOIN: with one row received or failed for every accepted choice the join unit writes every output tile and the ready word
(09 R318-R320). -/
def execJoin (t b step : Nat) (s : State) : Host.Outcome State Fault Refusal :=
  let s1 := s.at t
  if s1.frozen then .next s1 else
  match s1.instOn b with
  | none => .next s1
  | some (i, rel) =>
    match s1.runningCfg i with
    | none => .next s1
    | some (p, _, _, rt) =>
      let f := forkStep rt step
      match s1.forkRun p.id step with
      | none => .next s1
      | some run =>
        let have_ := fun (x : Nat × Nat) => run.returned.any (fun y => y.1 == x.1 && y.2.1 == x.2) || run.failed.contains x
        if run.decided = false ∨ run.joined = true ∨ fkRel f ≠ rel ∨ (s1.joinWant b f run.count).all have_ = false then .next s1
        else
          let s2 := s1.joinTiles b p f run
          .next ((((s2.scratchWrite b (fkRdy f) (leBytes 4 1)).bump Reg.forkJoins 31 0 1).modFork run.id (fun x => { x with joined := true })).forkStatus)

/-! ### Fork messages from other parts (09 R309, 12 R411) -/

/-- A FORK transaction arrives: rows with their origins, a release or a return; the status it is answered with, 8 (INTERNAL) beyond BUF_ROWS
(09 R309, R317). -/
def State.forkArrive (s : State) (tx : Tx) : State × Nat :=
  let kind := fld tx.arg 7 0
  let grel := fld tx.arg 15 8
  let gstep := fld tx.arg 23 16
  let sd := tx.stand % 64
  if kind = 2 then
    match s.instByOrder sd (fld tx.arg 55 48) with
    | some i => if (s.runningCfg i).isSome then (s.landRow (tx.data.take 8) (tx.data.drop 8) (BitVec.ofNat 8 tx.reason), 0) else (s, 7)
    | none => (s, 7)
  else match s.instByOrder sd (fld tx.arg 55 48) with
    | none => (s, 7)
    | some i => match s.runningCfg i with
      | none => (s, 7)
      | some (p, _, _, rt) =>
        let g := groupStep rt gstep
        if nGroups rt ≤ gstep ∨ gsRel g ≠ grel then (s, 7)
        else if kind = 1 then (s.putRelWord i grel (gsDb g) ((s.relWord i grel (gsDb g) + 1) % 2 ^ 32), 0)
        else if kind = 0 then
          let len := rowSize (forkStep rt (fieldLE tx.data 3 1))
          let n := tx.data.length / (8 + len)
          (List.range n).foldl (fun (x : State × Nat) k =>
            let r : ForkRow := ⟨0, i.id, gstep, fld tx.arg 31 24, fld tx.arg 47 32, slice tx.data (8 * k) 8, slice tx.data (8 * n + k * len) len, BitVec.ofNat 8 tx.reason⟩
            match x.1.takeRow i r with
            | .taken s1 => (s1, x.2)
            | .wait => (x.1.modSv (fun v => { v with rows := v.rows ++ [r] }), x.2)
            | .full => (x.1.forkFault 4 p.stand gstep 0 (fieldLE r.origin 4 2), 8)
            | .noTarget => (x.1, 7)) (s, 0)
        else (s, 7)

/-- The response to a return. -/
def State.forkReturnAck (s : State) (inst gstep : Nat) : State :=
  s.modSv (fun v => { v with groups := mapIf (fun g => g.inst == inst && g.gstep == gstep) (fun g => { g with waits := g.waits - 1 }) v.groups })

/-- Fork and join units abandon every step of some instances (09 R321). -/
def State.abandonForks (s : State) (p : Nat → Bool) : State :=
  (s.modSv (fun v => { v with
    forks := v.forks.filter (fun x => !p x.inst), groups := v.groups.filter (fun x => !p x.inst), rows := v.rows.filter (fun x => !p x.inst) })).forkStatus

end Sys2Proof.Machine
end

