-- ==== Sys2Proof/Machine/Movers.lean ====
section
/-! DEFINITION. Tile movers and check-value units (07 R242-R266). -/

namespace Sys2Proof.Machine

/-! ### Ends (07 R245, R247, R253) -/

/-- Where a piece of a move lies: beyond the limit of R253, local memory, a pool object, a volume, another part, or a refused access
with its TIL_FAULT kind, status, address and whether it is a violation. -/
inductive Loc where
  | beyond
  | here (space off : Nat)
  | obj (o : PoolObj) (off : Nat)
  | vol (block off : Nat)
  | there (c : Canopy)
  | bad (kind status addr : Nat) (viol : Bool)

/-- The place of len bytes at a position of one end of a move. -/
def State.endLoc (s : State) (b : Nat) (d : RingDesc) (src : Bool) (pos len : Nat) : Loc :=
  let sd := (s.branch b).stand
  let k := if src then d.srcKind else d.dstKind
  let f := if src then d.srcAddr else d.dstAddr
  let fk := if src then 1 else 2
  if k = 2 then
    let off := f % 2 ^ 32 + pos
    match s.sv.objs.find? (fun o => o.id == f / 2 ^ 32 && o.stand == sd) with
    | some o => if off + len ≤ o.size ∧ (src = true ∨ o.kind = 2) then .obj o off else .bad 3 0x40 f true
    | none => .bad 3 0x40 f true
  else if k = 3 then
    match s.volBlock sd (fld f 63 56) (fld f 47 0 + pos / 16384) with
    | some n => if s.ftlState = 1 ∨ (s.ftlReady = true ∧ (src = true ∨ s.ftlWrites = true)) then .vol n (pos % 16384) else .bad fk 0x30 f false
    | none => .bad 3 0x40 f true
  else if d.base = 3 then
    let off := b * 2 ^ 25 + 2 ^ 24 + f + pos
    if f + pos + len ≤ (s.branch b).scratch * 2 ^ 20 then .here 2 off else .bad fk 0x40 (Canopy.mk s.ownPid 2 off).addr true
  else if src = true ∧ d.base = 1 ∧ d.limit ≤ f + pos then .beyond
  else if src = false ∧ d.base = 2 ∧ (d.limit ≤ f + pos ∨ (match d.req with | some id => (s.req id).isNone | none => false) = true) then .beyond
  else
    let a := f + d.addr + pos
    match s.translate sd a (if src then .read else .write) with
    | none => .bad fk 0x40 a true
    | some c =>
      if c.pid ≠ s.ownPid then .there c
      else match s.localOk c.space c.off len with
        | none => .here c.space c.off
        | some .violation => .bad fk 0x40 a true
        | some .tierFailed => .bad fk 0x30 c.addr false

/-- The canopy address of a position of an end; a slot-plane end or a volume gives 0 (07 R261, R266). -/
def State.endAddr (s : State) (b : Nat) (d : RingDesc) (src : Bool) (pos : Nat) : Nat :=
  if (if src then d.srcKind else d.dstKind) = 1 then 0
  else match s.endLoc b d src pos 1 with
    | .here sp off => (Canopy.mk s.ownPid sp off).addr
    | .obj o off => (Canopy.mk s.ownPid 0 (s.frameAddr (o.frames.getD (off / 65536) (0, 0)) (off % 65536))).addr
    | .there c => c.addr
    | .bad _ _ a _ => a
    | _ => 0

/-- Split a range at 4 KiB boundaries of its address, and at the limit of R253 (07 R253). -/
def chunksOf (a limit pos n : Nat) : List (Nat × Nat) :=
  ((List.range (n / 4096 + 2)).filterMap (fun k =>
    let lo := Nat.max (a + pos) (((a + pos) / 4096 + k) * 4096)
    let hi := Nat.min (a + pos + n) (((a + pos) / 4096 + k + 1) * 4096)
    if lo < hi then some (lo - a, hi - lo) else none)).flatMap (fun c =>
    if c.1 < limit ∧ limit < c.1 + c.2 then [(c.1, limit - c.1), (limit, c.1 + c.2 - limit)] else [c])
/-- The chunks of a range of one end. -/
def RingDesc.chunks (d : RingDesc) (src : Bool) (pos n : Nat) : List (Nat × Nat) :=
  let k := if src then d.srcKind else d.dstKind
  let f := if src then d.srcAddr else d.dstAddr
  if k = 0 then chunksOf (f + d.addr) (if (src && d.base == 1) || (!src && d.base == 2) then d.limit - f else 0) pos n
  else if k = 3 then (List.range (cdiv n 16384)).map (fun i => (pos + i * 16384, Nat.min 16384 (n - i * 16384)))
  else chunksOf (f % 2 ^ 32) 0 pos n

/-! ### Faults and poison (07 R254, R258, R265) -/

/-- The TIL_FAULT value of a fault (07 R265). -/
def MoverFault.value (f : MoverFault) : Nat := 2 ^ 63 + f.kind * 2 ^ 60 + f.index * 2 ^ 52 + f.piece * 2 ^ 36 + f.stand * 2 ^ 30
/-- A mover records a fault and charges it to the requests its descriptor serves. -/
def State.moverFault (s : State) (b m i piece kind status addr : Nat) (viol : Bool) (op : Nat) : State :=
  match (((s.branch b).mover m).ring)[i]? with
  | none => s
  | some d =>
    let sd := (s.branch b).stand
    let fl : MoverFault := ⟨kind, ((s.branch b).mover m).entryOf i, piece, sd, addr⟩
    let s1 := (s.modMover b m (fun x => match x.fault with
      | some _ => x
      | none => { x with fault := some fl })).eventOf (some sd) 8 b fl.value addr
    let tag := match d.req.bind s.req with | some r => r.tag | none => s.passTag b
    let s2 := if viol then s1.violation sd op 1 b m addr tag else s1
    if status = 0 then s2
    else match d.req with
      | some id => s2.charge id status addr
      | none => s2.chargePass b status addr
/-- A mover's poison event (07 R259); of a check mismatch only the address that CHK_LOG recorded counts (10 R341). -/
def State.moverPoison (s : State) (b m : Nat) (d : RingDesc) (why : Byte) (addr : Nat) (logged : Bool) : State :=
  s.reportPoison b 1 m why d.req (if why = 6 ∧ logged = false then 0 else addr)

/-! ### Reading and writing pieces -/

/-- Charge the requests a descriptor serves (10 R350). -/
def State.chargeDesc (s : State) (b : Nat) (d : RingDesc) (status addr : Nat) : State :=
  match d.req with | some id => s.charge id status addr | none => s.chargePass b status addr
/-- The class a descriptor is tagged with, and the deadline that orders it in a queue (07 R250, 06 R235). -/
def State.descClass (s : State) (b : Nat) (d : RingDesc) : Nat × Nat :=
  match d.req.bind s.req with | some r => (r.cls, r.deadline) | none => s.accClass b
/-- The status that a read of an unverified or quarantined copy sets (08 R276), 0 for a verified one. -/
def State.copyStatus (s : State) (o : PoolObj) : Nat :=
  if o.kind = 2 ∨ o.state = .verified then 0
  else if o.state = .quarantined ∨ (o.kind = 0 ∧ s.sv.jobs.any (fun j => j.stand == o.stand && j.manifest == o.manifest && j.shards.contains o.index &&
      s.sv.objs.any (fun q => q.stand == o.stand && q.kind == 0 && q.manifest == o.manifest && j.shards.contains q.index && q.state == .quarantined)))
    then 0x31 else 0x30

/-- An access of a mover enters the packet plane at its port (04 R154, R158, 07 R253). -/
def State.moverAccess (s : State) (b m : Nat) (d : RingDesc) (kind piece : Nat) (c : Canopy) (addr : Nat) (data : List Byte) (len : Nat) : State :=
  let (id, s1) := s.fresh
  let (cls, dl) := s.descClass b d
  s1.launchAccess (newAccess id (.mover b m d.id piece) (.router (b * 64 + bmNode m) 5) kind 0 0 0 c addr data len
    ((fieldLE d.bytes 1 1).testBit 2) cls dl (Nat.min cls 2))

/-- Keep what a read gave. -/
def State.gotNow (s : State) (b m i : Nat) (g : Got) : State := s.modDesc b m i (fun d => { d with got := d.got ++ [g] })
/-- Issue the read of one piece of the source: bytes beyond the limit are zeros without an access; a refused access gives its error. -/
def State.askPiece (s : State) (b m i : Nat) (d : RingDesc) (pos len : Nat) : State :=
  let issue := fun (s : State) (c : Canopy) (addr : Nat) (why : Byte) =>
    ((s.gotNow b m i ⟨pos, [], 0, 0, 0, why⟩).modDesc b m i (fun d => { d with waits := d.waits + 1 })).moverAccess b m d 0 pos c addr [] len
  match s.endLoc b d true pos len with
  | .beyond => s.gotNow b m i ⟨pos, List.replicate len 0, 0, 0, 0, 0⟩
  | .here sp off => issue s (Canopy.mk s.ownPid sp off) (d.srcAddr + d.addr + pos) 0
  | .obj o off =>
    let st := s.copyStatus o
    let why : Byte := if st = 0 then 0 else 7
    let c := Canopy.mk s.ownPid 0 (s.frameAddr (o.frames.getD (off / 65536) (0, 0)) (off % 65536))
    let s1 := if st = 0 then s else s.chargeDesc b d st c.addr
    if o.frames.isEmpty then s1.gotNow b m i ⟨pos, s.objRead o off len, 0, 0, 0, why⟩ else issue s1 c c.addr why
  | .vol n off => issue s (Canopy.mk s.ownPid 8 (n * 16384 + off)) d.srcAddr 0
  | .there c => issue s c (d.srcAddr + d.addr + pos) 0
  | .bad k st a _ => s.gotNow b m i ⟨pos, List.replicate len 0, k, st, a, 0⟩

/-- What the reads of a range gave: its bytes, its errors, its first poison reason. -/
def RingDesc.gotRange (d : RingDesc) (pos n : Nat) : List Byte × List Got × Byte :=
  (d.chunks true pos n).foldl (fun x c =>
    match d.got.find? (fun g => g.pos == c.1) with
    | some g => if g.status = 0 then (x.1 ++ g.bytes, x.2.1, if x.2.2 ≠ 0 then x.2.2 else g.why) else (x.1 ++ List.replicate c.2 0, x.2.1 ++ [g], x.2.2)
    | none => (x.1 ++ List.replicate c.2 0, x.2.1, x.2.2)) ([], [], 0)

/-- The output bytes (BASE 2) that a descriptor writes for its request are remembered until the request ends (10 R351). -/
def State.wroteOut (s : State) (d : RingDesc) (space off len : Nat) : State :=
  match d.req with
  | some id => if d.base = 2 ∧ d.dstKind = 0 then s.modReq id (fun r => { r with wrote := r.wrote ++ [(space, off, len)] }) else s
  | none => s

/-- Issue the write of one piece of the destination (07 R253, R254). -/
def State.writePiece (s : State) (b m i : Nat) (d : RingDesc) (piece pos : Nat) (bs : List Byte) : State :=
  let issue := fun (s : State) (c : Canopy) (addr : Nat) =>
    (s.modDesc b m i (fun d => { d with acks := d.acks + 1 })).moverAccess b m d 1 piece c addr bs bs.length
  match s.endLoc b d false pos bs.length with
  | .beyond => s
  | .here sp off => (issue s (Canopy.mk s.ownPid sp off) (d.dstAddr + d.addr + pos)).wroteOut d sp off bs.length
  | .obj o off =>
    if o.frames.isEmpty then s.objWrite o off bs
    else
      let c := Canopy.mk s.ownPid 0 (s.frameAddr (o.frames.getD (off / 65536) (0, 0)) (off % 65536))
      issue s c c.addr
  | .vol n off => issue s (Canopy.mk s.ownPid 8 (n * 16384 + off)) d.dstAddr
  | .there c => issue s c (d.dstAddr + d.addr + pos)
  | .bad k st a v => s.moverFault b m i piece k st a v (if d.dstKind = 3 then 6 else 1)
/-- Write a range of the destination. -/
def State.writeRange (s : State) (b m i : Nat) (d : RingDesc) (piece pos : Nat) (bs : List Byte) : State :=
  s.each (d.chunks false pos bs.length) (fun s c => s.writePiece b m i d piece c.1 (slice bs (c.1 - pos) c.2))

/-! ### Check values (07 R260-R264) -/

/-- The unit of a mover and a profile of it. -/
def Branch.chk (x : Branch) (m : Nat) : ChkUnit := if m < 2 then x.chk0 else x.chk1
def ChkUnit.prof (u : ChkUnit) (p : Nat) : ChkProfile := if p = 0 then u.p0 else if p = 1 then u.p1 else if p = 2 then u.p2 else u.p3
def State.modChk (s : State) (b m : Nat) (f : ChkUnit → ChkUnit) : State :=
  s.modBranch b (fun x => if m < 2 then { x with chk0 := f x.chk0 } else { x with chk1 := f x.chk1 })
/-- A profile's width. -/
def ChkProfile.width (p : ChkProfile) : Nat := 8 * 2 ^ fld p.mode.toNat 9 8
/-- The check value of a message with its folds. -/
def ChkProfile.value (p : ChkProfile) (msg : List Byte) (seq addr : Nat) : Nat :=
  let m := p.mode.toNat
  crcOf p.width p.poly.toNat p.init.toNat (m.testBit 0) (m.testBit 1) (m.testBit 2)
    (msg ++ (if m.testBit 3 then leBytes 4 seq else []) ++ (if m.testBit 4 then leBytes 8 addr else []))
/-- The message of a tile: header bytes 0, 4-15 and 20-63, then the elements. -/
def tileMsg (hdr elems : List Byte) : List Byte := slice hdr 0 1 ++ slice hdr 4 12 ++ slice hdr 20 44 ++ elems
/-- The CHECK field holds the low 32 bits. -/
def ChkProfile.field (v : Nat) : Nat := v % 2 ^ 32

/-- A mismatch: counted, logged first, vector 9, EVENT, freeze trigger (07 R263). -/
def State.mismatch (s : State) (b m i : Nat) (d : RingDesc) (source seq addr exp got : Nat) : State :=
  let sd := (s.branch b).stand
  let idx := ((s.branch b).mover m).entryOf i
  let v := 2 ^ 63 + m * 2 ^ 61 + d.profile * 2 ^ 59 + source * 2 ^ 57 + idx * 2 ^ 49 + sd * 2 ^ 38 + seq % 2 ^ 32
  let s1 := s.modChk b m (fun u => { u with
    mismatch := sat32 (u.mismatch + 1),
    log := match u.log with
      | some l => some l
      | none => some ⟨m, d.profile, source, idx, sd, seq % 2 ^ 32, addr, exp, got, s.now⟩ })
  (((s1.setVector sd 9).eventOf (some sd) 3 b v addr)).trigger 2

/-- A comparison: it counts, and a difference is a mismatch. -/
def State.compare (s : State) (b m i : Nat) (d : RingDesc) (source seq addr exp got : Nat) (differ : Bool) : State × Bool :=
  let s1 := s.modChk b m (fun u => { u with compared := sat32 (u.compared + 1) })
  if differ then (s1.mismatch b m i d source seq addr exp got, true) else (s1, false)

/-! ### Tiles (07 R245, R246, R258, R262) -/

/-- Block bytes of an MX code's dense scale pitch (07 R245). -/
def scalePitch (fmt pitch : Nat) : Nat := cdiv pitch (4 * codeBits fmt)
/-- The header bytes a mover builds for tile i of a dense source (07 R246). -/
def denseHdr (d : RingDesc) (i : Nat) (scales : List Byte) : List Byte :=
  hdrBytes ⟨d.fmt, false, false, 0, 0xFFFFFFFF, 0xFFFFFFFF, BitVec.ofNat 32 (d.seq0 + i), 0, 0, i, scales⟩
/-- Header fields the spec does not state for a tile whose header could not be read (07 R254): masks and SEQ are free. -/
def State.lostHdr (s : State) (d : RingDesc) : List Byte :=
  hdrBytes ⟨d.fmt, false, false, 0, Config.freeWord s.free, Config.freeWord (s.free + 1), Config.freeWord (s.free + 2), 0, 0, 0, List.replicate 32 0x7F⟩

/-- Gather tile i of the source: header, elements, errors, poison. -/
def State.gather (s : State) (d : RingDesc) (i : Nat) : List Byte × List Byte × List Got × Byte :=
  if d.srcKind = 1 then (d.buf.take 64, (d.buf.take d.tileBytes).drop 64, [], 0)
  else if d.srcLay = 0 then
    let h := d.gotRange (i * d.tileBytes) 64
    let e := d.gotRange (i * d.tileBytes + 64) (d.tileBytes - 64)
    (if h.2.1 = [] then h.1 else s.lostHdr d, e.1, h.2.1 ++ e.2.1, if h.2.2 ≠ 0 then h.2.2 else e.2.2)
  else
    let rb := rowBytes d.fmt
    let rows := (List.range 32).map (fun r => d.gotRange (r * d.pitch + i * rb) rb)
    let sc := if isMx d.fmt then (List.range 32).map (fun r => d.gotRange (32 * d.pitch + r * scalePitch d.fmt d.pitch + i) 1) else []
    let all := rows ++ sc
    (denseHdr d i (if isMx d.fmt then sc.flatMap (·.1) else List.replicate 32 0x7F), rows.flatMap (·.1), all.flatMap (·.2.1),
      (all.map (·.2.2)).foldl (fun w x => if w ≠ 0 then w else x) 0)

/-- Runs of bytes that are written: position and bytes. -/
def runsOf : Nat → List (Option Byte) → List (Nat × List Byte)
  | _, [] => []
  | p, none :: l => runsOf (p + 1) l
  | p, some x :: l =>
    match runsOf (p + 1) l with
    | (q, bs) :: r => if q = p + 1 then (p, x :: bs) :: r else (p, [x]) :: (q, bs) :: r
    | [] => [(p, [x])]
/-- The bytes of a row that a dense write stores: every byte that holds an unmasked element, masked elements 0 (07 R246). -/
def maskedRow (bits : Nat) (cols : Word) (row : List Byte) : List (Option Byte) :=
  let m := (List.range 32).foldl (fun a c => if maskBit cols c then a + (2 ^ bits - 1) * 2 ^ (bits * c) else a) 0
  let v := leNat row &&& m
  (List.range row.length).map (fun k => if fld m (8 * k + 7) (8 * k) = 0 then none else some (BitVec.ofNat 8 (v / 2 ^ (8 * k))))

/-- Write tile i to a dense destination (07 R246). -/
def State.scatter (s : State) (b m i : Nat) (d : RingDesc) (n : Nat) (hdr elems : List Byte) : State :=
  let h := parseHdr hdr
  let rb := rowBytes d.fmt
  let rows := (List.range 32).filter (maskBit h.rowMask)
  let s1 := s.each rows (fun s r => s.each (runsOf (r * d.pitch + n * rb) (maskedRow (codeBits d.fmt) h.colMask (slice elems (r * rb) rb)))
    (fun s run => s.writeRange b m i d n run.1 run.2))
  if isMx d.fmt then s1.each rows (fun s r =>
    s.writeRange b m i d n (32 * d.pitch + r * scalePitch d.fmt d.pitch + n) [h.scales.getD r 0]) else s1

/-- Set POISON and REASON in a header. -/
def setPoison (hdr : List Byte) (why : Byte) : List Byte := (hdr.set 1 (hdr.getD 1 0 ||| 1)).set 2 why
/-- Put a check value into a header. -/
def checkHdr (hdr : List Byte) (v : Nat) : List Byte := patch (hdr.set 1 (hdr.getD 1 0 ||| 2)) 16 (leBytes 4 v)

/-- Beats leave for a mover's output circuit. -/
def State.sendOut (s : State) (b m : Nat) (bs : List Byte) : State :=
  s.modMover b m (fun x => let l := toBeats bs; { x with outBeats := x.outBeats ++ l, outIssued := x.outIssued + l.length })
/-- Record the errors of a unit's reads. -/
def State.readFaults (s : State) (b m i n : Nat) (d : RingDesc) (errs : List Got) : State :=
  s.each errs (fun s g => s.moverFault b m i n g.kind g.status g.addr (decide (g.status = 0x40)) (if d.srcKind = 3 then 6 else 0))

/-- Process tile n of descriptor i, whose bytes are there (07 R246, R254, R258, R262, R43). -/
def State.moveTile (s : State) (b m i : Nat) (d : RingDesc) (n : Nat) : State :=
  let g := s.gather d n
  let hdr := g.1
  let errs := g.2.2.1
  let s0 := if errs ≠ [] then s.tick.tick.tick else s
  let elems := if errs = [] then g.2.1 else List.replicate (d.tileBytes - 64) 0
  let was := (hdr.getD 1 0).toNat.testBit 0
  let why0 : Byte := if was then hdr.getD 2 0 else if errs ≠ [] then 8 else if g.2.2.2 ≠ 0 then g.2.2.2
    else if isReservedCode (parseHdr hdr).fmt then 1 else 0
  let s1 := s0.readFaults b m i n d errs
  let p := d.prof.getD ((s.branch b).chk m |>.prof d.profile)
  let seq := fieldLE hdr 12 4
  let poisoned := was || decide (why0 ≠ 0)
  let msg := tileMsg hdr elems
  let srcA := s.endAddr b d true (n * d.tileBytes)
  let fresh := ((s1.branch b).chk m).log.isNone
  let r : State × Bool :=
    if d.mode = 2 then
      if (hdr.getD 1 0).toNat.testBit 1 = false then (s1.modChk b m (fun u => { u with unchecked := sat32 (u.unchecked + 1) }), false)
      else if poisoned then (s1, false)
      else
        let v := p.value msg seq srcA
        s1.compare b m i d 0 seq srcA (fieldLE hdr 16 4) v (decide (fieldLE hdr 16 4 ≠ ChkProfile.field v))
    else (s1, false)
  let hdr1 := if d.mode = 1 then checkHdr hdr (ChkProfile.field (p.value msg seq (s.endAddr b d false (n * d.tileBytes)))) else hdr
  let why : Byte := if was then why0 else if why0 ≠ 0 then why0 else if r.2 then 6 else 0
  let bad := was || decide (why ≠ 0)
  let hdr2 := if bad && !was then setPoison hdr1 why else hdr1
  let told : Byte := if was ∧ (why = 0 ∨ 10 ≤ why.toNat) then 9 else why
  let s2 := if bad then (r.1.moverPoison b m d told (match errs with | e :: _ => e.addr | [] => srcA) (r.2 && fresh)).modMover b m (fun x => { x with
      poison := sat64 (x.poison + 1) }) else r.1
  let s3 :=
    if d.dstKind = 1 then s2.sendOut b m (hdr2 ++ elems)
    else if d.dstLay = 1 then
      if fld (fieldLE hdr 0 1) 4 0 ≠ d.fmt then
        (s2.moverFault b m i n 4 0 (s.endAddr b d false 0) false 1).moverPoison b m d 1 srcA false
      else s2.scatter b m i d n hdr2 elems
    else s2.writeRange b m i d n (n * d.tileBytes) (hdr2 ++ elems)
  (s3.modMover b m (fun x => { x with tiles := sat64 (x.tiles + 1), bytes := sat64 (x.bytes + d.tileBytes) })).modDesc b m i (fun d => { d with
    buf := if d.srcKind = 1 then d.buf.drop d.tileBytes else d.buf })

/-! ### Raw moves (07 R245, R249, R254, R262) -/

/-- Check bytes that follow the data at the source (mode 2) or are appended at the destination (mode 1). -/
def RingDesc.tail (d : RingDesc) (p : ChkProfile) (mode : Nat) : Nat := if d.mode = mode then p.width / 8 else 0
/-- The 4 KiB pieces of a raw move (07 R253, R254). -/
def RingDesc.pieces (d : RingDesc) : List (Nat × Nat) := if d.srcKind = 1 then chunksOf 0 0 0 d.rawBytes else d.chunks true 0 d.rawBytes
/-- The units of a move: its tiles; its pieces, and one more for the check bytes that follow them. -/
def RingDesc.units (d : RingDesc) (p : ChkProfile) : Nat :=
  if d.count = 0 then 0 else if d.raw then d.pieces.length + (if d.tail p 2 = 0 then 0 else 1) else d.count
/-- The source pieces a unit reads. -/
def RingDesc.unitReads (d : RingDesc) (p : ChkProfile) (n : Nat) : List (Nat × Nat) :=
  if d.raw then (match d.pieces[n]? with | some c => [c] | none => d.chunks true d.rawBytes (d.tail p 2))
  else if d.srcLay = 0 then d.chunks true (n * d.tileBytes) 64 ++ d.chunks true (n * d.tileBytes + 64) (d.tileBytes - 64)
  else (List.range 32).flatMap (fun r => d.chunks true (r * d.pitch + n * rowBytes d.fmt) (rowBytes d.fmt)) ++
    (if isMx d.fmt then (List.range 32).flatMap (fun r => d.chunks true (32 * d.pitch + r * scalePitch d.fmt d.pitch + n) 1) else [])

/-- Process piece n of a raw move, whose bytes are there: its poison is recorded for the request, a lost codeword of a volume ends it (06 R226),
its bytes are written or sent. -/
def State.movePiece (s : State) (b m i : Nat) (d : RingDesc) (p : ChkProfile) (n : Nat) : State :=
  let c := d.pieces.getD n (d.rawBytes, d.tail p 2)
  let data := decide (n < d.pieces.length)
  let g := if d.srcKind = 1 then ([], [], 0) else d.gotRange c.1 c.2
  let srcA := s.endAddr b d true c.1
  let s1 := s.readFaults b m i n d g.2.1
  let s2 := match g.2.1 with
    | e :: _ => s1.moverPoison b m d 8 e.addr false
    | [] =>
      if g.2.2 = 0 ∨ data = false then s1
      else
        let s' := s1.moverPoison b m d g.2.2 srcA false
        if g.2.2 = 5 ∧ d.srcKind = 3 then s'.chargeDesc b d 0x30 srcA else s'
  let buf := if d.srcKind = 1 then d.buf else d.buf ++ g.1
  let bs := slice buf c.1 c.2
  let s3 := s2.modDesc b m i (fun x => { x with buf := buf })
  if data = false then s3
  else
    let s4 := s3.modMover b m (fun x => { x with bytes := sat64 (x.bytes + c.2) })
    if d.dstKind = 1 then
      let z := (c.1 + c.2) / 64 * 64
      (s4.sendOut b m (slice buf d.sent (z - d.sent))).modDesc b m i (fun x => { x with sent := Nat.max d.sent z })
    else s4.writeRange b m i d n c.1 bs

/-- All of a raw move's bytes have passed: the check value is compared or appended (07 R262-R264), the last beat is padded. -/
def State.endRaw (s : State) (b m i : Nat) (d : RingDesc) (p : ChkProfile) : State :=
  let n := d.rawBytes
  let data := d.buf.take n
  let srcA := s.endAddr b d true 0
  let exp := if d.mode = 2 then leNat (slice d.buf n (d.tail p 2)) else d.pitch
  let force := d.mode == 3 && (p.width == 64 || decide (2 ^ p.width ≤ d.pitch))
  let v := p.value data 0 srcA
  let r : State × Bool := if d.mode = 2 ∨ d.mode = 3 then s.compare b m i d (d.mode - 1) 0 srcA exp v (force || decide (exp ≠ v)) else (s, false)
  let s2 := if r.2 then r.1.moverPoison b m d 6 srcA ((s.branch b).chk m).log.isNone else r.1
  let extra := if d.mode = 1 then leBytes (p.width / 8) (p.value data 0 (s.endAddr b d false 0)) else []
  if d.dstKind = 1 then s2.sendOut b m ((data ++ extra).drop d.sent)
  else s2.writeRange b m i d d.pieces.length n extra

/-! ### Running a move -/

/-- Bytes a slot-plane source must have brought for its next unit: a tile, or a raw move's data up to the end of the piece (07 R249). -/
def RingDesc.needBytes (d : RingDesc) (p : ChkProfile) : Nat :=
  if d.raw then (match d.pieces[d.pos]? with | some c => c.1 + c.2 | none => d.rawBytes + d.tail p 2) else d.tileBytes

/-- Take beats from the mover's input queue until need bytes are held; each frees its credit (04 R130). -/
def State.pull (s : State) (b m i need : Nat) : Nat → State
  | 0 => s
  | k + 1 =>
    match s.desc b m i, ((s.branch b).mover m).inBeats with
    | some d, bt :: rest =>
      if need ≤ d.buf.length then s
      else (((s.modMover b m (fun x => { x with inBeats := rest })).freeCredit b bt.src true).modDesc b m i (fun d => { d with
        buf := d.buf ++ bt.data })).pull b m i need k
    | _, _ => s

/-- Everything has passed: the count of beats after which the descriptor is complete is fixed. -/
def State.allMoved (s : State) (b m i : Nat) : State :=
  s.modDesc b m i (fun d => { d with moved := true, buf := [], upto := if d.dstKind = 1 then ((s.branch b).mover m).outIssued else 0 })

/-- A unit may go to the output circuit: earlier moves to it are through and no beat waits, so tiles leave in ring order and a descriptor can
stop at a tile boundary (07 R255, R256). -/
def Mover.outFree (x : Mover) (i : Nat) : Bool :=
  x.outBeats.isEmpty && (x.ring.take i).all (fun e => e.kind != 1 || e.dstKind != 1 || e.moved || e.done || e.abandoned)

/-- Advance a move: issue the reads of its next unit, or take its beats, and process it when all is there; a descriptor that is to stop does so
at this boundary (07 R255). -/
def State.advance (s : State) (b m i : Nat) : Nat → State
  | 0 => s
  | k + 1 =>
    match s.desc b m i with
    | none => s
    | some d =>
      let p := d.prof.getD ((s.branch b).chk m |>.prof d.profile)
      if d.running = false ∨ d.moved = true ∨ d.waits ≠ 0 then s
      else if d.stopping = true ∧ d.asked = false then (s.modDesc b m i (fun x => { x with abandoned := true, buf := [], got := [] })).ringTokens b m
      else if d.units p ≤ d.pos then
        if d.raw = true ∧ d.count ≠ 0 then
          (if d.dstKind = 1 ∧ ((s.branch b).mover m).outFree i = false then s else (s.endRaw b m i d p).allMoved b m i)
        else s.allMoved b m i
      else if d.srcKind = 1 then
        let need := d.needBytes p
        let s1 := s.pull b m i need (need / 64 + 2)
        match s1.desc b m i with
        | none => s1
        | some d1 =>
          if d1.buf.length < need then s1
          else
            let s2 := if d1.raw then s1.movePiece b m i d1 p d1.pos else s1.moveTile b m i d1 d1.pos
            (s2.modDesc b m i (fun x => { x with pos := x.pos + 1 })).advance b m i k
      else if d.asked = false then
        ((s.modDesc b m i (fun x => { x with asked := true })).each (d.unitReads p d.pos) (fun s c => s.askPiece b m i d c.1 c.2)).advance b m i k
      else if d.dstKind = 1 ∧ ((s.branch b).mover m).outFree i = false then s
      else
        let s2 := if d.raw then s.movePiece b m i d p d.pos else s.moveTile b m i d d.pos
        (s2.modDesc b m i (fun x => { x with pos := x.pos + 1, asked := false, got := [] })).advance b m i k

/-- Enough fuel for a move: three steps a unit. -/
def RingDesc.fuel (d : RingDesc) : Nat := 3 * (d.count + d.rawBytes / 4096) + 8
/-- Advance the i-th descriptor of a ring as far as it goes. -/
def State.goOn (s : State) (b m i : Nat) : State :=
  match s.desc b m i with
  | some d => s.advance b m i d.fuel
  | none => s

/-- Start a MOVE. -/
def State.startMove (s : State) (b m i : Nat) (d : RingDesc) : State :=
  let p := (s.branch b).chk m |>.prof d.profile
  let (id, s1) := s.fresh
  (s1.modDesc b m i (fun x => { x with id := id, started := true, prof := some p })).goOn b m i

/-- A mover's access has been answered (07 R252, R254): a read gives its bytes, a write its acknowledgement or a fault. -/
def State.finishMover (s : State) (a : Access) (b m idx piece : Nat) : State :=
  match findIdx (fun d => d.id == idx && d.running) ((s.branch b).mover m).ring 0 with
  | none => s
  | some (i, d) =>
    let addr := a.faultAddr a.err
    if a.kind = 0 then
      let s1 := s.modDesc b m i (fun x => { x with
        waits := x.waits - 1,
        got := mapIf (fun g => g.pos == piece) (fun g =>
          { g with bytes := a.data, kind := if a.err = 0 then 0 else 1, status := a.err, addr := addr, why := if g.why ≠ 0 then g.why else a.poison }) x.got })
      s1.goOn b m i
    else
      let s1 := s.modDesc b m i (fun x => { x with acks := x.acks - 1 })
      if a.err = 0 then s1 else s1.moverFault b m i piece 2 a.err addr (decide (a.err = 0x40)) (if d.dstKind = 3 then 6 else 1)

/-! ### The ring (07 R250-R252) -/

/-- The next descriptor that may start: the first fetched and unstarted one, at most 4 in progress, none behind a WAIT in progress, a
CHAIN behind every earlier one. -/
def Mover.nextStart (x : Mover) : Option (Nat × RingDesc) :=
  match findIdx RingDesc.ready x.ring 0 with
  | none => none
  | some (i, d) =>
    let run := x.ring.filter RingDesc.running
    if 4 ≤ run.length ∨ run.any (fun e => e.kind == 2) ∨ (d.chain = true ∧ (x.ring.take i).any RingDesc.open') then none
    else some (i, d)

/-- A descriptor completes. -/
def State.descDone (s : State) (b m i : Nat) : State :=
  (s.modDesc b m i (fun d => { d with started := true, done := true })).ringTokens b m

/-- A mover can act: its branch exists, runs and is not frozen. -/
def State.moverRuns (s : State) (b m : Nat) : Bool := decide (m < 4) && s.branchRuns b

/-- The position of the next descriptor to fetch: abandoned ones have left the ring (07 R251, R255). -/
def Mover.firstUnfetched (x : Mover) : Nat := (findIdx (fun d => !d.fetched && !d.abandoned) x.ring 0).map (·.1) |>.getD x.ring.length
/-- MOVER_DESCRIPTOR_FETCH: a burst of up to 8 entries, while fewer than 8 fetched descriptors wait (07 R251). -/
def execMoverDescriptorFetch (t b m : Nat) (s : State) : Host.Outcome State Fault Refusal :=
  if s.nBranches ≤ b then .fault .absentUnit
  else
    let s1 := s.at t
    let x := (s1.branch b).mover m
    if s1.moverRuns b m = false ∨ 8 ≤ (x.ring.filter RingDesc.ready).length then .next s1
    else
      let k := x.firstUnfetched
      let n := Nat.min 8 (x.ring.length - k)
      .next (s1.modMover b m (fun x => { x with
        ring := x.ring.take k ++ ((x.ring.drop k).take n).map (fun d => { d with fetched := true }) ++ x.ring.drop (k + n) }))

/-- MOVER_NOP: a NOP completes at once (07 R252). -/
def execMoverNop (t b m : Nat) (s : State) : Host.Outcome State Fault Refusal :=
  if s.nBranches ≤ b then .fault .absentUnit
  else
    let s1 := s.at t
    match ((s1.branch b).mover m).nextStart with
    | some (i, d) => if s1.moverRuns b m = true ∧ d.kind = 0 then .next (s1.descDone b m i) else .next s1
    | none => .next s1

/-- MOVER_MOVE: every move in progress goes on, and the next descriptor starts if it is a MOVE and may start (07 R252). -/
def execMoverMove (t b m : Nat) (s : State) : Host.Outcome State Fault Refusal :=
  if s.nBranches ≤ b then .fault .absentUnit
  else
    let s1 := s.at t
    if s1.moverRuns b m = false then .next s1
    else
      let s2 := s1.each (List.range ((s1.branch b).mover m).ring.length) (fun s i => match s.desc b m i with
        | some d => if d.running = true ∧ d.kind = 1 then s.goOn b m i else s
        | none => s)
      match ((s2.branch b).mover m).nextStart with
      | some (i, d) => if d.kind = 1 then .next (s2.startMove b m i d) else .next s2
      | none => .next s2

/-- MOVER_WAIT: a WAIT starts, and completes with the next token of the input queue, whose credit it frees (07 R252). -/
def execMoverWait (t b m : Nat) (s : State) : Host.Outcome State Fault Refusal :=
  if s.nBranches ≤ b then .fault .absentUnit
  else
    let s1 := s.at t
    if s1.moverRuns b m = false then .next s1
    else
      let x := (s1.branch b).mover m
      let here := match findIdx (fun d => d.running && d.kind == 2) x.ring 0 with
        | some p => some p
        | none => match x.nextStart with
          | some (i, d) => if d.kind = 2 then some (i, d) else none
          | none => none
      match here, x.inTokens with
      | some (i, _), tk :: rest =>
        .next (((s1.modMover b m (fun x => { x with inTokens := rest })).freeCredit b tk.src false).descDone b m i)
      | some (i, _), [] => .next (s1.modDesc b m i (fun d => { d with started := true }))
      | none, _ => .next s1

/-- MOVE_COMPLETE: a MOVE in progress whose writes are acknowledged and whose last beat has left completes (07 R252). -/
def execMoveComplete (t b m i : Nat) (s : State) : Host.Outcome State Fault Refusal :=
  if s.nBranches ≤ b then .fault .absentUnit
  else
    let s1 := s.at t
    let x := (s1.branch b).mover m
    match x.ring[i]? with
    | some d =>
      if s1.moverRuns b m = true ∧ d.running = true ∧ d.kind = 1 ∧ d.moved = true ∧ d.acks = 0 ∧ d.upto ≤ x.outLeft
      then .next (s1.descDone b m i) else .next s1
    | none => .next s1

end Sys2Proof.Machine
end

