-- ==== Sys2Proof/Machine/Outstanding.lean ====
section
/-! DEFINITION. How transactions of this part complete: the response, the timeout, the loss (12 R412, R425, 11 R382, R383). -/

namespace Sys2Proof.Machine

/-! ### KV fetches served (11 R382) -/

/-- The virtual channel of a response (12 R411). -/
def respVc (vc : Nat) : Nat := if vc = 0 ∨ vc = 2 then 3 else if vc = 4 then 5 else 7
/-- Answer a transaction of another part, or of a host port: status, data, poison reason, ARG. -/
def State.respondVc (s : State) (port : Nat) (tx : Tx) (vc status : Nat) (data : List Byte) (why arg : Nat) : State :=
  let r := { s.ownTx 0x10 tx.src 0 (if why = 0 then 0 else 2) tx.stand status arg data vc with tag := tx.tag, reason := why }
  if s.role port = 3 then s.queueTx port { r with flags := r.flags + 4 } else (s.sendTx r).1
def State.respond (s : State) (port : Nat) (tx : Tx) (status : Nat) (data : List Byte) (why arg : Nat) : State :=
  s.respondVc port tx (respVc tx.vc) status data why arg

/-- A KV fetch served by this part ends: the source is no longer SHIPPING, released where RELEASE asks for it, and the fetch is answered. -/
def State.endServe (s : State) (k : KvServe) (status : Nat) : State :=
  let s1 := (s.modUr (fun u => { u with kvServes := u.kvServes.filter (fun x => !(x.tag == k.tag && x.dst == k.dst)) })).modSeq k.stand k.seq (fun q =>
    { q with state := if q.state = .shipping then .ready else q.state })
  let s2 := if k.release ∧ status = 0 then s1.freeSeq k.stand k.seq else s1
  (s2.sendTx { s2.ownTx 0x10 k.dst 0 0 k.stand status 0 [] (respVc k.vc) with tag := k.tag }).1.afterEnds

/-! ### Accesses of a host port (12 R416, 13 R442) -/

/-- The answer to a host port's access: a RESP, or a PCIe completion, in which any error is an Unsupported Request; a write of which
a piece was dropped is counted (13 R442, R464). -/
def State.hostAnswer (s : State) (port : Nat) (tx : Tx) (pcie : Bool) (status why : Nat) (data : List Byte) : State :=
  if pcie then (if tx.op = 1 then s.emit (.completion s.now (port - 16) tx.tag (if status = 0 then 0 else 1) (if status = 0 then data else []))
    else if status ≠ 0 then s.bump (Reg.hptDrop (port - 16)) 31 0 1 else s)
  else if txNonPosted tx then s.respond port tx status (if status = 0 then data else []) why 0 else s
/-- A piece on another part has been answered; the last one answers the access. -/
def State.hostDone (s : State) (id idx status why : Nat) (data : List Byte) : State :=
  match s.ur.hostWaits.find? (fun h => h.id == id) with
  | none => s
  | some h =>
    let h1 := { h with parts := h.parts ++ [(idx, data)], left := h.left - 1, bad := if h.bad = 0 then status else h.bad,
                       why := if h.why = 0 then why else h.why }
    if h1.left = 0 then
      let bs := ((List.range (h1.parts.length)).flatMap (fun i => ((h1.parts.find? (fun p => p.1 == i)).map (·.2)).getD []))
      (s.modUr (fun u => { u with hostWaits := u.hostWaits.filter (fun x => x.id != id) })).hostAnswer h.port h.tx h.pcie h1.bad h1.why bs
    else s.modUr (fun u => { u with hostWaits := mapIf (fun x => x.id == id) (fun _ => h1) u.hostWaits })

/-! ### Completion (12 R412) -/

/-- A READ, WRITE or ATOMIC of an access has been answered: a leaf's refused access is a violation of its stand; a mover's is when its access ends
(03 R116, 07 R254, 10 R333, 12 R415). -/
def State.accessDone (s : State) (acc status why : Nat) (data : List Byte) (arg : Nat) : State :=
  match s.tiers.accesses.find? (fun a => a.id == acc) with
  | none => s
  | some a =>
    if status = 0 then
      (s.modAcc acc (fun y => { y with data := if a.kind = 2 then leBytes 4 arg else if a.kind = 0 then data else y.data, poison := BitVec.ofNat 8 why })).answer acc
    else
      let s1 := match a.serves with
        | .leaf l _ _ => if status = 3 ∨ status = 4 then s.violation (s.branch (l / 64)).stand a.kind 0 (l / 64) (l % 64) a.addr (s.passTag (l / 64)) else s
        | _ => s
      s1.errorOut a (respStatus status)

/-- A KV_SHIP's fetch has ended: with an error its request ends, and a refusal is a violation of its stand (11 R382, R383). -/
def State.shipDone (s : State) (id status : Nat) : State :=
  match s.req id with
  | none => s
  | some r =>
    if status = 0 then s
    else
      let src := fieldLE r.desc 32 8
      let s1 := if respStatus status = 0x40 then s.violation r.stand 0 3 0 0 src r.tag else s
      (s1.endReq { r with faultAddr := src } (respStatus status) [] false).afterEnds

/-- A non-posted transaction completes: RESP status, poison reason, data, ARG. -/
def State.complete (s : State) (o : Outst) (status why : Nat) (data : List Byte) (arg : Nat) : State :=
  let s1 := s.modUr (fun u => { u with outst := u.outst.filter (fun x => !(x.tag == o.tag && x.dst == o.dst)) })
  match o.purpose with
  | .access a => s1.accessDone a status why data arg
  | .ship id => s1.shipDone id status
  | .fork run target => s1.forkAck run target status
  | .forkReturn i g => s1.forkReturnAck i g
  | .kvLast tag dst => match s1.ur.kvServes.find? (fun k => k.tag == tag && k.dst == dst) with
    | some k => s1.endServe k status
    | none => s1
  | .graft num pos => s1.graftGot num pos status data
  | .relay port tx => if txNonPosted tx then s1.respond port tx status [] 0 0 else s1
  | .host id idx => s1.hostDone id idx status why data
  | .none => s1

/-- The status of a transaction that completes locally: PART_REMOVED where its destination has since been marked removed (12 R412). -/
def State.lostStatus (s : State) (dst : Nat) : Nat := if s.removed dst then 5 else 1
/-- A transaction of this part is lost: a non-posted one completes at once. -/
def State.lose (s : State) (dst tag : Nat) : State :=
  match s.ur.outst.find? (fun o => o.tag == tag && o.dst == dst) with
  | some o => s.complete o (s.lostStatus dst) 0 [] 0
  | none => s

/-- RESPONSE_TIMEOUT: no response within TIMEOUT_US (12 R412). -/
def execResponseTimeout (t dst tag : Nat) (s : State) : Host.Outcome State Fault Refusal :=
  let s1 := s.at t
  match s1.ur.outst.find? (fun o => o.tag == tag && o.dst == dst) with
  | none => .next s1
  | some o =>
    if s1.now < o.since + 1000 * Nat.max 1 (s1.rf Reg.rteCfg 47 32) then .next s1
    else .next ((s1.bump Reg.rteTimeout 31 0 1).complete o (s1.lostStatus dst) 0 [] 0)

end Sys2Proof.Machine
end

