-- ==== Sys2Proof/Machine/Links.lean ====
section
/-! DEFINITION. Links: training, flits, retries, health and map-out, tests and restoration (12 R400-R409, R424-R426). -/

namespace Sys2Proof.Machine

/-! ### State of a link -/

/-- LNK_STATUS.STATE and WIDTH, and for a host port HPT_PORT_STATUS beside them (12 R435, 13 R464). -/
def State.setLink (s : State) (n state width rate : Nat) : State :=
  let s1 := (s.wf (Reg.lnkStatus n) 3 0 state).wf (Reg.lnkStatus n) 19 16 width
  if n < 16 then s1
  else
    let k := n - 16
    let up := state = 2 ∨ state = 3
    let st := if up then (if s.role n = 4 then 3 else 2) else if state = 1 then 1 else if state = 0 then 0 else 4
    ((s1.wf (Reg.hptPortStatus k) 2 0 st).wf (Reg.hptPortStatus k) 23 16 width).wf (Reg.hptPortStatus k) 15 8 rate
/-- LNK_EVENT: the first event is kept; each is traced (12 R435, 16 R541). -/
def State.linkEvent (s : State) (n kind lanes : Nat) : State :=
  let v := kind * 2 ^ 60 + lanes * 2 ^ 52
  (s.firstEvent (Reg.lnkEvent n) (Reg.lnkEventTime n) v).event 6 n (2 ^ 63 + v) 0

/-- The time parent: the up link with the lowest nonzero TIMEPRI (12 R430). -/
def State.pickParent (s : State) : Option Nat :=
  minBy (fun n => s.rf (Reg.lnkCfg n) 9 8 * 32 + n) ((List.range 20).filter (fun n => s.portUp n && s.rf (Reg.lnkCfg n) 9 8 != 0))
/-- A change of parent: the next candidate takes over without a step, or a locked part is in holdover (12 R430). -/
def State.updateParent (s : State) : State :=
  let p := s.pickParent
  if s.rbit Reg.timeCfg 1 ∨ p = s.ur.clock.parent then s
  else
    let s1 := (s.modUr (fun u => { u with clock := { u.clock with parent := p, delays := [], t1 := none } })).wf Reg.timeStatus 12 8 (p.getD 31)
    if p = none ∧ s.rf Reg.timeStatus 2 0 = 1 then
      ((s1.wf Reg.timeStatus 2 0 2).modUr (fun u => { u with clock := { u.clock with holdSince := some s.now } })).wf Reg.timeHold 31 0 0
    else s1

/-- A link goes down or starts to train. -/
def State.downLink (s : State) (n state : Nat) : State := (s.setLink n state 0 0).updateParent

/-! ### Training (12 R402-R404) -/

/-- The width of a choice of lanes: 8, 4, 2, or 0 (12 R403). -/
def widthOf (lanes : Nat) : Nat :=
  let has := fun (a n : Nat) => (List.range n).all (fun i => lanes.testBit (a + i))
  if has 0 8 then 8 else if has 0 4 || has 4 4 then 4 else if has 0 2 || has 2 2 || has 4 2 || has 6 2 then 2 else 0
/-- The width of a PCIe link on the lanes that train, counted from lane 0 (13 R438). -/
def pcieWidth (lanes : Nat) : Nat :=
  let has := fun n => (List.range n).all (fun i => lanes.testBit i)
  if has 8 then 8 else if has 4 then 4 else if has 2 then 2 else if has 1 then 1 else 0

/-- A training attempt fails; the third within 1 s makes the link's map-out due (12 R402, R425). -/
def State.attemptFails (s : State) (n failed : Nat) : State :=
  let tries := ((s.link n).attempts ++ [s.now]).filter (fun t => decide (s.now < t + 1000000000))
  (s.wf (Reg.lnkStatus n) 39 32 failed).modLink n (fun l => { l with attempts := tries, cause := if 3 ≤ tries.length then 1 else l.cause })
/-- The identity that training brought differs from what the link map expects (12 R404). -/
def State.mismatched (s : State) (n kind id port : Nat) : Bool :=
  let c := Reg.lnkCfg n
  s.rf c 42 40 != 0 && !(s.rf c 42 40 == kind && s.rf c 63 48 == id && s.rf c 47 43 == port)
/-- A LINK_RESTORE of the link ends: DONE, or INTERNAL with the failed lanes (12 R426, 13 R460). -/
def State.endRestore (s : State) (n status : Nat) : State :=
  match (s.link n).restore with
  | none => s
  | some (m, e) =>
    let s1 := s.modLink n (fun l => { l with restore := none, rejoin := if status = 0 ∧ s.now < e then some e else none })
    let s2 := if status = 0 then s1.linkEvent n 6 0 else s1
    s2.adminEnd m status (leBytes 1 (s.rf (Reg.lnkStatus n) 39 32))
/-- The link is up: replay buffers empty, sequence numbers 0, full credits (12 R402). A transaction partly sent starts again. -/
def Link.trained (l : Link) : Link :=
  { l with
      txq := l.txq.map (fun q => { q with sent := 0 }), replay := [], resend := 0, txSeq := 0, rxSeq := 0, used := [], ret := [], nakDue := false,
      nakSent := false, nakOf := none, nakSeq := 0, nakCount := 0, slot := 0, rxbuf := [], attempts := [], window := 0, cause := 0, held := false }

/-- LINK_TRAINING: an attempt ends with the lanes that passed here and at the peer, the polarities and order corrected, and the peer's
identity (12 R402-R404); a host port in PCIe mode trains at a rate as a PCIe endpoint (13 R438). -/
def execLinkTraining (t n mine peer inverted : Nat) (reversed : Bool) (kind id port rate : Nat) (s : State) : Host.Outcome State Fault Refusal :=
  let s1 := s.at t
  if 20 ≤ n ∨ s1.linkState n ≠ 1 ∨ s1.role n = 0 then .next s1
  else
    let pass := mine % 256 &&& (255 - (s1.link n).laneBad % 256)
    let failed := 255 - pass
    if s1.role n = 4 then
      if pcieWidth pass = 0 then .next (s1.attemptFails n failed)
      else .next ((((s1.setLink n (if pcieWidth pass = 8 then 2 else 3) (pcieWidth pass) rate).wf (Reg.lnkStatus n) 42 40 4).wf (Reg.lnkStatus n) 39 32
        failed).modLink n Link.trained)
    else
      let w := Nat.min (widthOf pass) (widthOf peer)
      if w = 0 then .next (s1.attemptFails n failed)
      else
        let r := Reg.lnkStatus n
        let s2 := (((((s1.wf r 63 48 id).wf r 47 43 port).wf r 42 40 kind).wf r 39 32 failed).wf r 31 24 inverted).wf r 23 23 (if reversed then 1 else 0)
        if s1.mismatched n kind id port then
          let again := (s1.link n).restore.isSome
          .next ((((s2.linkEvent n 5 0).downLink n (if again then 4 else 6)).modLink n (fun l => { l with held := true })).endRestore n 0x5F)
        else
          let s3 := (s2.setLink n (if w = 8 then 2 else 3) w 0).modLink n Link.trained
          let s4 := if w = 8 then s3 else s3.linkEvent n 2 failed
          .next ((s4.endRestore n 0).updateParent)

/-- TRAINING_ATTEMPT_TIMEOUT: an attempt has not completed in 50 ms (12 R402). -/
def execTrainingAttemptTimeout (t n failed : Nat) (s : State) : Host.Outcome State Fault Refusal :=
  let s1 := s.at t
  if 20 ≤ n ∨ s1.linkState n ≠ 1 then .next s1 else .next (s1.attemptFails n (failed % 256))

/-- The link retrains (12 R435 RETRAIN); after an identity mismatch only LINK_RESTORE or a reset does (12 R404). -/
def State.retrain (s : State) (n : Nat) : State :=
  if (s.linkState n = 2 ∨ s.linkState n = 3 ∨ s.linkState n = 6) ∧ (s.link n).held = false then s.downLink n 1 else s

/-- LINK_LOSS_OF_LOCK: an up link goes down and begins training again (12 R402). -/
def execLinkLossOfLock (t n : Nat) (s : State) : Host.Outcome State Fault Refusal :=
  let s1 := s.at t
  if n < 20 ∧ (s1.linkState n = 2 ∨ s1.linkState n = 3) then .next (s1.downLink n 1) else .next s1

/-! ### Map-out (12 R425) -/

/-- A part's own tag is unique among its outstanding transactions (12 R410). -/
def State.loseTag (s : State) (tag : Nat) : State :=
  match s.ur.outst.find? (fun o => o.tag == tag) with
  | some o => s.lose o.dst tag
  | none => s
/-- Map a link out: it leaves the route sets, its replay flits are discarded, their transactions fail and are counted; transactions of
which nothing has been sent leave by another port. -/
def State.mapOut (s : State) (n kind : Nat) : State :=
  let l := s.link n
  let part := (l.txq.filter (fun q => decide (0 < q.sent))).map (fun q => (q.tx.src, q.tx.tag))
  let gone := (l.replay.map (fun f => (f.src, f.tag)) ++ part).eraseDups
  let rest := l.txq.filter (fun q => q.sent == 0 && q.tx.op != 5)
  let s1 := ((s.linkEvent n kind (s.rf (Reg.lnkStatus n) 39 32)).setLink n 4 0 0).modLink n (fun l => { l with
    txq := [], replay := [], resend := 0, cause := 0, nakOf := none, nakDue := false, rxbuf := [] })
  let s2 := (s1.updateParent).bump (Reg.lnkLost n) 63 0 gone.length
  let s3 := s2.each gone (fun s g => if g.1 = s.ownPid then s.loseTag g.2 else s)
  let s4 := s3.each rest (fun s q => (s.sendTx q.tx).1)
  (s4.endRestore n 0x5F).trigger 4

/-- LINK_MAP_OUT: the map-out that training, retries or corrected symbols made due. -/
def execLinkMapOut (t n : Nat) (s : State) : Host.Outcome State Fault Refusal :=
  let s1 := s.at t
  if 20 ≤ n ∨ (s1.link n).cause = 0 then .next s1 else .next (s1.mapOut n (s1.link n).cause)

/-- FEC_WINDOW_CHECK: the window's corrected symbols against CS_LIMIT; a new window starts (12 R425, R435). -/
def execFecWindowCheck (t n : Nat) (s : State) : Host.Outcome State Fault Refusal :=
  let s1 := s.at t
  if 20 ≤ n ∨ (s1.linkState n ≠ 2 ∧ s1.linkState n ≠ 3) then .next s1
  else .next (s1.modLink n (fun l => { l with window := 0, cause := if s1.rf (Reg.lnkThresh n) 31 0 < l.window then 3 else l.cause }))

/-! ### Flits (12 R405-R409) -/

/-- Receive flits of a virtual channel (12 R408). -/
def vcCredits : Nat → Nat
  | 0 => 128 | 1 => 128 | 2 => 320 | 3 => 320 | 4 => 320 | 5 => 320 | 6 => 448 | _ => 64
/-- The order of a flit slot (12 R409). -/
def slotOrder (c : Nat) : List Nat :=
  let data := [3, 2, 6, 5, 4]
  if c % 4 = 0 then 0 :: (data ++ [1, 7])
  else if c % 16 = 2 then 1 :: 0 :: (data ++ [7])
  else if c % 16 = 14 then 7 :: 0 :: 1 :: data
  else data ++ [0, 1, 7]
/-- Data bytes that follow a transaction's header: a READ's LEN asks for bytes. -/
def dataBytes (hdr : List Byte) : Nat := if fieldLE hdr 0 1 = 1 then 0 else fieldLE hdr 2 2

/-- Flits acknowledged leave the replay buffer. -/
def Link.acked (l : Link) (ack : Nat) : Link :=
  match findIdx (fun f => f.seq == ack) l.replay 0 with
  | some (i, _) => let r := l.replay.drop (i + 1); { l with replay := r, resend := Nat.min l.resend r.length }
  | none => l
/-- A payload joins its virtual channel's transaction; a complete one frees its flits. -/
def Link.gather (l : Link) (vc : Nat) (payload : List Byte) : Link :=
  let b := tget [] l.rxbuf vc ++ payload
  if 32 + dataBytes b ≤ b.length
  then { l with rxbuf := tset [] l.rxbuf vc [], ret := tset 0 l.ret vc (tget 0 l.ret vc + b.length / 244) }
  else { l with rxbuf := tset [] l.rxbuf vc b }

/-- FLIT_RECEIVE: a flit arrives with the FEC's corrected symbols and uncorrectable codewords since the last. One whose CRC fails and a
DATA flit out of sequence are discarded, the first with a NAK; every other one brings its ACK and credits (12 R405, R406, R408). -/
def execFlitReceive (t n : Nat) (bytes : List Byte) (cs uc : Nat) (s : State) : Host.Outcome State Fault Refusal :=
  let s0 := s.at t
  if 20 ≤ n ∨ (s0.linkState n ≠ 2 ∧ s0.linkState n ≠ 3) ∨ bytes.length ≠ 256 then .next s0
  else
    let s1 := ((((s0.bump (Reg.lnkFecCs n) 63 0 cs).bump (Reg.lnkFecUc n) 63 0 uc).count (0x8C0 + 8 * n) cs)).modLink n (fun l => { l with window := l.window + cs })
    let bad := fun (l : Link) => if l.nakSent then l else { l with nakDue := true, nakSent := true }
    if crc32c (bytes.take 252) ≠ fieldLE bytes 252 4 then .next ((s1.bump (Reg.lnkCrcErr n) 63 0 1).modLink n bad)
    else
      let kind := fieldLE bytes 0 1 % 4
      let vc := fieldLE bytes 0 1 / 4 % 8
      let s2 := s1.modLink n (fun l =>
        let l1 := l.acked (fieldLE bytes 4 2)
        let cv := fieldLE bytes 6 1 % 8
        { l1 with used := tset 0 l1.used cv (tget 0 l1.used cv - fieldLE bytes 7 1) })
      if kind = 1 then
        if fieldLE bytes 2 2 = (s2.link n).rxSeq then
          .next ((s2.bump (Reg.lnkRxFlits n vc) 63 0 1).modLink n (fun l =>
            { l.gather vc (slice bytes 8 244) with rxSeq := (l.rxSeq + 1) % 65536, nakSent := false, nakDue := false }))
        else .next (s2.modLink n bad)
      else if kind = 2 then .next (s2.modLink n (fun l => { l with nakOf := some (fieldLE bytes 4 2) }))
      else .next s2

/-- NAK_RETRANSMIT: go-back-N from the flit after the acknowledged one; the same flit NAKed RETRY_LIMIT times in a row makes the map-out
due (12 R406, R425). -/
def execNakRetransmit (t n : Nat) (s : State) : Host.Outcome State Fault Refusal :=
  let s1 := s.at t
  let l := s1.link n
  match l.nakOf, l.replay with
  | none, _ => .next s1
  | some _, [] => .next (s1.modLink n (fun l => { l with nakOf := none }))
  | some _, f :: _ =>
    let count := if l.nakCount ≠ 0 ∧ l.nakSeq = f.seq then l.nakCount + 1 else 1
    let s2 := (s1.bump (Reg.lnkRetry n) 63 0 l.replay.length).count (0x8C4 + 8 * n) l.replay.length
    .next (s2.modLink n (fun l => { l with nakOf := none, resend := l.replay.length, nakSeq := f.seq, nakCount := count,
                                           cause := if Nat.max 1 (s1.rf (Reg.lnkThresh n) 47 40) ≤ count then 4 else l.cause }))

/-- The stand a transaction of this part is sent for (12 R409). -/
def State.standOf (s : State) (tx : Tx) : Option Nat := if tx.src = s.ownPid ∧ tx.stand < 64 then some tx.stand else none
/-- Data slots of a microsecond at a link's width: 62.5% of its flit slots (12 R405, R409). -/
def dataSlots (width : Nat) : Nat := 100000 * width / 512 * 10 / 16
/-- The stand has used its share of the present window (12 R329, R409). -/
def State.overShare (s : State) (n : Nat) (tx : Tx) : Bool :=
  match s.standOf tx with
  | none => false
  | some sd =>
    let l := s.link n
    let used := if l.winStart = s.now / 1000 then tget 0 l.winUsed sd else 0
    decide (Nat.min 256 (s.rf (Reg.stdCfg sd) 40 32) * dataSlots (s.rf (Reg.lnkStatus n) 19 16) ≤ used * 256)
/-- The transaction a virtual channel sends next: one already begun, else the first whose stand is within its share, else the first. -/
def State.nextTx (s : State) (n vc : Nat) : Option QTx :=
  let q := (s.link n).txq.filter (fun x => x.tx.vc == vc)
  match q.find? (fun x => decide (0 < x.sent)) with
  | some x => some x
  | none => if vc = 0 ∨ vc = 1 ∨ vc = 7 then q.head? else match q.find? (fun x => !s.overShare n x.tx) with
    | some x => some x
    | none => q.head?
/-- A flit's 256 bytes (12 R405). -/
def flitBytes (kind vc seq ack cv cc : Nat) (payload : List Byte) : List Byte :=
  let b := leBytes 1 (kind + 4 * vc) ++ leBytes 1 0 ++ leBytes 2 seq ++ leBytes 2 ack ++ leBytes 1 cv ++ leBytes 1 cc ++ payload ++
    List.replicate (244 - payload.length) 0
  b ++ leBytes 4 (crc32c b)
/-- The VC whose credits the next flit returns, and how many. -/
def Link.toReturn (l : Link) : Nat × Nat :=
  match l.ret with
  | [] => (0, 0)
  | (v, c) :: _ => (v, Nat.min 255 c)
/-- Send one flit with the link's ACK and credits. -/
def State.sendFlit (s : State) (n kind vc seq : Nat) (payload : List Byte) : State :=
  let l := s.link n
  let c := l.toReturn
  (s.modLink n (fun l => { l with ret := tset 0 l.ret c.1 (tget 0 l.ret c.1 - c.2) })).emit
    (.flit s.now n (flitBytes kind vc seq ((l.rxSeq + 65535) % 65536) c.1 c.2 payload))
/-- The next flit of a transaction is sent; with the last one the transaction leaves the queue. -/
def State.sendPiece (s : State) (n : Nat) (q : QTx) : State :=
  let l := s.link n
  let payload := slice (txBytes q.tx) (244 * q.sent) 244
  let last := decide (txFlits q.tx ≤ q.sent + 1)
  let f : RFlit := ⟨l.txSeq, q.tx.vc, payload, last, q.tx.src, q.tx.tag⟩
  let win := if l.winStart = s.now / 1000 then l.winUsed else []
  let win' := match s.standOf q.tx with
    | some sd => if q.tx.vc = 0 ∨ q.tx.vc = 1 ∨ q.tx.vc = 7 then win else tset 0 win sd (tget 0 win sd + 1)
    | none => win
  let s1 := (s.sendFlit n 1 q.tx.vc l.txSeq payload).bump (Reg.lnkTxFlits n q.tx.vc) 63 0 1
  let txq := match findIdx (fun x => x == q) l.txq 0 with
    | some (i, _) => if last then l.txq.eraseIdx i else l.txq.set i { q with sent := q.sent + 1 }
    | none => l.txq
  let s2 := s1.modLink n (fun l => { l with
    txq := txq, replay := l.replay ++ [f], txSeq := (l.txSeq + 1) % 65536, used := tset 0 l.used q.tx.vc (tget 0 l.used q.tx.vc + 1),
    winStart := s.now / 1000, winUsed := win' })
  if last then s2.modUr (fun u => { u with flows := mapIf (fun f => f.dst == q.tx.dst && f.vc == q.tx.vc) (fun f => { f with last := s.now }) u.flows })
  else s2

/-- FLIT_SLOT: a due NAK, a flit to resend, else the first virtual channel of the slot's order with a flit ready and a credit, while the
replay buffer has room; else an IDLE flit (12 R405, R406, R409). -/
def execFlitSlot (t n : Nat) (s : State) : Host.Outcome State Fault Refusal :=
  let s0 := s.at t
  if 20 ≤ n ∨ (s0.linkState n ≠ 2 ∧ s0.linkState n ≠ 3) ∨ s0.role n = 4 then .next s0
  else
    let l := s0.link n
    let s1 := s0.modLink n (fun l => { l with slot := l.slot + 1 })
    if l.nakDue then .next ((s1.sendFlit n 2 0 0 []).modLink n (fun l => { l with nakDue := false }))
    else if l.resend ≠ 0 then
      match l.replay[l.replay.length - l.resend]? with
      | some f => .next (((s1.sendFlit n 1 f.vc f.seq f.payload).bump (Reg.lnkTxFlits n f.vc) 63 0 1).modLink n (fun l => { l with resend := l.resend - 1 }))
      | none => .next (s1.modLink n (fun l => { l with resend := 0 }))
    else
      match (slotOrder l.slot).find? (fun v => (s0.nextTx n v).isSome && decide (tget 0 l.used v < vcCredits v) && decide (l.replay.length < 256)) with
      | some v => match s0.nextTx n v with
        | some q => .next (s1.sendPiece n q)
        | none => .next s1
      | none => .next (s1.sendFlit n 0 0 0 [])

/-! ### Bit-error tests and restoration (12 R424, R426) -/

/-- BER_TEST: ports, start, duration (13 R460). -/
def State.msgBerTest (s : State) (src : Source) (route : AdminRoute) (m : List Byte) : State :=
  let ok := zeros m 36 4 && zeros m 52 12 && decide (fieldLE m 32 4 < 2 ^ 20) && decide (1 ≤ fieldLE m 48 4 ∧ fieldLE m 48 4 ≤ 3600000)
  s.receive src route m 1 64 ok (fun s a =>
    let st := fieldLE m 40 8
    s.modUr (fun u => { u with bers := u.bers ++ [⟨a.id, fieldLE m 32 4, st, st + fieldLE m 48 4 * 1000000, false, 0⟩] }))
def execBerTest (t : Nat) (src : Source) (m : List Byte) (s : State) : Host.Outcome State Fault Refusal :=
  .next ((s.at t).msgBerTest src .row m)

/-- A port takes part in a test: trained or training, in an Urren role, not mapped out. -/
def State.testable (s : State) (n : Nat) : Bool := s.role n != 0 && s.role n != 4 && s.linkState n != 4
/-- BER_TEST_START: the named links leave the route sets (12 R424). -/
def execBerTestStart (t : Nat) (s : State) : Host.Outcome State Fault Refusal :=
  let s1 := s.at t
  match s1.ur.bers.find? (fun j => !j.running && decide (j.start ≤ s1.now)) with
  | none => .next s1
  | some j =>
    let s2 := s1.each ((List.range 20).filter (fun n => j.ports.testBit n && s1.testable n)) (fun s n => s.downLink n 5)
    .next (s2.modUr (fun u => { u with bers := mapIf (fun x => x.msg == j.msg) (fun x => { x with running := true }) u.bers }))

/-- What a test measured on a port: bits and errors of each lane. -/
def State.berResult (s : State) (n bits : Nat) (errs : List Nat) : State :=
  let fails := (List.range 8).filter (fun l => decide (bits < errs.getD l 0 * 100000))
  let bad := fails.foldl (fun a l => a + 2 ^ l) 0
  let s1 := ((s.putReg (Reg.lnkBerBits n) bits).wf (Reg.lnkBerResult n) 7 0 (if bits = 0 then 0 else 255)).wf (Reg.lnkBerResult n) 15 8
    (if bits = 0 then 0 else 255 - bad)
  let s2 := s1.each (List.range 8) (fun s l => s.putReg (Reg.lnkBerErr n l) (errs.getD l 0))
  s2.modLink n (fun l => { l with laneBad := bad })
/-- A port's 48 bytes of the response (13 R460). -/
def State.berBody (s : State) (ports n : Nat) : List Byte :=
  if ports.testBit n then
    leBytes 8 (s.reg (Reg.lnkBerBits n)) ++ leBytes 1 (s.rf (Reg.lnkBerResult n) 15 8) ++ leBytes 1 (s.rf (Reg.lnkBerResult n) 7 0) ++ leBytes 6 0 ++
      (List.range 8).flatMap (fun l => leBytes 4 (sat32 (s.reg (Reg.lnkBerErr n l))))
  else leBytes 48 0
/-- BER_TEST_END: the lanes are judged, the links retrain, the response goes out (12 R424). res holds port, bits, errors by lane. -/
def execBerTestEnd (t : Nat) (res : List (Nat × Nat × List Nat)) (s : State) : Host.Outcome State Fault Refusal :=
  let s1 := s.at t
  match s1.ur.bers.find? (fun j => j.running && decide (j.fin ≤ s1.now)) with
  | none => .next s1
  | some j =>
    let ns := (List.range 20).filter (fun n => j.ports.testBit n)
    let s2 := s1.each ns (fun s n => match res.find? (fun r => r.1 == n) with
      | some r => s.berResult n r.2.1 r.2.2
      | none => s.berResult n 0 [])
    let s3 := s2.each ns (fun s n => if s.linkState n = 5 then s.downLink n 1 else s)
    let s4 := s3.modUr (fun u => { u with bers := u.bers.filter (fun x => x.msg != j.msg) })
    .next (s4.adminEnd j.msg 0 ((List.range 20).flatMap (s3.berBody j.ports)))

/-- LINK_RESTORE: the link retrains, and rejoins the route sets at the epoch (12 R426, 13 R460). -/
def State.msgLinkRestore (s : State) (src : Source) (route : AdminRoute) (m : List Byte) : State :=
  let n := fieldLE m 32 1
  s.receive src route m 1 48 (zeros m 33 7 && decide (n < 20)) (fun s a =>
    if s.role n = 0 then a.stop s 0x14
    else (s.downLink n 1).modLink n (fun l => { l with restore := some (a.id, fieldLE m 40 8), held := false, attempts := [], cause := 0 }))
def execLinkRestore (t : Nat) (src : Source) (m : List Byte) (s : State) : Host.Outcome State Fault Refusal :=
  .next ((s.at t).msgLinkRestore src .row m)

end Sys2Proof.Machine
end

