-- ==== Sys2Proof/Machine/Multicast.lean ====
section
/-! DEFINITION. Multicast trees: shard groups and the forwarding of MCAST_WRITE (08 R280, R281, 12 R422, R423). -/

namespace Sys2Proof.Machine

/-- IN_PORT and LOCAL of a tree entry (12 R436). -/
def treeIn (e : Nat × Nat) : Nat := fld e.1 20 16
def treeLocal (e : Nat × Nat) : Bool := e.1.testBit 21

/-- Every output of a tree whose link is up takes the write; the others are skipped (12 R423). -/
def State.treeSend (s : State) (e : Nat × Nat) (tx : Tx) : State :=
  s.each ((List.range 20).filter (fun n => e.2.testBit n && s.portUp n)) (fun s n => s.queueTx n tx)

/-- On TREE[0] a canopy image follows its manifest from this ADDR on (a place of the model's: log entry 48). -/
def treeImage : Nat := 2 ^ 63
/-- A receiver takes its manifest, and the image with it, from TREE[0], and the bytes of a shard that belongs to it into its warm copy; it discards
every other shard (08 R277, R281); writes of one tree come in order (12 R423). ADDR counts from the manifest's first block (12 R411). -/
def State.mcDeliver (s : State) (tx : Tx) : State :=
  let s1 := s.modSv (fun v => { v with loads := mapIf (fun l => l.role == 2 && l.phase == .manifest && l.trees.head? == some tx.dst) (fun l =>
    if tx.addr = treeImage + l.rxImage.length then { l with rxImage := l.rxImage ++ tx.data }
    else if tx.addr = l.rxManifest.length then { l with rxManifest := l.rxManifest ++ tx.data } else l) v.loads })
  s1.each (s.sv.loads.filter (fun l => l.role == 2 && l.phase == .loading && !l.manifest.isEmpty && l.trees.contains tx.dst)) (fun s l =>
    s.each (warmNeeds l) (fun s k =>
      let a := shardBlock l.manifest k * 16384
      match s.warmShard l.manifest k with
      | some w => if a ≤ tx.addr ∧ tx.addr < a + w.size ∧ w.state = .unverified
                  then s.placeWrite (placeFrom w.place (tx.addr - a)) (tx.data.take (a + w.size - tx.addr)) else s
      | none => s))

/-- MCAST_WRITE: one that names no installed tree or arrives on another port than IN_PORT is dropped and counted; else it leaves on every
output and is delivered where LOCAL = 1, by a frozen part at THAW (12 R422, R423, 16 R532). -/
def execMcastWrite (t n : Nat) (tx : Tx) (s : State) : Host.Outcome State Fault Refusal :=
  let s1 := s.at t
  match s1.treeOf tx.dst with
  | none => .next (s1.bump Reg.rteMcDrop 31 0 1)
  | some e =>
    if treeIn e ≠ n then .next (s1.bump Reg.rteMcDrop 31 0 1)
    else if treeLocal e = true ∧ s1.frozen = true ∧ s1.holdRoom tx = false then .next s1
    else
      let s2 := s1.treeSend e tx
      if treeLocal e = false then .next s2
      else if s2.frozen then .next (s2.holdTx n tx)
      else .next (s2.mcDeliver tx)

/-- Send bytes on a tree in writes of 4 KiB from an offset (08 R280). -/
def State.mcSend (s : State) (tree off : Nat) (bs : List Byte) : State :=
  match s.treeOf tree with
  | none => s
  | some e => s.each (List.range (cdiv bs.length 4096)) (fun s i =>
      let tx := s.ownTx 5 tree (off + 4096 * i) 0 0x80 0 0 (slice bs (4096 * i) 4096) 6
      (s.modUr (fun u => { u with nextTag := (u.nextTag + 1) % 2 ^ 32 })).treeSend e tx)
/-- MCAST_SHARD_SEND: a source sends its manifest, and its image, on TREE[0], then each verified shard, in shard-table order, on the tree of its member or
on every tree; after the last it keeps only the copies that belong to it (08 R280). -/
def execMcastShardSend (t id : Nat) (s : State) : Host.Outcome State Fault Refusal :=
  let s1 := s.at t
  if s1.frozen then .next s1 else
  match s1.load id with
  | none => .next s1
  | some l =>
    let n := manShards l.manifest
    if l.role ≠ 1 ∨ l.manifest = [] ∨ n < l.sentShards ∨ l.trees = [] then .next s1
    else if l.sentShards = 0 then
      .next (((s1.mcSend (l.trees.getD 0 0) 0 l.manifest).mcSend (l.trees.getD 0 0) treeImage l.image).modLoad id (fun x => { x with sentShards := 1 }))
    else
      let k := l.sentShards - 1
      match s1.warmShard l.manifest k with
      | none => .next s1
      | some w =>
        if w.state ≠ .verified then .next s1
        else
          let m := shardMember l.manifest k
          let ts := if m = 0xFFFF then l.trees else [l.trees.getD (m % l.trees.length) 0]
          let s2 := s1.each ts (fun s tr => s.mcSend tr (shardBlock l.manifest k * 16384) (s1.warmBytes w))
          let s3 := s2.modLoad id (fun x => { x with sentShards := k + 2 })
          if k + 1 < n then .next s3
          else
            let keep := shardsOf l.manifest l.member
            .next (s3.modSv (fun v => { v with warm := v.warm.filter (fun w => w.manifest != manId l.manifest || w.digest != Crypto.sha256 l.manifest || keep.contains w.shard ||
              v.loads.any (fun o => o.id != id && !o.manifest.isEmpty && manId o.manifest == w.manifest && (warmNeeds o).contains w.shard)) }))

end Sys2Proof.Machine
end

