-- ==== Sys2Proof/Machine/Transact.lean ====
section
/-! DEFINITION. Transactions that arrive for the part: remote accesses, host-port accesses, fork and KV messages, responses, and the
forwarding of those for other parts (12 R411-R419, 11 R382, R383). -/

namespace Sys2Proof.Machine

/-! ### Remote accesses (12 R415) -/

/-- The number of the local unit that holds a local-region offset (13 R449). -/
def State.localIndex (s : State) (off : Nat) : Nat :=
  let c := (off - 0x100000000000) / 2 ^ 39
  (((List.range c).filter (fun x => tget 0 s.tiers.warmCap x != 0)).map (fun x => (tget 0 s.tiers.warmCap x - s.tiers.pGib) * 512)).foldl (· + ·) 0 +
    (off - 0x100000000000) % 2 ^ 39 / 2 ^ 21
/-- An address lies in a stand's near region, in a local region of a stand's quota, or in a branch of a stand (12 R415). -/
def State.standOwns (s : State) (space off : Nat) : Bool :=
  if space = 0 then s.stands.any (fun sd =>
    let r := Reg.stdNearRegion sd
    let u := off % 2 ^ 37 / 2 ^ 21
    decide (s.rf r 23 0 ≤ u ∧ u < s.rf r 23 0 + s.rf r 47 24))
  else if space = 1 then decide (0x100000000000 ≤ off) && s.stands.any (fun sd =>
    let u := s.localIndex off
    decide ((s.res sd).warmFirst ≤ u ∧ u < (s.res sd).warmFirst + (s.res sd).warmCount))
  else (s.owner (off / 2 ^ 25)).isSome
/-- The status of a remote access of n bytes: 0 where it is performed; in part S2 the near and warm tiers answer with 6 (12 R412, R415, 14 R477). -/
def State.remoteStatus (s : State) (tx : Tx) (n : Nat) : Nat :=
  let space := fld tx.addr 47 45
  let off := fld tx.addr 44 0
  if space = 3 ∨ space = 4 then 3
  else if 4 < space then 4
  else match s.localOk space off n with
    | some .violation => 4
    | some .tierFailed => 6
    | none =>
      let mgmtRead := tx.op == 1 && tx.stand.testBit 7 && space == 1 && decide (off < 0x100000000000)
      if (s.allowLs tx.src && (mgmtRead || (s.standOwns space off && s.standOwns space (off + (n - 1))))) = false then 3
      else if space < 2 ∧ s.rf Reg.pwrStatus 18 16 = 2 then 6 else 0

/-- The poison reason a transaction's data carries (12 R410). -/
def txPoison (tx : Tx) : Nat := if tx.flags.testBit 1 then tx.reason else 0

/-- The class that a virtual channel carries (12 R411). -/
def vcClass (vc : Nat) : Nat := if vc = 0 then 0 else if vc = 2 then 1 else 2
/-- Start an access for a transaction or a piece of one: it enters the packet plane at the bark die of its port (04 R155, R158). -/
def State.portAccess (s : State) (port : Nat) (sv : AccFor) (kind fn : Nat) (rb rc : Word) (space off addr : Nat) (data : List Byte) (len cls why : Nat) : State :=
  let (id, s1) := s.fresh
  s1.launchAccess { newAccess id sv (.bark (port / 10)) kind fn rb rc (Canopy.mk s.ownPid space off) addr data len false cls 0 cls with
    poison := if kind = 1 then BitVec.ofNat 8 why else 0 }
/-- READ, WRITE or ATOMIC from another part: refused, or an access of this part that is answered when it ends (12 R411, R415). -/
def State.remoteAccess (s : State) (port : Nat) (tx : Tx) : State :=
  let n := if tx.op = 1 then tx.len else if tx.op = 2 then tx.data.length else 4
  let st := s.remoteStatus tx n
  if st ≠ 0 then
    let s1 := if st = 3 then s.bump Reg.rteRemoteDeny 31 0 1 else s
    if txNonPosted tx then s1.respond port tx st [] 0 0 else s1
  else
    s.portAccess port (.tx port tx) (tx.op - 1) tx.fn (BitVec.ofNat 32 tx.arg) (BitVec.ofNat 32 (tx.arg / 2 ^ 32)) (fld tx.addr 47 45) (fld tx.addr 44 0) tx.addr
      (if tx.op = 2 then tx.data else []) n (vcClass tx.vc) (txPoison tx)
/-- The RESP status of an access that has ended here with a request status (12 R412). -/
def errStatus (e : Nat) : Nat := if e = 0 then 0 else if e = 0x40 then 4 else 6
/-- An access of another part has ended: its response (12 R411, R412). -/
def State.finishTx (s : State) (a : Access) (port : Nat) (tx : Tx) : State :=
  if a.err ≠ 0 then (if txNonPosted tx then s.respond port tx (errStatus a.err) [] 0 0 else s)
  else if a.kind = 0 then s.respond port tx 0 a.data a.poison.toNat 0
  else if a.kind = 2 then s.respond port tx 0 [] a.poison.toNat (leNat a.data)
  else if txNonPosted tx then s.respond port tx 0 [] 0 0 else s

/-! ### Accesses of a host port (12 R416, 13 R442) -/

/-- The pieces of a range at 4 KiB boundaries: offset in the range and length (13 R442). -/
def splitPages (a n : Nat) : Nat → List (Nat × Nat)
  | 0 => []
  | fuel + 1 =>
    if n = 0 then []
    else
      let m := Nat.min n (4096 - a % 4096)
      (0, m) :: (splitPages (a + m) (n - m) fuel).map (fun x => (x.1 + m, x.2))
/-- One piece of a host access: its place here, its error status, or the part that holds it. -/
inductive HostPiece where
  | here (space off : Nat)
  | bad (status : Nat)
  | remote (c : Canopy)

/-- Translate one piece for a stand; a refused one is a violation with REQ 4 (10 R333, 13 R442). -/
def State.hostPiece (s : State) (sd op addr n : Nat) : State × HostPiece :=
  match s.translate sd addr (if op = 1 then .read else .write) with
  | none => (s.violation sd (op - 1) 4 0 0 addr 0, .bad 3)
  | some c =>
    if c.pid ≠ s.ownPid then (s, .remote c)
    else match s.localOk c.space c.off n with
      | some .violation => (s.violation sd (op - 1) 4 0 0 addr 0, .bad 4)
      | some .tierFailed => (s, .bad 6)
      | none => (s, .here c.space c.off)

/-- A READ or WRITE of a stand through a host port, piece by piece; the answer waits for every piece that is on its way. -/
def State.hostAccess (s : State) (port sd : Nat) (tx : Tx) (pcie : Bool) : State :=
  let n := if tx.op = 1 then tx.len else tx.data.length
  let ps := if pcie then splitPages tx.addr n (n / 4096 + 2) else [(0, n)]
  let (id, s0) := s.fresh
  let cls := vcClass tx.vc
  let step := fun (x : State × HostWait) (p : (Nat × Nat) × Nat) =>
    let data := slice tx.data p.1.1 p.1.2
    let r := x.1.hostPiece sd tx.op (tx.addr + p.1.1) p.1.2
    let err := fun (st : Nat) (s : State) => (s, { x.2 with bad := if x.2.bad = 0 then st else x.2.bad, parts := x.2.parts ++ [(p.2, [])] })
    let wait : HostWait := { x.2 with left := x.2.left + 1 }
    match r.2 with
    | .bad st => err st r.1
    | .here sp off =>
      (r.1.portAccess port (.host id p.2) (tx.op - 1) 0 0 0 sp off (tx.addr + p.1.1) (if tx.op = 2 then data else []) p.1.2 cls (txPoison tx), wait)
    | .remote c =>
      let post := pcie && tx.op == 2
      let q := { r.1.ownTx tx.op c.pid c.addr ((if tx.op = 2 ∧ post = false then 1 else 0) + (if txPoison tx = 0 then 0 else 2)) sd 0 0 data (if tx.vc = 4 then 4 else 2) with
        len := p.1.2, reason := txPoison tx }
      match r.1.launch q (.host id p.2) with
      | (s1, none) => if post then (s1, { x.2 with parts := x.2.parts ++ [(p.2, [])] }) else (s1, wait)
      | (s1, some e) => err e s1
  let r := ps.zipIdx.foldl step (s0, ⟨id, port, tx, pcie, [], 0, 0, 0⟩)
  if r.2.left = 0 then r.1.hostAnswer port tx pcie r.2.bad r.2.why []
  else r.1.modUr (fun u => { u with hostWaits := u.hostWaits ++ [r.2] })

/-- The stand that a transaction of a host port acts for, where LNK_HOST_STANDS allows it (12 R416). -/
def State.hostStand (s : State) (port : Nat) (tx : Tx) : Option Nat :=
  if tx.stand < 64 ∧ (s.reg (Reg.lnkHostStands port)).testBit tx.stand then some tx.stand else none
/-- Refuse a transaction of a host port: STATUS 3, or dropped and counted when posted (12 R416). It is recorded once: a dropped WRITE, and a refused
access of the management path, in the fault log; a stand's in its violation log (01 R27, 17 R547, R548). -/
def State.hostDeny (s : State) (port : Nat) (tx : Tx) : State :=
  if txNonPosted tx then
    let s1 := s.respond port tx 3 [] 0 0
    if tx.stand.testBit 7 then s1.faultLog 7 0 tx.addr
    else if 1 ≤ tx.op ∧ tx.op ≤ 3 ∧ tx.stand < 64 then s1.violation tx.stand (tx.op - 1) 4 0 0 tx.addr 0 else s1
  else
    let s1 := s.bump Reg.rteRemoteDeny 31 0 1
    if tx.op = 2 then s1.faultLog 6 (port - 16) tx.addr else s1
/-- A transaction on a host port in Urren host mode that reaches no register (12 R416). -/
def State.hostTx (s : State) (port : Nat) (tx : Tx) : State :=
  if tx.op = 0x10 then s
  else if tx.op = 2 ∧ tx.vc = 0 then
    if tx.addr % 4096 = 0 ∧ s.sv.inlets.any (fun n => n.num == tx.addr / 4096) = true then
      (if s.serving then s.inletFrame (tx.addr / 4096) tx.data else s)
    else s.hostDeny port tx
  else if (tx.op = 1 ∨ tx.op = 2) ∧ 2 ≤ tx.vc ∧ tx.vc ≤ 5 then
    match s.hostStand port tx with
    | some sd => s.hostAccess port sd tx false
    | none => s.hostDeny port tx
  else s.hostDeny port tx

/-! ### KV fetches and pages (11 R382, R383) -/

/-- KV_DATA's ARG: layer, page, and the tag of the fetch it serves, a layout of the model's own (log entry 21). -/
def kvArg (layer page tag : Nat) : Nat := layer + page * 2 ^ 16 + tag * 2 ^ 32
/-- KV_FETCH: a source that R382 allows sends its pages in pieces of 4 KiB, the last with ACKREQ; else STATUS 3. -/
def State.kvFetch (s : State) (port : Nat) (tx : Tx) : State :=
  let sd := fld tx.addr 45 40
  let id := tx.arg % 2 ^ 32
  let n := tx.arg / 2 ^ 32
  match s.seq sd id with
  | none => s.respond port tx 3 [] 0 0
  | some q =>
    if shipSourceOk q n tx.data = false then s.respond port tx 3 [] 0 0
    else
      let serve : KvServe := ⟨tx.tag, tx.src, tx.vc, sd, id, tx.fn % 2 == 1⟩
      let s1 := (s.modSeq sd id (fun q => { q with state := .shipping })).modUr (fun u => { u with kvServes := u.kvServes ++ [serve] })
      let pages := (List.range (geoLayers q.geometry)).flatMap (fun l => (List.range (pagesFor n)).map (fun j => (l, j)))
      let frags := pages.flatMap (fun p => match s.pageOf sd id p.1 p.2 with
        | some o => (List.range (cdiv o.size 4096)).map (fun i =>
          (p, 4096 * i, s.objRead o (4096 * i) (Nat.min 4096 (o.size - 4096 * i)), (s.objWhy o (4096 * i) (Nat.min 4096 (o.size - 4096 * i))).toNat))
        | none => [])
      frags.zipIdx.foldl (fun s f =>
        let last := f.2 + 1 == frags.length
        let why := f.1.2.2.2
        let k := { s.ownTx 10 tx.src f.1.2.1 ((if last then 1 else 0) + (if why = 0 then 0 else 2)) tx.stand 0 (kvArg f.1.1.1 f.1.1.2 tx.tag) f.1.2.2.1 6 with reason := why }
        match s.launch k (.kvLast tx.tag tx.src) with
        | (s2, none) => s2
        | (s2, some e) => if last then s2.endServe serve e else s2) s1

/-- KV_DATA: a piece of a page for a running ship; with the last one the ship has arrived and the source is answered. -/
def State.kvData (s : State) (port : Nat) (tx : Tx) : State :=
  match s.ur.outst.find? (fun o => o.tag == tx.arg / 2 ^ 32 && o.dst == tx.src) with
  | none => s
  | some o => match o.purpose with
    | .ship id => match s.req id with
      | none => s
      | some r =>
        let s1 := match s.pageOf r.stand r.seqId (tx.arg % 2 ^ 16) (tx.arg / 2 ^ 16 % 2 ^ 16) with
          | some p => (s.objWrite p tx.addr tx.data).objPoison p ((List.range (cdiv tx.data.length 64)).map (fun i => (tx.addr / 64 + i, BitVec.ofNat 8 (txPoison tx))))
          | none => s
        if tx.flags % 2 = 1 then
          let s2 := s1.modSv (fun v => { v with passes := mapIf (fun p => p.members.contains id) (fun p => { p with stage := 1 }) v.passes })
          s2.respondVc port tx (if r.cls = 1 then 3 else 5) 0 [] 0 0
        else s1
    | _ => s

/-! ### Arrival -/

/-- A gateway's fork unit sends a message on to the part that its ADDR names; the answer comes back the same way (09 R310). -/
def State.relayFork (s : State) (port : Nat) (tx : Tx) : State :=
  let q := { s.ownTx 8 (tx.addr / 2 ^ 48) 0 tx.flags tx.stand tx.fn tx.arg tx.data tx.vc with reason := tx.reason }
  match s.launch q (.relay port tx) with
  | (s1, none) => s1
  | (s1, some e) => if txNonPosted tx then s1.respond port tx e [] 0 0 else s1
/-- A transaction that has arrived for the part is performed (12 R411). -/
def State.performTx (s : State) (port : Nat) (tx : Tx) : State :=
  if s.role port = 3 then s.hostTx port tx
  else if tx.dst ≠ s.ownPid then s
  else if tx.op = 1 ∨ tx.op = 2 ∨ tx.op = 3 then s.remoteAccess port tx
  else if tx.op = 8 then
    if tx.addr % 2 = 1 ∧ tx.addr / 2 ^ 48 ≠ s.ownPid then s.relayFork port tx
    else
    let r := s.forkArrive tx
    if txNonPosted tx then r.1.respond port tx r.2 [] 0 0 else r.1
  else if tx.op = 9 then s.kvFetch port tx
  else if tx.op = 10 then s.kvData port tx
  else if tx.op = 0x10 then
    match s.ur.outst.find? (fun o => o.tag == tx.tag && o.dst == tx.src) with
    | some o => s.complete o tx.fn (txPoison tx) tx.data (tx.arg % 2 ^ 32)
    | none => s
  else s
/-- A transaction reaches the part; a frozen part holds it until THAW (16 R532). -/
def State.takeTx (s : State) (port : Nat) (tx : Tx) : State :=
  if s.frozen then s.holdTx port tx else s.performTx port tx

/-- The opcode of a row against the transaction its command carries. -/
def State.rowTx (s : State) (op port : Nat) (tx : Tx) : State := if tx.op = op ∧ port < 20 then s.takeTx port tx else s
/-- ATOMIC (12 R411, R415). -/
def execAtomic (t port : Nat) (tx : Tx) (s : State) : Host.Outcome State Fault Refusal := .next ((s.at t).rowTx 3 port tx)
/-- SIGNAL: consumed at its destination without waiting for anything (12 R411, R414); a host port refuses it (12 R416). -/
def execSignal (t port : Nat) (tx : Tx) (s : State) : Host.Outcome State Fault Refusal :=
  let s1 := s.at t
  if tx.op = 4 ∧ s1.role port = 3 then .next (s1.hostDeny port tx) else .next s1
/-- FORK (09 R309, 12 R411). -/
def execFork (t port : Nat) (tx : Tx) (s : State) : Host.Outcome State Fault Refusal := .next ((s.at t).rowTx 8 port tx)
/-- KV_FETCH (11 R382). -/
def execKvFetch (t port : Nat) (tx : Tx) (s : State) : Host.Outcome State Fault Refusal := .next ((s.at t).rowTx 9 port tx)
/-- KV_DATA (12 R411). -/
def execKvData (t port : Nat) (tx : Tx) (s : State) : Host.Outcome State Fault Refusal := .next ((s.at t).rowTx 10 port tx)
/-- RESP: the transaction it answers completes; a late one is discarded (12 R412). -/
def execResp (t port : Nat) (tx : Tx) (s : State) : Host.Outcome State Fault Refusal := .next ((s.at t).rowTx 0x10 port tx)

/-! ### Forwarding (12 R417-R419) -/

/-- LEG on arrival: a far port sets F and clears D (12 R418). -/
def State.legIn (s : State) (port : Nat) (tx : Tx) : Tx := if s.role port = 2 then { tx with leg := 2 } else tx
/-- LEG on departure: from a near port to a near port sets D (12 R418). -/
def State.legOut (s : State) (port out : Nat) (tx : Tx) : Tx :=
  if s.role port = 1 ∧ s.role out = 1 then { tx with leg := tx.leg / 2 * 2 + 1 } else tx
/-- The opcodes of R411. -/
def txKnown (op : Nat) : Bool := decide (1 ≤ op ∧ op ≤ 10) || op == 0x10
/-- TRANSACTION_FORWARD: a transaction for another part: TTL, LEG, the route, or the refusal; one with a reserved opcode, for whichever part, is
dropped and counted (12 R411, R417-R419). -/
def execTransactionForward (t port : Nat) (tx : Tx) (s : State) : Host.Outcome State Fault Refusal :=
  let s1 := s.at t
  if port < 20 ∧ txKnown tx.op = false ∧ s1.role port ≠ 3 ∧ s1.role port ≠ 4 then .next (s1.bump Reg.rteNoroute 31 0 1)
  else if 20 ≤ port ∨ tx.dst = s1.ownPid ∨ tx.op = 5 ∨ s1.role port = 3 ∨ s1.role port = 4 then .next s1
  else if tx.ttl = 0 then
    let s2 := s1.bump Reg.rteTtlDrop 31 0 1
    .next (if txNonPosted tx then s2.respond port tx 2 [] 0 0 else s2)
  else
    let tx1 := s1.legIn port { tx with ttl := tx.ttl - 1 }
    match s1.routeTx tx1 with
    | .ok n => .next (s1.flowSend n (s1.legOut port n tx1))
    | .error e => .next (if txNonPosted tx then s1.respond port tx e [] 0 0 else s1.bump Reg.rteNoroute 31 0 1)

end Sys2Proof.Machine
end

