-- ==== Sys2Proof/Machine/Arrival.lean ====
section
/-! DEFINITION. Packets that reach the end of their way: requests at their controllers, responses at their sources (04 R156-R161). -/

namespace Sys2Proof.Machine

/-- The last response of an access has arrived: what the access served goes on (03 R116, 07 R252, 12 R411, 13 R442). -/
def State.finishAccess (s : State) (a : Access) : State :=
  let s1 := s.modTiers (fun x => { x with accesses := x.accesses.filter (fun y => y.id != a.id) })
  match a.serves with
  | .leaf l ladr rd => s1.finishLeaf a l ladr rd
  | .mover b m idx piece => s1.finishMover a b m idx piece
  | .tx port t => s1.finishTx a port t
  | .host id idx => s1.hostDone id idx (errStatus a.err) a.poison.toNat a.data

/-- A request packet has arrived. bad: a word of leaf memory that the access reads is uncorrectable (06 R201). -/
def State.requestArrived (s : State) (a : Access) (bad : Bool) : State :=
  let s1 := s.modAcc a.id (fun y => { y with toArrive := y.toArrive - 1 })
  if 1 < a.toArrive then s1
  else
    let s2 := s1.accessArrived { a with toArrive := 0 }
    if a.space = 2 ∧ a.pid = s.ownPid ∧ a.off % 2 ^ 25 < 2 ^ 24 then s2.spoilAcc a.id bad else s2
/-- A response packet has arrived; one for a leaf is movement (04 R148). -/
def State.responseArrived (s : State) (a : Access) : State :=
  let s1 := match a.serves with
    | .leaf l _ _ => s.moved (l / 64)
    | _ => s
  if 1 < a.toReturn then s1.modAcc a.id (fun y => { y with toReturn := y.toReturn - 1 }) else s1.finishAccess a

/-- PACKET_ARRIVAL: a packet whose flits have all left its last router reaches its end, behind those its source has sent before it to the same
end on the same virtual channel (04 R156, R161). x is the packet, and whether a word of leaf memory that it reads is uncorrectable. -/
def execPacketArrival (t : Nat) (x : Nat × Bool) (s : State) : Host.Outcome State Fault Refusal :=
  let s1 := s.at t
  if s1.frozen then .next s1 else
  match s1.packets.find? (fun p => p.id == x.1) with
  | none => .next s1
  | some p =>
    if p.through = false ∨ s1.packets.any (fun q => decide (q.id < p.id) && q.src == p.src && q.dst == p.dst && q.vc == p.vc) = true then .next s1
    else
      let s2 := s1.modPackets (fun l => l.filter (fun q => q.id != x.1))
      match s2.tiers.accesses.find? (fun a => a.id == p.acc) with
      | none => .next s2
      | some a => .next (if p.isResp then s2.responseArrived a else s2.requestArrived a x.2)

end Sys2Proof.Machine
end

