-- ==== Sys2Proof/Machine/Sentinel.lean ====
section
/-! DEFINITION. The stall sentinel, protocol faults of steering units and the reset of one configuration instance (04 R141-R153). -/

namespace Sys2Proof.Machine

/-! ### What blocks an instance (04 R150) -/

/-- Beats and tokens of a queue that holds both. -/
def itemCount (q : List SlotItem) : Nat × Nat :=
  (q.filter (fun i => match i with | .beat _ => true | .tok _ => false)).length |> fun n => (n, q.length - n)

/-- What the buffered destination holds: beats and tokens, by node, destination code (0-3 an outgoing crossing), and port or lane. -/
def State.destHolds (s : State) (b node dest port : Nat) : Nat × Nat :=
  let x := s.branch b
  if dest < 4 then
    match s.branchNeighbour b dest with
    | some q =>
      let ln := tget Lane.empty (s.branch q).lanes (laneKey (facingNode node dest) (oppSide dest) port)
      itemCount (ln.flight ++ ln.ready)
    | none =>
      let ln := tget Lane.empty x.lanes (barkKey node dest port)
      itemCount (ln.flight ++ ln.ready)
  else if dest = 4 then
    let p := (s.leaf (b * 64 + node)).inPort port
    (p.beats.length, p.tokens.length)
  else if dest = 11 then
    match moverAt node with
    | some m => ((x.mover m).inBeats.length, (x.mover m).inTokens.length)
    | none => (0, 0)
  else
    let u := x.steer node (if dest < 8 then 0 else 1)
    let k := (dest - 5) % 3
    if k = 0 then itemCount u.qa else if k = 1 then itemCount u.qb else (0, u.qt.length)

/-- The ports or lanes of a destination code at a node. -/
def destPorts (node dest : Nat) : List Nat :=
  if dest < 4 then (if (nodeNeighbour node dest).isNone then List.range 16 else [])
  else if dest = 4 then List.range 4 else if dest = 11 then (if (moverAt node).isSome then [0] else []) else [0]

/-- The queue of a buffered destination is full. -/
def State.destFull (s : State) (b node dest port : Nat) : Bool :=
  let h := s.destHolds b node dest port
  let d := s.destDepth b dest
  (decide (0 < d.1) && decide (d.1 ≤ h.1)) || (decide (0 < d.2) && decide (d.2 ≤ h.2))

/-- The lowest slot of a node's entries that feed a destination (04 R150). -/
def Branch.feedSlot (x : Branch) (node dest port : Nat) : Nat :=
  ((List.range 32).find? (fun k =>
    let e := x.entry x.active node dest k
    e != 0 && (if dest < 4 then entLane e == port else if dest = 4 then entDport e == port else true))).getD 0

/-- A steering unit with no unit in hand that holds a token or a data unit without its partner: the destination code of the first input that
holds one. A MERGE's token needs the input it selects (04 R141, R143). -/
def Branch.waitingInput (x : Branch) (node unit : Nat) : Option Nat :=
  let u := x.steer node unit
  let kind := (x.steerSet x.active node unit).kind
  let a := (unitHead u.qa).2.1 != .absent
  let b := (unitHead u.qb).2.1 != .absent
  let wants := fun (w : Word) (bit : Bool) => isEndTok w || w.toNat.testBit 0 == bit
  let lacksA := a && (if kind = 1 then !u.qt.any (fun y => wants y.word false) else u.qt.isEmpty || (kind == 3 && !b))
  let lacksB := b && (if kind = 1 then !u.qt.any (fun y => wants y.word true) else kind == 3 && (u.qt.isEmpty || !a))
  let lacksT := match u.qt with
    | [] => false
    | y :: _ => if kind = 1 then (wants y.word false && !a) || (wants y.word true && !b) else !a || (kind == 3 && !b)
  let base := 5 + 3 * unit
  if kind = 0 ∨ kind = 4 ∨ 5 < kind ∨ u.cur.isSome = true then none
  else if lacksA then some base else if lacksB then some (base + 1) else if lacksT then some (base + 2) else none

/-- The input port a stalled leaf waits on: that of its oldest RECV, else that of the TRECV at its PC (03 R100). -/
def Leaf.waitPort (lf : Leaf) : Nat :=
  match lf.queue.find? (fun q => q.unit == .streamIn) with
  | some q => q.port
  | none =>
    let w := (tget (0 : Dword) lf.code (lf.active * 512 + lf.ctx.pc)).toNat
    if fld w 63 58 = 0x2F then fld w 47 45 % 4 else 0

/-- A record of the scan: cause, subcause, branch, node, destination, port or lane, slot, slot set. -/
def State.stallAt (s : State) (cause sub b node dest port : Nat) : StallLog :=
  ⟨cause, sub, b, node, dest, port, (s.branch b).feedSlot node dest port, (s.branch b).active, s.now⟩

/-- The first full destination of some branches. -/
def State.scanFull (s : State) (bs : List Nat) : Option StallLog :=
  (bs.flatMap (fun b => (List.range 64).flatMap (fun node => (List.range 12).flatMap (fun d =>
    ((destPorts node d).filter (s.destFull b node d)).map (fun p => s.stallAt 1 0 b node d p))))).head?
/-- The first steering unit that waits for a partner, or else the first leaf in STALL. -/
def State.scanWait (s : State) (bs : List Nat) : Option StallLog :=
  let units := (bs.flatMap (fun b => (List.range 64).flatMap (fun node => (List.range 2).filterMap (fun u =>
    ((s.branch b).waitingInput node u).map (fun d => s.stallAt 2 0 b node d 0))))).head?
  match units with
  | some r => some r
  | none => (bs.flatMap (fun b => (List.range 64).filterMap (fun node =>
      let lf := s.leaf (b * 64 + node)
      if lf.mode = .stall then some (s.stallAt 2 0 b node 4 lf.waitPort) else none))).head?
/-- The scan of an instance (04 R150). -/
def State.scan (s : State) (i : Inst) : StallLog :=
  let bs := i.branches.mergeSort (fun a b => decide (a ≤ b))
  match s.scanFull bs with
  | some r => r
  | none => (s.scanWait bs).getD ⟨2, 0, i.home, 0, 15, 0, 0, (s.branch i.home).active, s.now⟩

/-! ### The reset of an instance (04 R151) -/

/-- SLT_STALL_LOG as a word (04 R165). -/
def StallLog.word (r : StallLog) : Nat :=
  2 ^ 63 + r.cause * 2 ^ 60 + r.sub * 2 ^ 56 + r.branch * 2 ^ 49 + r.node * 2 ^ 43 + r.dest * 2 ^ 39 + r.portl * 2 ^ 35 + r.slot * 2 ^ 30 + r.set * 2 ^ 27

/-- Queues, steering units, lanes and links of a branch are empty and its credits full. -/
def Branch.emptied (x : Branch) : Branch :=
  { x with
    steers := [], wires := [], lanes := [], inlets := [], credits := [],
    movers := x.movers.map (fun m => (m.1, { m.2 with inBeats := [], inTokens := [], outBeats := [], outTokens := [], outIssued := 0, outLeft := 0 })) }
/-- Steps 3 to 6 on some branches: leaves abort, movers abandon, queues empty. -/
def State.emptyBranches (s : State) (bs : List Nat) : State :=
  (s.abortBranches bs).each bs (fun s b =>
    (s.modBranch b Branch.emptied).modLeavesOf b (fun lf => { lf with inPorts := [], outPorts := [] }))

/-- Steps 3 to 6 of R151: the instance's fork and join steps are abandoned (09 R321) and its requests in flight end with STALL_DETECTED. -/
def State.resetInst (s : State) (i : Inst) : State :=
  let s1 := (s.emptyBranches i.branches).abandonForks (fun k => k == i.id)
  let run := s1.sv.passes.filter (fun p => p.dispatched && p.inst == some i.id)
  let s2 := s1.each (run.flatMap (·.members)) (fun s id => match s.req id with
    | some r => s.endReq { r with fault := 0 } 0x50 [] false
    | none => s)
  let s3 := s2.each run (fun s p => s.dropPass p.id)
  let s4 := { s3 with poisonLog := s3.poisonLog.filter (fun e => !i.branches.contains e.branch) }
  ((s4.clearRings i).modBranches i.branches (fun x => { x with sentIdle := 0, idleSince := s.now })).afterEnds

/-- A firing or a protocol fault: log, count, the stand's vector 10, and steps 3 to 6; where it freezes the part these follow after
THAW (04 R151, 10 R354, 16 R533). -/
def State.fireSentinel (s : State) (i : Inst) (r : StallLog) : State :=
  let sd := ((s.load i.load).map (·.stand)).getD 0
  let s1 := s.modBranch i.home (fun x => { x with
    stallLog := match x.stallLog with | some l => some l | none => some r
    stallTime := if x.stallLog.isSome then x.stallTime else s.now
    stallCnt := sat32 (x.stallCnt + 1) })
  let s2 := ((s1.setVector sd 10).eventOf (some sd) 1 i.home r.word 0).trigger 0
  if s2.frozen then s2.modDb (fun d => { d with sentinels := d.sentinels ++ [i.id] }) else s2.resetInst i

/-- The instance whose pass runs on a branch. -/
def State.runningInst (s : State) (b : Nat) : Option Inst := (s.passOn b).bind (fun p => p.inst.bind s.inst)

/-- The instance whose circuits a branch carries: the one whose pass runs, else the first that was placed on it. -/
def State.circuitInst (s : State) (b : Nat) : Option Inst := (s.runningInst b).or (s.sv.insts.find? (fun i => i.branches.contains b))
/-- The steering units of a branch that a protocol fault has stopped: node, unit, subcause, input. -/
def Branch.faulted (x : Branch) : List (Nat × Nat × Nat × Nat) :=
  (List.range 128).filterMap (fun k => let u := tget Steer.empty x.steers k
    if u.fault = 0 then none else some (k / 2, k % 2, u.fault, u.faultIn))
/-- The action of a protocol fault that a branch has now and did not have before: the first one resets the instance; the record names the input that
brought it (04 R145, R151; log entry 23). -/
def State.protocolFault (s : State) (before : Branch) (b : Nat) : State :=
  match (s.branch b).faulted.find? (fun f => !before.faulted.contains f), s.circuitInst b with
  | some (node, unit, sub, inp), some i => s.fireSentinel i (s.stallAt 3 sub b node (5 + 3 * unit + inp) 0)
  | _, _ => s

/-- STEERING_DECISION: one decision of a steering unit; a protocol fault resets the instance at once (04 R141-R145). -/
def execSteeringDecision (t b node unit : Nat) (s : State) : Host.Outcome State Fault Refusal :=
  if s.nBranches ≤ b then .fault .absentUnit
  else
    let s1 := s.at t
    if s1.branchRuns b = false ∨ 64 ≤ node ∨ 2 ≤ unit then .next s1
    else
      let x := s1.branch b
      let d := (x.steer node unit).decide (x.steerSet x.active node unit)
      .next ((((s1.modSteer b node unit (fun _ => d.st)).freeCredits b d.beats true).freeCredits b d.toks false).protocolFault x b)

/-! ### The cycles of a branch's island (04 R124, R126, R137, R148, R149, R159) -/

/-- What keeps the sentinel of an instance from counting: a leaf that aborts or switches, a handover, a pass that waits for a configuration load, a
stand reset (04 R149). -/
def State.sentinelHeld (s : State) (i : Inst) (p : Pass) : Bool :=
  i.branches.any (fun b => (s.branch b).handover || (branchLeaves b).any (fun l => (s.leaf l).mode == .abort || (s.leaf l).mode == .switch)) ||
    !p.started || s.stdState p.stand == 3
/-- The sentinel of a home branch counts a cycle; the end of what held it clears the count (04 R148, R149). -/
def State.sentinelCount (s : State) (b : Nat) : State :=
  match s.runningInst b, s.passOn b with
  | some i, some p =>
    if i.home ≠ b ∨ p.members = [] then s
    else if s.sentinelHeld i p then s.modBranch b (fun x => { x with sentHold := true })
    else s.modBranch b (fun x => { x with sentHold := false, sentIdle := if x.sentHold then 0 else sat32 (x.sentIdle + 1) })
  | _, _ => s
/-- LEAF_BUSY and LEAF_STALL count a cycle (03 R122). -/
def Leaf.countCycle (lf : Leaf) : Leaf :=
  { lf with busy := if lf.queue.isEmpty then lf.busy else sat32 (lf.busy + 1), stall := if lf.mode = .stall then sat32 (lf.stall + 1) else lf.stall }
/-- The cycle counts of a branch's leaves, in their registers and for the telemetry page (03 R122, 16 R525). -/
def State.countCycle (s : State) (b : Nat) : State :=
  let ls := (branchLeaves b).map s.leaf
  ((s.modLeavesOf b Leaf.countCycle).count (0x40 + 4 * b) (ls.filter (fun lf => !lf.queue.isEmpty)).length).count (0x240 + 4 * b)
    (ls.filter (fun lf => lf.mode == .stall)).length
/-- SLOT_TRANSFER: one cycle of a branch's island: every switch node moves the beats and tokens of the slot, a handover goes on, the counters and the
sentinel count; movement of the cycle clears the sentinel's count (04 R124, R126, R137, R148). -/
def execSlotTransfer (t b : Nat) (s : State) : Host.Outcome State Fault Refusal :=
  if s.nBranches ≤ b then .fault .absentUnit
  else
    let s1 := s.at t
    if s1.frozen = true ∨ s1.branchRuns b = false then .next s1
    else
      let s2 := ((s1.modBranch b (fun x => { x with linkCycle := x.linkCycle + 1 })).countCycle b).sentinelCount b
      let s3 := (s2.runSlotOf b).handoverStep b
      let s4 := if (s2.branch b).handover = true ∧ (s3.branch b).handover = false then s3.resumeStages else s3
      .next (s4.protocolFault (s1.branch b) b)

/-- SENTINEL_FIRE: the count of a home branch's sentinel has reached LIMIT, which acts as 1024 below that, while its instance holds a request in
flight, is loaded, and neither frozen nor in a stand reset (04 R148-R151, R153). -/
def execSentinelFire (t b : Nat) (s : State) : Host.Outcome State Fault Refusal :=
  if s.nBranches ≤ b then .fault .absentUnit
  else
    let s1 := s.at t
    match s1.passOn b, s1.runningInst b with
    | some p, some i =>
      let x := s1.branch b
      if i.home ≠ b ∨ x.sentEn = false ∨ x.frozen = true ∨ p.members = [] ∨ s1.sentinelHeld i p = true ∨ x.sentIdle < Nat.max 1024 x.sentLimit then .next s1
      else .next (s1.fireSentinel i (s1.scan i))
    | _, _ => .next s1

end Sys2Proof.Machine
end

