-- ==== Sys2Proof/Machine/StandReset.lean ====
section
/-! DEFINITION. Stand resets and the reload of PIN entries (10 R357-R361, 11 R391, 13 R439). The trigger runs steps 1 to 5 of R358;
step 6, the end of the sequence, is the event PIN_ENTRY_RELOAD (log entry 22). -/

namespace Sys2Proof.Machine

/-- The bytes of a range of memory keys read zero, and its poison is gone (05 R201). -/
def State.scrub (s : State) (lo n : Nat) : State :=
  { s with
    mem := s.mem.filter (fun c => decide (c.1 < lo ∨ lo + n ≤ c.1)),
    tiers := { s.tiers with poison := s.tiers.poison.filter (fun c => decide (c.1 * 64 < lo ∨ lo + n ≤ c.1 * 64)) } }
/-- The on-die memory of a branch: leaf memory and scratch, and its seed bank (01 R26, 05 R191). -/
def State.scrubBranch (s : State) (b : Nat) : State := (s.scrub (memKey 2 (b * 2 ^ 25)) (2 ^ 25)).scrub (memKey 4 (b * 2 ^ 22)) (2 ^ 22)
/-- The preset check-value profiles of a unit (07 R264). -/
def ChkUnit.presets (c : ChkUnit) : ChkUnit :=
  { c with p0 := ChkUnit.reset.p0, p1 := ChkUnit.reset.p1, p2 := ChkUnit.reset.p2, p3 := ChkUnit.reset.p3 }
/-- A branch whose contexts and seed-bank slots are emptied, crossings disabled (10 R358 steps 2 and 5). -/
def Branch.standReset (x : Branch) : Branch :=
  { x with
    ctxs := [], seeds := [], crossings := [], cache := [], hasInst := false, instHome := 0, instRel := 0, handover := false, reached := false,
    met := [], sentIdle := 0, chk0 := x.chk0.presets, chk1 := x.chk1.presets,
    movers := x.movers.map (fun m => (m.1, { m.2 with ring := [] })) }
/-- A leaf that holds no context. -/
def Leaf.standReset (lf : Leaf) : Leaf :=
  { lf with
    mode := .idle, swReq := false, ctxs := [], code := [], vregs := [], accs := [], queue := [], doneM := lf.issuedM, doneV := lf.issuedV, block := .none, poison := none }

/-- End a stand's messages in progress with STAND_RESET, but for the STAND_RESET messages themselves (10 R359, 08 R291). -/
def State.endMessages (s : State) (sd : Nat) : State :=
  let s1 := s.each (s.sv.loads.filter (fun l => l.stand == sd && (l.phase == .manifest || l.phase == .loading))) (fun s l => s.endLoad l 0x22)
  let s2 := s1.each (s1.sv.grafts.filter (fun g => g.stand == sd && (g.state == .staging || g.state == .ready))) (fun s g => s.discardGraft g 0x22)
  let s3 := s2.each (s2.sv.admins.filter (fun a => sourceStand a.src == some sd && a.type != 0x50)) (fun s a => s.adminEnd a.id 0x22 [])
  s3.modSv (fun v => { v with loads := mapIf (fun l => l.stand == sd) (fun l => { l with evictMsg := none }) v.loads })

/-- Step 3: every request of the stand ends with STAND_RESET, in ascending DEADLINE. -/
def State.endRequests (s : State) (sd : Nat) (flr : Bool) : State :=
  let rs := (s.sv.requests.filter (fun r => r.stand == sd)).mergeSort (fun a b => decide (a.deadline ≤ b.deadline))
  s.each (rs.map (·.id)) (fun s id => match s.req id with
    | some r => s.endOne { r with fault := 0 } 0x22 [] flr
    | none => s)

/-- Step 4: passes, sequences, KV pages and near graft copies of the stand are gone. -/
def State.emptyStand (s : State) (sd : Nat) : State :=
  let qs := (s.sv.seqs.filter (fun q => q.stand == sd)).map (·.id)
  let s1 := s.each qs (fun s q => s.freeSeq sd q)
  let s2 := s1.modSv (fun v => { v with
    passes := v.passes.filter (fun p => p.stand != sd), objs := v.objs.filter (fun o => !(o.stand == sd && o.kind != 0)),
    cfgLoads := v.cfgLoads.filter (fun c => s.owner c.branch != some sd),
    fetches := v.fetches.filter (fun f => v.objs.any (fun o => o.id == f.obj && !(o.stand == sd && o.kind != 0))) })
  s2.modUr (fun u => { u with kvServes := u.kvServes.filter (fun k => k.stand != sd) })

/-- A trigger of a stand reset (10 R358): CAUSE 1 function-level reset, 2 STAND_RESET, 3 register write. One that arrives during the
sequence joins it; before the stand is built it is ignored (15 R508); during a freeze it waits until THAW (16 R533). -/
def State.startReset (s : State) (sd cause : Nat) : State :=
  if s.built sd = false ∨ s.stdState sd = 3 then s
  else if s.frozen then s.modDb (fun d => { d with heldReset := d.heldReset ++ [(sd, cause)] })
  else
    let flr := cause == 1
    let bs := s.branchesOf sd
    let mine := (s.sv.insts.filter (fun i => ((s.load i.load).map (·.stand)) == some sd)).map (·.id)
    let s1 := (s.wf (Reg.stdStatus sd) 2 0 3).wf (Reg.stdReset sd) 2 1 cause
    let s2 := (((s1.wake bs).emptyBranches bs).abandonForks mine.contains).modBranches bs (fun x => { x with crossings := [] })
    let s3 := (s2.endRequests sd flr).endMessages sd
    let s4 := s3.emptyStand sd
    let s5 := s4.each bs (fun s b => ((s.modBranch b Branch.standReset).modLeavesOf b Leaf.standReset).scrubBranch b)
    (s5.modRes sd (fun x => { x with resetStep := 5, flrReset := flr })).afterEnds

/-- Step 6: the rings and pending vectors are cleared, vector 13 is set pending, COUNT counts, STATE = 2, and the messages that asked for
the reset end with DONE (10 R358). -/
def State.endReset (s : State) (sd : Nat) : State :=
  let regs := (List.range 8).flatMap (fun r => [Reg.stdRingSq sd r, Reg.stdRingCq sd r, Reg.stdRingCtl sd r, Reg.stdRingPtr sd r])
  let s1 := (s.clearRegs (regs ++ [Reg.stdIrqPend sd])).setVector sd 13
  let s2 := ((s1.bump (Reg.stdReset sd) 63 32 1).wf (Reg.stdStatus sd) 2 0 2).modRes sd (fun x => { x with resetStep := 0, flrReset := false })
  s2.each (s2.sv.admins.filter (fun a => a.type == 0x50 && fieldLE a.bytes 32 1 == sd)) (fun s a => s.adminEnd a.id 0 [])

/-- The loads of a stand with PIN entries. -/
def State.standPins (s : State) (sd : Nat) : List Load :=
  s.sv.loads.filter (fun l => l.stand == sd && l.phase == .ready && l.bound && !(pinEntries l.image).isEmpty)
/-- Reload and re-preload every PIN entry: its contexts are queued, and PRELOAD_RUN follows (11 R391). -/
def State.reloadPins (s : State) (sd : Nat) : State :=
  match s.standPins sd with
  | [] => s
  | ls =>
    let s1 := s.each ls (fun s l => (s.modLoad l.id (fun x => { x with preloaded := false })).each (s.pinInsts l) (fun s i => s.startLoads i i.entry true))
    s1.modRes sd (fun x => { x with reload := true })

/-- PIN_ENTRY_RELOAD: the reset of a stand ends, and the part reloads its PIN entries (10 R358 step 6, 11 R391). -/
def execPinEntryReload (t sd : Nat) (s : State) : Host.Outcome State Fault Refusal :=
  let s1 := s.at t
  if s1.frozen ∨ (s1.res sd).resetStep ≠ 5 then .next s1 else .next ((s1.endReset sd).reloadPins sd)

/-- STAND_RESET: a stand may name itself, management any built stand (13 R456, R459). -/
def State.beginStandReset (s : State) (a : Admin) : State :=
  let sd := fieldLE a.bytes 32 1
  if s.built sd = false ∨ ((sourceStand a.src).isSome ∧ sourceStand a.src ≠ some sd) then a.stop s 0x14 else s.startReset sd 2
def State.msgStandReset (s : State) (src : Source) (route : AdminRoute) (m : List Byte) : State :=
  s.receive src route m 2 64 (zeros m 33 31) State.beginStandReset
def execStandReset (t : Nat) (src : Source) (m : List Byte) (s : State) : Host.Outcome State Fault Refusal :=
  .next ((s.at t).msgStandReset src .row m)

/-- The VF of a stand on a host port is offered and enabled (13 R439, R464). -/
def State.vfEnabled (s : State) (k sd : Nat) : Bool :=
  decide (k < 4 ∧ sd < Nat.min 64 (s.rf (Reg.hptPortCfg k) 7 0)) && s.built sd && s.rbit (Reg.lnkHostStands (16 + k)) sd && s.role (16 + k) == 4

/-- VF_FLR: a function-level reset of VF s + 1 of host port k (10 R357, R360, 13 R439). -/
def execVfFlr (t k sd : Nat) (s : State) : Host.Outcome State Fault Refusal :=
  let s1 := s.at t
  if s1.vfEnabled k sd then .next ((s1.bump (Reg.hptFlr k) 31 0 1).startReset sd 1) else .next s1

/-- PF_FLR: a function-level reset of the PF of host port k disables its admin ring; the PF's configuration space, which no register of the
part holds, is cleared (13 R439). -/
def execPfFlr (t k : Nat) (s : State) : Host.Outcome State Fault Refusal :=
  let s1 := s.at t
  if k < 4 ∧ s1.role (16 + k) = 4 then .next ((s1.bump (Reg.hptFlr k) 31 0 1).wbit (Reg.hptAqBase k 0) 0 false) else .next s1

end Sys2Proof.Machine
end

