-- ==== Sys2Proof/Machine/Power.lean ====
section
/-! DEFINITION. Caps, revocation, run levels, the ledger, ballast, heartbeats, sleep and the thermal floors (14 R466-R504). A command carries the
measured facts it is about. -/

namespace Sys2Proof.Machine

def State.modPw (s : State) (f : Power → Power) : State := { s with pw := f s.pw }

/-- Log a power event: KIND and VALUE of PWR_EVENT, its EVENT record, ALERT_N (14 R502, 16 R541, 18 R566). -/
def State.powerEvent (s : State) (kind value : Nat) : State :=
  let v := kind * 2 ^ 59 + value % 65536 * 2 ^ 32
  ((s.firstEvent Reg.pwrEvent Reg.pwrEventTime v).event 7 0 (2 ^ 63 + v) 0).alertEdge

/-! ### Committed power against the line (14 R496) -/

/-- Ring times from now on at which P_com may change, ascending. -/
def State.powerBreaks (s : State) : List Nat :=
  ((s.now :: (s.sv.passes.flatMap (fun p => [p.start, p.fin])).filter (fun t => decide (s.now < t))).eraseDups).mergeSort (fun a b => decide (a ≤ b))
/-- The first time in [a, b) at which p mW exceeds C_line, where there is one. -/
def State.overAt (s : State) (p a : Nat) (b : Option Nat) : Option Nat :=
  if s.cLine a * 1000 < p then some a
  else match s.pw.lowering with
    | none => none
    | some w =>
      if w.urgent ∨ p ≤ w.new * 1000 then none
      else
        let t := w.t0 + cdiv ((w.old - cdiv p 1000 + 1) * 1000000) s.rampDown
        let t' := Nat.max a t
        match b with
        | none => some t'
        | some e => if t' < e then some t' else none
/-- The earliest time at which P_com exceeds C_line (14 R496). -/
def State.firstOver (s : State) : Option Nat :=
  let bs := s.powerBreaks
  bs.zipIdx.findSome? (fun x => s.overAt (s.committed x.1) x.1 bs[x.2 + 1]?)

/-- A pass's span contains a time. -/
def Pass.spans (p : Pass) (t : Nat) : Bool := decide (p.start ≤ t) && (decide (t < p.fin) || p.unknownEnd)
/-- The pass R496 takes: of the lowest class, the one whose earliest member deadline is latest, ties to the one with the higher REQ_TAG. -/
def State.victimPass (s : State) (t : Nat) : Option Pass :=
  let topTag := fun (p : Pass) => ((p.members.filterMap s.req).map (·.tag)).foldl Nat.max 0
  (s.sv.passes.filter (fun p => decide (p.cls ≠ 0) && p.spans t && !p.members.isEmpty)).foldl (fun (best : Option Pass) p => match best with
    | none => some p
    | some b =>
      let dp := s.minDeadline p
      let db := s.minDeadline b
      if b.cls < p.cls ∨ (b.cls = p.cls ∧ (db < dp ∨ (db = dp ∧ topTag b < topTag p))) then some p else some b) none
/-- Revoke every member of a pass for power; later passes of its server shift (14 R496). -/
def State.revokePass (s : State) (p : Pass) : State :=
  let s1 := s.each p.members (fun s id => match s.req id with
    | some r => (s.bump Reg.nrgRevoke 63 0 1).endReq r 0x21 [] false
    | none => s)
  let s2 := s1.abortEmpty
  match p.inst with
  | some i => s2.reshift i
  | none => s2
/-- Revoke until P_com is within C_line at every time (14 R496). -/
def State.revokeLoop (s : State) : Nat → State
  | 0 => s
  | n + 1 =>
    match s.firstOver with
    | none => s
    | some t =>
      match s.victimPass t with
      | none => s
      | some p => (s.revokePass p).revokeLoop n
def State.revokeOver (s : State) : State := (s.revokeLoop (s.sv.requests.length + 1)).afterEnds

/-- No more ballast (14 R495, R499). -/
def State.stopBallast (s : State) : State := (s.modPw (fun p => { p with ballastW := [], ballastFall := [] })).wbit Reg.pwrStatus 0 false

/-- What follows a change of what R483 takes the effective cap from: s0 is the state before it. A lowered cap is ramped to, or taken at once
where it is urgent; a raised one takes effect at once (14 R495). -/
def State.capChanged (s0 s : State) (urgent : Bool) : State :=
  let old := s0.cLine s0.now
  let new := s.capW
  if new < old then
    let s1 := s.modPw (fun p => { p with lowering := some ⟨s.now, old, new, urgent⟩, floorSeen := false })
    let s2 := if urgent then s1.stopBallast else s1
    s2.revokeOver
  else s.modPw (fun p => { p with lowering := none })
/-- The urgent procedure with the cap unchanged (14 R491). -/
def State.urgentNow (s : State) : State :=
  ((s.modPw (fun p => { p with lowering := some ⟨s.now, s.cLine s.now, s.capW, true⟩, floorSeen := false })).stopBallast).revokeOver

/-! ### Run levels (14 R472-R474) -/

/-- Undispatched Deadline passes take their bound at the present run level; where there is no row every member is revoked, in R353's order. -/
def State.rebound (s : State) : State :=
  s.each (s.sv.passes.filter (fun p => !p.dispatched && decide (p.cls = 1))) (fun s p =>
    match p.inst.bind s.inst with
    | none => s
    | some i =>
      match latLookup (s.image i.load) i.entry 1 s.level p.bucket p.members.length with
      | some b => s.modPass p.id (fun q => { q with bound := b })
      | none =>
        let rs := (p.members.filterMap s.req).mergeSort (fun a b => decide (b.deadline < a.deadline ∨ (b.deadline = a.deadline ∧ b.tag ≤ a.tag)))
        s.each (rs.map (·.id)) (fun s id => match s.req id with
          | some r => s.endReq r 0x21 [] false
          | none => s))
/-- A change of FLOOR: every awake branch changes its level, a sleeping one wakes at the new one; plans are repaired where the run level
becomes slower (14 R472-R474). -/
def State.setFloor (s : State) (f : Nat) : State :=
  let old := s.level
  let s1 := s.wf Reg.pwrStatus 10 8 f
  let new := s1.level
  if new = old then s1
  else
    let s2 := s1.modBranches (List.range s.nBranches) (fun x => match x.sleep with
      | .awake => { x with levelTarget := new }
      | _ => { x with level := new, levelTarget := new })
    if old < new then s2.rebound.repairAll.afterEnds else s2
/-- The slowest level that a rule imposes. -/
def Power.floor (p : Power) : Nat := Nat.max p.floorCap (Nat.max p.floorCool p.floorHot)
/-- FLOOR becomes slower where a rule asks for it; a faster level is reached step by step (14 R474). -/
def State.raiseFloor (s : State) : State :=
  if s.rf Reg.pwrStatus 10 8 < s.pw.floor then s.setFloor s.pw.floor else s
/-- THM_STATUS.FLOOR: the thermal floor in force (14 R504). -/
def State.thermalFloor (s : State) : State := s.wf Reg.thmStatus 15 13 (Nat.max s.pw.floorCool s.pw.floorHot)

/-- LEVEL_CHANGE_COMPLETE: a branch island reaches its new level (14 R473, R474). -/
def execLevelChangeComplete (t b : Nat) (s : State) : Host.Outcome State Fault Refusal :=
  if s.nBranches ≤ b then .fault .absentUnit
  else .next ((s.at t).modBranch b (fun x => { x with level := x.levelTarget }))

/-- FLOOR_STEP: w is the present 1 ms average input power, over whether it has exceeded C_line continuously for 50 us. The first step is taken
at the trigger, each further one 20 us later while w exceeds C_line; what revocation leaves above C_line triggers once (14 R497). -/
def execFloorStep (t w : Nat) (exceeds : Bool) (s : State) : Host.Outcome State Fault Refusal :=
  let s1 := s.at t
  let urgent := match s1.pw.lowering with | some l => l.urgent | none => false
  let left := s1.firstOver.isSome
  let floor := s1.rf Reg.pwrStatus 10 8
  let s2 := s1.modPw (fun p => { p with floorSeen := left })
  let slower := (s2.modPw (fun p => { p with floorCap := Nat.min 7 (Nat.max p.floorCap floor + 1), floorStep := some s1.now })).raiseFloor
  match s1.pw.floorStep with
  | none => .next (if ((left = true ∧ s1.pw.floorSeen = false) ∨ (urgent = true ∧ exceeds = true)) ∧ floor < 7 then slower else s2)
  | some t0 =>
    if s1.now < t0 + 20000 then .next s1
    else if s1.cLine s1.now < w ∧ floor < 7 then .next slower
    else .next (s2.modPw (fun p => { p with floorStep := none }))

/-- Full-activity power that a step to the next faster level adds over the awake branches, in mW. -/
def State.stepPower (s : State) : Nat :=
  ((List.range s.nBranches).filter (fun b => (s.branch b).sleep == .awake)).length * (levelPower (s.level - 1) - levelPower s.level) * 100
/-- P_com with one level less of FLOOR fits C_line at every time (14 R497). -/
def State.fasterFits (s : State) : Bool := (s.wf Reg.pwrStatus 10 8 (s.rf Reg.pwrStatus 10 8 - 1)).firstOver.isNone

/-- FLOOR_RELEASE_STEP: FLOOR becomes one step faster, at least 1 ms after the last step, once no rule holds it and the up-ramp allows the
added power (14 R474, R497). -/
def execFloorReleaseStep (t : Nat) (s : State) : Host.Outcome State Fault Refusal :=
  let s1 := s.at t
  let f := s1.rf Reg.pwrStatus 10 8
  let cap := if s1.pw.floorStep.isNone ∧ s1.fasterFits = true then Nat.min s1.pw.floorCap (f - 1) else s1.pw.floorCap
  let s2 := s1.modPw (fun p => { p with floorCap := cap })
  if s2.pw.floor < f ∧ s1.pw.lastRelease + 1000000 ≤ s1.now ∧ s1.stepPower ≤ s1.rampUp * (s1.now - s1.pw.lastRelease) / 1000 then
    .next ((s2.setFloor (f - 1)).modPw (fun p => { p with lastRelease := s1.now }))
  else .next s1

/-! ### The ledger (14 R481-R488) -/

/-- NRG_SHARE of a stand. -/
def State.share (s : State) (sd : Nat) : Nat := Nat.min 256 (s.rf (Reg.nrgShare sd) 8 0)
/-- WINDOW_MS. -/
def State.windowMs (s : State) : Nat := let w := s.rf Reg.nrgCfg 31 16; if w = 0 then 1 else Nat.min w 1000
/-- A bucket's gain of one microsecond in 1/128000 uJ (14 R485). -/
def State.gain (s : State) (sd : Nat) : Nat :=
  s.share sd * ((100 - s.reservePct) * s.capW - 100 * s.rf Reg.nrgModel 63 48) * 5
/-- A bucket in 1/128000 uJ. -/
def State.fine (s : State) (sd : Nat) : Int := s.bucket sd * 128000 + (tget 0 s.pw.bucketFrac sd : Nat)
def State.setFine (s : State) (sd : Nat) (v : Int) : State :=
  (s.modPw (fun p => { p with bucketFrac := tset 0 p.bucketFrac sd (v % 128000).toNat })).addBucket sd (v / 128000 - s.bucket sd)
/-- A bucket's refill of one microsecond: it is capped at WINDOW_MS of the rate, and the excess discarded. -/
def State.refill (s : State) (sd : Nat) : State :=
  s.setFine sd (min (s.fine sd + (s.gain sd : Nat)) ((s.gain sd * 1000 * s.windowMs : Nat) : Int))
/-- Charge idle or ballast energy to a stand, in nJ. -/
def State.chargeIdle (s : State) (sd nj : Nat) : State :=
  let f := tget 0 s.pw.bucketFrac (64 + sd) + nj
  ((s.modPw (fun p => { p with bucketFrac := tset 0 p.bucketFrac (64 + sd) (f % 1000) })).addCharged sd (f / 1000)).setFine sd (s.fine sd - ((nj * 128 : Nat) : Int))
/-- Ballast energy in nJ counted, and charged to the stands whose load fell, in proportion (14 R494). -/
def State.chargeBallast (s : State) (owner : Option Nat) (nj : Nat) : State :=
  let s1 := s.bump Reg.nrgBallast 63 0 (nj / 1000)
  let sum := (s.pw.ballastFall.map (·.2)).foldl (· + ·) 0
  if sum = 0 then (match owner with | some sd => s1.chargeIdle sd nj | none => s1)
  else s1.each s.pw.ballastFall (fun s f => s.chargeIdle f.1 (nj * f.2 / sum))
/-- Overhead energy of the present millisecond, and its average once the millisecond is over (14 R482). -/
def State.addOverhead (s : State) (nj : Nat) : State :=
  let p := s.pw
  if s.now < p.overAt + 1000000 then s.modPw (fun p => { p with overAcc := p.overAcc + nj })
  else s.modPw (fun p => { p with
    overAvgs := (p.overAvgs ++ [(s.now, p.overAcc / 1000000)]).filter (fun a => decide (s.now < a.1 + 1000000000)), overAcc := nj, overAt := s.now })
/-- The energy of a branch island: to its pass, to its stand, or to the overhead (14 R481). -/
def State.chargeBranch (s : State) (b nj : Nat) : State :=
  match s.passOn b, s.owner b with
  | some p, _ => s.modPass p.id (fun q => { q with energy := q.energy + nj })
  | none, o =>
    if 0 < tget 0 s.pw.ballastW b then s.chargeBallast o nj
    else match o with
      | some sd => s.chargeIdle sd nj
      | none => s.addOverhead nj

/-- LEDGER_TICK: input nJ of one microsecond, the energy in nJ that each branch island's regulator reports, that of all other islands, and
the input voltage in mV (14 R481, R485, R502). The measured input is divided in proportion, so that the parts sum to it. -/
def execLedgerTick (t input mv : Nat) (reports : List (Nat × Nat)) (other : Nat) (s : State) : Host.Outcome State Fault Refusal :=
  let s1 := s.at t
  let total := (reports.map (·.2)).foldl (· + ·) other
  let part := fun n => if total = 0 then 0 else input * n / total
  let given := (reports.map (fun r => part r.2)).foldl (· + ·) 0
  let s2 := (s1.wf Reg.pwrStatus 63 48 (Nat.min mv 65535)).putReg Reg.nrgLedger
    ((s1.reg Reg.nrgLedger + (s1.pw.ledgerNj + input) / 1000) % 2 ^ 64)
  let s3 := s2.modPw (fun p => { p with ledgerNj := (p.ledgerNj + input) % 1000 })
  let s4 := s3.each s3.stands State.refill
  .next ((s4.each reports (fun s r => s.chargeBranch r.1 (part r.2))).addOverhead (input - given))

/-- FIXED_W_UPDATE: the largest 1 ms average of overhead power of the last second (14 R482). -/
def execFixedWUpdate (t : Nat) (s : State) : Host.Outcome State Fault Refusal :=
  let s1 := s.at t
  let l := s1.pw.overAvgs.filter (fun a => decide (s1.now < a.1 + 1000000000))
  .next (if l = [] then s1 else s1.wf Reg.nrgModel 63 48 (Nat.min 65535 ((l.map (·.2)).foldl Nat.max 0)))

/-- Clamp a number. -/
def clampNat (x lo hi : Nat) : Nat := Nat.min (Nat.max x lo) hi
/-- COEF_UPDATE: charged over compiled energy of the passes of the last second, when at least 100 have completed (14 R486). -/
def execCoefUpdate (t : Nat) (s : State) : Host.Outcome State Fault Refusal :=
  let s1 := s.at t
  let l := s1.pw.passesDone.filter (fun p => decide (s1.now < p.1 + 1000000000))
  let s2 := s1.modPw (fun p => { p with passesDone := l })
  let num := l.foldl (fun (n : Nat) p => n + p.2.1) 0
  let den := l.foldl (fun (n : Nat) p => n + p.2.2) 0
  if l.length < 100 ∨ den = 0 then .next s2
  else
    let c := s2.rf Reg.nrgModel 31 0
    let r := num * 65536 / (1000 * den)
    .next (s2.wf Reg.nrgModel 31 0 (clampNat (clampNat r (c * 9 / 10) (c * 11 / 10)) 0x8000 0x20000))

/-- AVERAGE_POWER_CHECK: w is the 1 ms average input power. Above the cap with P_com within it admission pauses and COEF rises; above by
more than 5 % three times in a row the urgent procedure runs (14 R491). -/
def execAveragePowerCheck (t w : Nat) (s : State) : Host.Outcome State Fault Refusal :=
  let s1 := (s.at t).wf Reg.pwrStatus 47 32 (Nat.min w 65535)
  let c := s1.capW
  let com := s1.committed s1.now
  if c < w ∧ com ≤ c * 1000 then
    let r := if com = 0 then 0xFFFFFFFF else Nat.min 0xFFFFFFFF (w * 1000 * 65536 / com)
    let s2 := (s1.wbit Reg.pwrStatus 5 true).wf Reg.nrgModel 31 0 (Nat.max (s1.rf Reg.nrgModel 31 0) r)
    let n := if c * 105 < w * 100 then s1.pw.overStreak + 1 else 0
    let s3 := s2.modPw (fun p => { p with overStreak := if n = 3 then 0 else n })
    .next (if n = 3 then (s3.powerEvent 10 0).urgentNow else s3)
  else .next ((if w ≤ c then s1.wbit Reg.pwrStatus 5 false else s1).modPw (fun p => { p with overStreak := 0 }))

/-! ### Ballast (14 R493, R494, 16 R535) -/

/-- Ballast is overridden (14 R492). -/
def State.ballastOff (s : State) : Bool :=
  (match s.pw.lowering with | some l => l.urgent | none => false) || s.pw.sag || decide (0 < s.pw.floorCool) || decide (0 < s.pw.floorHot)
/-- Branches that ballast may use: idle and awake ones at the run level, or the frozen ones. -/
def State.ballastBranches (s : State) : List Nat :=
  (List.range s.nBranches).filter (fun b => let x := s.branch b
    x.frozen || (x.sleep == .awake && x.level == s.level && (s.passOn b).isNone))
/-- Give each branch up to its full-activity power until p mW are drawn. -/
def spread (full : Nat) : Nat → List Nat → Tab Nat
  | _, [] => []
  | p, b :: bs => if p = 0 then [] else (b, Nat.min full p) :: spread full (p - Nat.min full p) bs
/-- BALLAST_STEP: load is the input power without ballast in W, falls each stand's fall in the last ms. The draw holds the 1 ms average at
the previous one less DOWN x 1 ms; in a freeze at its value at the trigger. -/
def execBallastStep (t load : Nat) (falls : List (Nat × Nat)) (s : State) : Host.Outcome State Fault Refusal :=
  let s1 := s.at t
  let target := if s1.frozen then s1.db.frzMw else 1000 * (s1.inputW - s1.rampDown)
  let need := if s1.ballastOff then 0 else target - 1000 * load
  let w := spread (levelPower s1.level * 100) need s1.ballastBranches
  .next ((s1.modPw (fun p => { p with
    ballastW := w, ballastFall := if need = 0 ∨ s1.frozen = true then [] else (falls.filter (fun f => f.2 != 0)).foldl (fun t f => tset 0 t f.1 f.2) [] })).wbit
      Reg.pwrStatus 0 (!w.isEmpty))

/-! ### Caps and heartbeats (14 R495, R498) -/

/-- A heartbeat: the watch starts again, and an orphaned part is one no more. -/
def State.heartbeat (s : State) : State :=
  let s1 := s.modPw (fun p => { p with lastBeat := s.now })
  if s.rbit Reg.pwrStatus 3 then (State.capChanged s1 (s1.wbit Reg.pwrStatus 3 false) false).alertEdge else s1

/-- CAP_SET: host cap and shares (14 R495, 13 R460). -/
def State.beginCapSet (s : State) (a : Admin) : State :=
  let m := a.bytes
  let share := fun sd => fieldLE m (40 + 2 * sd) 2
  let shares := (fieldLE m 36 1).testBit 1
  let urgent := (fieldLE m 36 1).testBit 0
  if shares ∧ 256 < (s.stands.map share).foldl (· + ·) 0 then a.stop s 0x14
  else
    let s1 := s.heartbeat
    let s2 := (if shares then s1.each s1.stands (fun s sd => s.wf (Reg.nrgShare sd) 8 0 (share sd)) else s1).modPw (fun p => { p with hostCap := some (fieldLE m 32 4) })
    let s3 := State.capChanged s1 s2 urgent
    let s4 := if urgent ∧ s3.capW < s1.cLine s1.now then s3.powerEvent 9 s3.capW else s3
    s4.adminEnd a.id 0 []
def State.msgCapSet (s : State) (src : Source) (route : AdminRoute) (m : List Byte) : State :=
  s.receive src route m 1 176 (decide (fieldLE m 36 1 < 4) && zeros m 37 3 && zeros m 168 8) State.beginCapSet
def execCapSet (t : Nat) (src : Source) (m : List Byte) (s : State) : Host.Outcome State Fault Refusal := .next ((s.at t).msgCapSet src .row m)

/-- HB_PERIOD_MS in ns. -/
def State.hbPeriod (s : State) : Nat := s.rf Reg.nrgCfg 47 32 * 1000000
/-- ORPHAN_TIMEOUT: three periods without a heartbeat make the part orphaned (14 R498). -/
def execOrphanTimeout (t : Nat) (s : State) : Host.Outcome State Fault Refusal :=
  let s1 := s.at t
  if s1.hbPeriod = 0 ∨ s1.now < s1.pw.lastBeat + 3 * s1.hbPeriod ∨ s1.rbit Reg.pwrStatus 3 = true then .next s1
  else
    let s2 := State.capChanged s1 (s1.wbit Reg.pwrStatus 3 true) false
    .next (s2.powerEvent 8 s2.capW)

/-- INPUT_SAG: input below 45 V for 10 us: the sag cap, urgently (14 R499). -/
def execInputSag (t mv : Nat) (s : State) : Host.Outcome State Fault Refusal :=
  let s1 := s.at t
  if 45000 ≤ mv ∨ s1.pw.sag = true ∨ s1.pw.supply ≠ .on then .next s1
  else
    let s2 := (s1.wf Reg.pwrStatus 15 14 1).modPw (fun p => { p with sag := true })
    .next ((State.capChanged s1 s2 true).stopBallast.powerEvent 1 (mv / 10))
/-- SAG_RECOVERY: input at or above 46 V for 10 ms: the cap is raised (14 R499). -/
def execSagRecovery (t mv : Nat) (s : State) : Host.Outcome State Fault Refusal :=
  let s1 := s.at t
  if mv < 46000 ∨ s1.pw.sag = false then .next s1
  else .next (State.capChanged s1 ((s1.wf Reg.pwrStatus 15 14 0).modPw (fun p => { p with sag := false })) false)

/-! ### Sleep (14 R475, R476) -/

/-- A branch never sleeps on its own: it holds an Express branch bit or a context of a bound PIN entry (14 R475). -/
def State.noSleep (s : State) (b : Nat) : Bool :=
  (match s.owner b with | some sd => s.isExpress sd b | none => false) ||
  s.sv.insts.any (fun i => i.branches.contains b && (match s.load i.load with
    | some l => l.bound && entPin l.image i.entry && (List.range 8).any (fun n => let c := tget BrcCtx.empty (s.branch b).ctxs n; c.valid && c.load == i.load)
    | none => false))
/-- S1_ENTRY: a branch without pass, ballast, load or fill for S1_IDLE_US. -/
def execS1Entry (t b : Nat) (s : State) : Host.Outcome State Fault Refusal :=
  if s.nBranches ≤ b then .fault .absentUnit
  else
    let s1 := s.at t
    let idle := s1.rf Reg.pwrPolicy 23 8
    let x := s1.branch b
    if idle = 0 ∨ x.sleep ≠ .awake ∨ (s1.passOn b).isSome ∨ 0 < tget 0 s1.pw.ballastW b ∨
       s1.sv.cfgLoads.any (fun c => c.branch == b) = true ∨ s1.now < x.idleSince + idle * 1000 ∨ s1.noSleep b = true ∨ x.frozen = true
    then .next s1
    else .next (s1.modBranch b (fun x => { x with sleep := .s1, idleSince := s1.now }))
/-- S2_ENTRY: a branch in S1 for S2_IDLE_MS. -/
def execS2Entry (t b : Nat) (s : State) : Host.Outcome State Fault Refusal :=
  if s.nBranches ≤ b then .fault .absentUnit
  else
    let s1 := s.at t
    let idle := s1.rf Reg.pwrPolicy 31 24
    let x := s1.branch b
    if idle = 0 ∨ x.sleep ≠ .s1 ∨ s1.now < x.idleSince + idle * 1000000 ∨ x.frozen = true then .next s1
    else .next (s1.modBranch b (fun x => { x with sleep := .s2 }))

end Sys2Proof.Machine
end

