-- ==== Sys2Proof/Machine/RingTime.lean ====
section
/-! DEFINITION. Ring time: the exchange with the parent, lock, slewing, and the pulse pins (12 R430-R433, 15 R524). -/

namespace Sys2Proof.Machine

/-- Change the clock. -/
def State.modClock (s : State) (f : Clock → Clock) : State := s.modUr (fun u => { u with clock := f u.clock })
/-- The data of a TIME_SYNC: T1, T2, T3 in 1/16 ns, CORR (12 R431). -/
def syncData (t1 t2 t3 corr : Nat) : List Byte := leBytes 8 t1 ++ leBytes 8 t2 ++ leBytes 8 t3 ++ leBytes 4 corr ++ leBytes 4 0
/-- A signed 32-bit field. -/
def signed32 (v : Nat) : Int := if v < 2 ^ 31 then (v : Int) else (v : Int) - 2 ^ 32
/-- The difference of two timestamps modulo 2^64, as a signed number. -/
def tsDiff (a b : Nat) : Int := signed64 ((a + 2 ^ 64 - b % 2 ^ 64) % 2 ^ 64)
/-- A timestamp at the pins: ring time and its sixteenths. -/
def State.stamp (s : State) (sub : Nat) : Nat := (s.now * 16 + sub % 16) % 2 ^ 64

/-- TIME_SYNC_REQUEST: the child asks its parent; sub is the departure's sixteenths of a nanosecond (12 R431). -/
def execTimeSyncRequest (t sub : Nat) (s : State) : Host.Outcome State Fault Refusal :=
  let s1 := s.at t
  match s1.ur.clock.parent with
  | none => .next s1
  | some p =>
    if s1.rbit Reg.timeCfg 1 ∨ s1.portUp p = false then .next s1
    else
      let tx := s1.ownTx 6 (s1.rf (Reg.lnkStatus p) 63 48) 0 0 0x80 0 0 (syncData (s1.stamp sub) 0 0 0) 7
      .next (((s1.modUr (fun u => { u with nextTag := (u.nextTag + 1) % 2 ^ 32 })).queueTx p tx).modClock (fun c => { c with t1 := some (p, tx.tag) }))

/-- The offset of an accepted exchange acts on the counter: the first one after bring-up, or after a holdover longer than 10 s, locks the
part and steps it forward where the parent is ahead; every other offset is slewed, above 1 us as a time fault (12 R432). -/
def State.takeOffset (s : State) (off : Int) : State :=
  let st := s.rf Reg.timeStatus 2 0
  let held := match s.ur.clock.holdSince with | some h => s.now - h | none => 0
  let locks := !s.ur.clock.everLocked || (st == 2 && decide (10000000000 < held))
  let s0 := if st = 2 then (s.wf Reg.timeHold 31 0 (sat32 (held / 1000000))).count 0x1E 1 else s
  let s1 := (s0.wf Reg.timeStatus 2 0 1).modClock (fun c => { c with holdSince := none, everLocked := true, slewTime := s.now })
  if locks then
    let step := (off / 16).toNat
    let s2 := if 0 < step then ({ s1 with now := min (s1.now + step) (2 ^ 64 - 1) }).bump Reg.timeSteps 31 0 1 else s1
    (s2.modClock (fun c => { c with slew := off - step * 16 })).wbit Reg.timeStatus 4 false
  else
    let fault := decide (16000 < off.natAbs)
    let s2 := if fault then s1.bump Reg.timeSteps 31 0 1 else s1
    (s2.modClock (fun c => { c with slew := off })).wbit Reg.timeStatus 4 fault

/-- TIME_SYNC: a child's request is answered with T2 and T3; the parent's answer gives d and offset, and is discarded where d exceeds the
least of the last 16 by more than 2 ns (12 R431). -/
def execTimeSync (t n : Nat) (tx : Tx) (sub : Nat) (s : State) : Host.Outcome State Fault Refusal :=
  let s1 := s.at t
  if tx.op ≠ 6 ∨ 20 ≤ n ∨ (s1.role n ≠ 1 ∧ s1.role n ≠ 2) then .next s1
  else if s1.ur.clock.t1 = some (n, tx.tag) then
    let t4 := s1.stamp sub
    let t1 := fieldLE tx.data 0 8
    let t2 := fieldLE tx.data 8 8
    let t3 := fieldLE tx.data 16 8
    let d := (tsDiff t4 t1 - tsDiff t3 t2 - signed32 (fieldLE tx.data 24 4)) / 2
    let off := (tsDiff t2 t1 + tsDiff t3 t4) / 2
    let old := s1.ur.clock.delays
    let s2 := s1.modClock (fun c => { c with t1 := none, delays := (old ++ [d.toNat]).drop (old.length + 1 - 16) })
    if old.any (fun x => decide (x + 32 < d.toNat)) then .next s2
    else .next (((s2.putReg (Reg.lnkTsDelay n) (d % 2 ^ 32).toNat).putReg Reg.timeOffset (off % 2 ^ 32).toNat).takeOffset off)
  else
    let t2 := s1.stamp sub
    let r := { s1.ownTx 6 tx.src 0 0 0x80 0 0 (syncData (fieldLE tx.data 0 8) t2 t2 (fieldLE tx.data 24 4)) 7 with tag := tx.tag }
    .next (s1.queueTx n r)

/-- PPS_IN_EDGE: the ring time of the edge; the anchored time root steps to the next multiple of 10^9 at the first edge before it admits
requests, and steers to each later one (12 R433, 15 R524). -/
def execPpsInEdge (t : Nat) (s : State) : Host.Outcome State Fault Refusal :=
  let s1 := s.at t
  let anchored := s1.rbit Reg.timeCfg 1 && s1.rbit Reg.timeCfg 0
  let first := s1.rf Reg.timeStatus 2 0 != 4 && !s1.rbit Reg.rootStatus 2
  let s2 := if anchored && first then { s1 with now := min (cdiv s1.now 1000000000 * 1000000000) (2 ^ 64 - 1) } else s1
  let near := (s2.now + 500000000) / 1000000000 * 1000000000
  let s3 := if anchored then (s2.wf Reg.timeStatus 2 0 4).modClock (fun c => { c with slew := ((near : Int) - (s2.now : Int)) * 16, slewTime := s2.now }) else s2
  .next ((s3.putReg Reg.timePps s3.now).modClock (fun c => { c with ppsLast := s3.now + 1 }))

/-- PPS_OUT_PULSE: TIME_PPS_OUT goes high at each multiple of 10^9, where the pin is driven (12 R433, 15 R523). -/
def execPpsOutPulse (t : Nat) (s : State) : Host.Outcome State Fault Refusal :=
  let s1 := s.at t
  if s1.now % 1000000000 = 0 ∧ s1.rbit Reg.rstPinopt 2 = true then .next (s1.emit (.pps s1.now)) else .next s1

end Sys2Proof.Machine
end

