-- ==== Sys2Proof/Machine/Reset.lean ====
section
/-! DEFINITION. The orderly stop, resets above stand level, standby, thermal responses and clocks (14 R466-R480, R499-R504, 15 R505-R522). -/

namespace Sys2Proof.Machine

/-! ### The orderly stop (14 R500) -/

/-- A freeze ends at once: a dump in progress ends with DUMP_END status 2, messages that waited are in progress (16 R534). -/
def State.breakFreeze (s : State) : State :=
  let dumping := s.rbit Reg.trcStatus 1
  let s1 := if dumping then ((s.wbit Reg.trcStatus 1 false).wbit Reg.trcStatus 2 true).tracePush 0x11 s.now (leBytes 1 2 ++ leBytes 7 0) else s
  let s2 := s1.each s1.db.heldAdmin (fun s h =>
    let (id, s1) := s.fresh
    s1.modSv (fun v => { v with admins := v.admins ++ [⟨id, h.1, (sourceStand h.1).getD 0, fieldLE h.2.2 0 2, fieldLE h.2.2 4 4, h.2.1, h.2.2⟩] }))
  ((s2.wf Reg.dbgStatus 2 0 0).modDb (fun d => { d with
    dump := none, drive := false, sentinels := [], heldTx := [], heldAdmin := [], heldReset := [] })).modBranches
      (List.range s.nBranches) (fun x => { x with frozen := false })

/-- Every accepted request, and every fetched descriptor not yet decided (01 R39, 17 R554), ends with DEADLINE_REVOKED, in ascending DEADLINE; an
undecided inlet frame gets no decision (11 R391). -/
def State.revokeAll (s : State) : State :=
  let rs := (s.sv.requests.filter (fun r => r.live || decide (r.ring < 8))).mergeSort (fun a b => decide (a.deadline ≤ b.deadline))
  (s.each (rs.map (·.id)) (fun s id => match s.req id with
    | some r => s.endOne { r with fault := 0 } 0x21 [] false
    | none => s)).modSv (fun v => { v with requests := [], passes := [] })
/-- Every admin message in progress ends with INTERNAL. -/
def State.endAdmins (s : State) : State :=
  s.each s.sv.admins (fun s a => match s.sv.loads.find? (fun l => l.msg == a.id) with
    | some l => s.adminEnd a.id 0x5F (s.loadBody l 0x5F)
    | none => s.adminEnd a.id 0x5F [])

/-- Steps 1 to 5 of the orderly stop with their cause: 1 low input, 2 overvoltage, 3 thermal trip, 4 RESET_N, 5 root reset, 6 ROOTCLK lost. PWROK
falls but for a reset, whose rails stay good (14 R500, 15 R506, R509, R511). -/
def State.stop (s : State) (cause : Nat) : State :=
  let all := List.range s.nBranches
  let s1 := (s.breakFreeze.wbit Reg.rootStatus 2 false).stopBallast
  let s2 := ((s1.emptyBranches all).abandonForks (fun _ => true)).modBranches all (fun x => { x with level := 7, levelTarget := 7, sleep := .s1 })
  let s3 := s2.revokeAll.endAdmins
  let s4 := s3.each ((List.range 20).filter (fun n => s3.linkState n != 0)) (fun s n => (s.setLink n 6 0 0).modLink n (fun _ => Link.empty))
  let s5 := ((s4.modUr (fun u => { u with outst := [], flows := [], kvServes := [], hostWaits := [] })).modTiers (fun x =>
    { x with accesses := [] })).wf Reg.pwrStatus 18 16 5
  let s6 := if cause = 1 then s5.wf Reg.pwrStatus 15 14 2 else s5
  s6.modPw (fun p => { p with supply := .stopped, stopCause := cause, origin := none, pwrok := if cause = 4 ∨ cause = 5 then p.pwrok else false })

/-! ### Resets above stand level (15 R505-R508) -/

/-- A sensor is present: those of the variant's dies and stacks, of both bark dies, and 88 to 90; a die or stack sensor that reads 0x8000 is
absent (14 R504). -/
def State.hasSensor (s : State) (i : Nat) : Bool :=
  decide (i < 8 * s.part.dies) || decide (64 ≤ i ∧ i < 72) || decide (72 ≤ i ∧ i < 72 + s.nStacks) || decide (88 ≤ i ∧ i < 91)
/-- A temperature in 1/8 degree. -/
def State.temp (s : State) (i : Nat) : Int := let v := s.rf (Reg.thmT i) 15 0; if v < 32768 then (v : Int) else (v : Int) - 65536
/-- The readings that the limits consider, by sensor (14 R504). -/
def State.limitSensors (s : State) : List Nat :=
  (List.range 88).filter (fun i => s.hasSensor i && s.rf (Reg.thmT i) 15 0 != 0x8000)
/-- Every considered sensor reads below a temperature in degrees. -/
def State.allBelow (s : State) (c : Nat) : Bool := s.limitSensors.all (fun i => decide (s.temp i < (8 * c : Nat)))

/-- Registers that a reset at a level keeps (15 R507, R523; 14 R502, R503; 13 R465). -/
def keptRegs (level : Nat) : List Nat :=
  if level = 1 then [Reg.pwrWake]
  else [Reg.rstCount, Reg.nrgLedger, Reg.pwrWake] ++ (if level = 2 then [] else [Reg.seedStatus, Reg.timeHold])
/-- Memory that survives: volumes always, the warm tier through S3 (15 R507). -/
def keptMem (level key : Nat) : Bool := key / 2 ^ 45 == 8 || (level == 4 && key / 2 ^ 45 == 1)

/-- The part as a reset at a level leaves it, before the bring-up table: 1 cold, 2 part, 3 root, 4 wake from S3. Through S3 the warm residency
stays with the warm tier's contents (06 R219); grafts and sequences do not (15 R507). -/
def State.cleared (s : State) (level : Nat) : State :=
  let csr : Tab (Option Nat) := s.csr.filter (fun c => (keptRegs level).contains c.1)
  let ks := decide (3 ≤ level)
  { State.reset with
    part := s.part, free := s.free, out := s.out, pending := s.pending
    now := if ks ∧ (level = 4 ∧ s.pw.rootLost = true) = false then s.now else 0
    mem := s.mem.filter (fun c => keptMem level c.1)
    csr := csr
    sv := if level = 4 then { Serving.empty with warm := s.sv.warm, nextId := s.sv.nextId } else Serving.empty
    tiers := { Tiers.empty with
      ftl := s.tiers.ftl
      poison := s.tiers.poison.filter (fun c => keptMem level (c.1 * 64))
      stripe := if level = 4 then s.tiers.stripe else []
      pGib := if level = 4 then s.tiers.pGib else 0
      warmCap := if level = 4 then s.tiers.warmCap else [] }
    pw := { Power.empty with
      origin := none, resetLow := s.pw.resetLow, reversal := s.pw.reversal, floorCool := s.pw.floorCool, strap := s.pw.strap,
      ledgerNj := if level = 1 then 0 else s.pw.ledgerNj }
    db := { Debug.empty with ir := s.db.ir, scan := s.db.scan, boundary := s.db.boundary }
    ur := { Urren.empty with clock := if ks then { s.ur.clock with delays := [], parent := none, t1 := none, holdSince := some s.now, everLocked := false } else Urren.empty.clock } }

/-- A reset at a level with its TRIGGER: what R507 keeps is kept, RST_COUNT counts, the latches are treated as R507 says, and the bring-up table
starts (15 R505-R511). A wake enters at step 2. -/
def State.resetTo (s : State) (level trig : Nat) : State :=
  let s1 := s.cleared level
  let keepTrip := s.rbit Reg.thmStatus 3 && (decide (3 ≤ level) || (level == 2 && !s.allBelow 90))
  let s2 := if keepTrip then s1.wbit Reg.thmStatus 3 true else s1
  let s3 := (if s.rbit Reg.thmStatus 0 then s2.wbit Reg.thmStatus 0 true else s2).raiseFloor.thermalFloor
  let s4 := if level = 1 then s3 else if level = 2 then s3.bump Reg.rstCount 47 24 1 else if level = 3 then s3.bump Reg.rstCount 23 0 1
    else s3.bump Reg.rstCount 63 48 1
  let s5 := if level ≠ 1 then s4.wbit Reg.pwrStatus 4 (s.rbit Reg.pwrStatus 4)
    else if s.pw.reversal then ((s4.wbit Reg.pwrStatus 4 true).powerEvent 4 0).modPw (fun p => { p with reversal := false }) else s4
  let s6 := if 3 ≤ level ∧ s.pw.rootLost = false ∧ s.rf Reg.timeStatus 2 0 ≠ 0 then s5.wf Reg.timeStatus 2 0 2 else s5
  let s7 := if level = 4 then (((s6.wf Reg.rootStatus 15 8 1).wf Reg.rstCause 2 0 4).wf Reg.rstCause 15 12 8).wf Reg.pwrStatus 18 16 4 else s6
  ((s7.wf Reg.seedStatus 31 0 0).modPw (fun p => { p with
    trigger := (level, trig), origin := if p.resetLow then none else some s7.now })).alertEdge

/-- POWER_APPLIED: the input rises through 42 V: a cold reset (14 R466, 15 R505, R509). -/
def execPowerApplied (t mv : Nat) (s : State) : Host.Outcome State Fault Refusal :=
  if s.pw.supply ≠ .off ∨ mv < 42000 then .next (s.at t) else .next (s.resetTo 1 (if s.pw.stopCause = 7 then 2 else 1))

/-- BROWN_OUT: input below 38 V: every island loses power and no record is written (14 R499, R500). -/
def execBrownOut (t mv : Nat) (s : State) : Host.Outcome State Fault Refusal :=
  let s1 := s.at t
  if 38000 ≤ mv ∨ s1.pw.supply = .off then .next s1
  else .next ((s1.cleared 1).modPw (fun p => { p with supply := .off, stopCause := 7, pwrok := false, reversal := s1.pw.reversal }))

/-- LOW_INPUT_STOP: input below 40 V for 5 us (14 R499, R500). -/
def execLowInputStop (t mv : Nat) (s : State) : Host.Outcome State Fault Refusal :=
  let s1 := s.at t
  if 40000 ≤ mv ∨ s1.pw.supply ≠ .on then .next s1 else .next ((s1.powerEvent 2 (mv / 10)).stop 1)

/-- OVERVOLTAGE_STOP: input above 61 V for 10 us (14 R468). -/
def execOvervoltageStop (t mv : Nat) (s : State) : Host.Outcome State Fault Refusal :=
  let s1 := s.at t
  if mv ≤ 61000 ∨ s1.pw.supply ≠ .on then .next s1 else .next ((s1.powerEvent 3 (mv / 10)).stop 2)

/-- INPUT_RECOVERY: after a stop the input has held its recovery level for 100 ms: a cold bring-up (14 R468, R500). -/
def execInputRecovery (t mv : Nat) (s : State) : Host.Outcome State Fault Refusal :=
  let s1 := s.at t
  if s1.pw.supply = .stopped ∧ 42000 ≤ mv ∧ (s1.pw.stopCause = 1 ∨ (s1.pw.stopCause = 2 ∧ mv ≤ 58000)) then .next (s1.resetTo 1 4) else .next s1

/-- REVERSE_POLARITY: the latch is set; the part does not start (14 R467). -/
def execReversePolarity (t : Nat) (s : State) : Host.Outcome State Fault Refusal := .next ((s.at t).modPw (fun p => { p with reversal := true }))

/-- RESET_N_LOW: low for 1 us: a running part stops; in S3 the standby state ends; a thermal trip ends where every sensor reads below 90
degrees (14 R499, 15 R505, R506, R508). -/
def execResetNLow (t : Nat) (s : State) : Host.Outcome State Fault Refusal :=
  let s1 := (s.at t).modPw (fun p => { p with resetLow := true })
  match s1.pw.supply with
  | .off => .next s1
  | .on => .next (s1.stop 4)
  | .standby => .next (s1.modPw (fun p => { p with supply := .stopped, stopCause := 4 }))
  | .stopped =>
    if s1.pw.stopCause = 5 ∨ s1.pw.stopCause = 6 ∨ (s1.pw.stopCause = 3 ∧ s1.allBelow 90 = true) then .next (s1.modPw (fun p => { p with stopCause := 4 })) else .next s1

/-- RESET_N_RELEASE: high for 1 us: a stopped part starts the table; strap is what PID_STRAP[5:0] reads (15 R506, R510, R511, R516). -/
def execResetNRelease (t strap : Nat) (s : State) : Host.Outcome State Fault Refusal :=
  let s1 := (s.at t).modPw (fun p => { p with resetLow := false, strap := strap % 64 })
  if s1.pw.supply = .stopped ∧ s1.pw.stopCause = 4 then .next (s1.resetTo 2 5)
  else if s1.pw.supply = .on ∧ s1.pw.origin = none ∧ s1.rf Reg.rootStatus 15 8 = 0 then .next (s1.modPw (fun p => { p with origin := some s1.now }))
  else .next s1

/-- A root reset: the orderly stop, then the table at once (15 R505, R506). -/
def State.rootReset (s : State) (trig : Nat) : State := if s.pw.supply = .on then (s.stop 5).resetTo 3 trig else s

/-- WATCHDOG_EXPIRY: the root processor has not served its watchdog; it does not count in a freeze (15 R505, 16 R533). -/
def execWatchdogExpiry (t : Nat) (s : State) : Host.Outcome State Fault Refusal :=
  let s1 := s.at t
  if s1.rf Reg.rstWdog 31 0 = 0 ∨ s1.frozen = true ∨ s1.rf Reg.rootStatus 15 8 < 6 then .next s1 else .next (s1.rootReset 7)

/-! ### Clocks (15 R519-R522) -/

/-- ROOTCLK_LOSS: the PLLs run on the backup oscillator and the orderly stop runs; during bring-up the table stops; in S3 ring time will restart
(15 R507, R521, 17 R548, R555). -/
def execRootclkLoss (t : Nat) (s : State) : Host.Outcome State Fault Refusal :=
  let s1 := ((s.at t).wbit Reg.rstClk 1 true).wbit Reg.rstClk 0 false
  match s1.pw.supply with
  | .on => .next ((s1.faultLog 8 0 0).stop 6)
  | .standby => .next (s1.modPw (fun p => { p with rootLost := true }))
  | _ => .next s1
/-- ROOTCLK_RECOVERY: within limits for 100 ms: a root reset with TRIGGER 9 (15 R521). -/
def execRootclkRecovery (t : Nat) (s : State) : Host.Outcome State Fault Refusal :=
  let s1 := ((s.at t).wbit Reg.rstClk 1 false).wbit Reg.rstClk 0 true
  if s1.pw.supply = .stopped ∧ s1.pw.stopCause = 6 then .next ((s1.resetTo 3 9).wbit Reg.rstClk 0 true) else .next s1

/-- The ports that a clock feeds, by its bit in RST_CLK: REFCLK_U[k] at 2 + k, HCLK[j] at 6 + j for ports in PCIe mode (15 R520, R522). -/
def clockPorts (bit : Nat) : List Nat :=
  if bit < 6 then (List.range 5).map (fun i => 5 * (bit - 2) + i) else (List.range 2).map (fun i => 16 + 2 * (bit - 6) + i)
def State.clockFeeds (s : State) (bit : Nat) : List Nat :=
  (clockPorts bit).filter (fun n => s.role n != 0 && ((s.role n == 4) == decide (6 ≤ bit)))
/-- REFCLK_LOSS: the ports that the clock feeds go down (15 R522, 17 R548). -/
def execRefclkLoss (t bit : Nat) (s : State) : Host.Outcome State Fault Refusal :=
  let s1 := s.at t
  if bit < 2 ∨ 8 ≤ bit then .next s1
  else .next (((s1.wbit Reg.rstClk bit false).faultLog 9 bit 0).each ((s1.clockFeeds bit).filter (fun n => s1.linkState n != 4 && s1.linkState n != 0))
    (fun s n => s.downLink n 6))
/-- REFCLK_RETURN: the ports it feeds train again (15 R522). -/
def execRefclkReturn (t bit : Nat) (s : State) : Host.Outcome State Fault Refusal :=
  let s1 := s.at t
  if bit < 2 ∨ 8 ≤ bit then .next s1
  else .next ((s1.wbit Reg.rstClk bit true).each (s1.clockFeeds bit) (fun s n => if s.linkState n = 6 ∧ (s.link n).held = false then s.downLink n 1 else s))

/-- RAIL_OUT_OF_LIMITS: PWROK is driven low (15 R509). -/
def execRailOutOfLimits (t : Nat) (s : State) : Host.Outcome State Fault Refusal := .next ((s.at t).modPw (fun p => { p with pwrok := false }))
/-- PLL_LOCK_LOSS: counted in RST_CLK.UNLOCKS (15 R523). -/
def execPllLockLoss (t : Nat) (s : State) : Host.Outcome State Fault Refusal := .next ((s.at t).bump Reg.rstClk 63 32 1)

/-! ### Standby (14 R477-R480) -/

/-- A request for a standby state is heard: the part admits nothing and no stand has a request in flight (14 R477). -/
def State.mayStandby (s : State) : Bool :=
  !s.rbit Reg.rootStatus 2 && !s.sv.requests.any Request.live && s.pw.supply == .on && s.rf Reg.pwrStatus 18 16 == 0 && s.rbit Reg.rootStatus 0
/-- Part S2: every branch in S2, links and ports up. -/
def State.enterS2 (s : State) : State :=
  if s.mayStandby then ((s.wf Reg.pwrStatus 18 16 2).stopBallast).modBranches (List.range s.nBranches) (fun x => { x with sleep := .s2 }) else s
/-- S3: only the standby island runs; the near tier and on-die memory are not retained, every port is down (14 R477, R479, 18 R564). -/
def State.enterS3 (s : State) : State :=
  if s.mayStandby then
    let s1 := (s.breakFreeze.stopBallast).each ((List.range 20).filter (fun n => s.linkState n != 0)) (fun s n => (s.setLink n 6 0 0).modLink n (fun _ => Link.empty))
    (({ s1 with mem := s1.mem.filter (fun c => keptMem 4 c.1) }).wf Reg.pwrStatus 18 16 3).modPw (fun p => { p with supply := .standby, pwrok := false })
  else s
/-- A wake from S3 with its cause and source: the table from step 2, or a cold bring-up after a standby brown-out (14 R478, R480, 15 R514). -/
def State.wakeS3 (s : State) (cause source : Nat) : State :=
  if s.pw.supply ≠ .standby then s
  else
    let s1 := s.putReg Reg.pwrWake (source * 256 + (if s.pw.brownout then 128 else 0) + cause)
    if s.pw.brownout then s1.resetTo 1 3 else s1.resetTo 4 8
/-- A wake by a source of both standby states. -/
def State.wakeAny (s : State) (cause source : Nat) : State :=
  if s.pw.supply = .standby then s.wakeS3 cause source else s.leaveS2 cause source

/-- WAKE_PIN: WAKE[n] held at a level for 1 us (14 R478). -/
def execWakePin (t n : Nat) (level : Bool) (s : State) : Host.Outcome State Fault Refusal :=
  let s1 := s.at t
  if n < 4 ∧ s1.rbit Reg.pwrWakeCfg (4 + n) = true ∧ s1.rbit Reg.pwrWakeCfg n = level then .next (s1.wakeAny 1 n) else .next s1
/-- URREN_SIGNAL_WAKE: signal on port Un, whose peer starts training (14 R478). -/
def execUrrenSignalWake (t n : Nat) (s : State) : Host.Outcome State Fault Refusal :=
  let s1 := s.at t
  if n < 20 ∧ s1.rbit Reg.pwrWakeCfg (8 + n) = true then .next (s1.wakeS3 2 n) else .next s1
/-- STANDBY_BROWNOUT: the standby load exceeds 150 mA in S3 and the island loses its state (14 R480). -/
def execStandbyBrownout (t : Nat) (s : State) : Host.Outcome State Fault Refusal :=
  let s1 := s.at t
  if s1.pw.supply = .standby then .next (s1.modPw (fun p => { p with brownout := true })) else .next s1

/-! ### Thermal responses (14 R499, R504) -/

/-- COOLANT_FAULT_ASSERT: FLOOR at least P5 in one change, no ballast (14 R499). -/
def execCoolantFaultAssert (t : Nat) (s : State) : Host.Outcome State Fault Refusal :=
  let s1 := s.at t
  if s1.rbit Reg.thmStatus 0 then .next s1
  else .next (((((s1.wbit Reg.thmStatus 0 true).powerEvent 5 0).stopBallast).modPw (fun p => { p with floorCool := 5 })).raiseFloor.thermalFloor)
/-- THM_CFG.ALERT_C. -/
def State.alertC (s : State) : Nat := Nat.min 105 (s.rf Reg.thmCfg 7 0)
/-- COOLANT_FAULT_RELEASE: deasserted for 1 s; the floor is released where every considered sensor reads below ALERT_C (14 R499). -/
def execCoolantFaultRelease (t : Nat) (s : State) : Host.Outcome State Fault Refusal :=
  let s1 := (s.at t).wbit Reg.thmStatus 0 false
  if s1.allBelow s1.alertC then .next ((s1.modPw (fun p => { p with floorCool := 0 })).thermalFloor) else .next s1
/-- OVER_TEMPERATURE_RECOVERY: every considered sensor below 100 degrees for 100 ms (14 R499). -/
def execOverTemperatureRecovery (t : Nat) (s : State) : Host.Outcome State Fault Refusal :=
  let s1 := s.at t
  if s1.allBelow 100 then .next ((s1.modPw (fun p => { p with floorHot := 0 })).thermalFloor) else .next s1

/-- THM_STATUS from the present readings: the highest, the lowest index that has it, HOT and the thermal alert (14 R504). -/
def State.thermalStatus (s : State) : State :=
  match s.limitSensors with
  | [] => ((s.wf Reg.thmStatus 63 40 0).wbit Reg.thmStatus 2 false).wbit Reg.thmStatus 1 false
  | i :: is =>
    let m := is.foldl (fun m k => if s.temp m < s.temp k then k else m) i
    (((s.wf Reg.thmStatus 63 48 (s.rf (Reg.thmT m) 15 0)).wf Reg.thmStatus 47 40 m).wbit Reg.thmStatus 2 (decide (840 < s.temp m))).wbit Reg.thmStatus 1
      (decide ((8 * s.alertC : Nat) ≤ s.temp m))
/-- SENSOR_UPDATE: the present sensors' readings; above 105 degrees FLOOR is P7, above 115 the part trips (14 R499, R504). -/
def execSensorUpdate (t : Nat) (reads : List (Nat × Nat)) (s : State) : Host.Outcome State Fault Refusal :=
  let s0 := s.at t
  let s1 := (s0.each (reads.filter (fun r => s0.hasSensor r.1)) (fun s r => s.wf (Reg.thmT r.1) 15 0 (r.2 % 65536))).thermalStatus
  let hot := s1.limitSensors.filter (fun i => decide (840 < s1.temp i))
  let trip := s1.limitSensors.filter (fun i => decide (920 < s1.temp i))
  let s2 := match hot with
    | [] => s1
    | i :: _ => if 0 < s1.pw.floorHot then s1
                else ((((s1.powerEvent 6 i).stopBallast).modPw (fun p => { p with floorHot := 7 })).raiseFloor).thermalFloor
  match trip with
  | [] => .next s2
  | i :: _ => if s2.pw.supply ≠ .on ∨ s2.rbit Reg.thmStatus 3 = true then .next s2
              else .next ((((s2.wbit Reg.thmStatus 3 true).powerEvent 7 i)).stop 3)

end Sys2Proof.Machine
end

