-- ==== Sys2Proof/Machine/RouteTable.lean ====
section
/-! DEFINITION. The routing banks and their epochs, quiesced flows, parts joining and draining (12 R420, R421, R427-R429, R436, 13
R460). -/

namespace Sys2Proof.Machine

/-! ### Banks (12 R420, R436) -/

/-- The defined bits of a routing entry's two words and of a tree entry's two registers (12 R436). -/
def entryLo (v : Nat) : Nat := v &&& 0xE070FFFFF
def entryHi (v : Nat) : Nat := v &&& 0xFFFFF
def treeA (v : Nat) : Nat := v &&& (2 ^ 63 + 0x3FFFFF)
def treeB (v : Nat) : Nat := v &&& 0xFFFFF
/-- The shadow bank is being copied. -/
def State.copying (s : State) : Bool := s.rbit Reg.rteStatus 2
/-- Write a routing entry or a tree entry into the shadow bank; ignored during a copy. -/
def State.putShadow (s : State) (pid lo hi : Nat) : State :=
  if s.copying then s else s.modUr (fun u => { u with shadow := tset 0 (tset 0 u.shadow (2 * pid) (entryLo lo)) (2 * pid + 1) (entryHi hi) })
def State.putShadowTree (s : State) (i a b : Nat) : State :=
  if s.copying then s else s.modUr (fun u => { u with mcShadow := tset 0 (tset 0 u.mcShadow (2 * i) (treeA a)) (2 * i + 1) (treeB b) })

/-- Write one 64-bit word of the shadow bank: word 2p or 2p + 1 of a routing entry, A or B of a tree entry (12 R436). -/
def State.putRouteWord (s : State) (k w : Nat) : State :=
  if s.copying then s else s.modUr (fun u => { u with shadow := tset 0 u.shadow k (if k % 2 = 0 then entryLo w else entryHi w) })
def State.putTreeWord (s : State) (k w : Nat) : State :=
  if s.copying then s else s.modUr (fun u => { u with mcShadow := tset 0 u.mcShadow k (if k % 2 = 0 then treeA w else treeB w) })
/-- The banks swap: messages that wait for the epoch end, and every outstanding transaction to a part now marked removed completes with
STATUS 5 (12 R420, R429). The copy into the shadow bank starts. -/
def State.swapBanks (s : State) : State :=
  let done := (s.ur.routeWaits.filter (fun w => !w.copying)).map (·.msg)
  let sh := if s.copying then s.ur.active else s.ur.shadow
  let mc := if s.copying then s.ur.mcActive else s.ur.mcShadow
  let s1 := s.modUr (fun u => { u with active := sh, mcActive := mc, shadow := u.active, mcShadow := u.mcActive,
                                       routeWaits := u.routeWaits.filter (·.copying) })
  let s2 := ((s1.wf Reg.rteStatus 0 0 (1 - s1.rf Reg.rteStatus 0 0)).wbit Reg.rteStatus 1 false).wbit Reg.rteStatus 2 true
  let s3 := s2.each done (fun s m => s.adminEnd m 0 [])
  s3.each (s3.ur.outst.filter (fun o => s3.removed o.dst)) (fun s o => s.complete o 5 0 [] 0)
/-- Arm RTE_EPOCH.TIME: an epoch of 0 or one already past swaps at once (12 R420). -/
def State.arm (s : State) : State :=
  let e := s.reg Reg.rteEpoch
  if e ≤ s.now then s.swapBanks else s.wbit Reg.rteStatus 1 true
def State.disarm (s : State) : State := s.wbit Reg.rteStatus 1 false

/-- ROUTE_EPOCH_SWAP: ring time reaches the armed epoch (12 R420). -/
def execRouteEpochSwap (t : Nat) (s : State) : Host.Outcome State Fault Refusal :=
  let s1 := s.at t
  if s1.rbit Reg.rteStatus 1 = true ∧ s1.reg Reg.rteEpoch ≤ s1.now then .next s1.swapBanks else .next s1

/-! ### ROUTE_UPDATE (12 R420, 13 R460) -/

/-- Record r of a ROUTE_UPDATE. -/
def routeRec (m : List Byte) (r : Nat) : List Byte := slice m (48 + 24 * r) 24
/-- The body of a ROUTE_UPDATE: its reserved bytes, COUNT, and each record. -/
def routeUpdateOk (m : List Byte) : Bool :=
  let n := fieldLE m 40 2
  decide (1 ≤ n ∧ n ≤ 40) && decide (fieldLE m 42 1 < 2) && zeros m 43 5 &&
    (List.range n).all (fun r => let x := routeRec m r
      zeros x 3 5 && (fieldLE x 2 1 == 0 || (fieldLE x 2 1 == 1 && decide (fieldLE x 0 2 < 16))))
/-- Write the records of a ROUTE_UPDATE, and arm its epoch where it asks for that; else it ends at once. -/
def State.routeUpdate (s : State) (a : Admin) : State :=
  let m := a.bytes
  let s1 := s.each (List.range (fieldLE m 40 2)) (fun s r =>
    let x := routeRec m r
    if fieldLE x 2 1 = 0 then s.putShadow (fieldLE x 0 2) (fieldLE x 8 8) (fieldLE x 16 8)
    else s.putShadowTree (fieldLE x 0 2) (fieldLE x 8 8) (fieldLE x 16 8))
  if fieldLE m 42 1 % 2 = 0 then a.stop s1 0
  else ((s1.modUr (fun u => { u with routeWaits := u.routeWaits ++ [⟨a.id, false⟩] })).putReg Reg.rteEpoch (fieldLE m 32 8)).arm
def State.msgRouteUpdate (s : State) (src : Source) (route : AdminRoute) (m : List Byte) : State :=
  s.receive src route m 1 (48 + 24 * fieldLE m 40 2) (routeUpdateOk m) (fun s a =>
    let e := fieldLE m 32 8
    if e ≠ 0 ∧ e < s.now + 100000 then a.stop s 0x10
    else if s.copying then s.modUr (fun u => { u with routeWaits := u.routeWaits ++ [⟨a.id, true⟩] })
    else s.routeUpdate a)
/-- ROUTE_UPDATE. -/
def execRouteUpdate (t : Nat) (src : Source) (m : List Byte) (s : State) : Host.Outcome State Fault Refusal :=
  .next ((s.at t).msgRouteUpdate src .row m)

/-! ### PART_JOIN, PART_DRAIN (12 R427, R428) -/

/-- A PART_JOIN of another part writes its entry and arms the epoch; of the own PID it sets ACCEPTING again after a drain. -/
def State.partJoin (s : State) (a : Admin) : State :=
  let pid := fieldLE a.bytes 32 2
  if pid = s.ownPid then a.stop (if s.rf Reg.rootStatus 15 8 = 11 then s.wbit Reg.rootStatus 2 true else s) 0
  else a.stop (((s.putShadow pid (fieldLE a.bytes 48 8) (fieldLE a.bytes 56 8)).putReg Reg.rteEpoch (fieldLE a.bytes 40 8)).arm) 0
def State.msgPartJoin (s : State) (src : Source) (route : AdminRoute) (m : List Byte) : State :=
  s.receive src route m 1 64 (zeros m 34 6) (fun s a =>
    if s.copying then s.modUr (fun u => { u with routeWaits := u.routeWaits ++ [⟨a.id, true⟩] }) else s.partJoin a)
/-- PART_JOIN. -/
def execPartJoin (t : Nat) (src : Source) (m : List Byte) (s : State) : Host.Outcome State Fault Refusal :=
  .next ((s.at t).msgPartJoin src .row m)

/-- SHADOW_COPY_DONE: the shadow bank equals the active one; updates that waited are written (12 R420). -/
def execShadowCopyDone (t : Nat) (s : State) : Host.Outcome State Fault Refusal :=
  let s1 := s.at t
  if s1.copying = false then .next s1
  else
    let waits := (s1.ur.routeWaits.filter (·.copying)).map (·.msg)
    let s2 := (s1.modUr (fun u => { u with shadow := u.active, mcShadow := u.mcActive,
                                           routeWaits := u.routeWaits.filter (fun w => !w.copying) })).wbit Reg.rteStatus 2 false
    .next (s2.each waits (fun s id => match s.sv.admins.find? (fun a => a.id == id) with
      | some a => if a.type = 0x31 then s.partJoin a else s.routeUpdate a
      | none => s))

/-- A PART_DRAIN clears ACCEPTING; queued copy jobs are discarded; the running one stops when its next shard has arrived
(SHARD_ARRIVAL_VERIFY) (12 R428). -/
def State.msgPartDrain (s : State) (src : Source) (route : AdminRoute) (m : List Byte) : State :=
  s.receive src route m 1 32 true (fun s a =>
    ((s.wbit Reg.rootStatus 2 false).modSv (fun v => { v with jobs := v.jobs.filter (fun j => j.started.isSome) })).modUr (fun u => { u with
      draining := u.draining ++ [a.id] }))
/-- PART_DRAIN. -/
def execPartDrain (t : Nat) (src : Source) (m : List Byte) (s : State) : Host.Outcome State Fault Refusal :=
  .next ((s.at t).msgPartDrain src .row m)

/-- Everything R428 waits for. -/
def State.drained (s : State) : Bool :=
  !s.sv.requests.any Request.live &&
  !s.sv.loads.any (fun l => l.bound && !(pinEntries l.image).isEmpty) &&
  s.sv.forks.isEmpty && s.ur.kvServes.isEmpty &&
  !s.sv.loads.any (fun l => l.role == 1 && decide (0 < l.sentShards ∧ l.sentShards ≤ manShards l.manifest)) &&
  !s.ur.links.any (fun l => l.2.txq.any (fun q => q.tx.op == 5 && q.tx.src == s.ownPid))
/-- DRAIN_COMPLETE: every PART_DRAIN in progress ends with DONE, DRAINED (12 R428, 13 R457). -/
def execDrainComplete (t : Nat) (s : State) : Host.Outcome State Fault Refusal :=
  let s1 := s.at t
  if s1.frozen = true ∨ s1.draining = false ∨ s1.drained = false then .next s1
  else .next ((s1.modUr (fun u => { u with draining := [] })).each s1.ur.draining (fun s m => s.adminEnd m 0 (leBytes 1 1)))

/-! ### Quiesced flows (12 R421) -/

/-- A transaction that no port takes any more: one of this part completes, another's is answered or counted. -/
def State.unroutable (s : State) (tx : Tx) (status : Nat) : State :=
  if txNonPosted tx = false then s
  else if tx.src = s.ownPid then (match s.ur.outst.find? (fun o => o.tag == tx.tag && o.dst == tx.dst) with
    | some o => s.complete o status 0 [] 0
    | none => s)
  else s.respond 0 tx status [] 0 0
/-- QUIESCE_RELEASE: every earlier transaction of the flow has left and QUIESCE_NS has passed: the waiting ones leave on the new port. -/
def execQuiesceRelease (t dst vc : Nat) (s : State) : Host.Outcome State Fault Refusal :=
  let s1 := s.at t
  match s1.ur.flows.find? (fun f => f.dst == dst && f.vc == vc) with
  | none => .next s1
  | some f =>
    match f.waiting with
    | [] => .next s1
    | tx :: _ =>
      if s1.flowBusy dst vc = true ∨ s1.now < f.last + s1.quiesceNs then .next s1
      else
        let port := match s1.routeTx tx with | .ok n => n | .error _ => f.port
        let s2 := s1.modUr (fun u => { u with flows := mapIf (fun x => x.dst == dst && x.vc == vc) (fun x => { x with port := port, waiting := [] }) u.flows })
        .next (s2.each f.waiting (fun s x => match s.sendTx x with
          | (s3, none) => s3
          | (s3, some e) => s3.unroutable x e))

end Sys2Proof.Machine
end

