-- ==== Sys2Proof/Machine/Snapshot.lean ====
section
/-! DEFINITION. The telemetry page and COUNTER_SNAPSHOT (13 R459, R463, 16 R525-R528). -/

namespace Sys2Proof.Machine

/-- A freeze ended in the running interval, kept at the page's own flag offset until the snapshot (16 R525 FLAGS.FROZE). -/
def frozeMark : Nat := 0x1C
/-- A holdover ended in the running interval (16 R525 FLAGS.HOLDOVER). -/
def holdMark : Nat := 0x1E

/-- n bytes of the telemetry page as latched; offsets beyond the page's fields read 0 (16 R525). -/
def State.pageBytes (s : State) (o n : Nat) : List Byte :=
  (List.range n).map (fun i => if o + i < 4096 then BitVec.ofNat 8 (tget 0 s.page (o + i)) else 0)

/-- A page as a table of its nonzero bytes. -/
def pageTab (bs : List Byte) : Tab Nat := tabOf 0 bs.length (fun i => (bs.getD i 0).toNat)

/-- The counters of one interval as the bytes 0x040-0xA7F (16 R525). -/
def State.pageCounters (s : State) : List Byte :=
  let c := fun o n => leBytes n (tget 0 s.cnt o)
  (List.range 256).flatMap (fun i => c (0x40 + 4 * i) 4) ++ (List.range 576).flatMap (fun i => c (0x440 + 2 * i) 2) ++
    (List.range 40).flatMap (fun i => c (0x8C0 + 4 * i) 4) ++ (List.range 144).flatMap (fun i => c (0x960 + 2 * i) 2)

/-- The page of the interval that ends now (16 R525): SEQ, T, NRG_LEDGER, the energy counted since the last snapshot, FLAGS, the interval's
counters, and the sensors. The first snapshot after a reset ends a short interval. -/
def State.newPage (s : State) : List Byte :=
  let seq := leNat (s.pageBytes 0 8)
  let used := (s.reg Reg.nrgLedger + 2 ^ 64 - leNat (s.pageBytes 0x10 8)) % 2 ^ 64
  let b := fun (x : Bool) => if x then 1 else 0
  let flags := b (s.frozen || tget 0 s.cnt frozeMark != 0) + 2 * b (s.rf Reg.timeStatus 2 0 == 2 || tget 0 s.cnt holdMark != 0) + 4 * b (seq == 0)
  leBytes 8 (seq + 1) ++ leBytes 8 s.now ++ leBytes 8 (s.reg Reg.nrgLedger) ++ leBytes 4 (sat32 used) ++ leBytes 4 flags ++ leBytes 32 0 ++
    s.pageCounters ++ (List.range 96).flatMap (fun j => leBytes 2 (s.rf (Reg.thmT j) 15 0))

/-- The host port and address space that a COUNTER_SNAPSHOT's DEST names: the port of ring 0 for a stand, port 0 for management (16 R528). -/
def State.snapPort (s : State) (a : Admin) : Nat :=
  match sourceStand a.src with
  | some sd => s.rf (Reg.stdRingCtl sd 0) 49 48
  | none => 0
/-- A message ends at a snapshot: the page goes to DEST first where one is named (16 R528). -/
def State.endSnapshot (s : State) (a : Admin) : State :=
  let dest := fieldLE a.bytes 32 8
  let s1 := if dest = 0 then s else s.emit (.hostWrite s.now (s.snapPort a) dest (s.pageBytes 0 4096))
  s1.adminEnd a.id 0 (s.pageBytes 8 8)

/-- Cycles of leaves that no SLOT_TRANSFER has counted: BUSY and STALL take them too (03 R122, 16 R525; log entry 8). -/
def State.countSkipped (s : State) (busy stall : List (Nat × Nat)) : State :=
  (s.each (busy.filter (fun x => decide (x.1 < s.nLeaves))) (fun s x =>
    (s.modLeaf x.1 (fun lf => { lf with busy := sat32 (lf.busy + x.2) })).count (0x40 + 4 * (x.1 / 64)) x.2)).each
    (stall.filter (fun x => decide (x.1 < s.nLeaves))) (fun s x =>
    (s.modLeaf x.1 (fun lf => { lf with stall := sat32 (lf.stall + x.2) })).count (0x240 + 4 * (x.1 / 64)) x.2)
/-- COUNTER_SNAPSHOT_TICK: at a multiple of 1,000,000 ns from step 10 of bring-up the interval's counts are latched and counting starts
again; waiting COUNTER_SNAPSHOT messages end, and a MARK record is traced (16 R525, R526, R528, R541). busy and stall name leaves with
cycles of the interval for which no SLOT_TRANSFER stands. -/
def execCounterSnapshotTick (t : Nat) (busy stall : List (Nat × Nat)) (s : State) : Host.Outcome State Fault Refusal :=
  let s1 := s.at t
  if s1.now % 1000000 ≠ 0 ∨ s1.pw.supply ≠ .on ∨ s1.rf Reg.rootStatus 15 8 < 10 ∨ leNat (s1.pageBytes 8 8) = s1.now then .next s1
  else
    let s2 := s1.countSkipped busy stall
    let s3 := { s2 with page := pageTab s2.newPage, cnt := [] }
    let s4 := s3.traceRec 1 s3.now (leBytes 2 s3.ownPid ++ leBytes 6 0 ++ s3.pageBytes 0 8)
    if s4.frozen then .next s4 else .next (s4.each (s4.sv.admins.filter (fun a => a.type == 0x70)) State.endSnapshot)

/-- COUNTER_SNAPSHOT waits for the next snapshot; a DEST that is not 8-byte aligned, or any DEST over SMBus, is refused (16 R528). -/
def State.msgSnapshot (s : State) (src : Source) (route : AdminRoute) (m : List Byte) : State :=
  let dest := fieldLE m 32 8
  s.receive src route m 2 64 (zeros m 40 24 && decide (dest % 8 = 0) && !(src == .smbus && dest != 0)) (fun s _ => s)
def execCounterSnapshot (t : Nat) (src : Source) (m : List Byte) (s : State) : Host.Outcome State Fault Refusal :=
  .next ((s.at t).msgSnapshot src .row m)

end Sys2Proof.Machine
end

