-- ==== Sys2Proof/Machine/Thaw.lean ====
section
/-! DEFINITION. The admin messages by type, and THAW with everything that waited for it (13 R454-R457, 16 R529-R536). -/

namespace Sys2Proof.Machine

/-! ### Admin messages by type (13 R456) -/

/-- Start a message of any type but FREEZE and THAW; a reserved type is refused with REFUSED_CONFIG. -/
def State.admHeld (s : State) (src : Source) (route : AdminRoute) (m : List Byte) : State :=
  let type := fieldLE m 0 2
  if type = 0x01 then s.msgModelLoad src route m
  else if type = 0x02 then s.msgModelEvict src route m
  else if type = 0x10 then s.msgGraftPut src route m
  else if type = 0x11 then s.msgGraftRetire src route m
  else if type = 0x20 then s.msgCapSet src route m
  else if type = 0x30 then s.msgPartDrain src route m
  else if type = 0x31 then s.msgPartJoin src route m
  else if type = 0x40 then s.msgRouteUpdate src route m
  else if type = 0x41 then s.msgLinkRestore src route m
  else if type = 0x42 then s.msgBerTest src route m
  else if type = 0x50 then s.msgStandReset src route m
  else if type = 0x70 then s.msgSnapshot src route m
  else s.receive src route m 2 0 false (fun s _ => s)

/-! ### Freeze and thaw -/

/-- A transaction that a freeze held is delivered (16 R532, R536 step 3): a tree's write, an inlet frame, an access of a PCIe function, or
any other transaction. -/
def State.deliverHeld (s : State) (h : Nat × Tx) : State :=
  if h.2.op = 5 then s.mcDeliver h.2
  else if h.2.op = 2 ∧ h.2.vc = 0 ∧ s.role h.1 ≠ 3 then s.inletFrame (h.2.addr / 4096) h.2.data
  else if s.role h.1 = 4 then s.hostAccess h.1 h.2.stand h.2 true
  else s.performTx h.1 h.2

/-- Accepted requests whose DEADLINE less G has passed end with DEADLINE_REVOKED, in ascending DEADLINE (16 R536 step 2). -/
def State.endExpired (s : State) : State :=
  let rs := (s.sv.requests.filter (fun r => r.live && decide (r.deadline < s.now + guardNs))).mergeSort (fun a b => decide (a.deadline ≤ b.deadline))
  (s.each (rs.map (·.id)) (fun s id => match s.req id with
    | some r => s.endOne { r with fault := 0 } 0x21 [] false
    | none => s)).abortEmpty

/-- THAW (16 R536): a dump is aborted, expired requests end, the islands resume, what waited is delivered in arrival order, the remaining
steps of sentinel resets run, and FREEZE_N is released. A part that is not frozen ignores it. -/
def State.thaw (s : State) : State :=
  if s.rf Reg.dbgStatus 2 0 ≠ 2 then s
  else
    let s1 := s.wf Reg.dbgStatus 2 0 3
    let s2 := if s1.db.dump.isSome then
        (((s1.wbit Reg.trcStatus 1 false).wbit Reg.trcStatus 2 true).tracePush 0x11 s1.now (leBytes 1 1 ++ leBytes 7 0)).modDb (fun d => { d with dump := none })
      else s1
    let s3 := s2.endExpired
    let d := s3.db
    let s4 := (((s3.modBranches (List.range s3.nBranches) (fun x => { x with frozen := false, sentIdle := 0 })).modDb (fun d =>
      { d with drive := false, sentinels := [], heldTx := [], heldAdmin := [], heldReset := [] })).wf Reg.dbgStatus 2 0 0).count frozeMark 1
    let s5 := s4.traceRec 6 s4.now (leBytes 1 2 ++ leBytes 1 (s4.rf Reg.dbgStatus 15 8) ++ leBytes 1 (if d.drive then 1 else 0) ++ leBytes 5 0)
    let s6 := (s5.afterEnds.each d.sentinels (fun s i => match s.inst i with
      | some i => s.resetInst i
      | none => s)).each d.heldTx State.deliverHeld
    (s6.each d.heldReset (fun s r => s.startReset r.1 r.2)).each d.heldAdmin (fun s h => s.admHeld h.1 h.2.1 h.2.2)

/-- FREEZE: SCOPE 1 drives FREEZE_N; one that came from a peer part does not go on to peers (16 R529, R531). -/
def State.msgFreeze (s : State) (src : Source) (route : AdminRoute) (m : List Byte) : State :=
  let wide := fieldLE m 32 1 == 1
  let peer := match src with
    | .remoteAdmin _ => wide
    | _ => false
  s.receive src route m 1 48 (decide (fieldLE m 32 1 < 2) && zeros m 33 15) (fun s a =>
    (s.freeze (if peer then 6 else 2) wide (wide && !peer)).adminEnd a.id 0 [])
def execFreeze (t : Nat) (src : Source) (m : List Byte) (s : State) : Host.Outcome State Fault Refusal := .next ((s.at t).msgFreeze src .row m)
/-- THAW (16 R536). -/
def State.msgThaw (s : State) (src : Source) (route : AdminRoute) (m : List Byte) : State :=
  s.receive src route m 1 32 true (fun s a => s.thaw.adminEnd a.id 0 [])
def execThaw (t : Nat) (src : Source) (m : List Byte) (s : State) : Host.Outcome State Fault Refusal := .next ((s.at t).msgThaw src .row m)

/-- A message of any type (13 R456). -/
def State.admin (s : State) (src : Source) (route : AdminRoute) (m : List Byte) : State :=
  if fieldLE m 0 2 = 0x60 then s.msgFreeze src route m
  else if fieldLE m 0 2 = 0x61 then s.msgThaw src route m
  else s.admHeld src route m

end Sys2Proof.Machine
end

