-- ==== Sys2Proof/Machine/CsrBranch.lean ====
section
/-! DEFINITION. The registers of a branch's block: branch control, slot plane and sentinel, tile movers, check-value units, slot tables and
leaf windows (01 R31, 03 R122, 04 R165, R166, 05 R199, 07 R265, R266). Each is read from, and written to, the state it shows. -/

namespace Sys2Proof.Machine

/-- 1 or 0 for a flag. -/
def bit01 (b : Bool) : Nat := if b then 1 else 0

/-! ### Branch control (05 R199) -/

/-- BRC_LOAD.BUSY: a context load in progress, and a fill of the seed bank. -/
def State.brcBusy (s : State) (b : Nat) : Nat :=
  let of := fun (p : CfgLoad → Bool) => bit01 (s.sv.cfgLoads.any (fun c => c.branch == b && p c))
  of (fun c => c.begun && !c.fill) + 2 * of CfgLoad.fill
def State.brcRead (s : State) (b o : Nat) : Nat :=
  let x := s.branch b
  if o = 0 then bit01 x.assigned * 64 + x.stand % 64
  else if o = 8 then (8 - x.scratch) * 16 + x.scratch
  else if o = 0x10 then bit01 x.loadErr * 2 ^ 15 + s.brcBusy b * 2 ^ 13 + x.loadSlot * 16 + x.loadCtx
  else if o = 0x18 then x.instHome * 2 ^ 16 + x.instRel * 256
  else if 0x40 ≤ o ∧ o < 0x80 then
    let c := tget BrcCtx.empty x.ctxs ((o - 0x40) / 8)
    if c.valid then 2 ^ 63 + bit01 (s.ctxHeld b ((o - 0x40) / 8)) * 2 ^ 62 + c.cfg % 65536 * 2 ^ 32 + c.image % 2 ^ 32 else 0
  else if o = 0x80 then x.loads
  else 0

/-! ### Slot plane (04 R165, R166) -/

def State.sltRead (s : State) (b o : Nat) : Nat :=
  let x := s.branch b
  if o = 0 then x.view
  else if o = 8 then x.active * 32 + bit01 x.handover * 4 + bit01 (s.passOn b).isSome * 2 + bit01 (x.hasInst && x.instHome == b)
  else if o = 0x10 then bit01 x.sentEn * 2 ^ 32 + x.sentLimit
  else if o = 0x18 then x.sentIdle
  else if o = 0x20 then (match x.stallLog with | some r => r.word | none => 0)
  else if o = 0x28 then x.stallTime
  else if o = 0x30 then x.stallCnt
  else if o = 0x38 then x.flushed
  else if o = 0x40 then x.xdrop
  else if o = 0x48 then x.beats
  else if 0x800 ≤ o ∧ o < 0x820 then tget 0 x.pktFlits ((o - 0x800) / 8)
  else if o = 0x820 then x.vc0max
  else 0

/-- A word of the slot-table region of the set in view: four entries, or eight bytes of a steering unit's settings (04 R166). -/
def Branch.slotWord (x : Branch) (o : Nat) : Nat :=
  let node := x.view * 64 + o / 0x400
  let r := o % 0x400
  if r < 0x300 then ((List.range 4).map (fun i => (tget (0 : BitVec 16) x.slots (node * 384 + r / 2 + i)).toNat * 2 ^ (16 * i))).foldl (· + ·) 0
  else if r < 0x340 then leNat ((List.range 8).map (fun i => tget (0 : Byte) x.steerCfg (node * 64 + (r - 0x300) + i)))
  else 0

/-! ### Tile movers (07 R265) -/

/-- The next ring entry to fetch. -/
def Mover.head (x : Mover) : Nat := x.entryOf (((findIdx (fun d => !d.fetched && !d.abandoned) x.ring 0).map (·.1)).getD x.ring.length)

def Mover.read (x : Mover) (o : Nat) : Nat :=
  let run := x.ring.filter RingDesc.running
  if o = 0 then
    let open_ := (x.ring.filter (fun d => !d.done && !d.abandoned)).length
    let st := if x.ring.any (fun d => d.stopping && !d.abandoned) then 3 else if run.any (fun d => d.kind == 2) then 2 else if open_ = 0 then 0 else 1
    open_ * 2 ^ 16 + run.length * 256 + st
  else if o = 8 then x.head * 256 + x.tail
  else if o = 0x10 then
    (match x.fault with | some f => 2 ^ 63 + f.kind * 2 ^ 60 + f.index * 2 ^ 52 + f.piece % 65536 * 2 ^ 36 + f.stand * 2 ^ 30 | none => 0)
  else if o = 0x18 then (match x.fault with | some f => f.addr | none => 0)
  else if o = 0x20 then x.tiles
  else if o = 0x28 then x.bytes
  else if o = 0x30 then x.poison
  else if o = 0x38 then x.abandon
  else 0

/-! ### Check-value units (07 R266) -/

def ChkUnit.read (c : ChkUnit) (o : Nat) : Nat :=
  let log := fun (f : ChkLog → Nat) => match c.log with | some l => f l | none => 0
  if o < 0x80 then
    let p := c.prof (o / 0x20)
    if o % 0x20 = 0 then p.poly.toNat else if o % 0x20 = 8 then p.init.toNat else if o % 0x20 = 0x10 then p.mode.toNat else 0
  else if o = 0x100 then log (fun l => 2 ^ 63 + l.mover * 2 ^ 61 + l.profile * 2 ^ 59 + l.source * 2 ^ 57 + l.index * 2 ^ 49 + l.stand * 2 ^ 38 + l.seq)
  else if o = 0x108 then log ChkLog.addr
  else if o = 0x110 then log ChkLog.exp
  else if o = 0x118 then log ChkLog.got
  else if o = 0x120 then log ChkLog.time
  else if o = 0x128 then c.compared
  else if o = 0x130 then c.mismatch
  else if o = 0x138 then c.unchecked
  else 0
/-- Change one profile. -/
def ChkUnit.modProf (c : ChkUnit) (p : Nat) (f : ChkProfile → ChkProfile) : ChkUnit :=
  if p = 0 then { c with p0 := f c.p0 } else if p = 1 then { c with p1 := f c.p1 } else if p = 2 then { c with p2 := f c.p2 } else { c with p3 := f c.p3 }
def ChkUnit.write (c : ChkUnit) (o v : Nat) : ChkUnit :=
  if o < 0x80 then c.modProf (o / 0x20) (fun p =>
    if o % 0x20 = 0 then { p with poly := BitVec.ofNat 64 v } else if o % 0x20 = 8 then { p with init := BitVec.ofNat 64 v }
    else if o % 0x20 = 0x10 then { p with mode := BitVec.ofNat 10 (v &&& 0x31F) } else p)
  else if o = 0x100 ∧ v.testBit 63 = true then { c with log := none } else c
def ChkUnit.readClear (c : ChkUnit) (o : Nat) : ChkUnit :=
  if o = 0x128 then { c with compared := 0 } else if o = 0x130 then { c with mismatch := 0 } else if o = 0x138 then { c with unchecked := 0 } else c

/-! ### Leaf windows (03 R117, R122) -/

/-- STATE of LEAF_STATUS. -/
def LeafMode.code : LeafMode → Nat
  | .idle => 0 | .waitPass => 1 | .run => 2 | .stall => 3 | .switch => 4 | .abort => 5
/-- MSLAB and VSLAB of LEAF_STATUS (03 R117, R122). -/
def Leaf.slabs (lf : Leaf) : Nat := lf.slabM * 16 + lf.slabV
def Leaf.read (lf : Leaf) (o : Nat) : Nat :=
  if o = 0 then lf.active * 2 ^ 13 + lf.mode.code * 2 ^ 10 + bit01 lf.poison.isSome * 512 + bit01 lf.fault.isSome * 256 + lf.slabs
  else if o = 8 then lf.ctxNext * 16
  else if o = 0x10 then ((List.range 8).map (fun n => (tget Ctx.empty lf.ctxs n).flags.toNat * 2 ^ (4 * n))).foldl (· + ·) 0
  else if o = 0x18 then (match lf.fault with | some f => 2 ^ 63 + f.kind * 2 ^ 60 + f.ctx * 2 ^ 57 + f.pc * 2 ^ 48 + f.laddr | none => 0)
  else if o = 0x20 then lf.busy
  else if o = 0x28 then lf.stall
  else if 0x100 ≤ o ∧ o < 0x140 then
    let c := tget Ctx.empty lf.ctxs ((o - 0x100) / 8)
    if c.valid then 2 ^ 63 + c.cfg % 16 * 2 ^ 56 + c.mw * 256 + c.vw * 64 + bit01 c.matrix * 32 else 0
  else 0

/-! ### The block (01 R31) -/

/-- Read a register of a branch's block at an offset; what no register occupies reads 0. -/
def State.brnRead (s : State) (b o : Nat) : Nat :=
  let x := s.branch b
  if o < 0x1000 then s.brcRead b o
  else if o < 0x2000 then s.sltRead b (o - 0x1000)
  else if o < 0x3000 then (x.mover ((o - 0x2000) / 0x400)).read (o % 0x400)
  else if o < 0x3800 then (if o < 0x3400 then x.chk0 else x.chk1).read (o % 0x400)
  else if o < 0x10000 then 0
  else if o < 0x20000 then x.slotWord (o - 0x10000)
  else if o < 0x80000 then 0
  else (s.leaf (b * 64 + (o - 0x80000) / 0x2000)).read (o % 0x2000)

/-- A read clears the RC fields of the register (01 R32). -/
def State.brnReadClear (s : State) (b o : Nat) : State :=
  let put := fun (f : Branch → Branch) => s.modBranch b f
  let mv := fun (f : Mover → Mover) => s.modMover b ((o - 0x2000) / 0x400) f
  if o = 0x80 then put (fun x => { x with loads := 0 })
  else if o = 0x1030 then put (fun x => { x with stallCnt := 0 })
  else if o = 0x1038 then put (fun x => { x with flushed := 0 })
  else if o = 0x1040 then put (fun x => { x with xdrop := 0 })
  else if o = 0x1048 then put (fun x => { x with beats := 0 })
  else if 0x1800 ≤ o ∧ o < 0x1820 then put (fun x => { x with pktFlits := tset 0 x.pktFlits ((o - 0x1800) / 8) 0 })
  else if o = 0x1820 then put (fun x => { x with vc0max := 0 })
  else if 0x2000 ≤ o ∧ o < 0x3000 then
    if o % 0x400 = 0x20 then mv (fun x => { x with tiles := 0 })
    else if o % 0x400 = 0x28 then mv (fun x => { x with bytes := 0 })
    else if o % 0x400 = 0x30 then mv (fun x => { x with poison := 0 })
    else if o % 0x400 = 0x38 then mv (fun x => { x with abandon := 0 })
    else s
  else if 0x3000 ≤ o ∧ o < 0x3400 then put (fun x => { x with chk0 := x.chk0.readClear (o % 0x400) })
  else if 0x3400 ≤ o ∧ o < 0x3800 then put (fun x => { x with chk1 := x.chk1.readClear (o % 0x400) })
  else if 0x80000 ≤ o ∧ o % 0x2000 = 0x20 then s.modLeaf (b * 64 + (o - 0x80000) / 0x2000) (fun lf => { lf with busy := 0 })
  else if 0x80000 ≤ o ∧ o % 0x2000 = 0x28 then s.modLeaf (b * 64 + (o - 0x80000) / 0x2000) (fun lf => { lf with stall := 0 })
  else s

/-- Clear the sticky flags whose bits are 1: context n's four bits at 4n (03 R122). -/
def Leaf.clearFlags (lf : Leaf) (v : Nat) : Leaf :=
  { lf with ctxs := lf.ctxs.map (fun c => (c.1, { c.2 with flags := c.2.flags &&& ~~~ BitVec.ofNat 4 (v / 2 ^ (4 * c.1)) })) }

/-- Write a register of a branch's block; sealed holds its RWL fields (01 R32). -/
def State.brnWrite (s : State) (b o v : Nat) (isSealed : Bool) : State :=
  let put := fun (f : Branch → Branch) => s.modBranch b f
  let l := b * 64 + (o - 0x80000) / 0x2000
  if o = 0 then (if isSealed then s else put (fun x => { x with assigned := v.testBit 6, stand := v % 64 }))
  else if o = 0x10 then put (fun x => { x with loadErr := x.loadErr && !v.testBit 15 })
  else if o = 0x1000 then put (fun x => { x with view := v % 8 })
  else if o = 0x1010 then put (fun x => { x with sentEn := v.testBit 32, sentLimit := v % 2 ^ 32 })
  else if o = 0x1020 then put (fun x => { x with stallLog := if v.testBit 63 then none else x.stallLog })
  else if 0x2000 ≤ o ∧ o < 0x3000 ∧ o % 0x400 = 0x10 then
    s.modMover b ((o - 0x2000) / 0x400) (fun x => { x with fault := if v.testBit 63 then none else x.fault })
  else if 0x3000 ≤ o ∧ o < 0x3400 then put (fun x => { x with chk0 := x.chk0.write (o % 0x400) v })
  else if 0x3400 ≤ o ∧ o < 0x3800 then put (fun x => { x with chk1 := x.chk1.write (o % 0x400) v })
  else if 0x80000 ≤ o ∧ o % 0x2000 = 8 then s.leafCtlWrite l (BitVec.ofNat 64 v)
  else if 0x80000 ≤ o ∧ o % 0x2000 = 0x10 then s.modLeaf l (fun lf => lf.clearFlags v)
  else if 0x80000 ≤ o ∧ o % 0x2000 = 0x18 then s.modLeaf l (fun lf => { lf with fault := if v.testBit 63 then none else lf.fault })
  else s

/-- A write that carries another value for an RWL field of the block (01 R38). -/
def State.brnSealedWrite (s : State) (b o v : Nat) : Bool := o == 0 && v % 128 != s.brcRead b 0

end Sys2Proof.Machine
end

