-- ==== Sys2Proof/Machine/Scan.lean ====
section
/-! DEFINITION. Scan-out, dumps, the trace port, the JTAG port and the pin faults of the debug island (16 R529, R536-R540, 17 R548-R551). -/

namespace Sys2Proof.Machine

/-! ### Scan regions (16 R538, 17 R549) -/

/-- Size of a region for one branch (regions 0-4) or bark die (5). -/
def regionSize : Nat → Nat
  | 0 => 0x1000000 | 1 => 0x800000 | 2 => 0x400000 | 3 => 0x200000 | 4 => 0x80000 | 5 => 0x100000 | _ => 0
/-- The fault-log ring as bytes: 256 records of 40 bytes, record n at slot n mod 256 (17 R549). -/
def State.faultRing (s : State) (o : Nat) : Byte :=
  let n := s.db.faults.length
  match (List.range n).find? (fun j => (s.db.faultCount - n + j) % 256 == o / 40) with
  | some j => (s.db.faults.getD j []).getD (o % 40) 0
  | none => 0
/-- A byte of a branch's cache part as stored: way w of set i lies at (8i + w) · 256 (DESIGN CHOICE, log entry 15); what an empty way holds is
free. -/
def Branch.cacheByte (x : Branch) (o : Nat) (empty : Byte) : Byte :=
  match (tget [] x.cache (o / 2048)).find? (fun l => l.way == o / 256 % 8) with
  | some l => l.bytes.getD (o % 256) 0
  | none => empty
/-- A byte of a region: stored data, or a free value where the stepping's scan map decides. -/
def State.regionByte (s : State) (region b o : Nat) : Byte :=
  let open_ := Config.scanByte s.part.stepping.toNat region b o s.free
  if region = 0 then s.memByte (memKey 2 (b * 2 ^ 25 + o))
  else if region = 1 then (if o < (s.branch b).scratch * 2 ^ 20 then s.memByte (memKey 2 (b * 2 ^ 25 + 2 ^ 24 + o))
    else (s.branch b).cacheByte (o - (s.branch b).scratch * 2 ^ 20) open_)
  else if region = 2 then s.memByte (memKey 4 (b * 2 ^ 22 + o))
  else if region = 3 then
    let w := (tget (0 : Dword) (s.leaf (b * 64 + o / 0x8000)).code (o % 0x8000 / 8)).toNat
    BitVec.ofNat 8 (w / 2 ^ (8 * (o % 8)))
  else if region = 4 then open_
  else if region = 5 then (if b = 0 ∧ 0xFD800 ≤ o then s.faultRing (o - 0xFD800) else open_)
  else 0
/-- n bytes of a region; each such read takes a new free choice. -/
def State.regionBytes (s : State) (region b o n : Nat) : List Byte := (List.range n).map (fun i => s.regionByte region b (o + i))
/-- A region's unit exists: a branch of the variant, or one of the two bark dies. -/
def State.regionHas (s : State) (region b : Nat) : Bool := if region = 5 then decide (b < 2) else decide (b < s.nBranches)

/-! ### Dumps (16 R539) -/

/-- The branch (or bark die) and region pairs of a dump, in order. -/
def State.dumpList (s : State) : List (Nat × Nat) :=
  let has := fun r => s.rbit Reg.dbgDump r
  let bs := (List.range s.nBranches).filter (fun b => decide (s.rf Reg.dbgDump 39 32 ≤ b ∧ b ≤ s.rf Reg.dbgDump 47 40))
  bs.flatMap (fun b => ((List.range 5).filter has).map (fun r => (b, r))) ++ (if has 5 then [(0, 5), (1, 5)] else [])
/-- The pair after one of the list. -/
def nextPair : List (Nat × Nat) → Nat × Nat → Option (Nat × Nat)
  | [], _ => none
  | [_], _ => none
  | a :: b :: l, p => if a = p then some b else nextPair (b :: l) p
/-- A dump ends with a status (16 R541): 0 complete. -/
def State.dumpEnd (s : State) : State :=
  ((s.wbit Reg.trcStatus 1 false).tracePush 0x11 s.now (leBytes 8 0)).modDb (fun d => { d with dump := none })
/-- A write of 1 to DBG_DUMP.START: in a freeze, and not during a dump. -/
def State.startDump (s : State) : State :=
  if s.rf Reg.dbgStatus 2 0 ≠ 2 ∨ s.rbit Reg.trcStatus 1 = true then s
  else
    let s1 := (s.wbit Reg.trcStatus 1 true).wbit Reg.trcStatus 2 false
    match s1.dumpList with
    | [] => s1.dumpEnd
    | p :: _ => s1.modDb (fun d => { d with dump := some (p.1, p.2, 0) })
/-- DUMP_PIECE_EMIT: the next 4,096 bytes enter the trace buffer once it has room; DUMP_END follows the last piece. -/
def execDumpPieceEmit (t : Nat) (s : State) : Host.Outcome State Fault Refusal :=
  let s1 := s.at t
  match s1.db.dump with
  | none => .next s1
  | some (b, r, o) =>
    if s1.traceFits (4104 + 24) = false then .next s1
    else
      let data := s1.regionBytes r b o 4096
      let s2 := (s1.tracePush 0x10 s1.now (leBytes 1 r ++ leBytes 1 0 ++ leBytes 2 b ++ leBytes 4 o ++ data)).tick
      if o + 4096 < regionSize r then .next (s2.modDb (fun d => { d with dump := some (b, r, o + 4096) }))
      else match nextPair s2.dumpList (b, r) with
        | some p => .next (s2.modDb (fun d => { d with dump := some (p.1, p.2, 0) }))
        | none => .next s2.dumpEnd

/-- TRACE_RECORD_SEND: the oldest record leaves on the active lanes (16 R540, R542). -/
def execTraceRecordSend (t : Nat) (s : State) : Host.Outcome State Fault Refusal :=
  let s1 := s.at t
  match s1.db.recs with
  | [] => .next s1
  | r :: rs =>
    if s1.rf Reg.trcCtl 5 4 = 0 ∨ s1.pw.supply ≠ .on then .next s1
    else .next ((((s1.emit (.trace s1.now r)).modDb (fun d => { d with recs := rs })).bump Reg.trcRecords 63 0 1).traceFill.traceLost)

/-! ### JTAG (16 R537) -/

/-- The test access port works while the debug island is powered. -/
def State.jtagAlive (s : State) : Bool := s.pw.supply == .on || s.pw.supply == .stopped
/-- Load an instruction. -/
def State.loadIr (s : State) (ir : Nat) : State := s.modDb (fun d => { d with ir := ir })
/-- Shift n bits v through a data register of w bits that captured c: what leaves on TDO, and what the register then holds. -/
def shiftDr (w c n v : Nat) : Nat × Nat :=
  let x := c % 2 ^ w + v % 2 ^ n * 2 ^ w
  (x % 2 ^ n, x / 2 ^ n % 2 ^ w)
/-- Emit the n bits of a scan. -/
def State.tdo (s : State) (n v : Nat) : State := if n = 0 then s else s.emit (.tdo s.now n v)
/-- IDCODE: stepping, 0x5700 + DIES, the manufacturer's code, 1 (16 R537). -/
def State.idcode (s : State) : Nat := (s.part.stepping.toNat - 0x41) % 16 * 2 ^ 28 + (0x5700 + s.part.dies) * 2 ^ 12 + 0x36B * 2 + 1

/-- A boundary scan of n bits v, which captures what the pins read. -/
def State.boundaryScan (s : State) (ir pins n v : Nat) : State :=
  let r := shiftDr Config.boundaryBits pins n v
  ((s.loadIr ir).tdo n r.1).modDb (fun d => { d with boundary := r.2 })
/-- EXTEST: the outputs are driven from the boundary-scan register while it is the instruction. -/
def execExtest (t pins n v : Nat) (s : State) : Host.Outcome State Fault Refusal :=
  let s1 := s.at t
  .next (if s1.jtagAlive then s1.boundaryScan 0 pins n v else s1)
/-- SAMPLE/PRELOAD: the pins are sampled and the register preloaded. -/
def execSamplePreload (t pins n v : Nat) (s : State) : Host.Outcome State Fault Refusal :=
  let s1 := s.at t
  .next (if s1.jtagAlive then s1.boundaryScan 1 pins n v else s1)
/-- IDCODE: a scan of n bits reads the 32-bit code. -/
def execIdcode (t n v : Nat) (s : State) : Host.Outcome State Fault Refusal :=
  let s1 := s.at t
  .next (if s1.jtagAlive then (s1.loadIr 2).tdo n (shiftDr 32 s1.idcode n v).1 else s1)
/-- FREEZE freezes at Update-IR (CAUSE 4). -/
def execJtagFreeze (t : Nat) (s : State) : Host.Outcome State Fault Refusal :=
  let s1 := s.at t
  .next (if s1.jtagAlive then (s1.loadIr 8).freeze 4 true true else s1)
/-- THAW thaws at Update-IR. -/
def execJtagThaw (t : Nat) (s : State) : Host.Outcome State Fault Refusal :=
  let s1 := s.at t
  .next (if s1.jtagAlive then (s1.loadIr 9).thaw else s1)
/-- SCAN_SEL: region, branch and offset for SCAN_DATA. -/
def execScanSel (t n v : Nat) (s : State) : Host.Outcome State Fault Refusal :=
  let s1 := s.at t
  let r := shiftDr 64 s1.db.scan n v
  .next (if s1.jtagAlive then ((s1.loadIr 0x10).tdo n r.1).modDb (fun d => { d with scan := r.2 }) else s1)
/-- The selected 8 bytes can be read: in a freeze, within the region, of a branch that the part has. -/
def State.scanOk (s : State) : Bool :=
  let r := fld s.db.scan 63 60
  s.rf Reg.dbgStatus 2 0 == 2 && s.regionHas r (fld s.db.scan 59 52) && decide (fld s.db.scan 31 0 + 8 ≤ regionSize r)
/-- SCAN_DATA: one scan captures 8 bytes at the selected offset, and Update-DR adds 8 to it; where nothing is there it captures 0 and does not
advance. -/
def execScanData (t n v : Nat) (s : State) : Host.Outcome State Fault Refusal :=
  let s1 := s.at t
  if s1.jtagAlive = false then .next s1
  else
    let ok := s1.scanOk
    let c := if ok then leNat (s1.regionBytes (fld s1.db.scan 63 60) (fld s1.db.scan 59 52) (fld s1.db.scan 31 0 / 8 * 8) 8) else 0
    let s2 := (s1.loadIr 0x11).tdo n (shiftDr 64 c n v).1
    .next (if ok then (s2.modDb (fun d => { d with scan := setFld d.scan 31 0 (fld d.scan 31 0 + 8) })).tick else s2)
/-- BYPASS: a register of one bit that captures 0. -/
def execBypass (t n v : Nat) (s : State) : Host.Outcome State Fault Refusal :=
  let s1 := s.at t
  .next (if s1.jtagAlive then (s1.loadIr 0xFF).tdo n (shiftDr 1 0 n v).1 else s1)

/-! ### Pins -/

/-- FREEZE_N falls after a high level of so many ns: with FREEZE_IN = 1 and at least 1 us it freezes the part (CAUSE 3, 16 R529). -/
def execFreezeNFallingEdge (t high : Nat) (s : State) : Host.Outcome State Fault Refusal :=
  let s1 := s.at t
  .next (if 1000 ≤ high ∧ s1.rbit Reg.rstPinopt 1 = true then s1.freeze 3 false false else s1)
/-- FREEZE_N low for 10 ms while the part is not frozen: KIND 2 of the fault log (17 R548, R551). -/
def execFreezeNStuckLow (t : Nat) (s : State) : Host.Outcome State Fault Refusal :=
  let s1 := s.at t
  .next (if s1.frozen ∨ s1.pw.supply ≠ .on then s1 else s1.faultLog 2 0 0)
/-- An output that reads the opposite of its level for 10 us, by its boundary-scan cell, shorted to its rail or to ground: KIND 1, once per
pin per reset (17 R548, R550). -/
def execOutputShortDetect (t cell : Nat) (rail : Bool) (s : State) : Host.Outcome State Fault Refusal :=
  let s1 := s.at t
  .next (if s1.db.shorted.contains cell ∨ s1.pw.supply ≠ .on then s1
    else (s1.faultLog 1 (cell % 2 ^ 32 + bit01 rail * 2 ^ 63) 0).modDb (fun d => { d with shorted := d.shorted ++ [cell] }))

end Sys2Proof.Machine
end

