-- ==== Sys2Proof/Machine/Csr.lean ====
section
/-! DEFINITION. Register accesses through SPACE 3: who may access what, what a read returns, what a write does (01 R30-R38, 16 R533), and the
commands that are register writes. -/

namespace Sys2Proof.Machine

/-! ### Decoding and permission (01 R30, R34-R38) -/

/-- An offset lies in a block of the map (01 R30). -/
def csrPopulated (off : Nat) : Bool :=
  decide (off < 0xC000) || decide (0x10000 ≤ off ∧ off < 0x2C000) || decide (0x30000 ≤ off ∧ off < 0x5A000) ||
    decide (0x60000 ≤ off ∧ off < 0x90000) || decide (0x1000000 ≤ off ∧ off < 0x1400000) || decide (0x10000000 ≤ off ∧ off < 0x18000000)
/-- The branch whose block holds an offset, and the offset within it. -/
def brnOf (off : Nat) : Option (Nat × Nat) :=
  if 0x10000000 ≤ off ∧ off < 0x18000000 then some ((off - 0x10000000) / 0x100000, off % 0x100000) else none
/-- The stand whose block holds an offset. -/
def stdOf (off : Nat) : Option Nat := if 0x1000000 ≤ off ∧ off < 0x1400000 then some ((off - 0x1000000) / 0x10000) else none
/-- The block belongs to a stack or branch that the variant does not have (00 R10). -/
def State.csrAbsent (s : State) (off : Nat) : Bool :=
  decide (0x10000 ≤ off ∧ off < 0x20000 ∧ s.nStacks ≤ (off - 0x10000) / 0x1000) ||
    (match brnOf off with | some (b, _) => decide (s.nBranches ≤ b) | none => false)
/-- R36's table. -/
def State.csrPermitted (s : State) (src : Source) (write : Bool) (off : Nat) : Bool :=
  match sourceStand src with
  | none => true
  | some sd =>
    if off < 0x1000 ∨ (0xB000 ≤ off ∧ off < 0xC000) then !write
    else match stdOf off, brnOf off with
      | some x, _ => x == sd
      | _, some (b, _) => s.owner b == some sd
      | _, _ => false
/-- A freeze, or a stand reset of the requester's own stand, holds the access off (01 R37, 16 R533). -/
def State.csrHeld (s : State) (src : Source) (write : Bool) (off : Nat) : Bool :=
  match sourceStand src with
  | none => s.frozen && write && !(decide (0x4000 ≤ off ∧ off < 0x7000) || decide (0x8000 ≤ off ∧ off < 0xB000))
  | some sd => s.frozen || (s.stdState sd == 3 && ((stdOf off).isSome || (brnOf off).isSome))
/-- The KIND of error that an access of n bytes meets first: the order 2, 1, 0, 4, 5 of R38. -/
def State.csrKind (s : State) (src : Source) (write : Bool) (off n : Nat) : Option Nat :=
  if n ≠ 8 ∨ off % 8 ≠ 0 then some 2
  else if s.csrAbsent off then some 1
  else if csrPopulated off = false then some 0
  else if s.csrPermitted src write off = false then some 4
  else if s.csrHeld src write off then some 5
  else none

/-- SOURCE and STAND of ROOT_CSR_ERR. -/
def srcCode (src : Source) : Nat :=
  match sourceStand src with
  | some sd => 3 * 2 ^ 56 + sd % 64 * 2 ^ 50
  | none => match src with
    | .root => 0
    | .smbus => 2 ^ 56
    | .remoteAdmin _ => 4 * 2 ^ 56
    | _ => 2 * 2 ^ 56
/-- Count and record an error; one of a stand that is unpopulated, absent or not permitted is also a violation (00 R10, 01 R27, R36, R38). -/
def State.csrError (s : State) (kind : Nat) (src : Source) (write : Bool) (off : Nat) : State :=
  let s1 := s.bump Reg.rootCsrErrCnt 31 0 1
  let s2 := if s1.rbit Reg.rootCsrErr 63 then s1
    else s1.putReg Reg.rootCsrErr (2 ^ 63 + kind * 2 ^ 60 + srcCode src + bit01 write * 2 ^ 49 + off % 2 ^ 29)
  match sourceStand src with
  | some sd => if kind = 0 ∨ kind = 1 ∨ kind = 4 then s2.violation sd (4 + bit01 write) 4 0 0 off 0 else s2
  | none => s2

/-! ### Reading (01 R32) -/

/-- The routing window and the tree entries as RTE_PAGE.VIEW shows them (12 R436). -/
def State.rteRead (s : State) (o : Nat) : Option Nat :=
  let act := s.rbit Reg.rtePage 8
  if 0x8000 ≤ o ∧ o < 0x10000 then
    some (tget 0 (if act then s.ur.active else s.ur.shadow) (s.rf Reg.rtePage 4 0 * 4096 + (o - 0x8000) / 8))
  else if 0x100 ≤ o ∧ o < 0x200 then some (tget 0 (if act then s.ur.mcActive else s.ur.mcShadow) ((o - 0x100) / 8))
  else none
/-- A byte of PWR_BLEVEL (14 R502). -/
def State.blevel (s : State) (b : Nat) : Nat :=
  if s.nBranches ≤ b then 0xC0
  else (match (s.branch b).sleep with | .awake => 0 | .s1 => 0x40 | .s2 => 0x80) + (s.branch b).level % 8
/-- A map of the branches from lo to lo + 63 that a stand owns. -/
def State.ownedMap (s : State) (sd lo : Nat) : Nat := (((List.range 64).filter (fun i => s.owner (lo + i) == some sd && decide (lo + i < s.nBranches))).map (2 ^ ·)).foldl (· + ·) 0

/-- Registers of a stand's block whose value follows from other state (10 R363). -/
def State.stdLive (s : State) (sd o : Nat) (v : Nat) : Nat :=
  if o = 8 then
    setFld (setFld v 39 32 (s.branchesOf sd).length) 31 16 (s.sv.requests.filter (fun r => r.live && r.stand == sd)).length
  else if o = 0x10 then s.ownedMap sd 0
  else if o = 0x18 then s.ownedMap sd 64
  else v

/-- FORK_PEER s 0 of a stand, whose offset it is: it stands for the stand's own instances, with INST 0, since no instance is in view
(09 R326; DESIGN CHOICE, log entry 32). -/
def peerSelf (off : Nat) : Option Nat := if 0x71000 ≤ off ∧ off < 0x73000 ∧ off % 0x80 = 0 then some ((off - 0x71000) / 0x80) else none
/-- The value a read of a register outside the branch blocks returns: what is stored, or what other state gives; WO fields are never stored. -/
def State.mapRead (s : State) (off : Nat) : Nat :=
  let v := s.reg off
  let urgent := s.pw.sag || (match s.pw.lowering with | some l => l.urgent | none => false)
  let ramping := !urgent && decide (s.capW < s.cLine s.now)
  if off = Reg.idPart then 0x5741 * 2 ^ 48 + s.part.dies * 2 ^ 40 + s.part.stepping.toNat * 2 ^ 32 + s.nStacks * 2 ^ 24 + s.nBranches
  else if off = Reg.timeNow then s.now
  else if off = Reg.timeStatus then setFld v 5 5 (bit01 (s.ur.clock.ppsLast != 0 && decide (s.now + 1 ≤ s.ur.clock.ppsLast + 1100000000)))
  else if off = Reg.timeHold then
    (match s.ur.clock.holdSince with | some h => if s.rf Reg.timeStatus 2 0 = 2 then sat32 ((s.now - h) / 1000000) else v | none => v)
  else if off = Reg.pwrStatus then setFld (setFld v 2 2 (bit01 urgent)) 1 1 (bit01 ramping)
  else if 0x4100 ≤ off ∧ off < 0x4180 then leNat ((List.range 8).map (fun j => BitVec.ofNat 8 (s.blevel ((off - 0x4100) + j))))
  else if off = Reg.nrgCap then setFld (setFld v 63 48 s.capW) 47 32 s.hostCapW
  else if off = Reg.nrgHb then (if s.hbPeriod = 0 then 0 else sat32 ((s.now - s.pw.lastBeat) / s.hbPeriod) * 2 ^ 32)
  else if off = Reg.nrgModel then setFld v 47 32 (Nat.min 65535 (s.committed s.now / 1000))
  else if off = Reg.admStatus then s.stands.length
  else if off = Reg.admAlert then s.admAlert
  else if off = Reg.trcStatus then setFld v 0 0 (bit01 (s.rf Reg.trcCtl 5 4 != 0))
  else if 0xB000 ≤ off ∧ off < 0xC000 then leNat (s.pageBytes (off - 0xB000) 8)
  else if off = Reg.ntcPoolFrames 0 then s.poolFrames
  else if off = Reg.ntcPoolFree 0 then s.poolFree
  else if 0x60000 ≤ off ∧ off < 0x70000 then (s.rteRead (off - 0x60000)).getD v
  else if (off - 0x80000) % 0x100 = 0 ∧ 0x80000 ≤ off ∧ off < 0x80400 then setFld (setFld v 31 16 Config.deviceId.toNat) 15 0 Config.vendorId.toNat
  else if (off - 0x80000) % 0x100 = 8 ∧ 0x80000 ≤ off ∧ off < 0x80400 then
    let k := (off - 0x80000) / 0x100
    setFld v 39 32 ((List.range 64).filter (s.vfEnabled k)).length
  else match peerSelf off, stdOf off with
    | some sd, _ => 2 ^ 63 + sd * 2 ^ 56 + Config.ownGrove.toNat * 2 ^ 16 + s.ownPid
    | _, some sd => s.stdLive sd (off % 0x10000) v
    | _, _ => v
/-- What a read of a register returns. -/
def State.csrPeek (s : State) (off : Nat) : Nat :=
  match brnOf off with
  | some (b, o) => s.brnRead b o
  | none => s.mapRead off
/-- A read clears the RC fields of the register. -/
def State.csrReadClear (s : State) (off : Nat) : State :=
  match brnOf off with
  | some (b, o) => s.brnReadClear b o
  | none =>
    let fs := (regFields off).filter (fun f => f.acc == .rc)
    if fs.isEmpty then s else s.putReg off (fs.foldl (fun v f => setFld v f.hi f.lo 0) (s.reg off))

/-! ### Writing (01 R32, R35, R38) -/

/-- A field's new value in a register. -/
def storeField (isSealed : Bool) (w v : Nat) (f : RegField) : Nat :=
  let x := fld w f.hi f.lo
  match f.acc with
  | .rw => setFld v f.hi f.lo x
  | .rwl => if isSealed then v else setFld v f.hi f.lo x
  | .w1c => setFld v f.hi f.lo (fld v f.hi f.lo - (fld v f.hi f.lo &&& x))
  | _ => v
/-- A write after sealing carries another value for an RWL field. -/
def State.sealedWrite (s : State) (off w : Nat) : Bool :=
  s.rbit Reg.rootStatus 0 && (match brnOf off with
    | some (b, o) => s.brnSealedWrite b o w
    | none => (regFields off).any (fun f => f.acc == .rwl && fld w f.hi f.lo != fld (s.reg off) f.hi f.lo))
/-- The admin-ring register of a function at an offset: 0 base, 1 pointers, 2 aperture (13 R464). -/
def aqReg (off : Nat) : Option (Nat × Nat) :=
  if 0x81000 ≤ off ∧ off < 0x85000 ∧ off % 0x1000 < 0x820 then some (off % 0x1000 / 0x20, off % 0x20 / 8) else none
/-- The value that a write leaves in a register of the map. -/
def State.stored (s : State) (off w : Nat) : Nat :=
  let v := s.reg off
  let n := (regFields off).foldl (storeField (s.rbit Reg.rootStatus 0) w) v
  match aqReg off with
  | some (_, 0) => if v.testBit 0 then setFld n 63 12 (fld v 63 12) else n
  | some (0, 2) => v
  | _ => if (peerSelf off).isSome then v else n
/-- A word of the routing window or of a tree entry is written into the shadow bank. -/
def State.rteWrite (s : State) (o w : Nat) : State :=
  if s.rbit Reg.rtePage 8 then (if 0x100 ≤ o ∧ o < 0x200 then s.putTreeWord ((o - 0x100) / 8) w else s)
  else if 0x8000 ≤ o then s.putRouteWord (s.rf Reg.rtePage 4 0 * 4096 + (o - 0x8000) / 8) w
  else s.putTreeWord ((o - 0x100) / 8) w

/-- What a write triggers beyond the fields it stores: s0 is the part before the write. -/
def State.csrAct (s0 s : State) (off w : Nat) : State :=
  match stdOf off with
  | some sd =>
    if off % 0x10000 = 0xA00 ∧ w.testBit 0 = true then s.startReset sd 3
    else if off % 0x10000 = 0x708 then
      s.each ((List.range 32).filter (fun v => s0.rbit (Reg.stdIrqMask sd) v && !w.testBit v && s.rbit (Reg.stdIrqPend sd) v)) (fun s v => s.vecMessage sd v)
    else s
  | none =>
    if 0x50000 ≤ off ∧ off < 0x5A000 ∧ off % 0x800 = 0x38 ∧ w.testBit 0 = true then s.retrain ((off - 0x50000) / 0x800)
    else if off = Reg.rteCtl then (if w.testBit 1 then s.disarm else if w.testBit 0 then s.arm else s)
    else if off = Reg.dbgCtl then
      (if w.testBit 1 ∧ s0.frozen = true then s.thaw else if w.testBit 0 then s.freeze 1 (w.testBit 2) (w.testBit 2) else s)
    else if off = Reg.dbgDump ∧ w.testBit 63 = true then s.startDump
    else if off = Reg.nrgHb ∧ w.testBit 0 = true then s.heartbeat
    else if off = Reg.rstCtl ∧ w.testBit 0 = true then s.rootReset 6
    else if off = Reg.pwrStateReq then (if w % 4 = 1 then s.enterS2 else if w % 4 = 2 then s.enterS3 else if w % 4 = 3 then s.leaveS2 5 0 else s)
    else s

/-- A permitted write of 8 bytes: each field by its access type, what it triggers, and ALERT_N, which follows its causes. A sealed write is
counted and recorded (01 R38). -/
def State.csrStore (s : State) (src : Source) (off w : Nat) : State :=
  let isSealed := s.rbit Reg.rootStatus 0
  let s1 := if s.sealedWrite off w then s.csrError 3 src true off else s
  match brnOf off with
  | some (b, o) => s1.brnWrite b o w isSealed
  | none =>
    if 0x60100 ≤ off ∧ off < 0x60200 ∨ 0x68000 ≤ off ∧ off < 0x70000 then s1.rteWrite (off - 0x60000) w
    else
      let n := s1.stored off w
      (State.csrAct s1 (if (regFields off).isEmpty then s1 else s1.putReg off n) off w).alertEdge

/-- A read of n bytes at an offset: the state, and the value or an error. -/
def State.csrRead (s : State) (src : Source) (off n : Nat) : State × Option Nat :=
  match s.csrKind src false off n with
  | some k => (s.csrError k src false off, none)
  | none => (s.csrReadClear off, some (s.csrPeek off))
/-- A write: the state, and whether it was accepted. -/
def State.csrWrite (s : State) (src : Source) (off : Nat) (data : List Byte) : State × Bool :=
  match s.csrKind src true off data.length with
  | some k => (s.csrError k src true off, false)
  | none => (s.csrStore src off (leNat data), true)
/-- A write of a 64-bit word. -/
def State.writeWord (s : State) (src : Source) (off w : Nat) : State := (s.csrWrite src off (leBytes 8 w)).1

/-- Registers can be accessed while the part runs or brings itself up (13 R461, 14 R477). -/
def State.csrAlive (s : State) : Bool := s.pw.supply == .on

/-! ### Commands that are register writes -/

/-- A command that writes a word with one of the bits that its row is about. -/
def State.rowWrite (s : State) (src : Source) (off w : Nat) (act : Bool) : State := if act && s.csrAlive then s.writeWord src off w else s

/-- CSR_WRITE: any register write, by its fields' access types (01 R32). -/
def execCsrWrite (t : Nat) (src : Source) (off : Nat) (data : List Byte) (s : State) : Host.Outcome State Fault Refusal :=
  let s1 := s.at t
  .next (if s1.csrAlive then (s1.csrWrite src off data).1 else s1)
/-- The offset of LEAF_CTL of a leaf. -/
def leafCtlOff (l : Nat) : Nat := 0x10000000 + l / 64 * 0x100000 + 0x80000 + l % 64 * 0x2000 + 8
/-- LEAF_CTL.SWITCH (03 R85). -/
def execLeafCtlSwitch (t : Nat) (src : Source) (l w : Nat) (s : State) : Host.Outcome State Fault Refusal :=
  .next ((s.at t).rowWrite src (leafCtlOff l) w (w.testBit 1))
/-- LEAF_CTL.ABORT (03 R86). -/
def execLeafCtlAbort (t : Nat) (src : Source) (l w : Nat) (s : State) : Host.Outcome State Fault Refusal :=
  .next ((s.at t).rowWrite src (leafCtlOff l) w (w.testBit 0))
/-- STD_RESET.GO (10 R358). -/
def execStdResetGo (t : Nat) (src : Source) (sd w : Nat) (s : State) : Host.Outcome State Fault Refusal :=
  .next ((s.at t).rowWrite src (Reg.stdReset sd) w (w.testBit 0))
/-- STD_IRQ_MASK: clearing the bit of a pending vector sends its message (10 R355). -/
def execIrqMaskWrite (t : Nat) (src : Source) (sd w : Nat) (s : State) : Host.Outcome State Fault Refusal :=
  .next ((s.at t).rowWrite src (Reg.stdIrqMask sd) w true)
/-- LNK_CTL.RETRAIN (12 R435). -/
def execLnkCtlRetrain (t : Nat) (src : Source) (n w : Nat) (s : State) : Host.Outcome State Fault Refusal :=
  .next ((s.at t).rowWrite src (Reg.lnkCtl n) w (w.testBit 0))
/-- RTE_CTL.ARM (12 R420). -/
def execRteCtlArm (t : Nat) (src : Source) (w : Nat) (s : State) : Host.Outcome State Fault Refusal :=
  .next ((s.at t).rowWrite src Reg.rteCtl w (w.testBit 0))
/-- RTE_CTL.DISARM (12 R436). -/
def execRteCtlDisarm (t : Nat) (src : Source) (w : Nat) (s : State) : Host.Outcome State Fault Refusal :=
  .next ((s.at t).rowWrite src Reg.rteCtl w (w.testBit 1))
/-- NRG_HB.BEAT (14 R498). -/
def execNrgHbBeat (t : Nat) (src : Source) (w : Nat) (s : State) : Host.Outcome State Fault Refusal :=
  .next ((s.at t).rowWrite src Reg.nrgHb w (w.testBit 0))
/-- PWR_STATE_REQ.REQ = 1 (14 R477). -/
def execEnterPartS2 (t : Nat) (src : Source) (w : Nat) (s : State) : Host.Outcome State Fault Refusal :=
  .next ((s.at t).rowWrite src Reg.pwrStateReq w (w % 4 == 1))
/-- PWR_STATE_REQ.REQ = 2 (14 R477). -/
def execEnterS3 (t : Nat) (src : Source) (w : Nat) (s : State) : Host.Outcome State Fault Refusal :=
  .next ((s.at t).rowWrite src Reg.pwrStateReq w (w % 4 == 2))
/-- PWR_STATE_REQ.REQ = 3 (14 R477). -/
def execLeavePartS2 (t : Nat) (src : Source) (w : Nat) (s : State) : Host.Outcome State Fault Refusal :=
  .next ((s.at t).rowWrite src Reg.pwrStateReq w (w % 4 == 3))
/-- RST_CTL.ROOT (15 R505). -/
def execRstCtlRoot (t : Nat) (src : Source) (w : Nat) (s : State) : Host.Outcome State Fault Refusal :=
  .next ((s.at t).rowWrite src Reg.rstCtl w (w.testBit 0))
/-- DBG_CTL.FREEZE (16 R529). -/
def execDbgCtlFreeze (t : Nat) (src : Source) (w : Nat) (s : State) : Host.Outcome State Fault Refusal :=
  .next ((s.at t).rowWrite src Reg.dbgCtl w (w.testBit 0))
/-- DBG_CTL.THAW (16 R536). -/
def execDbgCtlThaw (t : Nat) (src : Source) (w : Nat) (s : State) : Host.Outcome State Fault Refusal :=
  .next ((s.at t).rowWrite src Reg.dbgCtl w (w.testBit 1))
/-- DBG_DUMP.START (16 R539). -/
def execDbgDumpStart (t : Nat) (src : Source) (w : Nat) (s : State) : Host.Outcome State Fault Refusal :=
  .next ((s.at t).rowWrite src Reg.dbgDump w (w.testBit 63))

end Sys2Proof.Machine
end

