-- ==== Sys2Proof/Machine/BringUp.lean ====
section
/-! DEFINITION. The bring-up delay table: the seed image and its checks, and what each step does (13 R443-R453, 15 R511-R516, 10 R327-R331). -/

namespace Sys2Proof.Machine

/-! ### The seed image (13 R446-R452) -/

/-- The index in the section table and the bytes of the section of a type. -/
def seedSect (bs : List Byte) (type : Nat) : Option (Nat × List Byte) :=
  ((sects bs).zipIdx.find? (fun x => x.1.type == type)).map (fun x => (x.2, slice bs x.1.off x.1.size))
/-- Its index, 0 where there is none. -/
def seedIdx (bs : List Byte) (type : Nat) : Nat := match seedSect bs type with | some x => x.1 | none => 0
/-- Its bytes, none where there is none. -/
def seedPart (bs : List Byte) (type : Nat) : List Byte := match seedSect bs type with | some x => x.2 | none => []
def seedSize (bs : List Byte) : Nat := fieldLE bs 16 4
/-- SIGNED_LEN: the signature section is the last 256 bytes. -/
def signedLen (bs : List Byte) : Nat := seedSize bs - 256

/-- The PID-table entry of a strap value (13 R447). -/
def pidEntry (bs : List Byte) (strap : Nat) : List Byte := slice (seedPart bs 0x102) (8 * strap) 8
def pidEntryOk (bs : List Byte) (strap : Nat) : Bool :=
  let e := pidEntry bs strap
  decide (fieldLE e 0 1 = 1) && decide (fieldLE e 1 1 < 4) && decide (fieldLE e 4 1 < 8) && zeros e 5 3
def entryPid (bs : List Byte) (strap : Nat) : Nat := fieldLE (pidEntry bs strap) 2 2
def entryProfile (bs : List Byte) (strap : Nat) : Nat := fieldLE (pidEntry bs strap) 4 1

/-- All presets: OFFSET, PROFILES, VALUE (13 R448). -/
def allPresets (bs : List Byte) : List (List Byte) :=
  let x := seedPart bs 0x103
  (List.range (x.length / 16)).map (fun i => slice x (16 * i) 16)
/-- The presets of a profile, in section order: OFFSET and VALUE. -/
def presets (bs : List Byte) (prof : Nat) : List (Nat × Nat) :=
  ((allPresets bs).filter (fun p => (fieldLE p 4 1).testBit prof)).map (fun p => (fieldLE p 0 4, fieldLE p 8 8))
/-- All stand records (13 R449). -/
def allRecords (bs : List Byte) : List (List Byte) :=
  let x := seedPart bs 0x104
  (List.range (x.length / 64)).map (fun i => slice x (64 * i) 64)
/-- The record that builds a stand in a profile: the last one that names it. -/
def standRecord (bs : List Byte) (prof sd : Nat) : Option (List Byte) :=
  ((allRecords bs).filter (fun r => (fieldLE r 1 1).testBit prof && fieldLE r 0 1 == sd)).getLast?
/-- The stands that a profile's records build. -/
def recordStands (bs : List Byte) (prof : Nat) : List Nat := (List.range 64).filter (fun sd => (standRecord bs prof sd).isSome)
/-- A field of a stand's record. -/
def recField (bs : List Byte) (prof sd o : Nat) : Nat := match standRecord bs prof sd with | some r => fieldLE r o 4 | none => 0
/-- The FTL map ranges of the tier section: first unit and count (13 R450). -/
def tierRanges (bs : List Byte) : List (Nat × Nat) :=
  let x := seedPart bs 0x105
  (List.range (fieldLE x 4 1)).map (fun i => (fieldLE x (8 + 8 * i) 4, fieldLE x (12 + 8 * i) 4))
/-- The image-key list (13 R451). -/
def keyList (bs : List Byte) : List (List Byte) :=
  let x := seedPart bs 0x106
  (List.range (fieldLE x 0 4)).map (fun i => slice x (64 + 48 * i) 48)

/-! ### Checks of the image itself (13 R446, R450-R453) -/

/-- MAGIC, HDR_SIZE, VER_MAJOR, ORDERING, IMAGE_SIZE, SECTION_COUNT, SECT_OFFSET and the reserved bytes of the header. -/
def seedHeaderOk (dies : Nat) (bs : List Byte) : Bool :=
  decide (fieldLE bs 0 4 = 0x49534B57) && decide (fieldLE bs 6 2 = 64) && decide (fieldLE bs 5 1 = 1) && decide (slice bs 8 8 = orderingOf dies) &&
  decide (seedSize bs ≤ 2 ^ 27) && decide (seedSize bs = bs.length) && decide (4 ≤ fieldLE bs 20 2 ∧ fieldLE bs 20 2 ≤ 64) &&
  decide (fieldLE bs 24 4 % 64 = 0) && zeros bs 22 2 && zeros bs 28 4 && zeros bs 40 24
/-- The key of the signature section is the root of trust (13 R452). -/
def seedKeyOk (bs : List Byte) : Bool := Crypto.sha384 (slice bs (signedLen bs + 8) 96) == Config.fusedKeyHash
/-- The signature section verifies. -/
def seedSigOk (bs : List Byte) : Bool := sigOk bs (signedLen bs) [Config.fusedKeyHash]

/-- A section's content matches its layout (13 R446-R451). -/
def seedSectOk (bs : List Byte) (x : Sect) : Bool :=
  let b := slice bs x.off x.size
  if x.type = 0x101 then decide (1 ≤ x.size ∧ x.size ≤ 2 ^ 25)
  else if x.type = 0x102 then decide (x.size = 512)
  else if x.type = 0x103 then decide (x.size % 16 = 0) && (List.range (x.size / 16)).all (fun i => zeros b (16 * i + 5) 3)
  else if x.type = 0x104 then decide (x.size % 64 = 0) &&
    (List.range (x.size / 64)).all (fun i => decide (fieldLE b (64 * i) 1 < 64) && zeros b (64 * i + 2) 2 && zeros b (64 * i + 32) 32)
  else if x.type = 0x105 then
    decide (1 ≤ fieldLE b 4 1 ∧ fieldLE b 4 1 ≤ 4) && decide (x.size = 8 + 8 * fieldLE b 4 1) && decide (1 ≤ fieldLE b 2 1 ∧ fieldLE b 2 1 ≤ 168) &&
    decide (1 ≤ fieldLE b 3 1 ∧ fieldLE b 3 1 ≤ 90) && zeros b 5 3
  else if x.type = 0x106 then decide (fieldLE b 0 4 ≤ 64) && decide (x.size = 64 + 48 * fieldLE b 0 4) && zeros b 4 60
  else decide (x.type = 0x1FF) && decide (x.size = 256) && decide (x.off = signedLen bs)
/-- The index of the first section at fault, none where the sections are as they must be; a fault of the table as a whole names section 0. -/
def seedSectFault (bs : List Byte) : Option Nat :=
  let ss := sects bs
  let count := fun ty => (ss.filter (fun x => x.type == ty)).length
  match ss.zipIdx.find? (fun x => !seedSectOk bs x.1) with
  | some x => some x.2
  | none =>
    if sectsOk bs (seedSize bs) && (List.range ss.length).all (fun i => zeros bs (fieldLE bs 24 4 + 16 * i + 4) 4) &&
      [0x101, 0x102, 0x105, 0x1FF].all (fun ty => count ty == 1) && [0x103, 0x104, 0x106].all (fun ty => decide (count ty ≤ 1))
    then none else some 0

/-! ### Presets (13 R448, R453) -/

/-- The bits of a register of a branch's block that a preset may set: RW, RWL, W1C and RC fields (03 R122, 04 R165, 05 R199, 07 R265, R266). -/
def brnMask (o : Nat) : Nat :=
  if o = 0 then 0x7F
  else if o = 0x10 then 2 ^ 15
  else if o = 0x80 then 2 ^ 32 - 1
  else if o = 0x1000 then 7
  else if o = 0x1010 then 2 ^ 33 - 1
  else if o = 0x1020 then 2 ^ 63
  else if 0x1030 ≤ o ∧ o < 0x1050 then 2 ^ 32 - 1
  else if 0x1800 ≤ o ∧ o < 0x1820 then 2 ^ 32 - 1
  else if o = 0x1820 then 2 ^ 16 - 1
  else if 0x2000 ≤ o ∧ o < 0x3000 then
    (if o % 0x400 = 0x10 then 2 ^ 63 else if 0x20 ≤ o % 0x400 ∧ o % 0x400 < 0x40 then 2 ^ 64 - 1 else 0)
  else if 0x3000 ≤ o ∧ o < 0x3800 then
    (if o % 0x400 < 0x80 then (if o % 0x20 = 0 ∨ o % 0x20 = 8 then 2 ^ 64 - 1 else if o % 0x20 = 0x10 then 0x31F else 0)
     else if o % 0x400 = 0x100 then 2 ^ 63
     else if o % 0x400 = 0x128 ∨ o % 0x400 = 0x130 ∨ o % 0x400 = 0x138 then 2 ^ 32 - 1 else 0)
  else if 0x80000 ≤ o then
    (if o % 0x2000 = 8 then 0x70 else if o % 0x2000 = 0x10 then 2 ^ 32 - 1 else if o % 0x2000 = 0x18 then 2 ^ 63
     else if o % 0x2000 = 0x20 ∨ o % 0x2000 = 0x28 then 2 ^ 32 - 1 else 0)
  else 0
/-- The offset names a register of a branch's block. -/
def brnHas (o : Nat) : Bool :=
  brnMask o != 0 || (o == 8 || o == 0x18 || (decide (0x40 ≤ o ∧ o < 0x80)) || o == 0x1008 || o == 0x1018 || o == 0x1028 ||
    (decide (0x2000 ≤ o ∧ o < 0x3000) && (o % 0x400 == 0 || o % 0x400 == 8 || o % 0x400 == 0x18)) ||
    (decide (0x3000 ≤ o ∧ o < 0x3800 ∧ 0x108 ≤ o % 0x400 ∧ o % 0x400 < 0x128)) ||
    (decide (0x10000 ≤ o ∧ o < 0x20000 ∧ o % 0x400 < 0x340)) ||
    (decide (0x80000 ≤ o) && (o % 0x2000 == 0 || decide (0x100 ≤ o % 0x2000 ∧ o % 0x2000 < 0x140))))
/-- The bits of a register that a preset may set, none where the offset names no register of the part. -/
def State.presetMask (s : State) (off : Nat) : Option Nat :=
  if off % 8 ≠ 0 ∨ csrPopulated off = false ∨ s.csrAbsent off = true then none
  else match brnOf off with
    | some (_, o) => if brnHas o then some (brnMask o) else none
    | none =>
      if 0x68000 ≤ off ∧ off < 0x70000 then some (if s.rbit Reg.rtePage 8 then 0 else if off % 16 = 0 then 0xE070FFFFF else 0xFFFFF)
      else if 0x60100 ≤ off ∧ off < 0x60200 then
        some (if s.rbit Reg.rtePage 8 then 0 else if off % 16 = 0 then 2 ^ 63 + 0x3FFFFF else 0xFFFFF)
      else
        let fs := regFields off
        if fs.isEmpty then none
        else some ((fs.filter (fun f => f.acc != .ro && f.acc != .wo)).foldl (fun n f => n + (2 ^ (f.hi + 1 - f.lo) - 1) * 2 ^ f.lo) 0)
/-- A preset is valid in the state that the earlier ones leave. -/
def State.presetOk (s : State) (p : Nat × Nat) : Bool :=
  match s.presetMask p.1 with | some m => p.2 &&& m == p.2 | none => false
/-- Apply one preset. -/
def State.preset (s : State) (p : Nat × Nat) : State := s.csrStore .root p.1 p.2
/-- Every preset is valid when its turn comes. -/
def State.presetsOk (s : State) (ps : List (Nat × Nat)) : Bool :=
  (ps.foldl (fun (a : State × Bool) p => (a.1.preset p, a.2 && a.1.presetOk p)) (s, true)).2
/-- The presets of a profile, OWN_PID, and the default of each NRG_SHARE that no preset writes (13 R447, R448, 14 R485). -/
def State.applySeed (s : State) (bs : List Byte) (strap : Nat) : State :=
  let prof := entryProfile bs strap
  let ps := presets bs prof
  let s1 := (s.each ps State.preset).wf Reg.rteCfg 63 48 (entryPid bs strap)
  s1.each (recordStands bs prof) (fun s sd =>
    if ps.any (fun p => p.1 == Reg.nrgShare sd) then s else s.wf (Reg.nrgShare sd) 8 0 (256 * (s.branchesOf sd).length / s.nBranches))

/-! ### Resource checks (13 R453, 10 R329, 06 R231) -/

/-- 2 MiB units of a stack. -/
def stackUnits : Nat := 0xFE0000000 / 2 ^ 21
/-- The branch that a BRC_OWNER preset assigns, and its stand. -/
def ownerPreset (p : Nat × Nat) : Option (Nat × Nat) :=
  match brnOf p.1 with | some (b, 0) => if p.2.testBit 6 then some (b, p.2 % 64) else none | _ => none
/-- Some preset assigns a branch to a second stand. -/
def twoStands (ps : List (Nat × Nat)) : Bool :=
  let os := ps.filterMap ownerPreset
  os.any (fun x => os.any (fun y => x.1 == y.1 && x.2 != y.2))
/-- The sum of a stand's quantity over a list of stands. -/
def sumOver (l : List Nat) (f : Nat → Nat) : Nat := (l.map f).foldl (· + ·) 0
/-- The resource checks that concern what presets gave, in the state that they leave. -/
def State.sharesOk (s : State) (sds : List Nat) : Bool :=
  let near := fun sd => Nat.min 256 (s.rf (Reg.stdCfg sd) 56 48)
  let urren := fun sd => Nat.min 256 (s.rf (Reg.stdCfg sd) 40 32)
  let least := fun sd => cdiv (256 * (s.branchesOf sd).length) s.nBranches
  (List.range s.nBranches).all (fun b => match s.owner b with | some sd => sds.contains sd | none => true) &&
  (List.range 64).all (fun sd => (List.range 128).all (fun b => !s.isExpress sd b || (decide (b < s.nBranches) && s.owner b == some sd))) &&
  decide (sumOver sds near ≤ 256) && decide (sumOver sds urren ≤ 256) &&
  sds.all (fun sd => decide (least sd ≤ near sd) && decide (least sd ≤ urren sd)) &&
  decide (sumOver sds (fun sd => Nat.min 256 (s.rf (Reg.nrgShare sd) 8 0)) ≤ 256)
/-- Near regions fit each stack, and the pool reserves fit what they leave. -/
def recordsFit (nStacks : Nat) (bs : List Byte) (prof : Nat) : Bool :=
  let sds := recordStands bs prof
  let near := sumOver sds (fun sd => recField bs prof sd 4)
  decide (near ≤ stackUnits) && decide (sumOver sds (fun sd => recField bs prof sd 8) ≤ nStacks * (stackUnits - near))

/-- The verdict of step 5: ERROR and SECTION, or none (13 R453, R465). -/
def State.seedFault (s : State) (bs : List Byte) (strap : Nat) : Option (Nat × Nat) :=
  if seedHeaderOk s.part.dies bs = false then some (3, 0)
  else if seedKeyOk bs = false then some (4, seedIdx bs 0x1FF)
  else if seedSigOk bs = false then some (5, seedIdx bs 0x1FF)
  else match seedSectFault bs with
    | some i => some (6, i)
    | none =>
      let prof := entryProfile bs strap
      let ps := presets bs prof
      if pidEntryOk bs strap = false then some (8, seedIdx bs 0x102)
      else if s.presetsOk ps = false then some (7, seedIdx bs 0x103)
      else if twoStands ps = true ∨ (s.applySeed bs strap).sharesOk (recordStands bs prof) = false then some (9, seedIdx bs 0x103)
      else if recordsFit s.nStacks bs prof = false then some (9, seedIdx bs 0x104)
      else none

/-- A rejected image: SEED_STATUS reports it, ALERT_N is asserted, and of the ports U16 alone trains, in PCIe mode (13 R453, 15 R513). -/
def State.seedReject (s : State) (err sect : Nat) : State :=
  let s1 := ((s.wf Reg.seedStatus 2 0 4).wf Reg.seedStatus 15 8 err).wf Reg.seedStatus 31 24 sect
  let s2 := s1.each ((List.range 20).filter (fun n => s1.linkState n != 0)) (fun s n => s.setLink n 0 0 0)
  ((s2.wf (Reg.lnkCfg 16) 2 0 4).setLink 16 1 0 0).alertEdge

/-! ### Steps 1 to 6 -/

/-- A step completes. -/
def State.stepDone (s : State) (n : Nat) : State := s.wf Reg.rootStatus 15 8 n
def State.bootStep (s : State) : Nat := s.rf Reg.rootStatus 15 8
/-- The latched strap. -/
def State.strap (s : State) : Nat := s.rf Reg.seedStatus 37 32
/-- Step 1: the strap is latched, but for a root reset, and RST_CAUSE is written. -/
def State.boot1 (s : State) : State :=
  let s1 := if s.pw.trigger.1 = 3 then s else s.wf Reg.seedStatus 37 32 s.pw.strap
  (s1.wf Reg.rstCause 2 0 s.pw.trigger.1).wf Reg.rstCause 15 12 s.pw.trigger.2
/-- Step 2: ROOTCLK is within limits; the other clocks are present or not (15 R520, R523). -/
def State.boot2 (s : State) (f : BootFacts) : State := (s.wbit Reg.rstClk 0 true).wf Reg.rstClk 7 2 (f.clocks / 4)
/-- Step 3: the store is reset, its SFDP and the header are read (13 R445). -/
def State.boot3 (s : State) (f : BootFacts) : State :=
  ((s.wf Reg.seedStatus 2 0 1).putReg Reg.seedSize (fieldLE f.image 5 1 * 2 ^ 40 + fieldLE f.image 4 1 * 2 ^ 32 + seedSize f.image))
/-- Step 4: IMAGE_SIZE bytes are read. -/
def State.boot4 (s : State) (f : BootFacts) : State := { s with mg := { s.mg with seed := f.image.take (Nat.min (2 ^ 27) (seedSize f.image)) } }
/-- Step 5 of an image that passes: its digest, serial and profile, and how long its reading took. -/
def State.boot5 (s : State) (o : Nat) : State :=
  let bs := s.mg.seed
  let dg := Crypto.sha384 (bs.take (signedLen bs))
  let s1 := s.each (List.range 6) (fun s i => s.putReg (Reg.seedDigest i) (fieldLE dg (8 * i) 8))
  let s2 := (s1.putReg Reg.seedReadNs (sat32 (s1.now - (o + 2000000)))).putReg Reg.seedId (fieldLE bs 32 8)
  (s2.wf Reg.seedStatus 18 16 (entryProfile bs s2.strap)).wf Reg.seedStatus 2 0 2
/-- Step 6: presets, part number and image keys apply; the branches run at the level of the power policy; everything begins to train
(13 R448, R451, 15 R511, R515). -/
def State.boot6 (s : State) : State :=
  let bs := s.mg.seed
  let s1 := (s.applySeed bs s.strap).modSv (fun v => { v with imageKeys := keyList bs })
  let s2 := (if s1.rbit Reg.timeCfg 1 then s1.wf Reg.timeStatus 2 0 3 else s1).wf Reg.seedStatus 2 0 3
  let s3 := s2.modBranches (List.range s2.nBranches) (fun x => { x with level := s2.level, levelTarget := s2.level })
  let s4 := s3.each (List.range s3.nStacks) (fun s k => s.wf (Reg.ntcStatus k) 2 0 1)
  let s5 := (s4.each (List.range 24) (fun s c => s.wf (Reg.wtcStatus c) 2 0 1)).each (List.range 32) (fun s c => s.wf (Reg.dtcStatus c) 2 0 1)
  s5.each ((List.range 20).filter (fun n => s5.role n != 0)) (fun s n => s.setLink n 1 0 0)

/-! ### Steps 7 and 8 -/

/-- Step 7: the stacks that trained are up, the others mapped out (06 R212, 10 R332). -/
def State.boot7 (s : State) (f : BootFacts) : State :=
  let ks := List.range s.nStacks
  let s1 := s.each ks (fun s k => if f.nearUp.contains k then (s.wf (Reg.ntcStatus k) 2 0 2).wf (Reg.ntcStatus k) 15 8 127 else s.stackOut k 0 0)
  s1.modSv (fun v => { v with upStacks := ks.filter (fun k => f.nearUp.contains k) })

/-- The warm channels after training (06 R213, R218). -/
def State.warmTrained (s : State) (f : BootFacts) : State :=
  s.each (List.range 24) (fun s c =>
    match f.dimms.find? (fun d => d.1 == c) with
    | none => s.wf (Reg.wtcStatus c) 2 0 0
    | some (_, gib, rate, ok) =>
      let s1 := (s.wf (Reg.wtcStatus c) 47 32 gib).wf (Reg.wtcStatus c) 31 24 (if ok then rate else 0)
      if ok then s1.wf (Reg.wtcStatus c) 2 0 2 else (s1.wf (Reg.wtcStatus c) 2 0 4).wtcEvent c 5 0 0 0)
/-- The local units: 2 MiB units of the local regions of the trained channels, in ascending order (13 R449). -/
def State.formUnits (s : State) : State :=
  s.modTiers (fun x => { x with units := ((List.range 24).filter (fun c => tget 0 x.warmCap c != 0)).map (fun c =>
    let p := if x.stripe.contains c then x.pGib else 0
    (c, p * 2 ^ 30, (tget 0 x.warmCap c - p) * 512)) })
/-- Stripe set and local regions with L of the seed image (06 R215). Contents that self-refresh held stay where the same channels train. Where
one that held data fails, striped contents and the warm residency are gone, and the local regions of the others keep their DIMM addresses and
their poison (06 R218, R219). -/
def State.warmFormed (s : State) (l : Nat) : State :=
  let old := (List.range 24).filter (fun c => tget 0 s.tiers.warmCap c != 0)
  let p := s.tiers.pGib
  let s1 := ((s.modTiers (fun x => { x with lGib := l, warmCap := [] })).formStripe).formUnits
  let gone := old.filter (fun c => tget 0 s1.tiers.warmCap c == 0)
  if s.pw.trigger.1 ≠ 4 ∨ (s.tiers.stripe = s1.tiers.stripe ∧ p = s1.tiers.pGib) then s1
  else
    let away := fun (k : Nat) => k / 2 ^ 45 == 1 && gone.contains ((k % 2 ^ 45 - 0x100000000000) / 2 ^ 39)
    { s1 with
      mem := rekeyWarm 24 p s1.tiers.pGib (s1.mem.filter (fun e => !away e.1))
      tiers := { s1.tiers with poison := rekeyPoison 24 p s1.tiers.pGib (s1.tiers.poison.filter (fun e => !away (e.1 * 64))) }
      sv := { s1.sv with warm := [] } }
/-- 2 MiB units of the local regions (13 R449). -/
def State.localUnits (s : State) : Nat := (s.tiers.units.map (·.2.2)).foldl (· + ·) 0
/-- The FTL's map ranges, each truncated to the local units that trained and the truncation recorded (13 R450). -/
def State.ftlPlaced (s : State) (rs : List (Nat × Nat)) : State :=
  let u := s.localUnits
  let cut := rs.map (fun r => (r.1, Nat.min r.2 (u - r.1)))
  let s1 := s.modTiers (fun x => { x with ftlRanges := cut })
  s1.each (rs.zipIdx.filter (fun r => decide (u < r.1.1 + r.1.2))) (fun s r => s.faultLog 5 r.2 0)

/-- The deep channels after training (06 R220, R228, R240). -/
def State.deepTrained (s : State) (f : BootFacts) : State :=
  s.each (List.range 32) (fun s c =>
    match f.nand.find? (fun d => d.1 == c) with
    | none => s.wf (Reg.dtcStatus c) 2 0 0
    | some (_, ces, bad, rate) =>
      let s1 := (s.wf (Reg.dtcStatus c) 31 24 ces).wf (Reg.dtcStatus c) 23 16 bad
      if ces % 256 = 0 then s1.wf (Reg.dtcStatus c) 2 0 (if bad % 256 = 0 then 0 else 4)
      else (s1.wf (Reg.dtcStatus c) 15 8 rate).wf (Reg.dtcStatus c) 2 0 (if bad % 256 = 0 then 2 else 3))
/-- The superblocks of blank devices: erase blocks are spread over the chip enables in equal runs (DESIGN CHOICE, log entry 30). -/
def blankBlocks (f : BootFacts) (chans : List Nat) : List SuperBlock :=
  let ces := (List.range 8).filter (fun e => match f.nand.head? with | some d => (d.2.1 ||| d.2.2.1).testBit e | none => false)
  (List.range f.superblocks).map (fun i => ⟨i, ces.getD (i * ces.length / f.superblocks) 0, chans, [], 0, [], []⟩)
/-- The stripe set of the deep tier and the start of replay: blank devices begin with free superblocks, a channel that holds data and is
missing makes the FTL degraded (06 R221-R223, R228). -/
def State.ftlStart (s : State) (f : BootFacts) : State :=
  let chans := (List.range 32).filter (fun c => s.rf (Reg.dtcStatus c) 2 0 == 2 || s.rf (Reg.dtcStatus c) 2 0 == 3)
  let off := chans.flatMap (fun c => ((List.range 8).filter (fun e => s.rbit (Reg.dtcStatus c) (16 + e))).map (fun e => (c, e)))
  let blocks := if s.tiers.ftl.blocks.isEmpty then blankBlocks f chans else s.tiers.ftl.blocks
  let lost := blocks.flatMap (fun b =>
    if b.pages.isEmpty then [] else (b.chans.filter (fun c => !chans.contains c || off.contains (c, b.ce))).map (fun c => (b.id, c)))
  let s1 := s.modFtl (fun x => { x with
    channels := chans, offCe := off, pagesPerBlock := f.pagesPerBlock, goodPages := f.goodPages, blocks := blocks, openBlk := none, openSince := none,
    lostPos := lost, rebuilding := !lost.isEmpty, rebuildOf := ((lost.map (·.1)).eraseDups).length })
  let room := sumOver (s1.tiers.ftlRanges.map (·.2)) (fun n => n) * 2 ^ 21
  let st := if chans.isEmpty then 0 else if f.checkpoint = false ∨ room < s1.ftlCap * 8 then 5 else 1
  let s2 := ((s1.putReg Reg.ftlCap s1.ftlCap).wf Reg.ftlStatus 15 8 chans.length).wf Reg.ftlStatus 2 0 st
  s2.loseStripes.ftlRegs

/-- Step 8: warm and deep tiers, and the end of the Urren training attempts. -/
def State.boot8 (s : State) (f : BootFacts) : State :=
  let x := seedPart s.mg.seed 0x105
  let s1 := (s.warmTrained f).warmFormed (fieldLE x 0 2)
  let s2 := s1.modTiers (fun t => { t with digestNearH := fieldLE x 2 1, digestWarmD := fieldLE x 3 1 })
  let s3 := ((s2.ftlPlaced (tierRanges s.mg.seed)).deepTrained f).ftlStart f
  s3.each ((List.range 20).filter (fun n => s3.role n != 0 && s3.role n != 4 && s3.linkState n == 1)) (fun s n => s.mapOut n 1)

/-! ### Steps 9 to 11 -/

/-- Volumes that neither overlap another nor leave the capacity exist; the others are recorded (06 R229). -/
def State.volumesMade (s : State) : State :=
  let base := fun v => s.rf (Reg.ftlVolA v) 47 0
  let size := fun v => s.rf (Reg.ftlVolB v) 47 0
  let vs := (List.range 256).filter (fun v => size v != 0)
  let ok := fun v => decide (base v + size v ≤ s.ftlCap) &&
    vs.all (fun w => w == v || decide (base v + size v ≤ base w) || decide (base w + size w ≤ base v))
  s.each vs (fun s v => if ok v then s.wbit (Reg.ftlVolA v) 63 true else s.faultLog 4 v 0)

/-- Build one stand at a region base (10 R327, R332, 13 R449). -/
def State.buildStand (s : State) (bs : List Byte) (prof sd base : Nat) : State :=
  let r := recField bs prof sd
  let s1 := ((s.wbit (Reg.stdCfg sd) 63 true).putReg (Reg.stdNearRegion sd) (r 4 % 2 ^ 24 * 2 ^ 24 + base)).wf (Reg.stdStatus sd) 2 0 2
  s1.modRes sd (fun x => { x with
    poolReserve := r 8, seqQuota := r 12, warmFirst := r 16, warmCount := r 20, kvFirst := r 24, kvCount := r 28 })
/-- Build the stands in ascending order, their near regions one after the other. -/
def State.buildStands (s : State) (bs : List Byte) (prof : Nat) : List Nat → Nat → State
  | [], _ => s
  | sd :: l, base => (s.buildStand bs prof sd base).buildStands bs prof l (base + recField bs prof sd 4)

/-- A run of warm units lies inside a stand's quota (06 R217, 10 R331): in one channel's local region, all of its units quota units. -/
def State.warmInQuota (s : State) (sd base size : Nat) : Bool :=
  let lo := 0x100000000000 / 2 ^ 21
  let c := (base - lo) / 2 ^ 18
  let first := (base - lo) % 2 ^ 18
  let idx := ((s.tiers.units.takeWhile (fun u => u.1 != c)).map (·.2.2)).foldl (· + ·) 0 + first
  decide (lo ≤ base) && s.tiers.units.any (fun u => u.1 == c && decide (first + size ≤ u.2.2)) &&
    decide ((s.res sd).warmFirst ≤ idx) && decide (idx + size ≤ (s.res sd).warmFirst + (s.res sd).warmCount)
/-- A run of on-die units lies in leaf and branch memory of a stand's branches: 24 MiB of each branch's 32 MiB window (01 R24, 10 R331). -/
def State.ondieOwned (s : State) (sd base size : Nat) : Bool :=
  decide (base + size ≤ 16 * s.nBranches) &&
    (List.range size).all (fun i => decide ((base + i) % 16 < 12) && s.owner ((base + i) / 16) == some sd)
/-- A valid segment that the root processor leaves invalid (10 R331). -/
def State.segFault (s : State) (sd p n : Nat) : Bool :=
  let a := s.reg (Reg.stdSegA sd (p * 16 + n))
  let b := s.reg (Reg.stdSegB sd (p * 16 + n))
  let base := fld b 23 0
  let size := fld b 47 24
  decide (size = 0) || decide (1048576 < size) || decide (2 ^ 24 < base + size) ||
    (decide (fld a 15 0 = s.ownPid) &&
      (if p = 0 then decide (s.rf (Reg.stdNearRegion sd) 47 24 * s.sv.upStacks.length < base + size)
       else if p = 1 then !s.warmInQuota sd base size else !s.ondieOwned sd base size))
/-- Check a stand's segments. -/
def State.checkSegments (s : State) (sd : Nat) : State :=
  s.each ((List.range 48).filter (fun k => s.rbit (Reg.stdSegA sd k) 63 && s.segFault sd (k / 16) (k % 16))) (fun s k =>
    (s.wbit (Reg.stdSegA sd k) 63 false).faultLog 3 (sd * 256 + k) 0)

/-- Step 9: pool, volumes and stands. Where the reserves no longer fit the stacks that trained, the image is rejected and the step is not
complete (06 R231, 17 R552). -/
def State.boot9 (s : State) : State :=
  let bs := s.mg.seed
  let prof := s.rf Reg.seedStatus 18 16
  let sds := recordStands bs prof
  if recordsFit s.sv.upStacks.length bs prof = false then s.seedReject 9 (seedIdx bs 0x104)
  else
    let s1 := s.volumesMade.buildStands bs prof sds 0
    ((s1.each sds State.checkSegments).wbit Reg.rootStatus 1 true).stepDone 9
/-- Step 10: the shadow bank becomes active with epoch 0, and the CSR space is sealed (12 R420, 01 R35). -/
def State.boot10 (s : State) : State := s.swapBanks.wbit Reg.rootStatus 0 true
/-- Ring time is ready: the time root at once, or at its first pulse where it is anchored, but for a wake from S3; any other part at lock (15 R511,
R514). -/
def State.timeReady (s : State) : Bool :=
  if s.rbit Reg.timeCfg 1 then decide (s.pw.trigger.1 = 4) || !s.rbit Reg.timeCfg 0 || s.rf Reg.timeStatus 2 0 == 4 else s.rf Reg.timeStatus 2 0 == 1
/-- Step 11: requests are admitted. -/
def State.boot11 (s : State) : State :=
  (((s.wbit Reg.rootStatus 2 true).putReg Reg.rstBootTime s.now).wf Reg.pwrStatus 18 16 0).modPw (fun p => { p with
    lastBeat := s.now, origin := none })

/-- The time of each step after the origin, in ms (15 R511). -/
def bootMs (n : Nat) : Nat := [0, 0, 0, 2, 2, 340, 345, 600, 1600, 1650, 1660, 1660].getD n 0
/-- BRING_UP_STEP: step n at its time, after the step before it (15 R511-R513). -/
def execBringUpStep (t n : Nat) (f : BootFacts) (s : State) : Host.Outcome State Fault Refusal :=
  let s1 := s.at t
  match s1.pw.origin with
  | none => .next s1
  | some o =>
    if s1.pw.supply ≠ .on ∨ s1.rf Reg.seedStatus 2 0 = 4 ∨ n = 0 ∨ 11 < n ∨ s1.bootStep + 1 ≠ n ∨ s1.now < o + bootMs n * 1000000 then .next s1
    else if n = 1 then .next (s1.boot1.stepDone 1)
    else if n = 2 then .next ((s1.boot2 f).stepDone 2)
    else if n = 3 then
      .next (if f.store = 1 then s1.seedReject 1 0 else if f.store = 2 then s1.seedReject 2 0 else (s1.boot3 f).stepDone 3)
    else if n = 4 then .next ((s1.boot4 f).stepDone 4)
    else if n = 5 then
      .next (match s1.seedFault s1.mg.seed s1.strap with
        | some (e, x) => s1.seedReject e x
        | none => (s1.boot5 o).stepDone 5)
    else if n = 6 then .next (s1.boot6.stepDone 6)
    else if n = 7 then .next ((s1.boot7 f).stepDone 7)
    else if n = 8 then .next ((s1.boot8 f).stepDone 8)
    else if n = 9 then .next s1.boot9
    else if n = 10 then .next (s1.boot10.stepDone 10)
    else .next (if s1.timeReady then s1.boot11.stepDone 11 else s1)

end Sys2Proof.Machine
end

