-- ==== Sys2Proof/Machine/HostPort.lean ====
section
/-! DEFINITION. What arrives at a host port beside stands' accesses: register accesses, PCIe functions, inlet windows and admin rings (12
R411, R415, R416, 13 R437-R442, R454). -/

namespace Sys2Proof.Machine

/-! ### READ and WRITE (12 R411, R415, R416) -/

/-- Who a register access on a host port in Urren host mode acts as (12 R416). -/
def State.hostSource (s : State) (port : Nat) (tx : Tx) : Option Source :=
  if tx.stand.testBit 7 then (if s.rbit (Reg.lnkCfg port) 7 then some (.hostPort 0) else none)
  else (s.hostStand port tx).map Source.stand
/-- The STATUS of a refused register access: 4 where nothing lies there, else 3 (12 R412). -/
def kindStatus (kind : Nat) : Nat := if kind ≤ 1 then 4 else 3
/-- A register access through a host port in Urren host mode. -/
def State.hostCsr (s : State) (port : Nat) (tx : Tx) : State :=
  if fld tx.addr 47 45 ≠ 3 then s.hostDeny port tx
  else match s.hostSource port tx with
    | none =>
      let s1 := s.csrError 4 (if tx.stand.testBit 7 then .hostPort 0 else .stand (tx.stand % 64)) (tx.op == 2) (fld tx.addr 44 0)
      if txNonPosted tx then s1.respond port tx 3 [] 0 0 else s1.bump Reg.rteRemoteDeny 31 0 1
    | some src =>
      let off := fld tx.addr 44 0
      if tx.op = 1 then
        let bad := s.csrKind src false off tx.len
        match s.csrRead src off tx.len with
        | (s1, some v) => s1.respond port tx 0 (leBytes 8 v) 0 0
        | (s1, none) => s1.respond port tx (kindStatus (bad.getD 0)) [] 0 0
      else
        let bad := s.csrKind src true off tx.data.length
        let r := s.csrWrite src off tx.data
        if txNonPosted tx then r.1.respond port tx (if r.2 then 0 else kindStatus (bad.getD 0)) [] 0 0
        else r.1

/-- READ or WRITE, from another part or on a host port. Register accesses are served in a freeze, everything else waits (16 R532, R533). -/
def State.readWrite (s : State) (op port : Nat) (tx : Tx) : State :=
  if tx.op ≠ op ∨ 20 ≤ port ∨ s.csrAlive = false then s
  else if s.role port = 3 ∧ tx.vc = 1 then s.hostCsr port tx else s.takeTx port tx
def execRead (t port : Nat) (tx : Tx) (s : State) : Host.Outcome State Fault Refusal := .next ((s.at t).readWrite 1 port tx)
def execWrite (t port : Nat) (tx : Tx) (s : State) : Host.Outcome State Fault Refusal := .next ((s.at t).readWrite 2 port tx)

/-! ### PCIe functions (13 R438-R442) -/

/-- Function f of host port k exists: the PF, or an enabled VF (13 R439). -/
def State.fnEnabled (s : State) (k f : Nat) : Bool :=
  decide (k < 4) && s.role (16 + k) == 4 && s.csrAlive && (f == 0 || s.vfEnabled k (f - 1))
/-- A read of a function completes: status 0 with data, or Unsupported Request. -/
def State.pcieComplete (s : State) (k tag : Nat) (data : Option (List Byte)) : State :=
  match data with
  | some bs => s.emit (.completion s.now k tag 0 bs)
  | none => s.emit (.completion s.now k tag 1 [])
/-- A write is dropped and counted (13 R464). -/
def State.dropWrite (s : State) (k : Nat) : State := s.bump (Reg.hptDrop k) 31 0 1
/-- A write of a posted frame or window is dropped: counted, and a fault (13 R441, 17 R548). -/
def State.dropInlet (s : State) (k addr : Nat) : State := (s.dropWrite k).faultLog 6 k addr

/-- A memory write to an inlet window of a VF: one TLP of exactly 32 + LEN bytes at offset 0 of a bound inlet of the stand is a frame; any
other is dropped (13 R441). A frozen part holds the frame until THAW. -/
def State.inletWrite (s : State) (k sd n off : Nat) (data : List Byte) : State :=
  if off = 0 ∧ data.length = 32 + fieldLE data 4 2 ∧ s.sv.inlets.any (fun i => i.num == n && i.stand == sd) = true then
    if s.frozen then s.holdTx (16 + k) (s.ownTx 2 s.ownPid (n * 0x1000) 4 sd 0 0 data 0)
    else if s.serving then s.inletFrame n data else s
  else s.dropInlet k (n * 0x1000 + off)
/-- PCIE_INLET_WRITE. -/
def execPcieInletWrite (t k sd n off : Nat) (data : List Byte) (s : State) : Host.Outcome State Fault Refusal :=
  let s1 := s.at t
  .next (if s1.fnEnabled k (sd + 1) = true ∧ n < 64 then s1.inletWrite k sd n off data else s1)

/-- The function a PCIe access acts as. -/
def fnSource (f : Nat) : Source := if f = 0 then .hostPort 0 else .stand (f - 1)
/-- A register access of a function through BAR0 (13 R440, R442). -/
def State.bar0 (s : State) (k f off n tag : Nat) (wr : Option (List Byte)) : State :=
  match wr with
  | none => let r := s.csrRead (fnSource f) off n; r.1.pcieComplete k tag (r.2.map (leBytes 8))
  | some data => let r := s.csrWrite (fnSource f) off data; if r.2 then r.1 else r.1.dropWrite k
/-- A VF's own admin registers: HPT_AQ_BASE, HPT_AQ_PTR and HPT_APER at 0x4_0000 of BAR2 (13 R440). -/
def State.bar2Admin (s : State) (k f off n tag : Nat) (wr : Option (List Byte)) : State :=
  let reg := Reg.hptAqBase k f + off
  let ok := n == 8 && off % 8 == 0 && decide (off < 0x18) && !s.frozen
  match wr with
  | none => s.pcieComplete k tag (if ok then some (leBytes 8 (s.csrPeek reg)) else none)
  | some data => if ok then s.csrStore (fnSource f) reg (leNat data) else s.dropWrite k
/-- BAR2: inlet windows, which read as zeros, and the admin registers. -/
def State.bar2 (s : State) (k f off n tag : Nat) (wr : Option (List Byte)) : State :=
  if off < 0x40000 then
    match wr with
    | none => s.pcieComplete k tag (some (leBytes n 0))
    | some data => s.inletWrite k (f - 1) (off / 0x1000) (off % 0x1000) data
  else s.bar2Admin k f (off - 0x40000) n tag wr
/-- BAR4: stand address HPT_APER.BASE * 2^32 + offset of the function's stand (13 R442). -/
def State.bar4 (s : State) (k f off n tag : Nat) (wr : Option (List Byte)) : State :=
  let addr := (s.rf (Reg.hptAper k f) 63 32 * 2 ^ 32 + off) % 2 ^ 64
  let op := if wr.isSome then 2 else 1
  let tx := { s.ownTx op s.ownPid addr 4 (f - 1) 0 0 (wr.getD []) 2 with len := n, tag := tag }
  if s.frozen then s.holdTx (16 + k) tx else s.hostAccess (16 + k) (f - 1) tx true
/-- APERTURE_ACCESS: a memory read (n bytes, tag) or write of function f of host port k through one of its BARs (13 R440, R442). -/
def execApertureAccess (t k f bar off n tag : Nat) (wr : Option (List Byte)) (s : State) : Host.Outcome State Fault Refusal :=
  let s1 := s.at t
  let len := match wr with | some d => d.length | none => n
  if s1.fnEnabled k f = false ∨ len = 0 ∨ 4096 < len then .next s1
  else if bar = 0 ∧ off < 0x20000000 then .next (s1.bar0 k f off len tag wr)
  else if bar = 2 ∧ 0 < f ∧ off < 0x80000 then .next (s1.bar2 k f off len tag wr)
  else if bar = 4 ∧ 0 < f ∧ off + len ≤ 2 ^ 32 then .next (s1.bar4 k f off len tag wr)
  else .next s1

/-! ### Admin rings (13 R454) -/

/-- ADMIN_RING_FETCH: the part fetches the message in slot HEAD of a function's enabled ring, which holds slot's bytes, and advances HEAD. -/
def execAdminRingFetch (t k f : Nat) (slot : List Byte) (s : State) : Host.Outcome State Fault Refusal :=
  let s1 := s.at t
  let ptr := Reg.hptAqPtr k f
  let head := s1.rf ptr 5 0
  if s1.fnEnabled k f = false ∨ s1.rbit (Reg.hptAqBase k f) 0 = false ∨ head = s1.rf ptr 13 8 then .next s1
  else .next ((s1.wf ptr 5 0 ((head + 1) % 64)).admin (.hostPort f) (.ring k f head) ((slot.take 1024).take (fieldLE slot 2 2)))

end Sys2Proof.Machine
end

