-- ==== Sys2Proof/Machine/Smbus.lean ====
section
/-! DEFINITION. The SMBus target and ALERT_N (13 R461-R463, 18 R566). Commands that write carry whether their PEC is right. -/

namespace Sys2Proof.Machine

def State.modMg (s : State) (f : Mgmt → Mgmt) : State := { s with mg := f s.mg }
/-- Every command is served: the part is powered, not in reset and not in S3 (13 R461). -/
def State.smbFull (s : State) : Bool := s.pw.supply == .on && !s.pw.resetLow
/-- The target answers at all. -/
def State.smbAlive (s : State) : Bool := s.pw.supply != .off
/-- A written command: a wrong PEC is counted and ignored; what is not served is not acknowledged (13 R461). -/
def State.smbWritten (s : State) (pec always : Bool) (f : State → State) : State :=
  if s.smbAlive = false then s
  else if pec = false then s.dropWrite 0
  else if always || s.smbFull then f s else s.emit (.smbusNack s.now)
/-- A command that reads n bytes. -/
def State.smbRead (s : State) (ok : Bool) (f : State → State) : State :=
  if s.smbAlive = false then s else if ok then f s else s.emit (.smbusNack s.now)

/-- Advance the offset. -/
def State.smbStep (s : State) (n : Nat) : State := s.modMg (fun m => { m with offset := (m.offset + n) % 2 ^ 32 })
/-- SET_OFFSET. -/
def execSetOffset (t off : Nat) (pec : Bool) (s : State) : Host.Outcome State Fault Refusal :=
  .next ((s.at t).smbWritten pec true (fun s => s.modMg (fun m => { m with offset := off % 2 ^ 32 })))
/-- Blocks that reset and S3 leave readable: ID, SEED, PWR, RST (13 R461). -/
def smbAlways (off : Nat) : Bool := decide (off < 0x1000) || off / 0x1000 == 2 || off / 0x1000 == 4 || off / 0x1000 == 8
/-- READ_CSR: the register at the offset as the management path; a refused read is not acknowledged. -/
def execReadCsr (t : Nat) (s : State) : Host.Outcome State Fault Refusal :=
  let s1 := s.at t
  .next (s1.smbRead (s1.smbFull || smbAlways s1.mg.offset) (fun s =>
    match s.csrRead .smbus s.mg.offset 8 with
    | (s2, some v) => (s2.emit (.smbus s2.now (leBytes 8 v))).smbStep 8
    | (s2, none) => (s2.emit (.smbusNack s2.now)).smbStep 8))
/-- WRITE_CSR. -/
def execWriteCsr (t v : Nat) (pec : Bool) (s : State) : Host.Outcome State Fault Refusal :=
  .next ((s.at t).smbWritten pec false (fun s => (s.writeWord .smbus s.mg.offset v).smbStep 8))
/-- TELEM: 32 bytes of the telemetry page. -/
def execTelem (t : Nat) (s : State) : Host.Outcome State Fault Refusal :=
  let s1 := s.at t
  .next (s1.smbRead s1.smbFull (fun s => (s.emit (.smbus s.now (s.pageBytes s.mg.offset 32))).smbStep 32))

/-- An SMBus admin message is in progress. -/
def State.smbRunning (s : State) : Bool :=
  s.sv.admins.any (fun a => a.route == .smbus) || s.db.heldAdmin.any (fun h => h.2.1 == .smbus)
/-- ADM_PUT: 1 to 32 bytes are appended; beyond 1,024 bytes the buffer overflows until the next ADM_GO (13 R462). -/
def execAdmPut (t : Nat) (data : List Byte) (pec : Bool) (s : State) : Host.Outcome State Fault Refusal :=
  .next ((s.at t).smbWritten pec false (fun s =>
    if data = [] ∨ 32 < data.length ∨ s.mg.state = 3 then s
    else if 1024 < s.mg.buf.length + data.length then s.modMg (fun m => { m with state := 3 })
    else s.modMg (fun m => { m with buf := m.buf ++ data })))
/-- ADM_GO: the buffer is submitted as one message and emptied; after an overflow it is only discarded; while a message runs it is
ignored. -/
def execAdmGo (t : Nat) (pec : Bool) (s : State) : Host.Outcome State Fault Refusal :=
  .next ((s.at t).smbWritten pec false (fun s =>
    if s.smbRunning then s
    else if s.mg.state = 3 then s.modMg (fun m => { m with buf := [], state := 0 })
    else (s.modMg (fun m => { m with buf := [], resp := [], respPos := 0, state := 1 })).admin .smbus .smbus s.mg.buf))
/-- ADM_GET: the next 32 bytes of the response; zeros beyond it. -/
def execAdmGet (t : Nat) (s : State) : Host.Outcome State Fault Refusal :=
  let s1 := s.at t
  .next (s1.smbRead s1.smbFull (fun s =>
    (s.emit (.smbus s.now ((s.mg.resp.drop s.mg.respPos ++ leBytes 32 0).take 32))).modMg (fun m => { m with respPos := m.respPos + 32 })))
/-- ADM_STAT: 0 idle, 1 running, 2 response ready, 3 buffer overflow. -/
def execAdmStat (t : Nat) (s : State) : Host.Outcome State Fault Refusal :=
  let s1 := s.at t
  .next (s1.smbRead s1.smbFull (fun s => s.emit (.smbus s.now (leBytes 1 s.mg.state))))
/-- WAKE wakes the part from part S2 or S3 (14 R478). -/
def execSmbusWake (t : Nat) (pec : Bool) (s : State) : Host.Outcome State Fault Refusal :=
  .next ((s.at t).smbWritten pec true (fun s => s.wakeAny 3 0))

/-- ALERT_RESPONSE: a part that asserts ALERT_N answers with its address and releases the pin (18 R566). -/
def execAlertResponse (t : Nat) (s : State) : Host.Outcome State Fault Refusal :=
  let s1 := s.at t
  .next (if s1.mg.alerting then
    (s1.emit (.smbus s1.now (leBytes 1 ((0x58 + s1.pw.strap % 4) * 2)))).modMg (fun m => { m with alerting := false, alertAnswered := some s1.now })
    else s1)
/-- ALERT_N_REASSERT: 100 ms after the release, while any cause still holds. -/
def execAlertNReassert (t : Nat) (s : State) : Host.Outcome State Fault Refusal :=
  let s1 := s.at t
  match s1.mg.alertAnswered with
  | some a =>
    if a + 100000000 ≤ s1.now ∧ s1.alertCauses ≠ 0 then
      .next ((s1.modMg (fun m => { m with alerting := true, alertCauses := s1.alertCauses, alertAnswered := none })).pfVector 1)
    else .next s1
  | none => .next s1

end Sys2Proof.Machine
end

