-- ==== Sys2Proof/Machine/Dispatch.lean ====
section
/-! DEFINITION. One arm per command: each calls its meaning. -/

namespace Sys2Proof.Machine

/-- The effect of one command on everything but the queue. -/
def exec (i : Instr) (s : State) : Host.Outcome State Fault Refusal :=
  match i with
  | .nop l g => Sys2Proof.Machine.execNop l g s
  | .add l g rd ra o => Sys2Proof.Machine.execAdd l g rd ra o s
  | .sub l g rd ra o => Sys2Proof.Machine.execSub l g rd ra o s
  | .mul l g rd ra o => Sys2Proof.Machine.execMul l g rd ra o s
  | .and l g rd ra o => Sys2Proof.Machine.execAnd l g rd ra o s
  | .or l g rd ra o => Sys2Proof.Machine.execOr l g rd ra o s
  | .xor l g rd ra o => Sys2Proof.Machine.execXor l g rd ra o s
  | .shl l g rd ra o => Sys2Proof.Machine.execShl l g rd ra o s
  | .shr l g rd ra o => Sys2Proof.Machine.execShr l g rd ra o s
  | .sar l g rd ra o => Sys2Proof.Machine.execSar l g rd ra o s
  | .min l g rd ra o => Sys2Proof.Machine.execMin l g rd ra o s
  | .max l g rd ra o => Sys2Proof.Machine.execMax l g rd ra o s
  | .minu l g rd ra o => Sys2Proof.Machine.execMinu l g rd ra o s
  | .maxu l g rd ra o => Sys2Proof.Machine.execMaxu l g rd ra o s
  | .mov l g rd o => Sys2Proof.Machine.execMov l g rd o s
  | .cmp l g pd cond ra o => Sys2Proof.Machine.execCmp l g pd cond ra o s
  | .pmask l g pd ra kx imm => Sys2Proof.Machine.execPmask l g pd ra kx imm s
  | .plog l g pd pa pb fn => Sys2Proof.Machine.execPlog l g pd pa pb fn s
  | .pmov l g p r dir => Sys2Proof.Machine.execPmov l g p r dir s
  | .ld l g rd ra imm => Sys2Proof.Machine.execLd l g rd ra imm s
  | .st l g rd ra imm => Sys2Proof.Machine.execSt l g rd ra imm s
  | .loop l g c len eosp ra kx imm => Sys2Proof.Machine.execLoop l g c len eosp ra kx imm s
  | .br l g target => Sys2Proof.Machine.execBr l g target s
  | .movc l g rd c => Sys2Proof.Machine.execMovc l g rd c s
  | .fence l g units => Sys2Proof.Machine.execFence l g units s
  | .endPass l g => Sys2Proof.Machine.execEnd l g s
  | .unitCommandComplete t l q bad => Sys2Proof.Machine.execUnitCommandComplete t l q bad s
  | .red l g vd ra fi fn => Sys2Proof.Machine.execRed l g vd ra fi fn s
  | .topk l g rd ra fi k rn ro t => Sys2Proof.Machine.execTopk l g rd ra fi k rn ro t s
  | .send l g port aw ra rn kx imm => Sys2Proof.Machine.execSend l g port aw ra rn kx imm s
  | .recv l g port ra rn kx imm => Sys2Proof.Machine.execRecv l g port ra rn kx imm s
  | .tsend l g port ra kx imm => Sys2Proof.Machine.execTsend l g port ra kx imm s
  | .trecv l g rd port => Sys2Proof.Machine.execTrecv l g rd port s
  | .mma l g ac ra rb fa fb init ms pm pn wr rw wlsb => Sys2Proof.Machine.execMma l g ac ra rb fa fb init ms pm pn wr rw wlsb s
  | .accout l g ac rd fo sat rs => Sys2Proof.Machine.execAccout l g ac rd fo sat rs s
  | .accin l g ac ra fi add => Sys2Proof.Machine.execAccin l g ac ra fi add s
  | .thdr l g ra fmt rs pm pn => Sys2Proof.Machine.execThdr l g ra fmt rs pm pn s
  | .get l g rl ra len => Sys2Proof.Machine.execGet l g rl ra len s
  | .put l g rl ra len => Sys2Proof.Machine.execPut l g rl ra len s
  | .atom l g rd ra rb rc fn => Sys2Proof.Machine.execAtom l g rd ra rb rc fn s
  | .vop l g vd va vb vc fn ps => Sys2Proof.Machine.execVop l g vd va vb vc fn ps s
  | .vcmp l g pd va vb cond => Sys2Proof.Machine.execVcmp l g pd va vb cond s
  | .vsf l g vd va fn => Sys2Proof.Machine.execVsf l g vd va fn s
  | .vldt l g vd ra fi rp pr pair => Sys2Proof.Machine.execVldt l g vd ra fi rp pr pair s
  | .vstt l g vs ra fo sat rp pr pair => Sys2Proof.Machine.execVstt l g vs ra fo sat rp pr pair s
  | .vld l g v ra f => Sys2Proof.Machine.execVld l g v ra f s
  | .vst l g v ra f sat => Sys2Proof.Machine.execVst l g v ra f sat s
  | .vmov l g v r dir lane cvt => Sys2Proof.Machine.execVmov l g v r dir lane cvt s
  | .leafCtlSwitch t src l w => Sys2Proof.Machine.execLeafCtlSwitch t src l w s
  | .leafCtlAbort t src l w => Sys2Proof.Machine.execLeafCtlAbort t src l w s
  | .passDispatch t srv => Sys2Proof.Machine.execPassDispatch t srv s
  | .bulkPassDispatch t inst => Sys2Proof.Machine.execBulkPassDispatch t inst s
  | .passComplete t inst => Sys2Proof.Machine.execPassComplete t inst s
  | .slotTransfer t b => Sys2Proof.Machine.execSlotTransfer t b s
  | .creditReturn t b src => Sys2Proof.Machine.execCreditReturn t b src s
  | .crossingLaneArrival t b key => Sys2Proof.Machine.execCrossingLaneArrival t b key s
  | .steeringDecision t b node unit => Sys2Proof.Machine.execSteeringDecision t b node unit s
  | .sentinelFire t b => Sys2Proof.Machine.execSentinelFire t b s
  | .linkCycleVcSelect t leaf out full => Sys2Proof.Machine.execLinkCycleVcSelect t leaf out full s
  | .packetArbitration t leaf port bad => Sys2Proof.Machine.execPacketArbitration t leaf port bad s
  | .packetArrival t x => Sys2Proof.Machine.execPacketArrival t x s
  | .modelLoad t src m => Sys2Proof.Machine.execModelLoad t src m s
  | .manifestVerified t id img man => Sys2Proof.Machine.execManifestVerified t id img man s
  | .preloadRun t id => Sys2Proof.Machine.execPreloadRun t id s
  | .seedBankFill t b => Sys2Proof.Machine.execSeedBankFill t b s
  | .contextLoad t b flips => Sys2Proof.Machine.execContextLoad t b flips s
  | .modelEvict t src m => Sys2Proof.Machine.execModelEvict t src m s
  | .imageRelease t id => Sys2Proof.Machine.execImageRelease t id s
  | .nearAccess t k errs => Sys2Proof.Machine.execNearAccess t k errs s
  | .nearPatrolScrub t k errs => Sys2Proof.Machine.execNearPatrolScrub t k errs s
  | .stackMapOut t k => Sys2Proof.Machine.execStackMapOut t k s
  | .warmAccess t c errs => Sys2Proof.Machine.execWarmAccess t c errs s
  | .warmPatrolScrub t c errs odecc rfm => Sys2Proof.Machine.execWarmPatrolScrub t c errs odecc rfm s
  | .warmChannelMapOut t c => Sys2Proof.Machine.execWarmChannelMapOut t c s
  | .volumeRead t block fails => Sys2Proof.Machine.execVolumeRead t block fails s
  | .volumeWrite t block data => Sys2Proof.Machine.execVolumeWrite t block data s
  | .ftlReplayEnd t => Sys2Proof.Machine.execFtlReplayEnd t s
  | .stripeClose t => Sys2Proof.Machine.execStripeClose t s
  | .staticWearLevelMove t => Sys2Proof.Machine.execStaticWearLevelMove t s
  | .readLimitRelocate t id => Sys2Proof.Machine.execReadLimitRelocate t id s
  | .ftlPatrolRead t id page fails => Sys2Proof.Machine.execFtlPatrolRead t id page fails s
  | .nandProgramFail t id ch => Sys2Proof.Machine.execNandProgramFail t id ch s
  | .deepChannelLoss t ch ce whole => Sys2Proof.Machine.execDeepChannelLoss t ch ce whole s
  | .ftlRebuildEnd t => Sys2Proof.Machine.execFtlRebuildEnd t s
  | .tierAccessLate t id => Sys2Proof.Machine.execTierAccessLate t id s
  | .moverDescriptorFetch t b m => Sys2Proof.Machine.execMoverDescriptorFetch t b m s
  | .moverNop t b m => Sys2Proof.Machine.execMoverNop t b m s
  | .moverMove t b m => Sys2Proof.Machine.execMoverMove t b m s
  | .moverWait t b m => Sys2Proof.Machine.execMoverWait t b m s
  | .moveComplete t b m kx => Sys2Proof.Machine.execMoveComplete t b m kx s
  | .shardArrivalVerify t near id => Sys2Proof.Machine.execShardArrivalVerify t near id s
  | .digestScrub t near id => Sys2Proof.Machine.execDigestScrub t near id s
  | .refetchComplete t near id rx => Sys2Proof.Machine.execRefetchComplete t near id rx s
  | .copyJobStart t => Sys2Proof.Machine.execCopyJobStart t s
  | .mcastShardSend t id => Sys2Proof.Machine.execMcastShardSend t id s
  | .loadDeadlineExpiry t id => Sys2Proof.Machine.execLoadDeadlineExpiry t id s
  | .graftPut t src m => Sys2Proof.Machine.execGraftPut t src m s
  | .graftReady t sd id ver => Sys2Proof.Machine.execGraftReady t sd id ver s
  | .graftCommit t sd id ver => Sys2Proof.Machine.execGraftCommit t sd id ver s
  | .graftRetire t src m => Sys2Proof.Machine.execGraftRetire t src m s
  | .graftFetch t => Sys2Proof.Machine.execGraftFetch t s
  | .forkDoorbell t b step => Sys2Proof.Machine.execForkDoorbell t b step s
  | .forkRelease t b step => Sys2Proof.Machine.execForkRelease t b step s
  | .groupTrigger t b gstep => Sys2Proof.Machine.execGroupTrigger t b gstep s
  | .groupRun t b gstep => Sys2Proof.Machine.execGroupRun t b gstep s
  | .triggerComplete t b gstep => Sys2Proof.Machine.execTriggerComplete t b gstep s
  | .returnedRowArrival t => Sys2Proof.Machine.execReturnedRowArrival t s
  | .join t b step => Sys2Proof.Machine.execJoin t b step s
  | .descriptorFetch t sd descs => Sys2Proof.Machine.execDescriptorFetch t sd descs s
  | .infer t sd => Sys2Proof.Machine.execInfer t sd s
  | .prefill t sd => Sys2Proof.Machine.execPrefill t sd s
  | .decodeStep t sd => Sys2Proof.Machine.execDecodeStep t sd s
  | .verifyStep t sd => Sys2Proof.Machine.execVerifyStep t sd s
  | .kvShip t sd => Sys2Proof.Machine.execKvShip t sd s
  | .kvShipComplete t sd => Sys2Proof.Machine.execKvShipComplete t sd s
  | .seqRelease t sd => Sys2Proof.Machine.execSeqRelease t sd s
  | .cancel t sd => Sys2Proof.Machine.execCancel t sd s
  | .deadlineGuard t id => Sys2Proof.Machine.execDeadlineGuard t id s
  | .expressCreditRefill t sd c => Sys2Proof.Machine.execExpressCreditRefill t sd c s
  | .inletFrame t num f => Sys2Proof.Machine.execInletFrame t num f s
  | .expressPassDispatch t inst => Sys2Proof.Machine.execExpressPassDispatch t inst s
  | .outletFrameSend t inst => Sys2Proof.Machine.execOutletFrameSend t inst s
  | .pinEntryReload t sd => Sys2Proof.Machine.execPinEntryReload t sd s
  | .standReset t src m => Sys2Proof.Machine.execStandReset t src m s
  | .stdResetGo t src sd w => Sys2Proof.Machine.execStdResetGo t src sd w s
  | .vfFlr t k sd => Sys2Proof.Machine.execVfFlr t k sd s
  | .pfFlr t k => Sys2Proof.Machine.execPfFlr t k s
  | .irqMaskWrite t src sd w => Sys2Proof.Machine.execIrqMaskWrite t src sd w s
  | .linkTraining t n mine peer inverted reversed kind id port rate => Sys2Proof.Machine.execLinkTraining t n mine peer inverted reversed kind id port rate s
  | .trainingAttemptTimeout t n failed => Sys2Proof.Machine.execTrainingAttemptTimeout t n failed s
  | .lnkCtlRetrain t src n w => Sys2Proof.Machine.execLnkCtlRetrain t src n w s
  | .flitReceive t n bytes cs uc => Sys2Proof.Machine.execFlitReceive t n bytes cs uc s
  | .flitSlot t n => Sys2Proof.Machine.execFlitSlot t n s
  | .nakRetransmit t n => Sys2Proof.Machine.execNakRetransmit t n s
  | .read t port tx => Sys2Proof.Machine.execRead t port tx s
  | .write t port tx => Sys2Proof.Machine.execWrite t port tx s
  | .atomic t port tx => Sys2Proof.Machine.execAtomic t port tx s
  | .signal t port tx => Sys2Proof.Machine.execSignal t port tx s
  | .mcastWrite t n tx => Sys2Proof.Machine.execMcastWrite t n tx s
  | .timeSync t n tx sub => Sys2Proof.Machine.execTimeSync t n tx sub s
  | .fork t port tx => Sys2Proof.Machine.execFork t port tx s
  | .kvFetch t port tx => Sys2Proof.Machine.execKvFetch t port tx s
  | .kvData t port tx => Sys2Proof.Machine.execKvData t port tx s
  | .resp t port tx => Sys2Proof.Machine.execResp t port tx s
  | .transactionForward t port tx => Sys2Proof.Machine.execTransactionForward t port tx s
  | .responseTimeout t dst tag => Sys2Proof.Machine.execResponseTimeout t dst tag s
  | .routeEpochSwap t => Sys2Proof.Machine.execRouteEpochSwap t s
  | .shadowCopyDone t => Sys2Proof.Machine.execShadowCopyDone t s
  | .rteCtlArm t src w => Sys2Proof.Machine.execRteCtlArm t src w s
  | .rteCtlDisarm t src w => Sys2Proof.Machine.execRteCtlDisarm t src w s
  | .quiesceRelease t dst vc => Sys2Proof.Machine.execQuiesceRelease t dst vc s
  | .berTest t src m => Sys2Proof.Machine.execBerTest t src m s
  | .berTestStart t => Sys2Proof.Machine.execBerTestStart t s
  | .berTestEnd t res => Sys2Proof.Machine.execBerTestEnd t res s
  | .fecWindowCheck t n => Sys2Proof.Machine.execFecWindowCheck t n s
  | .linkMapOut t n => Sys2Proof.Machine.execLinkMapOut t n s
  | .linkRestore t src m => Sys2Proof.Machine.execLinkRestore t src m s
  | .partJoin t src m => Sys2Proof.Machine.execPartJoin t src m s
  | .partDrain t src m => Sys2Proof.Machine.execPartDrain t src m s
  | .drainComplete t => Sys2Proof.Machine.execDrainComplete t s
  | .routeUpdate t src m => Sys2Proof.Machine.execRouteUpdate t src m s
  | .timeSyncRequest t sub => Sys2Proof.Machine.execTimeSyncRequest t sub s
  | .ppsInEdge t => Sys2Proof.Machine.execPpsInEdge t s
  | .ppsOutPulse t => Sys2Proof.Machine.execPpsOutPulse t s
  | .pcieInletWrite t k sd n off data => Sys2Proof.Machine.execPcieInletWrite t k sd n off data s
  | .apertureAccess t k f bar off n tag wr => Sys2Proof.Machine.execApertureAccess t k f bar off n tag wr s
  | .adminRingFetch t k f slot => Sys2Proof.Machine.execAdminRingFetch t k f slot s
  | .setOffset t off pec => Sys2Proof.Machine.execSetOffset t off pec s
  | .readCsr t => Sys2Proof.Machine.execReadCsr t s
  | .writeCsr t v pec => Sys2Proof.Machine.execWriteCsr t v pec s
  | .telem t => Sys2Proof.Machine.execTelem t s
  | .admPut t data pec => Sys2Proof.Machine.execAdmPut t data pec s
  | .admGo t pec => Sys2Proof.Machine.execAdmGo t pec s
  | .admGet t => Sys2Proof.Machine.execAdmGet t s
  | .admStat t => Sys2Proof.Machine.execAdmStat t s
  | .smbusWake t pec => Sys2Proof.Machine.execSmbusWake t pec s
  | .alertResponse t => Sys2Proof.Machine.execAlertResponse t s
  | .capSet t src m => Sys2Proof.Machine.execCapSet t src m s
  | .freeze t src m => Sys2Proof.Machine.execFreeze t src m s
  | .thaw t src m => Sys2Proof.Machine.execThaw t src m s
  | .counterSnapshot t src m => Sys2Proof.Machine.execCounterSnapshot t src m s
  | .csrWrite t src off data => Sys2Proof.Machine.execCsrWrite t src off data s
  | .ledgerTick t input mv reports other => Sys2Proof.Machine.execLedgerTick t input mv reports other s
  | .fixedWUpdate t => Sys2Proof.Machine.execFixedWUpdate t s
  | .coefUpdate t => Sys2Proof.Machine.execCoefUpdate t s
  | .averagePowerCheck t w => Sys2Proof.Machine.execAveragePowerCheck t w s
  | .ballastStep t load falls => Sys2Proof.Machine.execBallastStep t load falls s
  | .floorStep t w exceeds => Sys2Proof.Machine.execFloorStep t w exceeds s
  | .floorReleaseStep t => Sys2Proof.Machine.execFloorReleaseStep t s
  | .levelChangeComplete t b => Sys2Proof.Machine.execLevelChangeComplete t b s
  | .nrgHbBeat t src w => Sys2Proof.Machine.execNrgHbBeat t src w s
  | .orphanTimeout t => Sys2Proof.Machine.execOrphanTimeout t s
  | .inputSag t mv => Sys2Proof.Machine.execInputSag t mv s
  | .sagRecovery t mv => Sys2Proof.Machine.execSagRecovery t mv s
  | .lowInputStop t mv => Sys2Proof.Machine.execLowInputStop t mv s
  | .brownOut t mv => Sys2Proof.Machine.execBrownOut t mv s
  | .overvoltageStop t mv => Sys2Proof.Machine.execOvervoltageStop t mv s
  | .inputRecovery t mv => Sys2Proof.Machine.execInputRecovery t mv s
  | .reversePolarity t => Sys2Proof.Machine.execReversePolarity t s
  | .coolantFaultAssert t => Sys2Proof.Machine.execCoolantFaultAssert t s
  | .coolantFaultRelease t => Sys2Proof.Machine.execCoolantFaultRelease t s
  | .sensorUpdate t reads => Sys2Proof.Machine.execSensorUpdate t reads s
  | .overTemperatureRecovery t => Sys2Proof.Machine.execOverTemperatureRecovery t s
  | .s1Entry t b => Sys2Proof.Machine.execS1Entry t b s
  | .s2Entry t b => Sys2Proof.Machine.execS2Entry t b s
  | .enterPartS2 t src w => Sys2Proof.Machine.execEnterPartS2 t src w s
  | .enterS3 t src w => Sys2Proof.Machine.execEnterS3 t src w s
  | .leavePartS2 t src w => Sys2Proof.Machine.execLeavePartS2 t src w s
  | .wakePin t n level => Sys2Proof.Machine.execWakePin t n level s
  | .urrenSignalWake t n => Sys2Proof.Machine.execUrrenSignalWake t n s
  | .standbyBrownout t => Sys2Proof.Machine.execStandbyBrownout t s
  | .powerApplied t mv => Sys2Proof.Machine.execPowerApplied t mv s
  | .resetNLow t => Sys2Proof.Machine.execResetNLow t s
  | .resetNRelease t strap => Sys2Proof.Machine.execResetNRelease t strap s
  | .rstCtlRoot t src w => Sys2Proof.Machine.execRstCtlRoot t src w s
  | .watchdogExpiry t => Sys2Proof.Machine.execWatchdogExpiry t s
  | .rootclkLoss t => Sys2Proof.Machine.execRootclkLoss t s
  | .rootclkRecovery t => Sys2Proof.Machine.execRootclkRecovery t s
  | .refclkLoss t bit => Sys2Proof.Machine.execRefclkLoss t bit s
  | .bringUpStep t n f => Sys2Proof.Machine.execBringUpStep t n f s
  | .dbgCtlFreeze t src w => Sys2Proof.Machine.execDbgCtlFreeze t src w s
  | .dbgCtlThaw t src w => Sys2Proof.Machine.execDbgCtlThaw t src w s
  | .freezeNFallingEdge t high => Sys2Proof.Machine.execFreezeNFallingEdge t high s
  | .dbgDumpStart t src w => Sys2Proof.Machine.execDbgDumpStart t src w s
  | .dumpPieceEmit t => Sys2Proof.Machine.execDumpPieceEmit t s
  | .extest t pins n v => Sys2Proof.Machine.execExtest t pins n v s
  | .samplePreload t pins n v => Sys2Proof.Machine.execSamplePreload t pins n v s
  | .idcode t n v => Sys2Proof.Machine.execIdcode t n v s
  | .jtagFreeze t => Sys2Proof.Machine.execJtagFreeze t s
  | .jtagThaw t => Sys2Proof.Machine.execJtagThaw t s
  | .scanSel t n v => Sys2Proof.Machine.execScanSel t n v s
  | .scanData t n v => Sys2Proof.Machine.execScanData t n v s
  | .bypass t n v => Sys2Proof.Machine.execBypass t n v s
  | .counterSnapshotTick t busy stall => Sys2Proof.Machine.execCounterSnapshotTick t busy stall s
  | .traceRecordSend t => Sys2Proof.Machine.execTraceRecordSend t s
  | .freezeNStuckLow t => Sys2Proof.Machine.execFreezeNStuckLow t s
  | .outputShortDetect t cell rail => Sys2Proof.Machine.execOutputShortDetect t cell rail s
  | .linkLossOfLock t n => Sys2Proof.Machine.execLinkLossOfLock t n s
  | .refclkReturn t bit => Sys2Proof.Machine.execRefclkReturn t bit s
  | .alertNReassert t => Sys2Proof.Machine.execAlertNReassert t s
  | .railOutOfLimits t => Sys2Proof.Machine.execRailOutOfLimits t s
  | .pllLockLoss t => Sys2Proof.Machine.execPllLockLoss t s

end Sys2Proof.Machine
end

