-- ==== Sys2Proof/Safety.lean ====
section
/-! DEFINITION. What a safe run is, the invariants of the part, and the views of the state that statements are written in. -/

namespace Sys2Proof.Machine

/-- A step answered a next state: neither a fault nor a refusal. -/
def goesOn (o : Host.Outcome State Fault Refusal) : Bool :=
  match o with | .next _ => true | .fault _ => false | .refused _ => false

/-- The next k steps neither fault nor are refused. -/
def State.safeFor : Nat → State → Prop
  | 0, _ => True
  | k + 1, s => ∃ s', step s = .next s' ∧ s'.safeFor k

/-- The variant is one of the three that exist: 2, 4 or 8 compute dies (00 R7). -/
def PartId.legal (p : PartId) : Bool := p.dies == 2 || p.dies == 4 || p.dies == 8

/-- What no command changes: which part it is, and the commands that wait behind the one that runs. -/
def State.fixed (s : State) : PartId × List Instr := (s.part, s.pending)

/-- The stores that are kept in canonical form: memory and the register table. -/
def State.canonical (s : State) : Prop := Memory.wf s.mem = true ∧ tabWf none 0 s.csr = true

/-! ### Leaves -/

/-- A context of a leaf. -/
def Leaf.ctxAt (lf : Leaf) (c : Nat) : Ctx := tget Ctx.empty lf.ctxs c
/-- General register r of context c of a leaf (03 R83). -/
def State.gpr (s : State) (l c : Nat) (r : BitVec 5) : Word := tget 0 ((s.leaf l).ctxAt c).regs r.toNat
/-- Predicate register p of context c of a leaf (03 R83). -/
def State.prd (s : State) (l c : Nat) (p : BitVec 3) : Word := tget 0 ((s.leaf l).ctxAt c).preds p.toNat

/-- The leaf and guard of a leaf instruction. -/
def leafGuard : Instr → Option (Nat × Guard)
  | .nop l g | .add l g .. | .sub l g .. | .mul l g .. | .and l g .. | .or l g .. | .xor l g .. | .shl l g .. | .shr l g ..
  | .sar l g .. | .min l g .. | .max l g .. | .minu l g .. | .maxu l g .. | .mov l g .. | .cmp l g .. | .pmask l g ..
  | .plog l g .. | .pmov l g .. | .ld l g .. | .st l g .. | .loop l g .. | .br l g .. | .movc l g .. | .fence l g ..
  | .endPass l g | .red l g .. | .topk l g .. | .send l g .. | .recv l g .. | .tsend l g .. | .trecv l g .. | .mma l g ..
  | .accout l g .. | .accin l g .. | .thdr l g .. | .get l g .. | .put l g .. | .atom l g .. | .vop l g .. | .vcmp l g ..
  | .vsf l g .. | .vldt l g .. | .vstt l g .. | .vld l g .. | .vst l g .. | .vmov l g .. => some (l, g)
  | _ => none

/-- The registers a leaf instruction reads or writes, besides its guard (03 R120): it waits while a write of one is pending
(03 R92). -/
def leafUses : Instr → List RegRef
  | .add _ _ rd ra o | .sub _ _ rd ra o | .mul _ _ rd ra o | .and _ _ rd ra o | .or _ _ rd ra o | .xor _ _ rd ra o
  | .shl _ _ rd ra o | .shr _ _ rd ra o | .sar _ _ rd ra o | .min _ _ rd ra o | .max _ _ rd ra o | .minu _ _ rd ra o
  | .maxu _ _ rd ra o => [.g rd, .g ra] ++ opdUses o
  | .mov _ _ rd o => .g rd :: opdUses o
  | .cmp _ _ pd _ ra o => [.p pd, .g ra] ++ opdUses o
  | .pmask _ _ pd ra i _ => .p pd :: immUses i ra
  | .plog _ _ pd pa pb _ => [.p pd, .p pa, .p pb]
  | .pmov _ _ p r _ => [.p p, .g r]
  | .ld _ _ rd ra _ | .st _ _ rd ra _ => [.g rd, .g ra]
  | .loop _ _ _ _ _ ra i _ => immUses i ra
  | .movc _ _ rd _ => [.g rd]
  | .send _ _ _ _ ra rn i _ | .recv _ _ _ ra rn i _ => .g ra :: immUses i rn
  | .tsend _ _ _ ra i _ => immUses i ra
  | .trecv _ _ rd _ => [.g rd]
  | .mma _ _ _ ra rb _ _ _ ms pm pn wr rw _ => [.g ra, .g rb] ++ (if ms then [.p pm, .p pn] else []) ++ (if wr then [.g rw] else [])
  | .accout _ _ _ rd _ _ rs => [.g rd, .g rs]
  | .accin _ _ _ ra _ _ => [.g ra]
  | .thdr _ _ ra _ rs pm pn => [.g ra, .g rs, .p pm, .p pn]
  | .get _ _ rl ra _ | .put _ _ rl ra _ => [.g rl, .g ra, .g (ra + 1)]
  | .atom _ _ rd ra rb rc _ => [.g rd, .g ra, .g (ra + 1), .g rb, .g rc]
  | .vop _ _ vd va vb vc fn ps => [.v vd, .v va] ++ (if fn = 7 then [] else [.v vb]) ++ (if fn = 3 then [.v vc] else []) ++
      (if fn = 6 then [.p ps, .p (ps + 1)] else [])
  | .vcmp _ _ pd va vb _ => [.p pd, .p (pd + 1), .v va, .v vb]
  | .vsf _ _ vd va _ => [.v vd, .v va]
  | .vldt _ _ vd ra _ rp pr _ => [.v vd, .g ra] ++ (if pr then [.g rp] else [])
  | .vstt _ _ vs ra _ _ rp pr _ => [.v vs, .g ra] ++ (if pr then [.g rp] else [])
  | .vld _ _ v ra _ | .vst _ _ v ra _ _ => [.v v, .g ra]
  | .vmov _ _ v r _ _ _ => [.v v, .g r]
  | .red _ _ vd ra _ _ => [.v vd, .g ra]
  | .topk _ _ rd ra _ _ rn ro t => [.g rd, .g ra, .g ro] ++ (if t then [] else [.g rn])
  | _ => []

/-- A leaf instruction issues and is executed (03 R92, R93): the leaf exists, a pass runs on it and nothing holds its sequencer, no
write of a register it uses is pending, and its guard holds. -/
def State.ready (s : State) (i : Instr) : Prop :=
  ∃ l g, leafGuard i = some (l, g) ∧ l < s.nLeaves ∧ s.canIssue l = true ∧ (s.leaf l).regsPending (guardUses g) = false ∧
    (s.leaf l).guardOk g = true ∧ (s.leaf l).regsPending (leafUses i) = false

/-- The same for an instruction that transfers no control: no END token of a loop that finishes with it waits for a full queue
(03 R97, R99). -/
def State.executes (s : State) (i : Instr) : Prop :=
  s.ready i ∧ ∃ l g, leafGuard i = some (l, g) ∧ (s.leaf l).advance.isSome = true

/-- The same for a command of a unit with room in its queue (03 R81, R92). -/
def State.executesOn (s : State) (i : Instr) (u : LeafUnit) (port : Nat) : Prop :=
  s.executes i ∧ ∃ l g, leafGuard i = some (l, g) ∧ (s.leaf l).hasRoom u port = true

/-- Of the contexts of all leaves, only the registers that an instruction of leaf l writes may differ: rd, pd, and the sticky flags
where fl says so; program counters and loops may differ in the active context of l. -/
def State.ctxFrame (s t : State) (l : Nat) (rd : Option (BitVec 5)) (pd : BitVec 3 → Bool) (fl : Bool) : Prop :=
  (∀ l', l' ≠ l → (t.leaf l').ctxs = (s.leaf l').ctxs) ∧
  (∀ c, c ≠ (s.leaf l).active → (t.leaf l).ctxAt c = (s.leaf l).ctxAt c) ∧
  (∀ r, some r ≠ rd → t.gpr l (s.leaf l).active r = s.gpr l (s.leaf l).active r) ∧
  (∀ p, pd p = false → t.prd l (s.leaf l).active p = s.prd l (s.leaf l).active p) ∧
  (fl = false → ((t.leaf l).ctxAt (s.leaf l).active).flags = ((s.leaf l).ctxAt (s.leaf l).active).flags)

/-- No byte of memory differs. -/
def State.memSame (s t : State) : Prop := ∀ k, t.memByte k = s.memByte k

/-- Memory holds bs in the leaf memory of l from byte a on, modulo its size (03 R88), and is otherwise as before. -/
def State.leafStored (s t : State) (l a : Nat) (bs : List Byte) : Prop :=
  (∀ i, i < bs.length → t.memByte (leafKey l (a + i)) = bs.getD i 0) ∧
  (∀ k, (∀ i, i < bs.length → k ≠ leafKey l (a + i)) → t.memByte k = s.memByte k)

/-- Vector registers and accumulators of every leaf but those named stay; where a switch is pending, END of the pass may clear them
(03 R85). -/
def State.unitRegsFrame (s t : State) (l : Nat) (vd : Option (BitVec 4)) (ac : Option (BitVec 2)) : Prop :=
  (s.leaf l).swReq = false →
    (∀ v, some v ≠ vd → (t.leaf l).vreg v = (s.leaf l).vreg v) ∧ (∀ a, some a ≠ ac → (t.leaf l).acc a = (s.leaf l).acc a)

/-- The frame of an instruction that writes only scalar registers: nothing else of any leaf, no byte of memory and no register of
the map differs. -/
def State.scalarFrame (s t : State) (l : Nat) (rd : Option (BitVec 5)) (pd : BitVec 3 → Bool) : Prop :=
  s.ctxFrame t l rd pd false ∧ s.unitRegsFrame t l none none ∧ s.memSame t ∧ t.csr = s.csr

/-- No predicate register. -/
def noPred : BitVec 3 → Bool := fun _ => false

/-- A scalar instruction answers a next state in which rd of the active context holds v and nothing else differs. -/
def State.setsReg (s : State) (l : Nat) (rd : BitVec 5) (v : Word) (o : Host.Outcome State Fault Refusal) : Prop :=
  ∃ t, o = .next t ∧ t.gpr l (s.leaf l).active rd = v ∧ s.scalarFrame t l (some rd) noPred

/-- A predicate instruction answers a next state in which pd of the active context holds v and nothing else differs. -/
def State.setsPred (s : State) (l : Nat) (pd : BitVec 3) (v : Word) (o : Host.Outcome State Fault Refusal) : Prop :=
  ∃ t, o = .next t ∧ t.prd l (s.leaf l).active pd = v ∧ s.scalarFrame t l none (fun p => p == pd)

/-- A leaf instruction is executed and issues the command op to unit u: from s it answers a next state in which the command, with the
instruction's PC, is the last of the leaf's queue, and no register, byte of memory or register of the map differs. -/
def State.issues (s : State) (l : Nat) (u : LeafUnit) (op : UnitOp) (o : Host.Outcome State Fault Refusal) : Prop :=
  ∃ t, o = .next t ∧ (t.leaf l).queue = (s.leaf l).queue ++ [⟨u, 0, 0, 0, 0, 0, 0, 0, op, (s.leaf l).ctx.pc, []⟩] ∧
    s.scalarFrame t l none noPred

/-- Every command of a leaf's units has completed and no context switch is pending: what an instruction issues next has the leaf's
memory and registers to itself (03 R91, R94). -/
def Leaf.quiet (lf : Leaf) : Prop := lf.queue = [] ∧ lf.swReq = false

/-- A leaf instruction is executed, and its unit then runs the command it issued and completes it (UNIT_COMMAND_COMPLETE at time τ): the
first answers a next state with one command in the leaf's queue and no register or byte of memory changed, the second a next state with
no command left, of which P holds. -/
def State.runsOn (s : State) (τ l unit : Nat) (i : Instr) (P : State → Prop) : Prop :=
  ∃ t v c, exec i s = .next t ∧ (t.leaf l).queue = [c] ∧ c.unit = unitOf unit ∧ s.scalarFrame t l none noPred ∧
    exec (.unitCommandComplete τ l (unit, 0) none) t = .next v ∧ (v.leaf l).queue = [] ∧ P v

/-- The first KIND 2 record of a tile header of another format (03 R106, R122). -/
def Leaf.formatFault (lf lf' : Leaf) : Prop := lf.fault = none → lf'.fault.map (·.kind) = some 2

end Sys2Proof.Machine
end

