-- ==== Sys2Proof/Certificates/Slice0/Obligations.lean ====
section
/-! DEFINITION. The statements about the part, for the provers. Each names the rules it comes from. -/

open Sys2Proof Sys2Proof.Machine

/-- For every command c and state s whose queue holds c in front, step of s is exec of c on s with the queue's rest; on an empty
queue the part idles. The queue is the model's own (log entry 2). (R14) -/
def Obligations.StepRunsTheFrontCommand : Prop :=
  (∀ (s : State) (c : Instr) (rest : List Instr), s.pending = c :: rest → step s = exec c { s with pending := rest }) ∧
  (∀ s : State, s.pending = [] → step s = .next s)

/-- After a cold reset ring time is 0, no command waits, memory lists nothing, every register of the map reads its reset value, the
rails are good, every leaf is IDLE and every branch unassigned. The variant, the stepping and the value an unlisted byte reads
as are the model's choices (log entries 1 and 3). (15 R507, 15 R511, 01 R32) -/
def Obligations.ResetState : Prop :=
  State.reset.now = 0 ∧ State.reset.pending = [] ∧ (∀ k, State.reset.memByte k = 0) ∧
  (∀ off, State.reset.reg off = regReset off) ∧ State.reset.pw.supply = .on ∧
  (∀ l, (State.reset.leaf l).mode = .idle) ∧ (∀ b, (State.reset.branch b).assigned = false) ∧
  State.reset.part.legal = true ∧ State.reset.canonical

/-- From every state, a step that answers a next state leaves the variant and stepping as they were and takes exactly one command
from the queue (none from an empty one): no command of the part changes what part it is, or the queue behind it. (00 R7, 00 R9) -/
def Obligations.StepKeepsThePartAndTheQueue : Prop :=
  ∀ s t : State, step s = .next t → t.fixed = (s.part, s.pending.tail)

/-- From every state whose memory lists strictly rising keys with no entry equal to 0, and whose register table lists strictly
rising offsets with no entry equal to its default, every step that answers a next state leaves both in that form, so that equal
memories stay equal data. The form is the model's own (log entry 1). (01 R26, 01 R31) -/
def Obligations.StepKeepsTheCanonicalForm : Prop :=
  ∀ s t : State, s.canonical → step s = .next t → t.canonical

/-- For every leaf instruction i that obeys the operand rules, with every operand at every value its field admits, decoding the
64-bit word that R119 and R120 give i yields i: no bit of an encoding is dropped and no two well-formed instructions share a
word. (03 R119, 03 R120, 03 R121) -/
def Obligations.LeafCodeRoundTrip : Prop :=
  ∀ (i : Instr) (l : Nat) (g : Guard), leafGuard i = some (l, g) → i.wf = true → decodeLeafWord l (encodeLeafWord i) = some i

/-- A word that the decoder of leaf code accepts is the word of the instruction it answers, and that instruction obeys the operand
rules: a reserved opcode, a nonzero reserved bit or a broken operand rule is refused. All-zero bits are a NOP; words written out
field by field from R120 decode to the instruction they stand for; the reserved opcode 0x0F, an ADD with a reserved bit set and
a MOV with a nonzero RA are refused. (03 R119, 03 R120, 03 R121) -/
def Obligations.LeafWords : Prop :=
  (∀ (l w : Nat) (i : Instr), decodeLeafWord l w = some i → encodeLeafWord i = w ∧ i.wf = true) ∧
  (decodeLeafWord 5 0 = some (.nop 5 ⟨false, false, 0⟩) ∧
   decodeLeafWord 5 (0x01 * 2 ^ 58 + 3 * 2 ^ 48 + 4 * 2 ^ 43 + 5 * 2 ^ 38) = some (.add 5 ⟨false, false, 0⟩ 3 4 ⟨false, 5, 0⟩) ∧
   decodeLeafWord 5 (0x15 * 2 ^ 58 + 7 * 2 ^ 48 + 31 * 2 ^ 43 + 0xFFFFFFFC) = some (.st 5 ⟨false, false, 0⟩ 7 31 0xFFFFFFFC) ∧
   decodeLeafWord 5 (0x21 * 2 ^ 58 + 2 ^ 57 + 2 ^ 56 + 6 * 2 ^ 53 + 511) = some (.br 5 ⟨true, true, 6⟩ 511) ∧
   decodeLeafWord 5 (0x24 * 2 ^ 58) = some (.endPass 5 ⟨false, false, 0⟩) ∧
   decodeLeafWord 5 (0x0F * 2 ^ 58) = none ∧ decodeLeafWord 5 (0x01 * 2 ^ 58 + 2 ^ 33) = none ∧
   decodeLeafWord 5 (0x0E * 2 ^ 58 + 2 ^ 43) = none)

/-- Whenever ADD, SUB, MUL, AND, OR, XOR, SHL, SHR, SAR, MIN, MAX, MINU, MAXU or MOV is executed, it answers a next state in which
RD of the active context holds the result of R120 for the value of RA and the second operand (IMM where I = 1, else RB), both
read before RD is written; no other register, predicate, flag, vector register, accumulator, byte of memory or register of the
map changes. (03 R83, 03 R92, 03 R93, 03 R120) -/
def Obligations.ScalarResults : Prop :=
  ∀ (s : State) (l : Nat) (g : Guard) (rd ra : BitVec 5) (o : Opd),
    let a := (s.leaf l).reg ra
    let b := if o.i then o.imm else (s.leaf l).reg o.rb
    let gives := fun (i : Instr) (v : Word) => s.executes i → s.setsReg l rd v (exec i s)
    gives (.add l g rd ra o) (a + b) ∧
    gives (.sub l g rd ra o) (a - b) ∧
    gives (.mul l g rd ra o) (a * b) ∧
    gives (.and l g rd ra o) (a &&& b) ∧
    gives (.or l g rd ra o) (a ||| b) ∧
    gives (.xor l g rd ra o) (a ^^^ b) ∧
    gives (.shl l g rd ra o) (a <<< (b.toNat % 32)) ∧
    gives (.shr l g rd ra o) (a >>> (b.toNat % 32)) ∧
    gives (.sar l g rd ra o) (a.sshiftRight (b.toNat % 32)) ∧
    gives (.min l g rd ra o) (if a.toInt < b.toInt then a else b) ∧
    gives (.max l g rd ra o) (if a.toInt < b.toInt then b else a) ∧
    gives (.minu l g rd ra o) (if a.toNat < b.toNat then a else b) ∧
    gives (.maxu l g rd ra o) (if a.toNat < b.toNat then b else a) ∧
    gives (.mov l g rd o) b

/-- Whenever it is executed, CMP with COND 0 to 5 answers a next state with all ones in PD where its condition (EQ, NE, LT, LE
signed, LTU, LEU unsigned) holds and 0 where it does not, PMASK one with the n low ones in PD (all ones for n of 32 or more),
PLOG one with the AND, OR, XOR or AND-NOT of two predicates, PMOV one with the register in the predicate or the predicate in the
register; nothing else changes. CMP with COND 6 or 7 is refused, as no loaded image can hold it. (03 R92, 03 R93, 03 R120, 03
R121) -/
def Obligations.PredicateResults : Prop :=
  ∀ (s : State) (l : Nat) (g : Guard) (pd pa pb : BitVec 3) (ra : BitVec 5) (o : Opd),
    let a := (s.leaf l).reg ra
    let b := if o.i then o.imm else (s.leaf l).reg o.rb
    let word := fun (c : Bool) => if c then (0xFFFFFFFF : Word) else 0
    let gives := fun (i : Instr) (v : Word) => s.executes i → s.setsPred l pd v (exec i s)
    gives (.cmp l g pd 0 ra o) (word (decide (a = b))) ∧
    gives (.cmp l g pd 1 ra o) (word (decide (a ≠ b))) ∧
    gives (.cmp l g pd 2 ra o) (word (decide (a.toInt < b.toInt))) ∧
    gives (.cmp l g pd 3 ra o) (word (decide (a.toInt ≤ b.toInt))) ∧
    gives (.cmp l g pd 4 ra o) (word (decide (a.toNat < b.toNat))) ∧
    gives (.cmp l g pd 5 ra o) (word (decide (a.toNat ≤ b.toNat))) ∧
    (∀ c : BitVec 3, 5 < c.toNat → exec (.cmp l g pd c ra o) s = .refused .reservedLeafCode) ∧
    (∀ (i : Bool) (imm : Word), let n := (if i then imm else a).toNat
      gives (.pmask l g pd ra i imm) (if n < 32 then BitVec.ofNat 32 (2 ^ n - 1) else 0xFFFFFFFF)) ∧
    (let x := (s.leaf l).pred pa
     let y := (s.leaf l).pred pb
     gives (.plog l g pd pa pb 0) (x &&& y) ∧ gives (.plog l g pd pa pb 1) (x ||| y) ∧
     gives (.plog l g pd pa pb 2) (x ^^^ y) ∧ gives (.plog l g pd pa pb 3) (x &&& ~~~y)) ∧
    gives (.pmov l g pd ra false) a ∧
    (s.executes (.pmov l g pd ra true) → s.setsReg l ra ((s.leaf l).pred pd) (exec (.pmov l g pd ra true) s))

/-- On a leaf whose earlier commands have all completed, LD is executed as one vector-unit command that leaves RD holding the four
bytes, least significant first, of leaf memory at (RA + IMM) mod 2^18 with bits [1:0] ignored, and no byte of memory changed; ST
as one that leaves those four bytes of the leaf's memory holding RD and every other byte, register, predicate and flag as it
was. With other commands in the queue and room for one, each issues its command behind them and changes nothing until the vector
unit runs it. (03 R88, 03 R91, 03 R92, 03 R114) -/
def Obligations.LoadAndStoreWords : Prop :=
  ∀ (s : State) (τ l : Nat) (g : Guard) (rd ra : BitVec 5) (imm : Word),
    let a := ((s.leaf l).reg ra + imm).toNat % 0x40000 / 4 * 4
    let c := (s.leaf l).active
    (s.executesOn (.ld l g rd ra imm) .vector 0 →
      s.issues l .vector (.loadWord rd a) (exec (.ld l g rd ra imm) s)) ∧
    (s.executesOn (.st l g rd ra imm) .vector 0 →
      s.issues l .vector (.store [(a, leBytes 4 ((s.leaf l).reg rd).toNat)] false a none 0) (exec (.st l g rd ra imm) s)) ∧
    ((s.leaf l).quiet →
      (s.executes (.ld l g rd ra imm) → s.runsOn τ l 1 (.ld l g rd ra imm) (fun v =>
        v.gpr l c rd = BitVec.ofNat 32 (leNat ((List.range 4).map (fun i => s.memByte (leafKey l (a + i))))) ∧
        s.ctxFrame v l (some rd) noPred false ∧ s.unitRegsFrame v l none none ∧ s.memSame v ∧ v.csr = s.csr)) ∧
      (s.executes (.st l g rd ra imm) → s.runsOn τ l 1 (.st l g rd ra imm) (fun v =>
        s.leafStored v l a (leBytes 4 ((s.leaf l).reg rd).toNat) ∧
        s.ctxFrame v l none noPred false ∧ s.unitRegsFrame v l none none ∧ v.csr = s.csr)))

/-- The guard of an instruction holds unless it has one and (p[GP] is not 0) XOR GN is false. For every well-formed leaf instruction
whose guard does not hold, the command does exactly what a NOP with the same guard does; issued outside the last instruction of
a loop body and below PC 511, it answers a next state at the next PC in which every queue of unit commands, every port of the
leaf, every register, flag and byte of memory is as it was: it sends no command to any unit and emits no token. (The issue cycle
is the command itself: the model has no cycles, log entry 5.) Where the rules leave a reading or a choice, this is the model's:
log entry 5. (R93) -/
def Obligations.GuardedOffInstruction : Prop :=
  ∀ (s : State) (i : Instr) (l : Nat) (g : Guard), leafGuard i = some (l, g) → i.wf = true → l < s.nLeaves →
    let lf := s.leaf l
    (lf.guardOk g = false ↔ g.ge = true ∧ (lf.pred g.gp ≠ 0 ↔ g.gn = true)) ∧
    (lf.guardOk g = false → exec i s = exec (.nop l g) s ∧
      (s.canIssue l = true → lf.regsPending (guardUses g) = false → lf.ctx.pc < 511 → (∀ f ∈ lf.ctx.loops, f.stop ≠ lf.ctx.pc) →
        ∃ t : State, exec i s = .next t ∧ ((t.leaf l).ctxAt lf.active).pc = lf.ctx.pc + 1 ∧ (t.leaf l).queue = lf.queue ∧
          (∀ p, (t.leaf l).outPort p = lf.outPort p ∧ (t.leaf l).inPort p = lf.inPort p) ∧ s.scalarFrame t l none noPred))

/-- Executed outside the last instruction of a loop body and below PC 511, NOP and MOVC answer a next state that goes on at the next
PC, MOVC with the 0-based index of the named counter in RD (0 where it is inactive); BR answers one at TARGET; LOOP with a count
n > 0 one whose counter is active at index 0 with the L instructions that follow as its body; with n = 0 and no EOSP one behind
the body. At the last instruction of the innermost body, with iterations left, the next PC is the body's first and the index
rises by one; after the last iteration of a single loop without EOSP execution goes on behind the body with the counter
inactive. Where the rules leave a reading or a choice, this is the model's: log entries 5, 23. (03 R82, 03 R96, 03 R97, 03 R119,
03 R120) -/
def Obligations.LoopsBranchesAndTheCounter : Prop :=
  ∀ (s : State) (l : Nat) (g : Guard),
    let c := (s.leaf l).ctx
    let a := (s.leaf l).active
    (c.pc < 511 → (∀ f ∈ c.loops, f.stop ≠ c.pc) →
      (s.ready (.nop l g) → ∃ t, exec (.nop l g) s = .next t ∧ ((t.leaf l).ctxAt a).pc = c.pc + 1 ∧ s.scalarFrame t l none noPred) ∧
      (∀ (rd : BitVec 5) (n : BitVec 2), s.ready (.movc l g rd n) →
        ∃ t, exec (.movc l g rd n) s = .next t ∧ ((t.leaf l).ctxAt a).pc = c.pc + 1 ∧
          t.gpr l a rd = BitVec.ofNat 32 (loopIndex n.toNat c.loops) ∧ s.scalarFrame t l (some rd) noPred)) ∧
    (∀ target : BitVec 9, s.ready (.br l g target) →
      ∃ t, exec (.br l g target) s = .next t ∧ ((t.leaf l).ctxAt a).pc = target.toNat ∧
        ((t.leaf l).ctxAt a).loops = c.loops ∧ s.scalarFrame t l none noPred) ∧
    (∀ (n : BitVec 2) (len : BitVec 9) (eosp : BitVec 3) (ra : BitVec 5) (i : Bool) (imm : Word), eosp.toNat ≤ 4 → c.pc < 511 →
      s.ready (.loop l g n len eosp ra i imm) →
      let trips := (if i then imm else (s.leaf l).reg ra).toNat
      (0 < trips → ∃ t, exec (.loop l g n len eosp ra i imm) s = .next t ∧ ((t.leaf l).ctxAt a).pc = c.pc + 1 ∧
        ((t.leaf l).ctxAt a).loops =
          ⟨n.toNat, c.pc + 1, c.pc + 1 + len.toNat, 0, trips, if eosp = 0 then none else some (eosp.toNat - 1)⟩ :: c.loops ∧
        s.scalarFrame t l none noPred) ∧
      (trips = 0 → eosp = 0 → c.pc + 1 + len.toNat < 511 → (∀ f ∈ c.loops, f.stop ≠ c.pc + 1 + len.toNat) →
        ∃ t, exec (.loop l g n len eosp ra i imm) s = .next t ∧ ((t.leaf l).ctxAt a).pc = c.pc + len.toNat + 2 ∧
          ((t.leaf l).ctxAt a).loops = c.loops ∧ s.scalarFrame t l none noPred)) ∧
    (∀ (f : LoopFrame) (fs : List LoopFrame), s.ready (.nop l g) → c.loops = f :: fs → f.stop = c.pc →
      (f.index + 1 < f.trips →
        ∃ t, exec (.nop l g) s = .next t ∧ ((t.leaf l).ctxAt a).pc = f.start ∧
          ((t.leaf l).ctxAt a).loops = { f with index := f.index + 1 } :: fs ∧ s.scalarFrame t l none noPred) ∧
      (f.trips ≤ f.index + 1 → f.eosp = none → c.pc < 511 → (∀ f' ∈ fs, f'.stop ≠ c.pc) →
        ∃ t, exec (.nop l g) s = .next t ∧ ((t.leaf l).ctxAt a).pc = c.pc + 1 ∧ ((t.leaf l).ctxAt a).loops = fs ∧
          s.scalarFrame t l none noPred))

/-- A FENCE that is executed while no unit it names has an uncompleted command answers a next state at the next PC; while one has,
it answers one in which the sequencer is held at the FENCE (no instruction of the leaf can issue). An END that is executed with
every unit idle and no switch pending answers a next state in which the leaf is in WAIT_PASS, every counter is inactive and its
registers are as they were; with a command outstanding it is held and the queue stays. Where the rules leave a reading or a
choice, this is the model's: log entries 5, 11. (03 R84, 03 R94, 03 R98) -/
def Obligations.FenceAndEnd : Prop :=
  ∀ (s : State) (l : Nat) (g : Guard),
    let c := (s.leaf l).ctx
    let a := (s.leaf l).active
    (∀ units : BitVec 6, s.ready (.fence l g units) →
      (fenceHolds units (s.leaf l).queue = false → c.pc < 511 → (∀ f ∈ c.loops, f.stop ≠ c.pc) →
        ∃ t, exec (.fence l g units) s = .next t ∧ ((t.leaf l).ctxAt a).pc = c.pc + 1 ∧ (t.leaf l).block = .none ∧
          s.scalarFrame t l none noPred) ∧
      (fenceHolds units (s.leaf l).queue = true →
        ∃ t, exec (.fence l g units) s = .next t ∧ (t.leaf l).block = .fence units ∧ t.canIssue l = false ∧
          ((t.leaf l).ctxAt a).pc = c.pc ∧ s.scalarFrame t l none noPred)) ∧
    (s.ready (.endPass l g) →
      ((s.leaf l).quiet →
        ∃ t, exec (.endPass l g) s = .next t ∧ (t.leaf l).mode = .waitPass ∧ ((t.leaf l).ctxAt a).loops = [] ∧
          s.scalarFrame t l none noPred) ∧
      ((s.leaf l).queue ≠ [] →
        ∃ t, exec (.endPass l g) s = .next t ∧ (t.leaf l).block = .ending ∧ t.canIssue l = false ∧
          (t.leaf l).queue = (s.leaf l).queue ∧ s.scalarFrame t l none noPred))

/-- On a leaf whose earlier commands have all completed, VOP is executed as a vector-unit command that leaves lane i of VD, below
the context's vector width, holding ADD, SUB, MUL, FMA, MIN, MAX, SEL or MOV of lane i of its sources and +0 above it; VSF one
with the special function of lane i; VCMP one with the predicate bits of those lanes. VD carries the first poison of the sources
its function reads, LEAF_STATUS the first poison consumed, and the lanes below the width raise their sticky flags. Memory and
every other register stay. With other commands in the queue and room for one, each issues its command behind them and changes
nothing yet. (02 R59, 02 R77, 02 R78, 03 R109, 03 R111, 03 R118) -/
def Obligations.VectorArithmetic : Prop :=
  ∀ (s : State) (τ l : Nat) (g : Guard) (vd va vb vc fn : BitVec 4) (ps pd cond : BitVec 3),
    let lf := s.leaf l
    let x := fun i => (lf.vreg va).lane i
    let y := fun i => (lf.vreg vb).lane i
    let z := fun i => (lf.vreg vc).lane i
    let consumes := fun (v : State) (why : Option Byte) => (v.leaf l).poison = lf.poison.or why
    let raises := fun (v : State) (f : Nat → Word × FFlags) =>
      ((v.leaf l).ctxAt lf.active).flags = lf.ctx.flags ||| laneFlags lf.vw f
    let writes := fun (v : State) (f : Nat → Word × FFlags) (why : Option Byte) =>
      (∀ i, i < 64 → ((v.leaf l).vreg vd).lane i = if i < lf.vw then (f i).1 else 0) ∧ ((v.leaf l).vreg vd).poison = why ∧
      consumes v why ∧ raises v f ∧ s.memSame v ∧ s.ctxFrame v l none noPred true ∧ s.unitRegsFrame v l (some vd) none
    (s.executes (.vop l g vd va vb vc fn ps) → lf.quiet → fn.toNat ≤ 7 → (fn = 6 → ps.toNat % 2 = 0) →
      s.runsOn τ l 1 (.vop l g vd va vb vc fn ps) (fun v => writes v
        (fun i => if fn = 0 then fp32Add (x i) (y i) else if fn = 1 then fp32Sub (x i) (y i)
          else if fn = 2 then fp32Mul (x i) (y i) else if fn = 3 then fp32Fma (x i) (y i) (z i)
          else if fn = 4 then fp32Min (x i) (y i) else if fn = 5 then fp32Max (x i) (y i)
          else if fn = 6 then (if (lf.pred (if i < 32 then ps else ps + 1)).toNat.testBit (i % 32) then x i else y i, 0)
          else (x i, 0))
        (firstWhy [(lf.vreg va).poison, if fn = 7 then none else (lf.vreg vb).poison,
          if fn = 3 then (lf.vreg vc).poison else none]))) ∧
    (s.executes (.vsf l g vd va fn) → lf.quiet → fn.toNat ≤ 5 →
      s.runsOn τ l 1 (.vsf l g vd va fn) (fun v => writes v (fun i => special fn.toNat (x i)) (lf.vreg va).poison)) ∧
    (s.executes (.vcmp l g pd va vb cond) → lf.quiet → cond.toNat ≤ 6 → pd.toNat % 2 = 0 →
      s.runsOn τ l 1 (.vcmp l g pd va vb cond) (fun v =>
        (∀ i, i < 32 → (v.prd l lf.active pd).toNat.testBit i = (decide (i < lf.vw) && fp32Cond cond.toNat (x i) (y i)) ∧
          (v.prd l lf.active (pd + 1)).toNat.testBit i =
            (decide (32 + i < lf.vw) && fp32Cond cond.toNat (x (32 + i)) (y (32 + i)))) ∧
        consumes v (firstWhy [(lf.vreg va).poison, (lf.vreg vb).poison]) ∧
        raises v (fun i => (0, if isNanV (ofFp32 (x i)) || isNanV (ofFp32 (y i)) then flNanIn else 0)) ∧
        s.memSame v ∧ s.ctxFrame v l none (fun p => p == pd || p == pd + 1) true ∧ s.unitRegsFrame v l none none)) ∧
    (∀ i : Instr, i = .vop l g vd va vb vc fn ps ∨ i = .vsf l g vd va fn ∨ i = .vcmp l g pd va vb cond → i.wf = true →
      s.executesOn i .vector 0 → ∃ op, s.issues l .vector op (exec i s))

/-- On a leaf whose earlier commands have all completed, each is executed as one vector-unit command. VMOV with DIR 0 leaves
register R (converted from INT32 where CVT = 1) in every lane below the vector width and +0 above, with DIR 1 lane LANE in R.
VLD leaves 64 elements of the line of RA in the register; VLDT rows 2q and 2q + 1 of the tile there where the header's FORMAT
equals FI, and otherwise +0 lanes, the header's own reason or 0x01, and a KIND 2 fault. VST stores 64 lanes from the line of RA;
VSTT rows 2q and 2q + 1 in format FO, for MX and TS formats their two scales, and the poison flag of the header for a poisoned
register. No other byte, register or predicate changes. Where the rules leave a reading or a choice, this is the model's: log
entries 18, 19. (02 R56, 02 R57, 02 R58, 02 R77, 03 R88, 03 R109, 03 R110, 03 R111, 03 R118) -/
def Obligations.VectorMoves : Prop :=
  ∀ (s : State) (τ l : Nat) (g : Guard) (v : BitVec 4) (ra rp : BitVec 5) (f : BitVec 5) (pr : Bool) (pair : BitVec 4),
    let lf := s.leaf l
    let a := (lf.reg ra).toNat % 0x40000 / 64 * 64
    let q := if pr then (lf.reg rp).toNat % 16 else pair.toNat
    let lanes := fun (u : State) (x : Nat → Word) (why : Option Byte) =>
      (∀ i, i < 64 → ((u.leaf l).vreg v).lane i = if i < lf.vw then x i else 0) ∧ ((u.leaf l).vreg v).poison = why ∧
      s.memSame u ∧ s.ctxFrame u l none noPred true ∧ s.unitRegsFrame u l (some v) none
    (∀ (lane : BitVec 6) (cvt : Bool), lf.quiet →
      (s.executes (.vmov l g v ra false lane cvt) → s.runsOn τ l 1 (.vmov l g v ra false lane cvt) (fun u =>
        lanes u (fun _ => if cvt then (toFp32 (decInt 32 (lf.reg ra).toNat)).1 else lf.reg ra) none)) ∧
      (s.executes (.vmov l g v ra true lane cvt) → s.runsOn τ l 1 (.vmov l g v ra true lane cvt) (fun u =>
        u.gpr l lf.active ra =
          (if cvt then BitVec.ofNat 32 (encInt 32 0 (ofFp32 ((lf.vreg v).lane lane.toNat))).1 else (lf.vreg v).lane lane.toNat) ∧
        (u.leaf l).poison = lf.poison.or (lf.vreg v).poison ∧
        s.memSame u ∧ s.ctxFrame u l (some ra) noPred true ∧ s.unitRegsFrame u l none none))) ∧
    (s.executes (.vld l g v ra f) → lf.quiet → okUnscaledVec f.toNat = true → s.runsOn τ l 1 (.vld l g v ra f) (fun u =>
      let bs := s.leafPlain l a (8 * codeBits f.toNat)
      let es := rowVals f.toNat 127 bs ++ rowVals f.toNat 127 (bs.drop (4 * codeBits f.toNat))
      lanes u (fun i => (toFp32 (es.getD i (.fin false 0 0))).1) none)) ∧
    (∀ sat : Bool, s.executes (.vst l g v ra f sat) → lf.quiet → okUnscaledVec f.toNat = true →
      s.runsOn τ l 1 (.vst l g v ra f sat) (fun u =>
        s.leafStored u l a (storeRow f.toNat sat ((List.range 64).map (fun i => (lf.vreg v).lane i))).2.1 ∧
        (u.leaf l).poison = lf.poison.or (lf.vreg v).poison ∧
        s.ctxFrame u l none noPred true ∧ s.unitRegsFrame u l none none)) ∧
    (s.executes (.vldt l g v ra f rp pr pair) → lf.quiet → okVector f.toNat = true →
      let h := hdrAt (s.leafPlain l) a
      s.runsOn τ l 1 (.vldt l g v ra f rp pr pair) (fun u =>
        (h.fmt = f.toNat →
          (let es := rowVals f.toNat (h.scales.getD (2 * q) 0) (rowAt (s.leafPlain l) a f.toNat (2 * q)) ++
             rowVals f.toNat (h.scales.getD (2 * q + 1) 0) (rowAt (s.leafPlain l) a f.toNat (2 * q + 1))
           lanes u (fun i => (toFp32 (es.getD i (.fin false 0 0))).1) h.why) ∧ (u.leaf l).poison = lf.poison.or h.why) ∧
        (h.fmt ≠ f.toNat → lanes u (fun _ => 0) (some (h.why.getD 0x01)) ∧ (u.leaf l).poison = lf.poison.or (some (h.why.getD 0x01)) ∧
          lf.formatFault (u.leaf l)))) ∧
    (∀ sat : Bool, s.executes (.vstt l g v ra f sat rp pr pair) → lf.quiet → okVector f.toNat = true →
      let rb := rowBytes f.toNat
      let r0 := storeRow f.toNat sat ((List.range 32).map (fun i => (lf.vreg v).lane i))
      let r1 := storeRow f.toNat sat ((List.range 32).map (fun i => (lf.vreg v).lane (32 + i)))
      let at0 := a + 64 + 2 * q * rb
      s.runsOn τ l 1 (.vstt l g v ra f sat rp pr pair) (fun u =>
        (∀ i, i < 2 * rb → u.memByte (leafKey l (at0 + i)) = (r0.2.1 ++ r1.2.1).getD i 0) ∧
        (isScaled f.toNat = true → u.memByte (leafKey l (a + 32 + 2 * q)) = r0.1 ∧ u.memByte (leafKey l (a + 33 + 2 * q)) = r1.1) ∧
        u.memByte (leafKey l (a + 1)) =
          (if (lf.vreg v).poison.isSome then s.memByte (leafKey l (a + 1)) ||| 1 else s.memByte (leafKey l (a + 1))) ∧
        (∀ k, (∀ i, i < 2 * rb → k ≠ leafKey l (at0 + i)) → k ≠ leafKey l (a + 1) →
          (isScaled f.toNat = true → k ≠ leafKey l (a + 32 + 2 * q) ∧ k ≠ leafKey l (a + 33 + 2 * q)) → u.memByte k = s.memByte k) ∧
        (u.leaf l).poison = lf.poison.or (lf.vreg v).poison ∧
        s.ctxFrame u l none noPred true ∧ s.unitRegsFrame u l none none))

/-- On a leaf whose earlier commands have all completed, each is executed as one matrix-unit command. MMA leaves in AC, where the
operand headers name its formats, the accumulator and flags that R103-R105 give for its two tiles; with a header of another
format nothing is computed into AC: an INIT = 1 MMA restarts it empty and poisoned, an INIT = 0 MMA leaves its elements, mode
and masks and poisons it unless it was poisoned before, and a KIND 2 fault is recorded. ACCOUT stores the whole tile at the line
of RD and leaves every accumulator; a format its mode does not permit records KIND 3. ACCIN with the header's FORMAT equal to FI
leaves the tile loaded or combined; otherwise it only poisons and records KIND 2. Memory (but ACCOUT's tile), scalar registers,
vector registers and the other accumulators stay. (The restart on a format error is the model's reading of R103, log 25.) Where
the rules leave a reading or a choice, this is the model's: log entries 11, 18, 25. (02 R62, 02 R63, 02 R65, 02 R66, 02 R67, 02
R69, 03 R103, 03 R104, 03 R105, 03 R106, 03 R107, 03 R108) -/
def Obligations.MatrixUnit : Prop :=
  ∀ (s : State) (τ l : Nat) (g : Guard) (ac : BitVec 2) (ra rb fa fb : BitVec 5),
    let lf := s.leaf l
    let raises := fun (v : State) (fl : FFlags) => ((v.leaf l).ctxAt lf.active).flags = lf.ctx.flags ||| fl
    (∀ (init ms : Bool) (pm pn : BitVec 3) (wr : Bool) (rw : BitVec 5) (wlsb : BitVec 10), mmaWf fa fb wr wlsb = true →
      s.executes (.mma l g ac ra rb fa fb init ms pm pn wr rw wlsb) → lf.quiet →
      let x := matOperand (s.leafPlain l) (lf.reg ra).toNat fa.toNat
      let y := matOperand (s.leafPlain l) (lf.reg rb).toNat fb.toNat
      let why := firstWhy [x.hdr.whyAs fa.toNat, y.hdr.whyAs fb.toNat]
      let w := mmaWindow (isScaled fa.toNat || isScaled fb.toNat) wr (lf.reg rw) wlsb
      let masks := if ms then (lf.pred pm, lf.pred pn) else (x.hdr.rowMask, y.hdr.rowMask)
      s.runsOn τ l 0 (.mma l g ac ra rb fa fb init ms pm pn wr rw wlsb) (fun v =>
        (x.hdr.fmt = fa.toNat ∧ y.hdr.fmt = fb.toNat →
          let r := mmaAcc (lf.acc ac) x y (isWide fa.toNat) init w.1 masks lf.mw why
          (v.leaf l).acc ac = r.1 ∧ raises v (r.2 ||| w.2)) ∧
        (x.hdr.fmt ≠ fa.toNat ∨ y.hdr.fmt ≠ fb.toNat →
          (v.leaf l).acc ac = (if init then ⟨isWide fa.toNat, w.1, masks.1, masks.2 &&& lowOnes lf.mw, [], why⟩
            else { lf.acc ac with poison := (lf.acc ac).poison.or why }) ∧ lf.formatFault (v.leaf l)) ∧
        (v.leaf l).poison = lf.poison.or why ∧
        s.memSame v ∧ s.ctxFrame v l none noPred true ∧ s.unitRegsFrame v l none (some ac))) ∧
    (∀ (sat : Bool) (rs : BitVec 5), okExaOut fa.toNat = true → s.executes (.accout l g ac ra fa sat rs) → lf.quiet →
      let r := (lf.acc ac).outTile fa.toNat sat (lf.reg rs)
      s.runsOn τ l 0 (.accout l g ac ra fa sat rs) (fun v =>
        s.leafStored v l ((lf.reg ra).toNat % 0x40000 / 64 * 64) r.1 ∧ raises v r.2.1 ∧
        (r.2.2 = true → lf.fault = none → (v.leaf l).fault.map (·.kind) = some 3) ∧
        s.ctxFrame v l none noPred true ∧ s.unitRegsFrame v l none none)) ∧
    (∀ add : Bool, (fa = 0 ∧ add = false ∨ fa = 30) → s.executes (.accin l g ac ra fa add) → lf.quiet →
      let a := (lf.reg ra).toNat % 0x40000 / 64 * 64
      let h := hdrAt (s.leafPlain l) a
      s.runsOn τ l 0 (.accin l g ac ra fa add) (fun v =>
        (h.fmt = fa.toNat →
          let r := accinAcc (lf.acc ac) h
            (unpackRow (codeBits fa.toNat) (s.leafPlain l (a + 64) (32 * rowBytes fa.toNat)) 1024) (fa = 0) add lf.mw
          (v.leaf l).acc ac = r.1 ∧ raises v r.2 ∧ (v.leaf l).poison = lf.poison.or h.why) ∧
        (h.fmt ≠ fa.toNat →
          (v.leaf l).acc ac = { lf.acc ac with poison := (lf.acc ac).poison.or (some (h.why.getD 0x01)) } ∧
          (v.leaf l).poison = lf.poison.or (some (h.why.getD 0x01)) ∧ lf.formatFault (v.leaf l)) ∧
        s.memSame v ∧ s.ctxFrame v l none noPred true ∧ s.unitRegsFrame v l none (some ac)))

/-- For every accumulator element and block, one EXA contribution adds the block's exact sum, shifted to the window and rounded
towards minus infinity, modulo 2^96; OVF is set exactly when the mathematical sum leaves the 96-bit range and is never cleared;
NAN, PINF and NINF only ever rise. (02 R62, 02 R64, 02 R65, 03 R103) -/
def Obligations.ExaAccumulation : Prop :=
  ∀ (e : AccElem) (b : BlockAcc) (sh : Int),
    let v : Int := if 0 ≤ sh then b.sum * 2 ^ sh.toNat else b.sum.fdiv (2 ^ (-sh).toNat)
    let r := (e.contribute b sh).1
    (r.a.toInt - (e.a.toInt + v)) % 2 ^ 96 = 0 ∧
    (r.ovf = (e.ovf || decide (r.a.toInt ≠ e.a.toInt + v))) ∧
    (r.nan = (e.nan || b.nan)) ∧ (r.pinf = (e.pinf || b.pinf)) ∧ (r.ninf = (e.ninf || b.ninf))

/-- On a leaf whose earlier commands have all completed, THDR is executed as a vector-unit command that stores a complete 64-byte
header at the line of RA (FORMAT FMT, masks p[PM] and p[PN], every scale 0x7F, sequence number from RS, poison clear, check
value 0) and no other byte. RED is executed as a reduction-unit command that leaves, from a tile of FORMAT FI, each row's SUM,
MAX or MIN in its lane, the identity for a masked row and for lanes 32-63, +0 above the vector width; on a mismatch +0
everywhere, the header's own reason or 0x01, and a KIND 2 fault. TOPK, over n elements or over a tile of FORMAT FI, leaves the
records of at most K ranked candidates from the line of RO and their number in RD; on a tile of another format no record, 0 in
RD, reason 0x01 consumed and a KIND 2 fault. Where the rules leave a reading or a choice, this is the model's: log entries 11,
19. (02 R73, 02 R79, 03 R110, 03 R111, 03 R112, 03 R113) -/
def Obligations.TileHeaderAndReductions : Prop :=
  ∀ (s : State) (τ l : Nat) (g : Guard) (ra fi : BitVec 5),
    let lf := s.leaf l
    let a := (lf.reg ra).toNat % 0x40000 / 64 * 64
    let h := hdrAt (s.leafPlain l) a
    (∀ (rs : BitVec 5) (pm pn : BitVec 3), s.executes (.thdr l g ra fi rs pm pn) → lf.quiet → isReservedCode fi.toNat = false →
      s.runsOn τ l 1 (.thdr l g ra fi rs pm pn) (fun v =>
        s.leafStored v l a (leBytes 4 fi.toNat ++ leBytes 4 (lf.pred pm).toNat ++ leBytes 4 (lf.pred pn).toNat ++
          leBytes 4 (lf.reg rs).toNat ++ List.replicate 16 0 ++ List.replicate 32 0x7F) ∧
        s.ctxFrame v l none noPred false ∧ s.unitRegsFrame v l none none)) ∧
    (∀ (vd : BitVec 4) (fn : BitVec 2), s.executes (.red l g vd ra fi fn) → lf.quiet → okVector fi.toNat = true → fn.toNat ≤ 2 →
      s.runsOn τ l 2 (.red l g vd ra fi fn) (fun v =>
        (h.fmt = fi.toNat → (∀ i, i < 64 → ((v.leaf l).vreg vd).lane i =
            if i < lf.vw then
              (if i < 32 ∧ maskBit h.rowMask i = true then
                (redRow fn.toNat h.colMask (rowVals fi.toNat (h.scales.getD i 0) (rowAt (s.leafPlain l) a fi.toNat i))).1
               else redIdentity fn.toNat)
            else 0) ∧ ((v.leaf l).vreg vd).poison = h.why ∧ (v.leaf l).poison = lf.poison.or h.why) ∧
        (h.fmt ≠ fi.toNat → (∀ i, i < 64 → ((v.leaf l).vreg vd).lane i = 0) ∧
          ((v.leaf l).vreg vd).poison = some (h.why.getD 0x01) ∧ lf.formatFault (v.leaf l)) ∧
        s.memSame v ∧ s.ctxFrame v l none noPred true ∧ s.unitRegsFrame v l (some vd) none)) ∧
    (∀ (rd rn ro : BitVec 5) (k : BitVec 4) (e : Elem), topkFormat fi.toNat = some e → 1 ≤ k.toNat → k.toNat ≤ 8 → lf.quiet →
      let out := (lf.reg ro).toNat % 0x40000 / 64 * 64
      let ranks := fun (v : State) (best : List ((Val × Nat) × Nat)) =>
        v.gpr l lf.active rd = BitVec.ofNat 32 best.length ∧ best.length ≤ k.toNat ∧ s.leafStored v l out (topkRecords best) ∧
        s.ctxFrame v l (some rd) noPred true ∧ s.unitRegsFrame v l none none
      (s.executes (.topk l g rd ra fi k rn ro false) →
        let n := Nat.min (lf.reg rn).toNat 1024
        let raws := unpackRow (elemBits e) (s.leafPlain l a (n * elemBits e / 8)) n
        s.runsOn τ l 2 (.topk l g rd ra fi k rn ro false) (fun v =>
          ranks v (topK k.toNat ((List.range n).map (fun i => ((decElem e (raws.getD i 0), i), raws.getD i 0)))))) ∧
      (s.executes (.topk l g rd ra fi k rn ro true) →
        let raws := unpackRow (elemBits e) (s.leafPlain l (a + 64) (32 * rowBytes fi.toNat)) 1024
        s.runsOn τ l 2 (.topk l g rd ra fi k rn ro true) (fun v =>
          (h.fmt = fi.toNat → ranks v (topK k.toNat (tileCands h e raws)) ∧ (v.leaf l).poison = lf.poison.or h.why) ∧
          (h.fmt ≠ fi.toNat → ranks v [] ∧ (v.leaf l).poison = lf.poison.or (some 0x01) ∧ lf.formatFault (v.leaf l)))))

/-- Executed outside the end of a loop and below PC 511, TSEND answers a next state with the word TAG, VALUE queued behind every
beat issued before it, where the port holds fewer than 8 tokens; where it holds 8 the leaf stalls and nothing is queued. TRECV
answers one with the whole oldest token word in RD and the token taken from its queue; with none there the leaf stalls. SEND and
RECV of a count of 0 complete at once. SEND of n lines with a free queue entry queues one stream command of n beats after the
tokens already issued; on a leaf with nothing else queued and room for n beats, its n consecutive lines from RA stand on the
port. RECV queues one that fills n lines; with n beats waiting and nothing else queued, they stand in n consecutive lines from
RA and in no other byte. Where the rules leave a reading or a choice, this is the model's: log entries 11, 23. (03 R88, 03 R99,
03 R100, 03 R101, 03 R102) -/
def Obligations.TokensAndStreams : Prop :=
  ∀ (s : State) (l : Nat) (g : Guard) (port : BitVec 3) (ra rd rn : BitVec 5) (i : Bool) (imm : BitVec 16) (aw : BitVec 2),
    port.toNat ≤ 3 →
    let lf := s.leaf l
    let p := lf.outPort port.toNat
    let q := lf.inPort port.toNat
    let w : BitVec 16 := if i then imm else (lf.reg ra).setWidth 16
    let n := if i then imm.toNat else (lf.reg rn).toNat
    let line := fun (j : Nat) => ((lf.reg ra).toNat + 64 * j) % 0x40000 / 64 * 64
    let stalled := s.modLeaf l (fun lf => { lf with mode := .stall })
    (s.ready (.tsend l g port ra i imm) →
      (lf.ctx.pc < 511 → (∀ f ∈ lf.ctx.loops, f.stop ≠ lf.ctx.pc) → p.tokens.length < 8 →
        ∃ t, exec (.tsend l g port ra i imm) s = .next t ∧
          ((t.leaf l).outPort port.toNat).tokens =
            p.tokens ++ [(p.issuedBeats, ((tget 0 lf.tags port.toNat : BitVec 16) ++ w : BitVec 32))] ∧
          s.scalarFrame t l none noPred) ∧
      (8 ≤ p.tokens.length → exec (.tsend l g port ra i imm) s = .next stalled)) ∧
    (∀ (k : Tok) (rest : List Tok), s.executes (.trecv l g rd port) → q.tokens = k :: rest →
      ∃ t, exec (.trecv l g rd port) s = .next t ∧ t.gpr l lf.active rd = k.word ∧
        ((t.leaf l).inPort port.toNat).tokens = rest ∧ s.scalarFrame t l (some rd) noPred) ∧
    (s.ready (.trecv l g rd port) → q.tokens = [] → exec (.trecv l g rd port) s = .next stalled) ∧
    (s.executes (.send l g port aw ra rn i imm) →
      (n = 0 → ∃ t, exec (.send l g port aw ra rn i imm) s = .next t ∧ s.scalarFrame t l none noPred ∧
        (t.leaf l).queue = lf.queue) ∧
      (0 < n → lf.hasRoom .streamOut port.toNat = true →
        ∃ t c, exec (.send l g port aw ra rn i imm) s = .next t ∧ (t.leaf l).queue.length = lf.queue.length + 1 ∧
          (t.leaf l).queue.getLast? = some c ∧ c.unit = .streamOut ∧ c.port = port.toNat ∧ c.toks = p.issuedTokens ∧
          c.upto = p.issuedBeats + n ∧ c.gateM = (if aw.toNat.testBit 0 then lf.issuedM else 0) ∧
          c.gateV = (if aw.toNat.testBit 1 then lf.issuedV else 0) ∧ s.ctxFrame t l none noPred false) ∧
      (0 < n → lf.quiet → aw = 0 → p.beats.length + n ≤ 16 →
        ∃ t, exec (.send l g port aw ra rn i imm) s = .next t ∧
          ((t.leaf l).outPort port.toNat).beats =
            p.beats ++ (List.range n).map (fun j => (p.issuedTokens, s.leafPlain l (line j) 64)) ∧
          ((t.leaf l).outPort port.toNat).issuedBeats = p.issuedBeats + n ∧ s.scalarFrame t l none noPred)) ∧
    (s.executes (.recv l g port ra rn i imm) →
      (n = 0 → ∃ t, exec (.recv l g port ra rn i imm) s = .next t ∧ s.scalarFrame t l none noPred ∧
        (t.leaf l).queue = lf.queue) ∧
      (0 < n → lf.hasRoom .streamIn port.toNat = true →
        ∃ t c, exec (.recv l g port ra rn i imm) s = .next t ∧ (t.leaf l).queue.length = lf.queue.length + 1 ∧
          (t.leaf l).queue.getLast? = some c ∧ c.unit = .streamIn ∧ c.port = port.toNat ∧ s.ctxFrame t l none noPred false) ∧
      (∀ bs rest : List Beat, 0 < n → n ≤ 16 → lf.quiet → q.beats = bs ++ rest → bs.length = n →
        (∀ b ∈ bs, b.data.length = 64) →
        ∃ t, exec (.recv l g port ra rn i imm) s = .next t ∧ ((t.leaf l).inPort port.toNat).beats = rest ∧
          (∀ j b, bs[j]? = some b → ∀ k, k < 64 → t.memByte (leafKey l (line j + k)) = b.data.getD k 0) ∧
          (∀ k, (∀ j x, j < n → x < 64 → k ≠ leafKey l (line j + x)) → t.memByte k = s.memByte k) ∧
          s.ctxFrame t l none noPred false ∧ s.unitRegsFrame t l none none))

/-- Executed with an even RA, room in the packet unit and a stand address that translates, GET, PUT and ATOM answer a next state
with an access of their kind, length (LEN + 1 bytes, 4 for ATOM), translated address and, for PUT, the bytes of leaf memory at
RL, and with one command of the packet unit that waits for its response; memory and every register stay until then. An address
that does not translate leaves no access: memory stays, ATOM leaves 0 in RD, and a KIND 1 fault is recorded. An odd RA, or an FN
above 5, is refused as no loaded image can hold it. Where the rules leave a reading or a choice, this is the model's: log
entries 8, 33. (01 R28, 01 R29, 03 R92, 03 R115, 03 R116) -/
def Obligations.PacketAccesses : Prop :=
  ∀ (s : State) (l : Nat) (g : Guard) (rl rd ra rb rc : BitVec 5) (len : BitVec 12) (fn : BitVec 3),
    let lf := s.leaf l
    let sd := (s.branch (l / 64)).stand
    let addr := (lf.reg ra).toNat + (lf.reg (ra + 1)).toNat * 2 ^ 32
    let ladr := (lf.reg rl).toNat % 0x40000 / 64 * 64
    let ok := fun (op : MemOp) (n : Nat) (c : Canopy) => s.translate sd addr op = some c ∧ crosses4k c.off n = false ∧
      (c.pid = s.ownPid → s.localOk c.space c.off n ≠ some .violation)
    let sent := fun (i : Instr) (n : Nat) (c : Canopy) (P : Access → Prop) => ∃ t a, exec i s = .next t ∧
      t.tiers.accesses = s.tiers.accesses ++ [a] ∧ a.len = n ∧ a.pid = c.pid ∧ a.space = c.space ∧ a.off = c.off ∧
      a.id = s.sv.nextId ∧ P a ∧ (t.leaf l).pendingOf .packet 0 = lf.pendingOf .packet 0 + 1 ∧ s.memSame t ∧
      s.ctxFrame t l none noPred false
    let turned := fun (i : Instr) (P : State → Prop) => ∃ t, exec i s = .next t ∧ t.tiers.accesses = s.tiers.accesses ∧
      (lf.fault = none → (t.leaf l).fault.map (·.kind) = some 1) ∧ P t ∧ s.memSame t
    (ra.toNat % 2 = 0 →
      (s.executesOn (.get l g rl ra len) .packet 0 →
        (∀ c, ok .read (len.toNat + 1) c →
          sent (.get l g rl ra len) (len.toNat + 1) c (fun a => a.kind = 0 ∧ a.serves = .leaf l ladr 0)) ∧
        (s.translate sd addr .read = none → turned (.get l g rl ra len) (fun t => s.ctxFrame t l none noPred false))) ∧
      (s.executesOn (.put l g rl ra len) .packet 0 →
        (∀ c, ok .write (len.toNat + 1) c →
          sent (.put l g rl ra len) (len.toNat + 1) c (fun a => a.kind = 1 ∧ a.serves = .leaf l ladr 0 ∧
            (lf.queue = [] → a.data = s.leafPlain l ladr (len.toNat + 1)))) ∧
        (s.translate sd addr .write = none → turned (.put l g rl ra len) (fun t => s.ctxFrame t l none noPred false))) ∧
      (fn.toNat ≤ 5 → s.executesOn (.atom l g rd ra rb rc fn) .packet 0 →
        (∀ c, ok .atomic 4 c →
          sent (.atom l g rd ra rb rc fn) 4 c (fun a => a.kind = 2 ∧ a.serves = .leaf l 0 rd.toNat ∧ a.fn = fn.toNat ∧
            a.rb = lf.reg rb ∧ a.rc = lf.reg rc)) ∧
        (s.translate sd addr .atomic = none → turned (.atom l g rd ra rb rc fn)
          (fun t => t.gpr l lf.active rd = 0 ∧ s.ctxFrame t l (some rd) noPred false)))) ∧
    (ra.toNat % 2 = 1 →
      exec (.get l g rl ra len) s = .refused .reservedLeafCode ∧ exec (.put l g rl ra len) s = .refused .reservedLeafCode ∧
      exec (.atom l g rd ra rb rc fn) s = .refused .reservedLeafCode) ∧
    (5 < fn.toNat → exec (.atom l g rd ra rb rc fn) s = .refused .reservedLeafCode)

/-- On a leaf whose branch runs and with no switch pending, completing the oldest command of the leaf's queue, where it is ready,
answers a next state without it: a matrix, vector or reduction command leaves the registers, accumulators and memory as its
operation says; a stream or packet command is ready once its last beat has moved or its response has come. When it is the last
one and an END waits, the leaf is in WAIT_PASS; when a FENCE waits for no other command, the sequencer goes on behind it. A
command that is not ready stays. Where the rules leave a reading or a choice, this is the model's: log entries 5, 11. (03 R81,
03 R84, 03 R92, 03 R94, 06 R201) -/
def Obligations.UnitCommandsComplete : Prop :=
  ∀ (s : State) (t l unit port : Nat) (bad : Option Nat) (c : UnitCmd) (rest : List UnitCmd), l < s.nLeaves →
    s.branchRuns (l / 64) = true → unit ≤ 5 → (s.leaf l).queue = c :: rest → c.unit = unitOf unit → c.port = port →
    let lf := s.leaf l
    let r := opResultBad lf (s.leafRead l c.unit) c.op (bad.map (fun a => a / 64 * 64))
    (lf.cmdReady c = false → exec (.unitCommandComplete t l (unit, port) bad) s = .next (s.at t)) ∧
    (lf.cmdReady c = true → lf.swReq = false →
      ∃ s', exec (.unitCommandComplete t l (unit, port) bad) s = .next s' ∧ s'.now = Nat.max s.now (t % 2 ^ 64) ∧
        (s'.leaf l).queue.length = rest.length ∧
        (unit ≤ 2 → (∀ d ∈ rest, d.unit ≠ .streamOut ∧ d.unit ≠ .streamIn) →
          (s'.leaf l).queue.map (·.op) = rest.map (·.op) ∧
          (s'.leaf l).vregs = r.lf.vregs ∧ (s'.leaf l).accs = r.lf.accs ∧
          ((s'.leaf l).ctxAt lf.active).regs = r.lf.ctx.regs ∧ ((s'.leaf l).ctxAt lf.active).preds = r.lf.ctx.preds ∧
          (r.writes = [] → s.memSame s') ∧
          (∀ a bs, r.writes = [(a, bs)] → bs.length ≤ 0x40000 → s.leafStored s' l a bs)) ∧
        (rest = [] → lf.block = .ending → (s'.leaf l).mode = .waitPass ∧ (s'.leaf l).block = .none) ∧
        (∀ u, lf.block = .fence u → fenceHolds u rest = false → lf.ctx.pc < 511 → (∀ f ∈ lf.ctx.loops, f.stop ≠ lf.ctx.pc) →
          (s'.leaf l).block = .none ∧ ((s'.leaf l).ctxAt lf.active).pc = lf.ctx.pc + 1))

/-- While the part runs unfrozen, the root processor's write of SWITCH = 1 to a leaf in WAIT_PASS or IDLE answers a next state in
which the context of CTX_NEXT is active, the vector registers are +0, the accumulators empty, the slabs those the new context
declares, and every context is kept; on a running leaf it only leaves the request pending. Its write of ABORT = 1 to a running
leaf with no switch pending answers one in which every queued command is gone and no pass runs, with the registers as they were
where no vector command was in progress; with SWITCH = 1 as well the switch follows the abort. To a leaf in WAIT_PASS or IDLE an
ABORT does nothing but store CTX_NEXT. Where the rules leave a reading or a choice, this is the model's: log entry 26. (03 R85,
03 R86, 03 R87, 03 R117, 03 R122) -/
def Obligations.LeafControlWrites : Prop :=
  ∀ (s : State) (t l w : Nat), s.part.legal = true → l < s.nLeaves → s.pw.supply = .on → s.frozen = false → w < 2 ^ 64 →
    let lf := s.leaf l
    let n := w / 16 % 8
    let switched := fun (s' : State) => (s'.leaf l).active = n ∧ (s'.leaf l).vregs = [] ∧ (s'.leaf l).accs = [] ∧
      (s'.leaf l).swReq = false ∧ (s'.leaf l).slabM = (lf.ctxAt n).slabM ∧ (s'.leaf l).slabV = (lf.ctxAt n).slabV
    (w.testBit 1 = true → w.testBit 0 = false → lf.mode = .waitPass ∨ lf.mode = .idle →
      ∃ s', exec (.leafCtlSwitch t .root l w) s = .next s' ∧ switched s' ∧ (s'.leaf l).ctxs = lf.ctxs ∧
        (s'.leaf l).mode = (if n = (s.branch (l / 64)).active ∧ (s.branch (l / 64)).handover = false then
          (if (lf.ctxAt n).valid then .waitPass else .idle) else .switch)) ∧
    (w.testBit 1 = true → w.testBit 0 = false → lf.mode = .run ∨ lf.mode = .stall →
      ∃ s', exec (.leafCtlSwitch t .root l w) s = .next s' ∧ s'.leaf l = { lf with ctxNext := n, swReq := true }) ∧
    (w.testBit 0 = true → lf.mode = .run ∨ lf.mode = .stall → lf.swReq = false →
      ∃ s', exec (.leafCtlAbort t .root l w) s = .next s' ∧ (s'.leaf l).queue = [] ∧ (s'.leaf l).block = .none ∧
        (s'.leaf l).mode ≠ .run ∧ (s'.leaf l).mode ≠ .stall ∧
        ((∀ c ∈ lf.queue, c.unit ≠ .vector) → (∀ c r, s'.gpr l c r = s.gpr l c r) ∧ (∀ c p, s'.prd l c p = s.prd l c p) ∧
          (w.testBit 1 = true → switched s') ∧
          (w.testBit 1 = false → (s'.leaf l).active = lf.active ∧ (s'.leaf l).vregs = lf.vregs ∧ (s'.leaf l).accs = lf.accs))) ∧
    (w.testBit 0 = true → w.testBit 1 = false → lf.mode = .waitPass ∨ lf.mode = .idle →
      ∃ s', exec (.leafCtlAbort t .root l w) s = .next s' ∧ s'.leaf l = { lf with ctxNext := n })

/-- SLOT_TRANSFER of a running branch answers a next state with its slot counter moved on from slot k to (k + 1) mod 32. Where slot
k holds a single entry, which copies a link input to a leaf's input port and no token, the beat the neighbour sent two slots
before becomes the last of that port's FIFO; where it is one that sends a leaf's output port to a link with a credit, the port's
oldest beat leaves it for that link and the credit is spent. CREDIT_RETURN of a source answers one in which it has exactly its
freed entries back and every other source is as it was. CROSSING_LANE_ARRIVAL answers one in which the oldest beat or token in
flight into a lane is the last readable one. A branch the variant does not have is a fault. Where the rules leave a reading or a
choice, this is the model's: log entries 5, 23. (04 R124, 04 R126, 04 R130, 04 R134, 04 R135) -/
def Obligations.SlotPlaneCommands : Prop :=
  ∀ (s : State) (t b : Nat),
    let x := s.branch b
    let k := x.slotCtr
    (b < s.nBranches → s.branchRuns b = true → s.frozen = false →
      (∃ s', exec (.slotTransfer t b) s = .next s' ∧ (s'.branch b).slotCtr = (k + 1) % 32) ∧
      (∀ (node dest : Nat) (e : BitVec 16), node < 64 → x.handover = false → k < 32 →
        dest < 12 →
        (∀ n d, n < 64 → d < 12 → x.entry x.active n d k = if n = node ∧ d = dest then e else 0) → e ≠ 0 → entTsrc e = 0 →
        (s.leaf (b * 64 + node)).queue = [] →
        (∀ (side n' : Nat) (bt : Beat), dest = 4 → entDsrc e = side + 1 → side < 4 → nodeNeighbour node side = some n' →
          (tget Wire.empty x.wires (wireKey ((k + 30) % 32) n' (oppSide side))).beat = some bt →
          ∃ s', exec (.slotTransfer t b) s = .next s' ∧
            ((s'.leaf (b * 64 + node)).inPort (entDport e)).beats = ((s.leaf (b * 64 + node)).inPort (entDport e)).beats ++ [bt]) ∧
        (∀ (n' tb : Nat) (bs : List Byte) (rest : List (Nat × List Byte)), dest < 4 → nodeNeighbour node dest = some n' →
          entDsrc e = 5 → ((s.leaf (b * 64 + node)).outPort (entSport e)).beats = (tb, bs) :: rest →
          tb ≤ ((s.leaf (b * 64 + node)).outPort (entSport e)).leftTokens →
          s.hasCredit b (srcKey node 5 (entSport e)) node dest k false = true →
          ∃ s', exec (.slotTransfer t b) s = .next s' ∧ ((s'.leaf (b * 64 + node)).outPort (entSport e)).beats = rest ∧
            (tget Wire.empty (s'.branch b).wires (wireKey k node dest)).beat = some ⟨srcKey node 5 (entSport e), bs⟩ ∧
            (tget Credit.empty (s'.branch b).credits (srcKey node 5 (entSport e))).usedB =
              (tget Credit.empty x.credits (srcKey node 5 (entSport e))).usedB + 1))) ∧
    (∀ src : Nat, b < s.nBranches → s.frozen = false →
      (src < inletSrc 0 ∨ tget [] x.inlets (src - inletSrc 0) = []) →
      let c := tget Credit.empty x.credits src
      ∃ s', exec (.creditReturn t b src) s = .next s' ∧
        tget Credit.empty (s'.branch b).credits src = ⟨c.usedB - c.freedB, c.usedT - c.freedT, 0, 0⟩ ∧
        (∀ k, k ≠ src → tget Credit.empty (s'.branch b).credits k = tget Credit.empty x.credits k) ∧
        (∀ b', b' ≠ b → s'.branch b' = s.branch b') ∧ s'.leaves = s.leaves) ∧
    (∀ (key : Nat) (it : SlotItem) (rest : List SlotItem), b < s.nBranches → s.frozen = false →
      let ln := tget Lane.empty x.lanes key
      ln.flight = it :: rest →
      ∃ s', exec (.crossingLaneArrival t b key) s = .next s' ∧
        tget Lane.empty (s'.branch b).lanes key = ⟨rest, ln.ready ++ [it]⟩ ∧ s'.leaves = s.leaves) ∧
    (s.nBranches ≤ b → ∀ src, exec (.slotTransfer t b) s = .fault .absentUnit ∧
      exec (.creditReturn t b src) s = .fault .absentUnit ∧ exec (.crossingLaneArrival t b src) s = .fault .absentUnit)

/-- An idle MERGE unit with an ordinary control token (its TAG equal to CTAG where TCHK = 1) takes the next data unit of A where bit
0 of VALUE is 0, of B where it is 1, towards O0, and frees the token; an idle SPLIT sends the next unit of A towards O0 or O1. A
control token of another TAG under TCHK stops a unit that reads control tokens with SUB 2, a SKIP on T with SUB 3, and nothing
leaves its queues. STEERING_DECISION on a running branch answers a next state with one decision of the named unit applied; a
decision that meets a new protocol fault resets the branch's instance with CAUSE 3 and that fault as SUB. SENTINEL_FIRE on the
home branch of an instance with a pass that holds requests, EN = 1, not frozen, nothing that holds the count back and the count
at LIMIT (1024 at least) logs the scan's blockage and resets the instance; with EN = 0 or a lower count it does nothing. Where
the rules leave a reading or a choice, this is the model's: log entries 5, 23. (04 R141, 04 R143, 04 R145, 04 R148, 04 R149, 04
R151, 04 R153) -/
def Obligations.SteeringAndSentinels : Prop :=
  (∀ (u : Steer) (cfg : SteerSet) (c : Tok) (rest : List Tok), u.fault = 0 → u.cur = none → u.pend0 = [] → u.pend1 = [] →
     u.qt = c :: rest →
     (cfg.kind = 1 ∨ cfg.kind = 2 ∨ cfg.kind = 3 ∨ cfg.kind = 5 →
       (cfg.tchk = true → tokTag c.word ≠ cfg.ctag → (u.decide cfg).st = { u with fault := 2, faultIn := 2 }) ∧
       ((cfg.tchk = true → tokTag c.word = cfg.ctag) → isSkipTok c.word = true →
         (u.decide cfg).st = { u with fault := 3, faultIn := 2 })) ∧
     ((cfg.tchk = true → tokTag c.word = cfg.ctag) → isSkipTok c.word = false → isEndTok c.word = false → 0 < cfg.unitA →
       0 < cfg.unitB → ∀ (x y : Beat) (qa qb : List SlotItem), u.qa = .beat x :: qa → u.qb = .beat y :: qb →
       let bit := c.word.toNat.testBit 0
       (cfg.kind = 1 → u.decide cfg =
         ⟨{ u with qt := rest, cur := some ⟨bit, if bit then cfg.unitB else cfg.unitA, true, false, false, false, 0⟩ }, [], [c.src]⟩) ∧
       (cfg.kind = 2 → u.decide cfg =
         ⟨{ u with qt := rest, cur := some ⟨false, cfg.unitA, !bit, bit, false, false, 0⟩ }, [], [c.src]⟩))) ∧
  (∀ (s : State) (t b : Nat), b < s.nBranches →
     (∀ node unit : Nat, s.branchRuns b = true → node < 64 → unit < 2 →
       let x := s.branch b
       let d := (x.steer node unit).decide (x.steerSet x.active node unit)
       (d.st.fault = 0 → ∃ s', exec (.steeringDecision t b node unit) s = .next s' ∧ (s'.branch b).steer node unit = d.st ∧
         s'.leaves = s.leaves ∧ (s'.branch b).lanes = x.lanes) ∧
       (∀ i : Inst, d.st.fault ≠ 0 → (x.steer node unit).fault = 0 → s.circuitInst b = some i →
         ∃ (s1 : State) (r : StallLog), exec (.steeringDecision t b node unit) s = .next (s1.fireSentinel i r) ∧ r.cause = 3 ∧ r.sub = d.st.fault ∧
           r.branch = b ∧ r.node = node ∧ (s1.branch b).steer node unit = d.st)) ∧
     (∀ (p : Pass) (i : Inst), (s.at t).passOn b = some p → (s.at t).runningInst b = some i → i.home = b →
       p.members ≠ [] → (s.branch b).frozen = false → (s.at t).sentinelHeld i p = false →
       let limit := Nat.max 1024 (s.branch b).sentLimit
       ((s.branch b).sentEn = true → limit ≤ (s.branch b).sentIdle →
         exec (.sentinelFire t b) s = .next ((s.at t).fireSentinel i ((s.at t).scan i))) ∧
       ((s.branch b).sentEn = false ∨ (s.branch b).sentIdle < limit → exec (.sentinelFire t b) s = .next (s.at t))))

/-- For every instance, where some buffered destination of its branches is full the scan answers CAUSE = FULL and names a branch of
the instance, a node and a destination whose queue is full; CAUSE = FULL is never answered otherwise. Where the rules leave a
reading or a choice, this is the model's: log entry 23. (04 R150) -/
def Obligations.SentinelScanFindsFullQueues : Prop :=
  ∀ (s : State) (i : Inst),
    ((s.scan i).cause = 1 → (s.scan i).branch ∈ i.branches ∧ (s.scan i).node < 64 ∧ (s.scan i).dest < 12 ∧
      s.destFull (s.scan i).branch (s.scan i).node (s.scan i).dest (s.scan i).portl = true) ∧
    (∀ b ∈ i.branches, ∀ node dest port : Nat, node < 64 → dest < 12 → port ∈ destPorts node dest →
      s.destFull b node dest port = true → (s.scan i).cause = 1)

/-- For every ring time, number N of ports and nonempty set of requesters with index below N, the arbiter answers a requester
present whose (i - q) mod N is the smallest, q being T[19:4] mod N; with no requester it answers none. In link cycle c an output
link looks at VC0, VC1, VC3, VC2 where c mod 4 = 0, at VC2, VC1, VC0, VC3 where c mod 16 = 6, at VC3, VC1, VC0, VC2 where c mod
16 = 10, and at VC1, VC0, VC3, VC2 in all others; every virtual channel is looked at in every cycle. (04 R159, 04 R163) -/
def Obligations.LinkCyclesAndArbitration : Prop :=
  (∀ (now n : Nat) (reqs : List Nat), (∀ i ∈ reqs, i < n) →
     (reqs = [] → arbWinner now n reqs = none) ∧
     (reqs ≠ [] → ∃ w, arbWinner now n reqs = some w ∧ w ∈ reqs ∧
       ∀ i ∈ reqs, ((w : Int) - (now / 16 % 65536 % n : Nat)) % n ≤ ((i : Int) - (now / 16 % 65536 % n : Nat)) % n)) ∧
  (∀ c : Nat,
     (c % 4 = 0 → vcOrder c = [0, 1, 3, 2]) ∧ (c % 16 = 6 → vcOrder c = [2, 1, 0, 3]) ∧ (c % 16 = 10 → vcOrder c = [3, 1, 0, 2]) ∧
     (c % 4 ≠ 0 → c % 16 ≠ 6 → c % 16 ≠ 10 → vcOrder c = [1, 0, 3, 2]) ∧ (∀ v < 4, v ∈ vcOrder c))

/-- In an unfrozen part, the link cycle of an output that has sent nothing in it answers a next state in which one flit of the first
virtual channel of the cycle's order with a flit ready and a credit has left, and of no other packet; the credit beyond the
routers is what the command reports. An output no packet holds is granted to the packet on the arbiter's winning input. A packet
whose flits have all left its last router, with none of the same way and channel before it, arrives: the last request of a write
to leaf memory stores its bytes there, one to a tier that runs waits at its controller; the last response of a GET writes its
data to the leaf's memory at its address, that of an ATOM its old value to RD, that of a PUT completes it, and an error response
records a KIND 1 fault; the access is gone. A packet that is not through does not arrive. Where the rules leave a reading or a
choice, this is the model's: log entry 24. (04 R158, 04 R159, 04 R161, 04 R163, 03 R115, 03 R116) -/
def Obligations.PacketPlaneCommands : Prop :=
  ∀ (s : State) (t : Nat), s.frozen = false →
    (∀ (leaf out v : Nat) (full : BitVec 4) (a : AtRouter), leaf < s.nLeaves → out < 7 →
      let x := s.branch (leaf / 64)
      tget 0 x.outCycle (leaf % 64 * 8 + out) ≠ x.linkCycle + 1 →
      (vcOrder x.linkCycle).find? (fun v => match holderOf s.packets leaf out v with
        | some a => a.canSend s.packets full | none => false) = some v →
      holderOf s.packets leaf out v = some a →
      ∃ s' p h, exec (.linkCycleVcSelect t leaf out full) s = .next s' ∧ s'.packets[a.n]? = some p ∧ p.hops[a.i]? = some h ∧
        h.sent = a.h.sent + 1 ∧ h.holds = decide (a.h.sent + 1 < a.p.flits) ∧
        (∀ k, k ≠ a.n → s'.packets[k]? = s.packets[k]?) ∧
        tget 0 (s'.branch (leaf / 64)).outCycle (leaf % 64 * 8 + out) = x.linkCycle + 1 ∧ s'.leaves = s.leaves) ∧
    (∀ (leaf out vc w : Nat) (a : AtRouter) (bad : Bool), leaf < s.nLeaves → out < 7 → holderOf s.packets leaf out vc = none →
      arbWinner (Nat.max s.now (t % 2 ^ 64)) (routerPorts leaf) ((waitingFor s.packets leaf out vc).map (·.h.inp)) = some w →
      (waitingFor s.packets leaf out vc).find? (fun a => a.h.inp == w) = some a →
      ∃ s' p h, exec (.packetArbitration t leaf (out, vc) bad) s = .next s' ∧ s'.packets[a.n]? = some p ∧ p.hops[a.i]? = some h ∧
        h.holds = true ∧ (∀ k, k ≠ a.n → s'.packets[k]? = s.packets[k]?) ∧ s'.leaves = s.leaves) ∧
    (∀ (id : Nat) (bad : Bool) (p : Packet), s.packets.find? (fun p => p.id == id) = some p →
      (p.through = false → exec (.packetArrival t (id, bad)) s = .next (s.at t)) ∧
      (∀ a : Access, p.through = true →
        s.packets.any (fun q => decide (q.id < p.id) && q.src == p.src && q.dst == p.dst && q.vc == p.vc) = false →
        s.tiers.accesses.find? (fun a => a.id == p.acc) = some a →
        (p.isResp = false → a.toArrive ≤ 1 → a.hit = false → a.pid = s.ownPid →
          (a.space = 2 → a.off % 2 ^ 25 < 2 ^ 24 → a.kind = 1 → ∃ s', exec (.packetArrival t (id, bad)) s = .next s' ∧
            s'.mem = tsetAll 0 s.mem (memKey 2 a.off) a.data) ∧
          (a.space ≤ 1 → s.localOk a.space a.off a.len = none → ∃ s' a', exec (.packetArrival t (id, bad)) s = .next s' ∧
            a' ∈ s'.tiers.accesses ∧ a'.id = a.id ∧ a'.entered = some (Nat.max s.now (t % 2 ^ 64)) ∧ s.memSame s')) ∧
        (∀ (l ladr rd : Nat) (c : UnitCmd), p.isResp = true → a.toReturn ≤ 1 → a.serves = .leaf l ladr rd →
          (s.leaf l).queue.find? (fun c => c.unit == .packet && c.upto == a.id) = some c →
          ∃ s', exec (.packetArrival t (id, bad)) s = .next s' ∧ (∀ y ∈ s'.tiers.accesses, y.id ≠ a.id) ∧
            (a.err = 0 → a.kind = 0 → a.data.length ≤ 4096 → s.leafStored s' l ladr a.data) ∧
            (a.err = 0 → a.kind = 1 → s.memSame s' ∧ (s'.leaf l).ctxs = (s.leaf l).ctxs) ∧
            (a.err = 0 → a.kind = 2 → rd < 32 → s.memSame s' ∧
              s'.gpr l (s.leaf l).active (BitVec.ofNat 5 rd) = BitVec.ofNat 32 (leNat a.data)) ∧
            (a.err ≠ 0 → s.memSame s' ∧ ((s.leaf l).fault = none → (s'.leaf l).fault.map (·.kind) = some 1) ∧
              (a.kind = 2 → s'.gpr l (s.leaf l).active (BitVec.ofNat 5 rd) = 0)))))

/-- On a serving part whose stand is running, DESCRIPTOR_FETCH of one 64-byte descriptor from the ring that R335 names answers a
next state with SQHEAD moved on by one; a descriptor with the right CHECK joins the requests at the end, undecided, with its
stand, ring, bytes and arrival time, a Bulk one without deadline; one with a wrong CHECK joins nothing. With no ring ready it
answers the same requests. Where the rules leave a reading or a choice, this is the model's: log entry 33. (10 R335, 10 R337) -/
def Obligations.DescriptorFetchQueuesRequests : Prop :=
  ∀ (s : State) (t sd r : Nat) (d : List Byte), sd < 64 → d.length = 64 →
    let s1 := s.at t
    (s1.nextRing sd = some r → s1.stdState sd = 2 → s1.serving = true → s1.ringReady sd r 1 = true →
      ∃ s', exec (.descriptorFetch t sd [d]) s = .next s' ∧
        s'.rf (Reg.stdRingPtr sd r) 43 32 = (s.rf (Reg.stdRingPtr sd r) 43 32 + 1) % 4096 ∧
        (fieldLE d 60 4 = recCheck (fieldLE d 4 4) (d.take 60) →
          ∃ q : Request, s'.sv.requests = s.sv.requests ++ [q] ∧ q.stand = sd ∧ q.ring = r ∧ q.desc = d ∧ q.phase = .undecided ∧
            q.arrival = s1.now ∧ q.id = s.sv.nextId ∧ s'.sv.nextId = s.sv.nextId + 1 ∧
            q.deadline = (if q.flags % 4 = 2 then 2 ^ 64 - 1 else fieldLE d 8 8)) ∧
        (fieldLE d 60 4 ≠ recCheck (fieldLE d 4 4) (d.take 60) → s'.sv.requests = s.sv.requests)) ∧
    (s1.nextRing sd = none → exec (.descriptorFetch t sd [d]) s = .next s1)

/-- On a serving part whose stand is not in reset, INFER answers a next state with the first undecided descriptor of the stand
decided where its opcode is 1 or reserved, PREFILL, DECODE_STEP, VERIFY_STEP, KV_SHIP, SEQ_RELEASE and CANCEL one where it is 2,
3, 4, 0x10, 0x21 and 0x20; each leaves it where it is another's. An INFER of class Express without a graft that passes the
configuration and shape checks and is within its contract is accepted: it waits on its instance, and the contract has one credit
less. Where the rules leave a reading or a choice, this is the model's: log entry 33. (10 R336, 10 R342, 10 R348, 10 R349, 11
R374, 11 R384, 11 R385) -/
def Obligations.DecisionCommands : Prop :=
  ∀ (s : State) (t sd : Nat) (r : Request),
    let s1 := s.at t
    s1.firstUndecided sd = some r → s1.serving = true → s1.stdState sd ≠ 3 →
    exec (.infer t sd) s = .next (if knownOpcode r.opcode then s1 else (s1.decideInfer r).decided r) ∧
    exec (.prefill t sd) s = .next (if r.opcode = 2 then (s1.decideStep r).decided r else s1) ∧
    exec (.decodeStep t sd) s = .next (if r.opcode = 3 then (s1.decideStep r).decided r else s1) ∧
    exec (.verifyStep t sd) s = .next (if r.opcode = 4 then (s1.decideStep r).decided r else s1) ∧
    exec (.kvShip t sd) s = .next (if r.opcode = 0x10 then (s1.decideShip r).decided r else s1) ∧
    exec (.seqRelease t sd) s = .next (if r.opcode = 0x21 then (s1.decideRelease r).decided r else s1) ∧
    exec (.cancel t sd) s = .next (if r.opcode = 0x20 then (s1.decideCancel r).decided r else s1) ∧
    (∀ (l : Load) (e k c : Nat) (i : Inst), r.opcode = 1 → r.seqId = 0 → r.aux = 0 → r.flags % 4 = 0 →
      (∀ q ∈ s1.sv.requests, q.id = r.id → q = r) → s1.entryCheck r = some (l, e, none) → s1.badBuffers r = none →
      shapeCheck l.image e r.shape r.inLen r.outMax = some k → s1.ringTarget { r with entry := e } l = some (c, i) →
      (s1.res sd).reload = false → 1000000000 ≤ s1.credits sd c →
      (s1.xLatency sd c l.image e s1.level : Int) ≤ (r.deadline : Int) - r.arrival →
      ∃ (s' : State) (q : Request), exec (.infer t sd) s = .next s' ∧ q ∈ s'.sv.requests ∧ q.id = r.id ∧ q.desc = r.desc ∧
        q.phase = .waiting ∧ q.inst = i.id ∧ q.bucket = k ∧ s'.credits sd c = s1.credits sd c - 1000000000)

/-- A refused ring request is held no more and every other request stays. Its 32-byte record, with the status, no flags, address 0
and energy 0, is written at the completion ring's base plus 32 times CTAIL, which moves on by one. INFER refuses a reserved
opcode with status 0x14 in this way. Where the rules leave a reading or a choice, this is the model's: log entry 33. (10 R335,
10 R336, 10 R338, 10 R341, 10 R342) -/
def Obligations.RefusalsWriteARecordAndForgetTheRequest : Prop :=
  ∀ (s : State) (r : Request) (st : Nat), r.stand < 64 → r.ring < 8 →
    let p := Reg.stdRingPtr r.stand r.ring
    let out := Output.hostWrite s.now (s.rf (Reg.stdRingCtl r.stand r.ring) 49 48)
      (s.reg (Reg.stdRingCq r.stand r.ring) / 4096 * 4096 + 32 * s.rf p 27 16) (recordBytes r.tag st 0 0 s.now 0 0)
    (∀ q, q ∈ (s.refuse r st).sv.requests ↔ q ∈ s.sv.requests ∧ q.id ≠ r.id) ∧
    out ∈ (s.refuse r st).out ∧ (s.refuse r st).rf p 27 16 = (s.rf p 27 16 + 1) % 4096 ∧
    (recordBytes r.tag st 0 0 s.now 0 0).length = 32 ∧
    (∀ t : Nat, (s.at t).firstUndecided r.stand = some r → (s.at t).serving = true → (s.at t).stdState r.stand ≠ 3 →
      knownOpcode r.opcode = false → r.opcode ≠ 1 →
      exec (.infer t r.stand) s = .next (((s.at t).refuse r 0x14).decided r))

/-- An address with bits [63:48] nonzero, with SPACE above 2, through a segment that is not valid, beyond its size or without the
permission translates to nothing. Every other translates: to the segment's part and space at BASE times 2 MiB plus the offset,
but in near memory of the own part to the stack and offset that 2 MiB interleaving over the stacks that are up gives. A read-
only segment never permits a write. (10 R331, 10 R332) -/
def Obligations.StandAddressesTranslate : Prop :=
  ∀ (s : State) (sd addr : Nat) (op : MemOp),
    let p := fld addr 47 45
    let off := fld addr 40 0
    let a := s.reg (Reg.stdSegA sd (p * 16 + fld addr 44 41))
    let b := s.reg (Reg.stdSegB sd (p * 16 + fld addr 44 41))
    let bad := fld addr 63 48 ≠ 0 ∨ 2 < p ∨ a.testBit 63 = false ∨ fld b 47 24 * 2 ^ 21 ≤ off ∨ permits (fld a 62 60) op = false
    (bad → s.translate sd addr op = none) ∧
    (¬bad → fld a 15 0 ≠ s.ownPid ∨ p ≠ 0 → s.translate sd addr op = some ⟨fld a 15 0, p, fld b 23 0 * 2 ^ 21 + off⟩) ∧
    (¬bad → fld a 15 0 = s.ownPid → p = 0 → ∀ (k : Nat) (ks : List Nat), s.sv.upStacks = k :: ks →
      let n := ks.length + 1
      let r := fld b 23 0 * 2 ^ 21 + off
      s.translate sd addr op =
        some ⟨s.ownPid, 0, (k :: ks).getD (r / 2 ^ 21 % n) 0 * 2 ^ 37 + (s.rf (Reg.stdNearRegion sd) 23 0 + r / 2 ^ 21 / n) * 2 ^ 21 + r % 2 ^ 21⟩) ∧
    (∀ perm : Nat, perm.testBit 1 = false → permits perm .write = false ∧ permits perm .atomic = false)

/-- Assigning a pass's members from a slot on gives the k-th member the slot that number plus k and makes it running; a request that
is no member keeps its phase and slot. A pass that is dispatched is held as dispatched, at the present time and with the members
it had. Where the rules leave a reading or a choice, this is the model's: log entry 34. (10 R346) -/
def Obligations.PassMembersGetTheirSlots : Prop :=
  ∀ (s : State) (ids : List Nat) (n : Nat), ids.Nodup →
    (∀ k : Nat, ∀ h : k < ids.length, ∀ r, s.req ids[k] = some r →
      (s.assignSlots ids n).req ids[k] = some { r with slot := n + k, phase := .running }) ∧
    (∀ id : Nat, id ∉ ids → (s.assignSlots ids n).req id = s.req id) ∧
    (∀ p : Pass, s.pass p.id = some p →
      ∃ q, (s.dispatch p).pass p.id = some q ∧ q.dispatched = true ∧ q.dispatchTime = s.now ∧ q.members = p.members)

/-- Of PASS_DISPATCH, BULK_PASS_DISPATCH, EXPRESS_PASS_DISPATCH, PASS_COMPLETE, DEADLINE_GUARD, EXPRESS_CREDIT_REFILL,
KV_SHIP_COMPLETE, INLET_FRAME and OUTLET_FRAME_SEND. On a serving part: an idle server's first planned pass whose members are
all ready is dispatched by PASS_DISPATCH, a Deadline pass with the Bulk requests that fit its free slots; a stand's ship server
without a running ship starts its next one. BULK_PASS_DISPATCH starts a pass of class 2 on an idle instance with an empty plan
and EXPRESS_PASS_DISPATCH one of class 0, with the oldest waiting request first; without requests waiting each starts nothing.
PASS_COMPLETE ends a pass whose last configuration has ended (it is then held no more), starts the next configuration where
there is one, and lets one that still runs go on. At or after DEADLINE less the guard DEADLINE_GUARD ends a live request with
its charged fault or INTERNAL, and before it the request stays. EXPRESS_CREDIT_REFILL leaves a contract the credits it has
earned, and a second one at the same time changes nothing. KV_SHIP_COMPLETE ends a ship from another part with DONE once its
last page has arrived, and one from a record of this part with the pages copied. INLET_FRAME of a bound inlet whose frame is
sound and within its contract leaves a waiting request with the frame's payload and one credit less. OUTLET_FRAME_SEND takes a
slot's whole result with its token, frees the queue entries and ends that request; without a waiting token it sends nothing.
Where the rules leave a reading or a choice, this is the model's: log entries 5, 34, 35. (05 R190, 05 R193, 10 R346, 10 R347, 10
R349, 10 R352, 11 R381, 11 R382, 11 R383, 11 R391, 11 R392, 11 R395) -/
def Obligations.PassesTimersAndFrames : Prop :=
  (∀ (s : State) (t inst : Nat) (i : Inst) (p : Pass),
     let s1 := s.at t
     s1.serving = true → s1.frozen = false → s1.inst inst = some i →
     (s1.runningOn inst = none → (s1.planOf inst).find? (fun p => !p.dispatched) = some p → s1.maxReady p ≤ s1.now →
       (p.cls ≠ 1 → s1.pass p.id = some p → exec (.passDispatch t (.inst inst)) s = .next (s1.dispatch p)) ∧
       (∀ (i' : Inst) (q : Pass), p.cls = 1 → p.inst.bind s1.inst = some i' → (s1.fillBulk p i').pass p.id = some q →
         exec (.passDispatch t (.inst inst)) s = .next ((s1.fillBulk p i').dispatch q) ∧
         exec (.bulkPassDispatch t inst) s = .next ((s1.fillBulk p i').dispatch q))) ∧
     (∀ sd : Nat, (s1.shipPlan sd).find? (·.dispatched) = none → (s1.shipPlan sd).find? (fun p => !p.dispatched) = some p →
       ∃ s' : State, exec (.passDispatch t (.ship sd)) s = .next s' ∧ (s'.shipPass sd).map (·.id) = some p.id) ∧
     (s1.planOf inst = [] → s1.bulkWaiting i none = [] → exec (.bulkPassDispatch t inst) s = .next s1) ∧
     (∀ r rs, s1.planOf inst = [] → s1.bulkWaiting i none = r :: rs → 0 < entSlots (s1.image i.load) i.entry →
       ∃ (s2 : State) (q : Pass), exec (.bulkPassDispatch t inst) s = .next (s2.dispatch q) ∧ q.cls = 2 ∧ q.inst = some inst ∧
         q.bucket = r.bucket ∧ q.members.head? = some r.id ∧ q.members.length ≤ entSlots (s1.image i.load) i.entry ∧
         q ∈ s2.sv.passes) ∧
     (s1.runningOn inst = none → s1.xQueue inst = [] → exec (.expressPassDispatch t inst) s = .next s1) ∧
     (∀ r rs, s1.runningOn inst = none → s1.xQueue inst = r :: rs →
       ∃ (s2 : State) (q : Pass), exec (.expressPassDispatch t inst) s = .next (s2.dispatch q) ∧ q.cls = 0 ∧ q.inst = some inst ∧
         q.members = ((r :: rs).take (entSlots (s1.image i.load) i.entry)).map (·.id) ∧ q ∈ s2.sv.passes) ∧
     ((s1.planOf inst).find? (fun p => p.dispatched && p.inst == some inst) = some p → p.started = true →
       (s1.stageDone i = true → s1.outletsDone i = true → s1.groupsDone p i = true →
         ((entCfgs (s1.image i.load) i.entry).length ≤ p.stage + 1 →
           exec (.passComplete t inst) s = .next (s1.endPass p i) ∧ (s1.endPass p i).pass p.id = none) ∧
         (p.stage + 1 < (entCfgs (s1.image i.load) i.entry).length → exec (.passComplete t inst) s =
           .next ((((s1.clearRings i).dropRouting p).modPass p.id (fun q => { q with stage := q.stage + 1, started := false })).runStage p.id))) ∧
       (s1.stageDone i = false → exec (.passComplete t inst) s = .next s1))) ∧
  (∀ (s : State) (t : Nat),
     let s1 := s.at t
     s1.frozen = false →
     (∀ (id : Nat) (r : Request), s1.req id = some r →
       (r.live = true → r.deadline ≤ s1.now + guardNs →
         let s2 := (s1.endReq r (if r.fault ≠ 0 then r.fault else 0x5F) [] false).afterEnds
         exec (.deadlineGuard t id) s = .next s2 ∧ s2.req id = none) ∧
       (s1.now + guardNs < r.deadline → exec (.deadlineGuard t id) s = .next s1)) ∧
     (∀ sd c : Nat, ∃ s', exec (.expressCreditRefill t sd c) s = .next s' ∧ s'.credits sd c = s1.credits sd c ∧
       s'.sv.requests = s.sv.requests ∧ s'.csr = s.csr ∧ exec (.expressCreditRefill t sd c) s' = .next s') ∧
     (∀ (sd : Nat) (r : Request), s1.shipRunning sd = some r → r.fault = 0 →
       let src := fieldLE r.desc 32 8
       (src / 2 ^ 48 ≠ s1.ownPid → (s1.shipPass sd).map (·.stage) = some 1 →
         exec (.kvShipComplete t sd) s = .next ((s1.endReq r 0 [] false).afterEnds)) ∧
       (∀ q d : Seq, src / 2 ^ 48 = s1.ownPid → s1.seq (fld src 45 40) (src % 2 ^ 32) = some q → s1.seq sd r.seqId = some d →
         shipSourceOk q r.inLen d.geometry = true →
         exec (.kvShipComplete t sd) s =
           .next (((s1.copyPages q.stand q.id sd r.seqId r.inLen d.geometry).endReq r 0 [] false).afterEnds))) ∧
     (∀ (num k : Nat) (f : List Byte) (n : Inlet) (i : Inst) (l : Load), s1.serving = true →
       s1.sv.inlets.find? (fun n => n.num == num) = some n → s1.inst n.inst = some i → s1.load i.load = some l → l.bound = true →
       let sh := entShape l.image i.entry
       let shape := fun k => fieldLE f (16 + 2 * k) 2
       let late := (s1.xLatency n.stand n.contract l.image i.entry s1.level : Int)
       fieldLE f 28 4 = recCheck (fieldLE f 0 4) (f.take 28) → fieldLE f 6 2 = 0 → fieldLE f 24 4 = 0 →
       fieldLE f 4 2 = declSize (declRec l.image n.decl) shape → fieldLE f 4 2 ≤ 4064 → (f.drop 32).length = fieldLE f 4 2 →
       (List.range 4).all (fun k => decide (shape k ≤ shapeMax sh k) && (shapeUsed sh k || shape k == 0)) = true →
       bucketOf sh shape = some k → (s1.res n.stand).reload = false → 1000000000 ≤ s1.credits n.stand n.contract →
       (fieldLE f 8 8 = 0 ∨ late ≤ (fieldLE f 8 8 : Int) - s1.now) →
       ∃ (s' : State) (q : Request), exec (.inletFrame t num f) s = .next s' ∧ q ∈ s'.sv.requests ∧ q.id = s.sv.nextId ∧
         q.phase = .waiting ∧ q.inst = i.id ∧ q.inlet = num ∧ q.payload = f.drop 32 ∧ q.bucket = k ∧
         s'.credits n.stand n.contract = s1.credits n.stand n.contract - 1000000000) ∧
     (∀ (inst : Nat) (i : Inst), s1.inst inst = some i →
       let outs := s1.outletsOf i (s1.branch i.home).active
       let lk := fun (o : Nat × Nat × (Nat × Nat × Nat)) => barkKey o.2.2.1 o.2.2.2.1 o.2.2.2.2
       let waits := fun (o : Nat × Nat × (Nat × Nat × Nat)) => untilTok (tget Lane.empty (s1.branch o.2.1).lanes (lk o)).ready
       ((∀ o ∈ outs, waits o = none) → exec (.outletFrameSend t inst) s = .next s1) ∧
       (∀ (o : Nat × Nat × (Nat × Nat × Nat)) (more : List (Nat × Nat × (Nat × Nat × Nat))) (beats : List Beat) (tok : Tok)
          (rest : List SlotItem), outs = o :: more → waits o = some (beats, tok, rest) →
         let s2 := ((s1.modLane o.2.1 (lk o) (fun x => { x with ready := rest })).freeCredits o.2.1 (beats.map (·.src)) true).freeCredit
           o.2.1 tok.src false
         (isEndTok tok.word = true → exec (.outletFrameSend t inst) s = .next s2) ∧
         (∀ (p : Pass) (r : Request), isEndTok tok.word = false → s2.runningOn inst = some p →
           s2.slotReq p (tokValue tok.word) = some r →
           let size := declSize (declRec (s2.image i.load) o.1) r.shape
           let q := s2.asEnded i r
           beats.length = cdiv size 64 → exec (.outletFrameSend t inst) s =
             .next ((s2.endReq q q.endStatus ((beats.flatMap (·.data)).take size) false).afterEnds)))))

/-- For every list of disjoint fields, a write of w over v puts the bits of w into an RW field and, before sealing, into an RWL
field; it clears in a W1C field exactly the bits that w sets; every other bit keeps its value. (01 R32, 01 R38) -/
def Obligations.RegisterFieldsFollowTheirAccess : Prop :=
  ∀ (fs : List RegField) (isSealed : Bool) (w v : Nat), w < 2 ^ 64 → v < 2 ^ 64 → (∀ f ∈ fs, f.lo ≤ f.hi ∧ f.hi < 64) →
    fs.Pairwise (fun f g => f.hi < g.lo ∨ g.hi < f.lo) →
    let n := fs.foldl (storeField isSealed w) v
    (∀ f ∈ fs, ∀ i, f.lo ≤ i → i ≤ f.hi → n.testBit i =
      (match f.acc with
       | .rw => w.testBit i
       | .rwl => if isSealed then v.testBit i else w.testBit i
       | .w1c => v.testBit i && !w.testBit i
       | _ => v.testBit i)) ∧
    (∀ i, (∀ f ∈ fs, i < f.lo ∨ f.hi < i) → n.testBit i = v.testBit i)

/-- Every read or write of another length than 8 bytes or off an 8-byte boundary, from every requester, is refused: it changes
nothing but ROOT_CSR_ERR_CNT, which counts it, and ROOT_CSR_ERR, which where it is free records the offset with KIND 2 and where
it holds a record keeps it. CSR_WRITE of the part's own side does the same for every KIND of refusal; an aligned write of 8
bytes outside every block has KIND 0, an aligned one of a stand to another stand's block KIND 4. (R34) -/
def Obligations.RefusedRegisterAccesses : Prop :=
  ∀ (s : State) (src : Source) (off : Nat) (data : List Byte) (k : Nat),
    let kept := fun (t : State) (kind : Nat) =>
      (∀ o, o ≠ Reg.rootCsrErr → o ≠ Reg.rootCsrErrCnt → t.reg o = s.reg o) ∧
      t.rf Reg.rootCsrErrCnt 31 0 = Nat.min (s.rf Reg.rootCsrErrCnt 31 0 + 1) (2 ^ 32 - 1) ∧
      (s.rbit Reg.rootCsrErr 63 = true → t.reg Reg.rootCsrErr = s.reg Reg.rootCsrErr) ∧
      (s.rbit Reg.rootCsrErr 63 = false → t.rbit Reg.rootCsrErr 63 = true ∧ t.rf Reg.rootCsrErr 62 60 = kind % 8 ∧
        t.rf Reg.rootCsrErr 28 0 = off % 2 ^ 29) ∧
      t.mem = s.mem ∧ t.leaves = s.leaves ∧ t.branches = s.branches ∧ t.sv = s.sv ∧ t.tiers = s.tiers ∧ t.ur = s.ur ∧ t.out = s.out
    (data.length ≠ 8 ∨ off % 8 ≠ 0 → (s.csrWrite src off data).2 = false ∧ kept (s.csrWrite src off data).1 2) ∧
    (k ≠ 8 ∨ off % 8 ≠ 0 → (s.csrRead src off k).2 = none ∧ kept (s.csrRead src off k).1 2) ∧
    (data.length = 8 → off % 8 = 0 → csrPopulated off = false → s.csrKind src true off 8 = some 0) ∧
    (∀ sd x : Nat, sourceStand src = some sd → stdOf off = some x → x ≠ sd → data.length = 8 → off % 8 = 0 →
      s.csrKind src true off 8 = some 4) ∧
    (∀ t : Nat, s.pw.supply = .on → sourceStand src = none → (s.at t).csrKind src true off data.length = some k →
      ∃ s', exec (.csrWrite t src off data) s = .next s' ∧ kept s' k)

/-- A write of 8 bytes by the root processor to a power, energy or thermal register (offsets 0x4000 to 0x6FFF) that starts no action
stores what the fields' access types give and changes no other register. The root processor's write of STD_IRQ_MASK of a stand
sets the 32 mask bits to the written ones and, in mode 0, each pending vector whose mask bit it clears sends its MSI-X message.
Where the rules leave a reading or a choice, this is the model's: log entry 39. (01 R32, 10 R355) -/
def Obligations.AcceptedRegisterWrites : Prop :=
  ∀ (s : State) (t w : Nat), w < 2 ^ 64 → s.pw.supply = .on → s.frozen = false →
    (∀ off : Nat, off % 8 = 0 → 0x4000 ≤ off → off < 0x7000 → off ≠ Reg.nrgHb → off ≠ Reg.pwrStateReq → regFields off ≠ [] →
      (s.at t).sealedWrite off w = false →
      ∃ s', exec (.csrWrite t .root off (leBytes 8 w)) s = .next s' ∧ s'.reg off = s.stored off w ∧
        (∀ o, o ≠ off → s'.reg o = s.reg o) ∧ s'.mem = s.mem ∧ s'.leaves = s.leaves ∧ s'.branches = s.branches ∧ s'.sv = s.sv) ∧
    (∀ sd : Nat, sd < 64 → ∃ s', exec (.irqMaskWrite t .root sd w) s = .next s' ∧
      s'.rf (Reg.stdIrqMask sd) 31 0 = w % 2 ^ 32 ∧ s'.reg (Reg.stdIrqPend sd) = s.reg (Reg.stdIrqPend sd) ∧
      (∀ v : Nat, v < 32 → s.rbit (Reg.stdIrqMask sd) v = true → w.testBit v = false → s.rbit (Reg.stdIrqPend sd) v = true →
        s.rbit (Reg.stdIrqCfg sd) 0 = false → Output.msix (s.at t).now (s.vfPort sd) (sd + 1) v ∈ s'.out) ∧
      s'.mem = s.mem ∧ s'.leaves = s.leaves ∧ s'.branches = s.branches ∧ s'.sv = s.sv)

/-- Of NRG_HB_BEAT, RTE_CTL_ARM, RTE_CTL_DISARM, DBG_CTL_FREEZE, DBG_CTL_THAW, ENTER_PART_S2, ENTER_S3, LEAVE_PART_S2, RST_CTL_ROOT,
STD_RESET_GO, LNK_CTL_RETRAIN and DBG_DUMP_START. While the part runs unfrozen, the root processor's write of BEAT restarts the
heartbeat watch of a part that is not orphaned; ARM with a future epoch arms it and touches no bank, DISARM disarms; FREEZE
after bring-up freezes the part and every branch; REQ = 1 and 2 take a part that may sleep into part S2 and S3; ROOT restarts
the part with level 3 and TRIGGER 6, its leaves and packets gone. While the part runs, the root processor's write of the acting
bit stores the register and then starts the stand's reset with CAUSE 3, retrains the port, leaves part S2, thaws a frozen part,
starts the dump; ALERT_N follows its causes. Where the rules leave a reading or a choice, this is the model's: log entries 39,
43, 44. (10 R358, 12 R420, 12 R435, 12 R436, 14 R477, 14 R478, 14 R498, 15 R505, 16 R529, 16 R536, 16 R539, 16 R544) -/
def Obligations.RegisterWriteCommands : Prop :=
  (∀ (s : State) (t w : Nat), w < 2 ^ 64 → s.pw.supply = .on → s.frozen = false →
     let s1 := s.at t
     (w.testBit 0 = true → s.rbit Reg.pwrStatus 3 = false → ∃ s', exec (.nrgHbBeat t .root w) s = .next s' ∧
       s'.pw = { s.pw with lastBeat := s1.now } ∧ s'.sv = s.sv) ∧
     (w.testBit 0 = true → w.testBit 1 = false → s1.now < s.reg Reg.rteEpoch → ∃ s', exec (.rteCtlArm t .root w) s = .next s' ∧
       s'.rbit Reg.rteStatus 1 = true ∧ s'.ur = s.ur) ∧
     (w.testBit 1 = true → ∃ s', exec (.rteCtlDisarm t .root w) s = .next s' ∧ s'.rbit Reg.rteStatus 1 = false ∧ s'.ur = s.ur) ∧
     (w.testBit 0 = true → w.testBit 1 = false → w.testBit 2 = false → 11 ≤ s.rf Reg.rootStatus 15 8 →
       ∃ s', exec (.dbgCtlFreeze t .root w) s = .next s' ∧ s'.rf Reg.dbgStatus 2 0 = 2 ∧ s'.rf Reg.dbgStatus 15 8 = 1 ∧
         s'.reg Reg.dbgFrzTime = s1.now ∧ (∀ b < s.nBranches, (s'.branch b).frozen = true) ∧ s'.sv = s.sv) ∧
     (w % 4 = 1 → s.mayStandby = true → ∃ s', exec (.enterPartS2 t .root w) s = .next s' ∧ s'.rf Reg.pwrStatus 18 16 = 2 ∧
       (∀ b < s.nBranches, (s'.branch b).sleep = .s2) ∧ s'.mem = s.mem) ∧
     (w % 4 = 2 → s.mayStandby = true → ∃ s', exec (.enterS3 t .root w) s = .next s' ∧ s'.rf Reg.pwrStatus 18 16 = 3 ∧
       s'.pw.supply = .standby ∧ s'.pw.pwrok = false ∧ (∀ k, keptMem 4 k = false → s'.memByte k = 0) ∧
       (∀ k, keptMem 4 k = true → s'.memByte k = s.memByte k)) ∧
     (w.testBit 0 = true → ∃ s', exec (.rstCtlRoot t .root w) s = .next s' ∧ s'.pw.trigger = (3, 6) ∧
       s'.pw.supply = .on ∧ s'.leaves = [] ∧ s'.packets = [] ∧ s'.poisonLog = [])) ∧
  (∀ (s : State) (t w : Nat), w < 2 ^ 64 → s.pw.supply = .on →
     let s1 := s.at t
     let put := fun (off : Nat) => s1.putReg off (s1.stored off w)
     (s.frozen = false →
       (∀ sd : Nat, sd < 64 → w.testBit 0 = true →
         exec (.stdResetGo t .root sd w) s = .next ((put (Reg.stdReset sd)).startReset sd 3).alertEdge) ∧
       (∀ n : Nat, n < 20 → w.testBit 0 = true → exec (.lnkCtlRetrain t .root n w) s = .next ((put (Reg.lnkCtl n)).retrain n).alertEdge) ∧
       (w % 4 = 3 → exec (.leavePartS2 t .root w) s = .next ((put Reg.pwrStateReq).leaveS2 5 0).alertEdge)) ∧
     (s.frozen = true → w.testBit 1 = true → exec (.dbgCtlThaw t .root w) s = .next (put Reg.dbgCtl).thaw.alertEdge) ∧
     (w.testBit 63 = true → exec (.dbgDumpStart t .root w) s = .next (put Reg.dbgDump).startDump.alertEdge))

/-- A trigger on a built stand that is in no reset, outside a freeze, leaves the stand in STATE 3 at step 5 with no request of the
stand left. VF_FLR of an enabled VF counts and starts the reset of its stand with CAUSE 1; of one not enabled it does nothing.
PF_FLR counts and disables the PF's admin ring. PIN_ENTRY_RELOAD ends a reset that has reached step 5: the stand's rings and
pending vectors are cleared but for vector 13, COUNT counts, STATE is 2. Of a stand not in its reset nothing ends. Where the
rules leave a reading or a choice, this is the model's: log entry 22. (10 R357, 10 R358, 13 R439) -/
def Obligations.StandResetsBegin : Prop :=
  ∀ (s : State) (t k sd : Nat),
    let s1 := s.at t
    (∀ cause : Nat, sd < 64 → s.built sd = true → s.stdState sd ≠ 3 → s.frozen = false →
      (s.startReset sd cause).stdState sd = 3 ∧ ((s.startReset sd cause).res sd).resetStep = 5 ∧
      ∀ q ∈ (s.startReset sd cause).sv.requests, q.stand ≠ sd) ∧
    (exec (.vfFlr t k sd) s = .next (if s1.vfEnabled k sd then (s1.bump (Reg.hptFlr k) 31 0 1).startReset sd 1 else s1)) ∧
    (k < 4 → s.role (16 + k) = 4 → ∃ s', exec (.pfFlr t k) s = .next s' ∧ s'.rbit (Reg.hptAqBase k 0) 0 = false ∧
      s'.rf (Reg.hptFlr k) 31 0 = Nat.min (s.rf (Reg.hptFlr k) 31 0 + 1) (2 ^ 32 - 1) ∧ s'.sv = s.sv ∧ s'.mem = s.mem ∧
      (∀ o, o ≠ Reg.hptFlr k → o ≠ Reg.hptAqBase k 0 → s'.reg o = s.reg o)) ∧
    (sd < 64 → s.frozen = false → (s.res sd).resetStep = 5 → s.standPins sd = [] → s.sv.admins = [] →
      ∃ s', exec (.pinEntryReload t sd) s = .next s' ∧ s'.stdState sd = 2 ∧ s'.reg (Reg.stdIrqPend sd) = 2 ^ 13 ∧
        (∀ r < 8, s'.reg (Reg.stdRingCtl sd r) = regReset (Reg.stdRingCtl sd r) ∧ s'.reg (Reg.stdRingPtr sd r) = regReset (Reg.stdRingPtr sd r)) ∧
        s'.rf (Reg.stdReset sd) 63 32 = Nat.min (s.rf (Reg.stdReset sd) 63 32 + 1) (2 ^ 32 - 1) ∧ (s'.res sd).resetStep = 0) ∧
    ((s.res sd).resetStep ≠ 5 → exec (.pinEntryReload t sd) s = .next s1)

/-- With no stand built, LEDGER_TICK adds the input energy to the ledger exactly, counted in whole microjoules and the nanojoules
that remain, and reports the voltage; a branch whose pass runs is charged its share of the input by the energy that its
regulator reports. FIXED_W becomes the largest average of the last second. COEF never leaves 0.5 to 2 once 100 passes of known
energy have completed. With the average at or below the cap the streak ends and admission is not paused; above it with the
commitments within it admission pauses. Where the rules leave a reading or a choice, this is the model's: log entry 41. (14
R481, 14 R482, 14 R486, 14 R491, 14 R502) -/
def Obligations.LedgerAndAverages : Prop :=
  ∀ (s : State) (t : Nat),
    let s1 := s.at t
    (∀ (input mv : Nat) (other : Nat), s.stands = [] → ∃ s', exec (.ledgerTick t input mv [] other) s = .next s' ∧
      s'.rf Reg.pwrStatus 63 48 = Nat.min mv 65535 ∧ s'.pw.ledgerNj < 1000 ∧
      (s.reg Reg.nrgLedger * 1000 + s.pw.ledgerNj + input < 2 ^ 64 * 1000 →
        s'.reg Reg.nrgLedger * 1000 + s'.pw.ledgerNj = s.reg Reg.nrgLedger * 1000 + s.pw.ledgerNj + input) ∧
      s'.sv = s.sv ∧ s'.mem = s.mem ∧ s'.leaves = s.leaves) ∧
    (∀ (input mv b nj other : Nat) (p : Pass), s.stands = [] → s.passOn b = some p → s.pass p.id = some p →
      ∃ s', exec (.ledgerTick t input mv [(b, nj)] other) s = .next s' ∧
        s'.pass p.id = some { p with energy := p.energy + input * nj / (other + nj) }) ∧
    (let l := s1.pw.overAvgs.filter (fun a => decide (s1.now < a.1 + 1000000000))
     ∃ s', exec (.fixedWUpdate t) s = .next s' ∧ (l = [] → s' = s1) ∧
       (l ≠ [] → (∀ a ∈ l, Nat.min 65535 a.2 ≤ s'.rf Reg.nrgModel 63 48) ∧
         ∃ a ∈ l, s'.rf Reg.nrgModel 63 48 = Nat.min 65535 a.2)) ∧
    (let l := s1.pw.passesDone.filter (fun p => decide (s1.now < p.1 + 1000000000))
     ∃ s', exec (.coefUpdate t) s = .next s' ∧ s'.pw.passesDone = l ∧ s'.sv = s.sv ∧
       (l.length < 100 → s'.csr = s.csr) ∧
       (100 ≤ l.length → (∃ p ∈ l, p.2.2 ≠ 0) → 0x8000 ≤ s'.rf Reg.nrgModel 31 0 ∧ s'.rf Reg.nrgModel 31 0 ≤ 0x20000)) ∧
    (∀ w : Nat, w ≤ s.capW → ∃ s', exec (.averagePowerCheck t w) s = .next s' ∧ s'.rbit Reg.pwrStatus 5 = false ∧
      s'.pw.overStreak = 0 ∧ s'.rf Reg.pwrStatus 47 32 = Nat.min w 65535 ∧ s'.sv = s.sv) ∧
    (∀ w : Nat, s.capW < w → s1.committed s1.now ≤ s.capW * 1000 → w * 100 ≤ s.capW * 105 →
      ∃ s', exec (.averagePowerCheck t w) s = .next s' ∧ s'.rbit Reg.pwrStatus 5 = true ∧ s'.pw.overStreak = 0 ∧
        s.rf Reg.nrgModel 31 0 ≤ s'.rf Reg.nrgModel 31 0 ∧ s'.sv = s.sv)

/-- The effective cap never exceeds the design power, nor 60 % of it in a sag, nor the orphan cap of an orphaned part. A part that
still hears heartbeats, an input at 45 V or more, and an input below 46 V change nothing by ORPHAN_TIMEOUT, INPUT_SAG and
SAG_RECOVERY. A sag of a running part applies the lower cap urgently and ends ballast; its recovery raises the cap; three
periods without a heartbeat orphan the part. Where the rules leave a reading or a choice, this is the model's: log entry 41. (14
R483, 14 R495, 14 R498, 14 R499) -/
def Obligations.CapsSagsAndHeartbeats : Prop :=
  ∀ (s : State) (t mv : Nat),
    let s1 := s.at t
    s.capW ≤ s.designW ∧ (s.pw.sag = true → s.capW ≤ s.designW * 60 / 100) ∧
    (s.rbit Reg.pwrStatus 3 = true → s.rf Reg.nrgCap 31 16 ≠ 0 → s.capW ≤ s.rf Reg.nrgCap 31 16) ∧
    (s1.now < s.pw.lastBeat + 3 * s.hbPeriod → exec (.orphanTimeout t) s = .next s1) ∧
    (s.hbPeriod ≠ 0 → s.pw.lastBeat + 3 * s.hbPeriod ≤ s1.now → s.rbit Reg.pwrStatus 3 = false →
      let s2 := State.capChanged s1 (s1.wbit Reg.pwrStatus 3 true) false
      exec (.orphanTimeout t) s = .next (s2.powerEvent 8 s2.capW)) ∧
    (45000 ≤ mv → exec (.inputSag t mv) s = .next s1) ∧
    (mv < 45000 → s.pw.sag = false → s.pw.supply = .on →
      ∃ s2 s', exec (.inputSag t mv) s = .next s' ∧ s' = (s2.stopBallast.powerEvent 1 (mv / 10)) ∧ s'.pw.ballastW = [] ∧
        s'.rbit Reg.pwrStatus 0 = false ∧
        s2 = State.capChanged s1 ((s1.wf Reg.pwrStatus 15 14 1).modPw (fun p => { p with sag := true })) true) ∧
    (mv < 46000 → exec (.sagRecovery t mv) s = .next s1) ∧
    (46000 ≤ mv → s.pw.sag = true → ∃ s', exec (.sagRecovery t mv) s = .next s' ∧
      s' = State.capChanged s1 ((s1.wf Reg.pwrStatus 15 14 0).modPw (fun p => { p with sag := false })) false ∧
      (s1.cLine s1.now ≤ (s1.modPw (fun p => { p with sag := false })).capW →
        s'.pw.sag = false ∧ s'.pw.lowering = none ∧ s'.rf Reg.pwrStatus 15 14 = 0 ∧ s'.sv = s.sv))

/-- The run level is the slower of the policy level and FLOOR. A completed level change gives the branch its target level and
changes no other; on a branch the variant lacks it is a fault. A floor step before 20 us have passed, and a release while a rule
holds FLOOR or before 1 ms has passed since the last, do nothing; below P7, the first step where commitments newly exceed the
line, and a further one 20 us later while the input exceeds it, make FLOOR slower by the rule's step; an input within the line
ends the procedure. A release that the up-ramp allows makes FLOOR one step faster. Where the rules leave a reading or a choice,
this is the model's: log entries 41, 42. (14 R472, 14 R473, 14 R474, 14 R497) -/
def Obligations.FloorAndLevels : Prop :=
  ∀ (s : State) (t : Nat),
    let s1 := s.at t
    s.rf Reg.pwrPolicy 2 0 ≤ s.level ∧ s.rf Reg.pwrStatus 10 8 ≤ s.level ∧
    (s.level = s.rf Reg.pwrPolicy 2 0 ∨ s.level = s.rf Reg.pwrStatus 10 8) ∧
    (∀ b : Nat, (b < s.nBranches → ∃ s', exec (.levelChangeComplete t b) s = .next s' ∧
        s'.branch b = { s.branch b with level := (s.branch b).levelTarget } ∧ (∀ b', b' ≠ b → s'.branch b' = s.branch b') ∧
        s'.csr = s.csr ∧ s'.leaves = s.leaves) ∧
      (s.nBranches ≤ b → exec (.levelChangeComplete t b) s = .fault .absentUnit)) ∧
    (∀ (w t0 : Nat) (ex : Bool), s.pw.floorStep = some t0 → s1.now < t0 + 20000 → exec (.floorStep t w ex) s = .next s1) ∧
    (let slower := fun (seen : Bool) => (s1.modPw (fun p => { p with
        floorSeen := seen, floorCap := Nat.min 7 (Nat.max p.floorCap (s.rf Reg.pwrStatus 10 8) + 1), floorStep := some s1.now })).raiseFloor
     (∀ (w : Nat) (ex : Bool), s.pw.floorStep = none → s1.firstOver.isSome = true → s.pw.floorSeen = false → s.rf Reg.pwrStatus 10 8 < 7 →
       exec (.floorStep t w ex) s = .next (slower true)) ∧
     (∀ (w t0 : Nat) (ex : Bool), s.pw.floorStep = some t0 → t0 + 20000 ≤ s1.now →
       (s1.cLine s1.now < w → s.rf Reg.pwrStatus 10 8 < 7 → exec (.floorStep t w ex) s = .next (slower s1.firstOver.isSome)) ∧
       (w ≤ s1.cLine s1.now →
         ∃ s', exec (.floorStep t w ex) s = .next s' ∧ s'.pw.floorStep = none ∧ s'.csr = s.csr ∧ s'.sv = s.sv))) ∧
    (∀ w : Nat, s.pw.floorStep = none → s1.firstOver = none →
      exec (.floorStep t w false) s = .next (s1.modPw (fun p => { p with floorSeen := false }))) ∧
    (s1.now < s.pw.lastRelease + 1000000 → exec (.floorReleaseStep t) s = .next s1) ∧
    (s.rf Reg.pwrStatus 10 8 ≤ s.pw.floorCool → exec (.floorReleaseStep t) s = .next s1) ∧
    (s.rf Reg.pwrStatus 10 8 = 1 → s.pw.floor = 0 → s.pw.lastRelease + 1000000 ≤ s1.now →
      s1.stepPower ≤ s1.rampUp * (s1.now - s.pw.lastRelease) / 1000 → s.rf Reg.pwrPolicy 2 0 = 0 →
      ∃ s', exec (.floorReleaseStep t) s = .next s' ∧ s'.rf Reg.pwrStatus 10 8 = 0 ∧ s'.pw.lastRelease = s1.now ∧
        (∀ b < s.nBranches, (s'.branch b).levelTarget = 0) ∧ s'.sv = s.sv)

/-- Ballast never draws from a branch more than its full-activity power nor in all more than what is missing to the ramp, uses only
branches that may serve it, and none where it is overridden; the status bit says whether any is drawn. A branch enters S1 after
S1_IDLE_US without pass, ballast, load or fill, and S2 after S2_IDLE_MS in S1; with the idle time 0 it stays. A branch the
variant lacks is a fault. Where the rules leave a reading or a choice, this is the model's: log entry 41. (14 R475, 14 R476, 14
R492, 14 R493, 14 R495) -/
def Obligations.BallastAndSleep : Prop :=
  ∀ (s : State) (t : Nat),
    let s1 := s.at t
    (∀ (load : Nat) (falls : List (Nat × Nat)), ∃ s', exec (.ballastStep t load falls) s = .next s' ∧
      (∀ x ∈ s'.pw.ballastW, x.1 ∈ s1.ballastBranches ∧ x.2 ≤ levelPower s.level * 100) ∧
      (s'.pw.ballastW.map (·.2)).sum ≤ (if s.frozen then s.db.frzMw else 1000 * (s.inputW - s.rampDown)) - 1000 * load ∧
      (s.ballastOff = true → s'.pw.ballastW = []) ∧
      s'.rbit Reg.pwrStatus 0 = !s'.pw.ballastW.isEmpty ∧ s'.sv = s.sv ∧ s'.branches = s.branches) ∧
    (∀ b : Nat, b < s.nBranches →
      let x := s.branch b
      (s.rf Reg.pwrPolicy 23 8 = 0 → exec (.s1Entry t b) s = .next s1) ∧
      (s.rf Reg.pwrPolicy 23 8 ≠ 0 → x.sleep = .awake → s.passOn b = none → tget 0 s.pw.ballastW b = 0 →
        (∀ c ∈ s.sv.cfgLoads, c.branch ≠ b) → x.idleSince + s.rf Reg.pwrPolicy 23 8 * 1000 ≤ s1.now → s.noSleep b = false →
        x.frozen = false → ∃ s', exec (.s1Entry t b) s = .next s' ∧ s'.branch b = { x with sleep := .s1, idleSince := s1.now } ∧
          (∀ b', b' ≠ b → s'.branch b' = s.branch b') ∧ s'.leaves = s.leaves ∧ s'.csr = s.csr) ∧
      (s.rf Reg.pwrPolicy 31 24 ≠ 0 → x.sleep = .s1 → x.idleSince + s.rf Reg.pwrPolicy 31 24 * 1000000 ≤ s1.now → x.frozen = false →
        ∃ s', exec (.s2Entry t b) s = .next s' ∧ s'.branch b = { x with sleep := .s2 } ∧
          (∀ b', b' ≠ b → s'.branch b' = s.branch b') ∧ s'.leaves = s.leaves ∧ s'.csr = s.csr) ∧
      (x.sleep ≠ .s1 → exec (.s2Entry t b) s = .next s1)) ∧
    (∀ b : Nat, s.nBranches ≤ b → exec (.s1Entry t b) s = .fault .absentUnit ∧ exec (.s2Entry t b) s = .fault .absentUnit)

/-- Of POWER_APPLIED, BROWN_OUT, LOW_INPUT_STOP, OVERVOLTAGE_STOP, INPUT_RECOVERY, REVERSE_POLARITY, RAIL_OUT_OF_LIMITS,
RESET_N_LOW, RESET_N_RELEASE and WATCHDOG_EXPIRY. Below 38 V a part with power loses every island and no request remains; from
that state 42 V starts a cold reset with TRIGGER 2 or 1. Below 40 V, and above 61 V, a running part stops in order with causes 1
and 2, PWROK low, no request and no pass left; at and between the limits nothing happens. A stopped part recovers within its
limits with TRIGGER 4. A reversed input sets the latch and a bad rail PWROK. RESET_N low stops a running part with cause 4; its
release after that is a part reset with TRIGGER 5. The watchdog of a part before step 6, or with period 0, does nothing; else it
is a root reset with TRIGGER 7. Where the rules leave a reading or a choice, this is the model's: log entries 5, 43. (14 R466,
14 R467, 14 R468, 14 R499, 14 R500, 15 R505, 15 R506, 15 R509) -/
def Obligations.SupplyAndResetEvents : Prop :=
  ∀ (s : State) (t mv : Nat),
    let s1 := s.at t
    (mv < 38000 → s.pw.supply ≠ .off → ∃ s', exec (.brownOut t mv) s = .next s' ∧ s'.pw.supply = .off ∧ s'.sv = Serving.empty ∧
      s'.leaves = [] ∧ s'.packets = [] ∧ s'.part = s.part ∧ s'.out = s.out ∧ s'.pending = s.pending ∧
      (∀ k, s'.memByte k = if keptMem 1 k then s.memByte k else 0)) ∧
    (38000 ≤ mv → exec (.brownOut t mv) s = .next s1) ∧
    (s.pw.supply = .off → 42000 ≤ mv → ∃ s', exec (.powerApplied t mv) s = .next s' ∧ s'.pw.supply = .on ∧
      s'.pw.trigger = (1, if s.pw.stopCause = 7 then 2 else 1) ∧ s'.sv = Serving.empty ∧ s'.leaves = []) ∧
    (mv < 42000 → exec (.powerApplied t mv) s = .next s1) ∧
    (mv < 40000 → s.pw.supply = .on → ∃ s', exec (.lowInputStop t mv) s = .next s' ∧ s'.pw.supply = .stopped ∧ s'.pw.stopCause = 1 ∧
      s'.pw.pwrok = false ∧ s'.sv.requests = [] ∧ s'.sv.passes = [] ∧ s'.rf Reg.pwrStatus 18 16 = 5 ∧ s'.rf Reg.pwrStatus 15 14 = 2) ∧
    (40000 ≤ mv → exec (.lowInputStop t mv) s = .next s1) ∧
    (61000 < mv → s.pw.supply = .on → ∃ s', exec (.overvoltageStop t mv) s = .next s' ∧ s'.pw.supply = .stopped ∧
      s'.pw.stopCause = 2 ∧ s'.pw.pwrok = false ∧ s'.sv.requests = [] ∧ s'.sv.passes = []) ∧
    (mv ≤ 61000 → exec (.overvoltageStop t mv) s = .next s1) ∧
    (s.pw.supply = .stopped → 42000 ≤ mv → mv ≤ 58000 → s.pw.stopCause = 1 ∨ s.pw.stopCause = 2 →
      ∃ s', exec (.inputRecovery t mv) s = .next s' ∧ s'.pw.supply = .on ∧ s'.pw.trigger = (1, 4)) ∧
    exec (.reversePolarity t) s = .next (s1.modPw (fun p => { p with reversal := true })) ∧
    exec (.railOutOfLimits t) s = .next (s1.modPw (fun p => { p with pwrok := false })) ∧
    (s.pw.supply = .on → ∃ s', exec (.resetNLow t) s = .next s' ∧ s'.pw.supply = .stopped ∧ s'.pw.stopCause = 4 ∧ s'.pw.resetLow = true ∧
      s'.sv.requests = []) ∧
    (∀ strap : Nat, s.pw.supply = .stopped → s.pw.stopCause = 4 → ∃ s', exec (.resetNRelease t strap) s = .next s' ∧
      s'.pw.supply = .on ∧ s'.pw.trigger = (2, 5) ∧ s'.pw.strap = strap % 64 ∧ s'.pw.resetLow = false) ∧
    (s.rf Reg.rstWdog 31 0 = 0 ∨ s.rf Reg.rootStatus 15 8 < 6 → exec (.watchdogExpiry t) s = .next s1) ∧
    (s.rf Reg.rstWdog 31 0 ≠ 0 → 6 ≤ s.rf Reg.rootStatus 15 8 → s.frozen = false → s.pw.supply = .on →
      ∃ s', exec (.watchdogExpiry t) s = .next s' ∧ s'.pw.trigger = (3, 7) ∧ s'.leaves = [])

/-- The loss of ROOTCLK sets its bit and stops a running part with cause 6; its recovery after that is a root reset with TRIGGER 9.
A reference clock that is lost or returns reports it in RST_CLK. A lock loss counts. A standby brown-out marks the part in S3
only. A selected WAKE pin at its level wakes a part in S3 with TRIGGER 8, or 3 after a standby brown-out; an unselected pin, and
a signal on an unselected port, do nothing. Where the rules leave a reading or a choice, this is the model's: log entries 5, 43.
(14 R478, 14 R480, 15 R507, 15 R521, 15 R522, 15 R523) -/
def Obligations.ClocksAndStandby : Prop :=
  ∀ (s : State) (t : Nat),
    let s1 := s.at t
    (s.pw.supply = .on → ∃ s', exec (.rootclkLoss t) s = .next s' ∧ s'.pw.supply = .stopped ∧ s'.pw.stopCause = 6 ∧ s'.pw.pwrok = false ∧
      s'.sv.requests = []) ∧
    (s.pw.supply = .stopped → s.pw.stopCause = 6 → ∃ s', exec (.rootclkRecovery t) s = .next s' ∧ s'.pw.supply = .on ∧
      s'.pw.trigger = (3, 9) ∧ s'.rbit Reg.rstClk 0 = true) ∧
    (∀ bit : Nat, 2 ≤ bit → bit < 8 → s1.clockFeeds bit = [] →
      (∃ s', exec (.refclkLoss t bit) s = .next s' ∧ s'.rbit Reg.rstClk bit = false ∧ s'.sv = s.sv ∧ s'.mem = s.mem) ∧
      (∃ s', exec (.refclkReturn t bit) s = .next s' ∧ s'.rbit Reg.rstClk bit = true ∧ s'.sv = s.sv ∧ s'.mem = s.mem)) ∧
    (∃ s', exec (.pllLockLoss t) s = .next s' ∧ s'.rf Reg.rstClk 63 32 = Nat.min (s.rf Reg.rstClk 63 32 + 1) (2 ^ 32 - 1) ∧
      (∀ o, o ≠ Reg.rstClk → s'.reg o = s.reg o) ∧ s'.sv = s.sv) ∧
    exec (.standbyBrownout t) s = .next (if s.pw.supply = .standby then s1.modPw (fun p => { p with brownout := true }) else s1) ∧
    (∀ n : Nat, n < 4 → s.pw.supply = .standby → s.rbit Reg.pwrWakeCfg (4 + n) = true →
      ∃ s', exec (.wakePin t n (s.rbit Reg.pwrWakeCfg n)) s = .next s' ∧ s'.pw.supply = .on ∧
        s'.pw.trigger = (if s.pw.brownout then (1, 3) else (4, 8))) ∧
    (∀ n : Nat, n < 20 → s.pw.supply = .standby → s.rbit Reg.pwrWakeCfg (8 + n) = true →
      ∃ s', exec (.urrenSignalWake t n) s = .next s' ∧ s'.pw.supply = .on ∧
        s'.pw.trigger = (if s.pw.brownout then (1, 3) else (4, 8))) ∧
    (∀ (n : Nat) (level : Bool), s.rbit Reg.pwrWakeCfg (4 + n) = false → exec (.wakePin t n level) s = .next s1) ∧
    (∀ n : Nat, s.rbit Reg.pwrWakeCfg (8 + n) = false → exec (.urrenSignalWake t n) s = .next s1)

/-- A coolant fault at run level P0 sets its status, makes FLOOR P5 and ends ballast; asserted again it changes nothing. Its release
clears the status, and takes the floor back exactly where every considered sensor reads below ALERT_C; an over-temperature ends
exactly where every one reads below 100 degrees. Sensor readings are stored for the sensors the variant has, and for no other;
with every reading at or below 105 degrees nothing trips and no power state changes. Where the rules leave a reading or a
choice, this is the model's: log entry 42. (14 R474, 14 R499, 14 R504) -/
def Obligations.ThermalResponses : Prop :=
  ∀ (s : State) (t : Nat),
    let s1 := s.at t
    (s.rbit Reg.thmStatus 0 = true → exec (.coolantFaultAssert t) s = .next s1) ∧
    (s.rbit Reg.thmStatus 0 = false → s.level = 0 → s.sv.insts = [] → s.sv.passes = [] →
      s.pw.floorCap ≤ 7 → s.pw.floorHot ≤ 7 → ∃ s', exec (.coolantFaultAssert t) s = .next s' ∧ s'.rbit Reg.thmStatus 0 = true ∧
      5 ≤ s'.rf Reg.pwrStatus 10 8 ∧ 5 ≤ s'.rf Reg.thmStatus 15 13 ∧ s'.pw.ballastW = [] ∧ s'.pw.floorCool = 5) ∧
    (s1.allBelow s1.alertC = false → exec (.coolantFaultRelease t) s = .next (s1.wbit Reg.thmStatus 0 false)) ∧
    (s1.allBelow s1.alertC = true → ∃ s', exec (.coolantFaultRelease t) s = .next s' ∧ s'.rbit Reg.thmStatus 0 = false ∧
      s'.pw = { s.pw with floorCool := 0 } ∧ s'.sv = s.sv) ∧
    (s1.allBelow 100 = false → exec (.overTemperatureRecovery t) s = .next s1) ∧
    (s1.allBelow 100 = true → ∃ s', exec (.overTemperatureRecovery t) s = .next s' ∧ s'.pw = { s.pw with floorHot := 0 } ∧
      s'.rf Reg.thmStatus 15 13 = s.pw.floorCool % 8 ∧ s'.sv = s.sv) ∧
    (∀ i v : Nat, s.hasSensor i = true → v < 2 ^ 16 → (∀ j ∈ s.limitSensors, j ≠ i → s.temp j ≤ 840) → (v ≤ 840 ∨ 0x8000 ≤ v) →
      ∃ s', exec (.sensorUpdate t [(i, v)]) s = .next s' ∧ s'.rf (Reg.thmT i) 15 0 = v ∧ s'.pw = s.pw ∧ s'.sv = s.sv ∧
        s'.rbit Reg.thmStatus 3 = s.rbit Reg.thmStatus 3 ∧ s'.rbit Reg.thmStatus 2 = false) ∧
    (∀ i v : Nat, s.hasSensor i = false → exec (.sensorUpdate t [(i, v)]) s = exec (.sensorUpdate t []) s)

/-- An attempt of an Urren link on 8 lanes at both ends that finds the identity the link map expects brings the link up in STATE 2
with width 8, replay buffer empty and sequence numbers 0; on fewer lanes STATE 3 with the smaller width; with no usable lanes it
fails and the STATE stays; with another identity the link goes to STATE 6 and is held. A host port in PCIe mode comes up on its
first lanes. A link not in training is left as it is. The third failed attempt within 1 s makes a map-out with cause 1 due. A
link that loses lock is in STATE 1. A window check starts a new window, and makes a map-out with cause 3 due where it had more
corrected symbols than CS_LIMIT. A link with no cause is not mapped out. Where the rules leave a reading or a choice, this is
the model's: log entry 37. (12 R402, 12 R403, 12 R404, 12 R425, 12 R435) -/
def Obligations.LinkTrainingResults : Prop :=
  ∀ (s : State) (t n : Nat), n < 20 →
    let s1 := s.at t
    let lk := s.link n
    (∀ (mine peer inverted kind id port rate : Nat) (reversed : Bool),
      let run := exec (.linkTraining t n mine peer inverted reversed kind id port rate) s
      let pass := mine % 256 &&& (255 - lk.laneBad % 256)
      let w := Nat.min (widthOf pass) (widthOf peer)
      (s.linkState n ≠ 1 ∨ s.role n = 0 → run = .next s1) ∧
      (s.linkState n = 1 → s.role n = 4 →
        (pcieWidth pass = 0 → ∃ s', run = .next s' ∧ s'.linkState n = 1 ∧ s'.sv = s.sv ∧ s'.mem = s.mem) ∧
        (pcieWidth pass ≠ 0 → ∃ s', run = .next s' ∧ s'.linkState n = (if pcieWidth pass = 8 then 2 else 3) ∧
          s'.rf (Reg.lnkStatus n) 19 16 = pcieWidth pass ∧ s'.sv = s.sv ∧ s'.mem = s.mem)) ∧
      (s.linkState n = 1 → s.role n = 1 ∨ s.role n = 2 ∨ s.role n = 3 →
        (w = 0 → ∃ s', run = .next s' ∧ s'.linkState n = 1 ∧ s'.sv = s.sv ∧ s'.mem = s.mem) ∧
        (w ≠ 0 → s.mismatched n kind id port = false → lk.restore = none →
          ∃ s', run = .next s' ∧ s'.linkState n = (if w = 8 then 2 else 3) ∧ s'.rf (Reg.lnkStatus n) 19 16 = w ∧
            (s'.link n).replay = [] ∧ (s'.link n).txSeq = 0 ∧ (s'.link n).rxSeq = 0 ∧ (s'.link n).used = [] ∧ s'.sv = s.sv) ∧
        (w ≠ 0 → s.mismatched n kind id port = true → lk.restore = none →
          ∃ s', run = .next s' ∧ s'.linkState n = 6 ∧ (s'.link n).held = true ∧ s'.sv = s.sv))) ∧
    (∀ failed : Nat, s.linkState n = 1 → ∃ s', exec (.trainingAttemptTimeout t n failed) s = .next s' ∧
      s'.linkState n = 1 ∧ s'.sv = s.sv ∧
      (2 ≤ (lk.attempts.filter (fun a => decide (s1.now < a + 1000000000))).length → (s'.link n).cause = 1)) ∧
    (s.linkState n ≠ 1 → ∀ failed : Nat, exec (.trainingAttemptTimeout t n failed) s = .next s1) ∧
    (s.linkState n = 2 ∨ s.linkState n = 3 → ∃ s', exec (.linkLossOfLock t n) s = .next s' ∧ s'.linkState n = 1 ∧
      s'.rf (Reg.lnkStatus n) 19 16 = 0 ∧ s'.sv = s.sv ∧ s'.mem = s.mem) ∧
    (s.linkState n = 2 ∨ s.linkState n = 3 → ∃ s', exec (.fecWindowCheck t n) s = .next s' ∧ (s'.link n).window = 0 ∧
      (s'.link n).cause = (if s.rf (Reg.lnkThresh n) 31 0 < lk.window then 3 else lk.cause) ∧ (∀ m, m ≠ n → s'.link m = s.link m) ∧
      s'.csr = s.csr) ∧
    exec (.linkMapOut t n) s = .next (if lk.cause = 0 then s1 else s1.mapOut n lk.cause)

/-- A flit with a wrong CRC is discarded, counted, and a NAK is due where none has been sent since the last good flit; the expected
sequence number stays. A DATA flit with a good CRC in sequence moves the expected number on by one modulo 65,536, one out of
sequence leaves it and makes a NAK due likewise. A slot of an up link with a due NAK sends one NAK flit, and with nothing
queued, to resend or due one IDLE flit. A slot with a flit to resend sends that flit with its own sequence number; one with a
transaction queued, room in the replay buffer and a credit of its virtual channel sends the transaction's next piece under the
next sequence number, keeps it in the replay buffer and uses one credit. A NAK makes every flit in the replay buffer due again;
one for the same flit RETRY_LIMIT times in a row makes a map-out with cause 4 due. Where the rules leave a reading or a choice,
this is the model's: log entry 37. (12 R405, 12 R406, 12 R408, 12 R409, 12 R425) -/
def Obligations.FlitsOfALink : Prop :=
  ∀ (s : State) (t n : Nat), n < 20 → s.linkState n = 2 ∨ s.linkState n = 3 →
    let lk := s.link n
    (∀ (bytes : List Byte) (cs uc : Nat), bytes.length = 256 → crc32c (bytes.take 252) ≠ fieldLE bytes 252 4 →
      ∃ s', exec (.flitReceive t n bytes cs uc) s = .next s' ∧ (s'.link n).rxSeq = lk.rxSeq ∧ (s'.link n).rxbuf = lk.rxbuf ∧
        (lk.nakSent = false → (s'.link n).nakDue = true ∧ (s'.link n).nakSent = true) ∧
        (lk.nakSent = true → (s'.link n).nakDue = lk.nakDue) ∧
        s'.reg (Reg.lnkCrcErr n) = (s.bump (Reg.lnkCrcErr n) 63 0 1).reg (Reg.lnkCrcErr n) ∧ s'.sv = s.sv ∧ s'.out = s.out) ∧
    (∀ (bytes : List Byte) (cs uc : Nat), bytes.length = 256 → crc32c (bytes.take 252) = fieldLE bytes 252 4 →
      fieldLE bytes 0 1 % 4 = 1 → ∃ s', exec (.flitReceive t n bytes cs uc) s = .next s' ∧ s'.sv = s.sv ∧ s'.out = s.out ∧
        (fieldLE bytes 2 2 = lk.rxSeq → (s'.link n).rxSeq = (lk.rxSeq + 1) % 65536 ∧ (s'.link n).nakSent = false) ∧
        (fieldLE bytes 2 2 ≠ lk.rxSeq → (s'.link n).rxSeq = lk.rxSeq ∧ (s'.link n).rxbuf = lk.rxbuf ∧ (s'.link n).nakSent = true)) ∧
    (s.role n ≠ 4 → lk.nakDue = true → ∃ (s' : State) (f : List Byte), exec (.flitSlot t n) s = .next s' ∧
      s'.out = s.out ++ [.flit (s.at t).now n f] ∧ (s'.link n).nakDue = false ∧ (s'.link n).slot = lk.slot + 1 ∧
      (s'.link n).replay = lk.replay) ∧
    (s.role n ≠ 4 → lk.nakDue = false → lk.resend = 0 → lk.txq = [] → ∃ (s' : State) (f : List Byte),
      exec (.flitSlot t n) s = .next s' ∧ s'.out = s.out ++ [.flit (s.at t).now n f] ∧ (s'.link n).slot = lk.slot + 1 ∧
      (s'.link n).txSeq = lk.txSeq ∧ (s'.link n).replay = lk.replay) ∧
    (∀ f : RFlit, s.role n ≠ 4 → lk.nakDue = false → lk.resend ≠ 0 → lk.replay[lk.replay.length - lk.resend]? = some f →
      ∃ s' : State, exec (.flitSlot t n) s = .next s' ∧ (s'.link n).resend = lk.resend - 1 ∧ (s'.link n).replay = lk.replay ∧
        (s'.link n).txSeq = lk.txSeq ∧ s'.out = s.out ++
          [.flit (s.at t).now n (flitBytes 1 f.vc f.seq ((lk.rxSeq + 65535) % 65536) lk.toReturn.1 lk.toReturn.2 f.payload)]) ∧
    (∀ q : QTx, s.role n ≠ 4 → lk.nakDue = false → lk.resend = 0 → lk.txq = [q] → q.tx.vc < 8 →
      tget 0 lk.used q.tx.vc < vcCredits q.tx.vc → lk.replay.length < 256 →
      let piece := slice (txBytes q.tx) (244 * q.sent) 244
      ∃ (s' : State) (r : RFlit), exec (.flitSlot t n) s = .next s' ∧ r.seq = lk.txSeq ∧ r.vc = q.tx.vc ∧ r.payload = piece ∧
        (s'.link n).replay = lk.replay ++ [r] ∧ (s'.link n).txSeq = (lk.txSeq + 1) % 65536 ∧
        (s'.link n).txq = (if txFlits q.tx ≤ q.sent + 1 then [] else [{ q with sent := q.sent + 1 }]) ∧
        tget 0 (s'.link n).used q.tx.vc = tget 0 lk.used q.tx.vc + 1 ∧ s'.out = s.out ++
          [.flit (s.at t).now n (flitBytes 1 q.tx.vc lk.txSeq ((lk.rxSeq + 65535) % 65536) lk.toReturn.1 lk.toReturn.2 piece)]) ∧
    (lk.nakOf = none → exec (.nakRetransmit t n) s = .next (s.at t)) ∧
    (∀ (k : Nat) (f : RFlit) (fs : List RFlit), lk.nakOf = some k → lk.replay = f :: fs →
      ∃ s', exec (.nakRetransmit t n) s = .next s' ∧ (s'.link n).nakOf = none ∧ (s'.link n).resend = fs.length + 1 ∧
        (s'.link n).replay = lk.replay ∧ s'.sv = s.sv ∧
        (lk.nakCount ≠ 0 → lk.nakSeq = f.seq → 1 ≤ s.rf (Reg.lnkThresh n) 47 40 → s.rf (Reg.lnkThresh n) 47 40 ≤ lk.nakCount + 1 →
          (s'.link n).cause = 4))

/-- To an unfrozen running part: a READ, WRITE or ATOMIC whose check answers 0 becomes one access of the part, which names the
transaction it answers, its place, length, data and operands, and has changed no byte of memory yet. One that the check refuses
changes no memory and starts no access, and a refused permission counts in RTE_REMOTE_DENY. A SIGNAL is consumed and changes
nothing. A remote access to SPACE 3 or 4 is answered with STATUS 3, one above SPACE 4 with 4, and one from a part whose routing
entry does not allow loads and stores never with 0. On a host port in Urren host mode a READ or WRITE of VC1 is a register
access, and a SIGNAL is refused. Where the rules leave a reading or a choice, this is the model's: log entries 28, 36. (06 R210,
12 R411, 12 R412, 12 R415, 12 R416) -/
def Obligations.RemoteAccessesAreCheckedFirst : Prop :=
  (∀ (s : State) (t port : Nat) (tx : Tx), port < 20 → s.role port ≠ 3 → tx.dst = s.ownPid → s.frozen = false → s.pw.supply = .on →
     let s1 := s.at t
     let n := if tx.op = 1 then tx.len else if tx.op = 2 then tx.data.length else 4
     let taken : Host.Outcome State Fault Refusal → Prop := fun o => ∃ (s' : State) (a : Access), o = .next s' ∧
       s'.tiers.accesses = s.tiers.accesses ++ [a] ∧ a.serves = .tx port tx ∧ a.kind = tx.op - 1 ∧ a.pid = s.ownPid ∧
       memKey a.space a.off = memKey (fld tx.addr 47 45) (fld tx.addr 44 0) ∧ a.len = n ∧ a.data = (if tx.op = 2 then tx.data else []) ∧
       a.fn = tx.fn ∧ a.rb = BitVec.ofNat 32 tx.arg ∧ a.rc = BitVec.ofNat 32 (tx.arg / 2 ^ 32) ∧ a.src = .bark (port / 10) ∧
       (tx.op = 2 → a.poison = BitVec.ofNat 8 (txPoison tx)) ∧ a.entered = none ∧ s'.mem = s.mem ∧ s'.leaves = s.leaves
     let denied : Host.Outcome State Fault Refusal → Prop := fun o => ∃ s' : State, o = .next s' ∧ s'.mem = s.mem ∧ s'.tiers = s.tiers ∧
       s'.leaves = s.leaves ∧ s'.sv = s.sv ∧ s'.rf Reg.rteRemoteDeny 31 0 =
         (if s1.remoteStatus tx n = 3 then Nat.min (s.rf Reg.rteRemoteDeny 31 0 + 1) (2 ^ 32 - 1) else s.rf Reg.rteRemoteDeny 31 0)
     (s1.remoteStatus tx n = 0 →
       (tx.op = 1 → taken (exec (.read t port tx) s)) ∧ (tx.op = 2 → taken (exec (.write t port tx) s)) ∧
       (tx.op = 3 → taken (exec (.atomic t port tx) s))) ∧
     (s1.remoteStatus tx n ≠ 0 →
       (tx.op = 1 → denied (exec (.read t port tx) s)) ∧ (tx.op = 2 → denied (exec (.write t port tx) s)) ∧
       (tx.op = 3 → denied (exec (.atomic t port tx) s))) ∧
     exec (.signal t port tx) s = .next s1) ∧
  (∀ (s : State) (t port : Nat) (tx : Tx), port < 20 → s.role port = 3 → s.pw.supply = .on →
     (tx.op = 1 → tx.vc = 1 → exec (.read t port tx) s = .next ((s.at t).hostCsr port tx)) ∧
     (tx.op = 2 → tx.vc = 1 → exec (.write t port tx) s = .next ((s.at t).hostCsr port tx)) ∧
     (tx.op = 4 → ∃ s' : State, exec (.signal t port tx) s = .next s' ∧ s'.mem = s.mem ∧ s'.tiers = s.tiers ∧ s'.leaves = s.leaves ∧
       s'.rf Reg.rteRemoteDeny 31 0 = Nat.min (s.rf Reg.rteRemoteDeny 31 0 + 1) (2 ^ 32 - 1))) ∧
  (∀ (s : State) (tx : Tx) (n : Nat),
     (fld tx.addr 47 45 = 3 ∨ fld tx.addr 47 45 = 4 → s.remoteStatus tx n = 3) ∧
     (4 < fld tx.addr 47 45 → s.remoteStatus tx n = 4) ∧
     (s.allowLs tx.src = false → s.remoteStatus tx n ≠ 0) ∧
     (s.remoteStatus tx n = 0 → fld tx.addr 47 45 ≤ 2 ∧ s.localOk (fld tx.addr 47 45) (fld tx.addr 44 0) n = none))

/-- A frozen part holds a transaction that arrives for it while its hold queue has room, and takes nothing of it. To an unfrozen
one: a non-posted FORK is delivered, or sent on by a gateway, and a delivered one is answered with the status of its delivery, a
trigger of a running instance adding one to the doorbell word of its group step; a KV_FETCH of a sequence the part holds and may
ship, to a part with a route, makes the sequence SHIPPING and is served, and any other is refused with STATUS 3; KV_DATA for a
running ship writes its page and with the last piece ends the fetch; KV_DATA and RESP that match no outstanding transaction
change nothing, and a RESP that matches completes it; a transaction outstanding for less than TIMEOUT_US stays, and one at its
limit completes with NO_ROUTE or PART_REMOVED, counted. Where the rules leave a reading or a choice, this is the model's: log
entries 21, 36. (09 R309, 09 R310, 11 R382, 11 R383, 12 R411, 12 R412, 12 R417, 16 R532) -/
def Obligations.TransactionArrivals : Prop :=
  ∀ (s : State) (t port : Nat) (tx : Tx), port < 20 → s.pw.supply = .on →
    let s1 := s.at t
    let held := if s1.holdRoom tx then s1.modDb (fun d => { d with heldTx := d.heldTx ++ [(port, tx)] }) else s1
    (s.frozen = true → s.role port ≠ 3 →
      (tx.op = 1 → exec (.read t port tx) s = .next held) ∧ (tx.op = 2 → exec (.write t port tx) s = .next held) ∧
      (tx.op = 3 → exec (.atomic t port tx) s = .next held) ∧ (tx.op = 8 → exec (.fork t port tx) s = .next held) ∧
      (tx.op = 9 → exec (.kvFetch t port tx) s = .next held) ∧ (tx.op = 10 → exec (.kvData t port tx) s = .next held) ∧
      (tx.op = 0x10 → exec (.resp t port tx) s = .next held)) ∧
    (s.frozen = false → s.role port ≠ 3 → tx.dst = s.ownPid →
      (tx.op = 8 → tx.addr % 2 = 1 → tx.addr / 2 ^ 48 ≠ s.ownPid → exec (.fork t port tx) s = .next (s1.relayFork port tx)) ∧
      (tx.op = 8 → tx.addr % 2 = 0 ∨ tx.addr / 2 ^ 48 = s.ownPid →
        (tx.flags % 2 = 0 → exec (.fork t port tx) s = .next (s1.forkArrive tx).1) ∧
        (tx.flags % 2 = 1 → exec (.fork t port tx) s = .next ((s1.forkArrive tx).1.respond port tx (s1.forkArrive tx).2 [] 0 0)) ∧
        (∀ (i : Inst) (cfg : Pass × Load × Nat × List Byte), tx.flags % 2 = 1 → fld tx.arg 7 0 = 1 →
          s1.instByOrder (tx.stand % 64) (fld tx.arg 55 48) = some i → s1.runningCfg i = some cfg →
          fld tx.arg 23 16 < nGroups cfg.2.2.2 → gsRel (groupStep cfg.2.2.2 (fld tx.arg 23 16)) = fld tx.arg 15 8 →
          let db := gsDb (groupStep cfg.2.2.2 (fld tx.arg 23 16))
          exec (.fork t port tx) s = .next ((s1.putRelWord i (fld tx.arg 15 8) db
            ((s1.relWord i (fld tx.arg 15 8) db + 1) % 2 ^ 32)).respond port tx 0 [] 0 0))) ∧
      (tx.op = 9 → s.seq (fld tx.addr 45 40) (tx.arg % 2 ^ 32) = none →
        exec (.kvFetch t port tx) s = .next (s1.respond port tx 3 [] 0 0)) ∧
      (∀ q : Seq, tx.op = 9 → s.seq (fld tx.addr 45 40) (tx.arg % 2 ^ 32) = some q →
        (shipSourceOk q (tx.arg / 2 ^ 32) tx.data = false → exec (.kvFetch t port tx) s = .next (s1.respond port tx 3 [] 0 0)) ∧
        (shipSourceOk q (tx.arg / 2 ^ 32) tx.data = true → (∀ x : Tx, x.dst = tx.src → x.leg = 0 → ∃ p, s1.routeTx x = .ok p) →
          ∃ s' : State, exec (.kvFetch t port tx) s = .next s' ∧
            (s'.seq (fld tx.addr 45 40) (tx.arg % 2 ^ 32)).map (·.state) = some .shipping ∧
            s'.ur.kvServes = s.ur.kvServes ++ [⟨tx.tag, tx.src, tx.vc, fld tx.addr 45 40, tx.arg % 2 ^ 32, tx.fn % 2 == 1⟩] ∧ s'.mem = s.mem)) ∧
      (tx.op = 10 → (∀ o ∈ s.ur.outst, o.tag ≠ tx.arg / 2 ^ 32) → exec (.kvData t port tx) s = .next s1) ∧
      (∀ (o : Outst) (id : Nat) (r : Request), tx.op = 10 →
        s.ur.outst.find? (fun o => o.tag == tx.arg / 2 ^ 32 && o.dst == tx.src) = some o → o.purpose = .ship id → s.req id = some r →
        let s2 := match s1.pageOf r.stand r.seqId (tx.arg % 2 ^ 16) (tx.arg / 2 ^ 16 % 2 ^ 16) with
          | some p => (s1.objWrite p tx.addr tx.data).objPoison p
              ((List.range (cdiv tx.data.length 64)).map (fun i => (tx.addr / 64 + i, BitVec.ofNat 8 (txPoison tx))))
          | none => s1
        (tx.flags % 2 = 0 → exec (.kvData t port tx) s = .next s2) ∧
        (tx.flags % 2 = 1 → exec (.kvData t port tx) s = .next ((s2.modSv (fun v => { v with
          passes := mapIf (fun p => p.members.contains id) (fun p => { p with stage := 1 }) v.passes })).respondVc port tx
            (if r.cls = 1 then 3 else 5) 0 [] 0 0))) ∧
      (tx.op = 0x10 → (∀ o ∈ s.ur.outst, o.tag ≠ tx.tag) → exec (.resp t port tx) s = .next s1) ∧
      (∀ o : Outst, tx.op = 0x10 → s.ur.outst.find? (fun o => o.tag == tx.tag && o.dst == tx.src) = some o →
        exec (.resp t port tx) s = .next (s1.complete o tx.fn (txPoison tx) tx.data (tx.arg % 2 ^ 32)))) ∧
    (∀ (dst tag : Nat) (o : Outst), s.ur.outst.find? (fun o => o.tag == tag && o.dst == dst) = some o →
      let limit := o.since + 1000 * Nat.max 1 (s.rf Reg.rteCfg 47 32)
      (s1.now < limit → exec (.responseTimeout t dst tag) s = .next s1) ∧
      (limit ≤ s1.now → exec (.responseTimeout t dst tag) s =
        .next ((s1.bump Reg.rteTimeout 31 0 1).complete o (if s.removed dst then 5 else 1) 0 [] 0)))

/-- A transaction for another part with TTL 0 is counted and, posted, dropped. One with a route leaves on a port of the active
bank's set that is up, its TTL one less; what comes in from a far port carries LEG F alone, and from a near to a near port D is
added; every other field stays. One posted without a route, and one with a reserved opcode, is counted. A multicast write that
names no installed tree or arrives on another port than IN_PORT is counted and dropped; else it joins the queue of every output
of the tree that is up and of no other, and is delivered where LOCAL is 1, by a frozen part after THAW. Where the rules leave a
reading or a choice, this is the model's: log entry 36. (12 R411, 12 R417, 12 R418, 12 R419, 12 R422, 12 R423) -/
def Obligations.ForwardingAndTrees : Prop :=
  ∀ (s : State) (t port : Nat) (tx : Tx), port < 20 →
    let s1 := s.at t
    (s.role port = 0 ∨ s.role port = 1 ∨ s.role port = 2 → txKnown tx.op = false → ∃ s' : State, exec (.transactionForward t port tx) s = .next s' ∧
      s'.rf Reg.rteNoroute 31 0 = Nat.min (s.rf Reg.rteNoroute 31 0 + 1) (2 ^ 32 - 1) ∧ s'.ur = s.ur ∧ s'.sv = s.sv ∧ s'.mem = s.mem) ∧
    (tx.dst ≠ s.ownPid → txKnown tx.op = true → tx.op ≠ 5 → s.role port = 1 ∨ s.role port = 2 →
      (tx.ttl = 0 → txNonPosted tx = false → ∃ s' : State, exec (.transactionForward t port tx) s = .next s' ∧
        s'.rf Reg.rteTtlDrop 31 0 = Nat.min (s.rf Reg.rteTtlDrop 31 0 + 1) (2 ^ 32 - 1) ∧ s'.ur = s.ur ∧ s'.sv = s.sv) ∧
      (tx.ttl = 0 → txNonPosted tx = true → exec (.transactionForward t port tx) s =
        .next ((s1.bump Reg.rteTtlDrop 31 0 1).respond port tx 2 [] 0 0)) ∧
      (tx.ttl ≠ 0 →
        let leg := if s.role port = 2 then 2 else tx.leg
        let tx1 : Tx := { tx with ttl := tx.ttl - 1, leg := leg }
        (∀ n, s1.routeTx tx1 = .ok n → exec (.transactionForward t port tx) s =
          .next (s1.flowSend n { tx1 with leg := if s.role port = 1 ∧ s.role n = 1 then leg / 2 * 2 + 1 else leg })) ∧
        (∀ e, s1.routeTx tx1 = .error e → txNonPosted tx = true → exec (.transactionForward t port tx) s = .next (s1.respond port tx e [] 0 0)) ∧
        (∀ e, s1.routeTx tx1 = .error e → txNonPosted tx = false → ∃ s' : State, exec (.transactionForward t port tx) s = .next s' ∧
          s'.rf Reg.rteNoroute 31 0 = Nat.min (s.rf Reg.rteNoroute 31 0 + 1) (2 ^ 32 - 1) ∧ s'.ur = s.ur ∧ s'.sv = s.sv))) ∧
    (s.treeOf tx.dst = none → ∃ s' : State, exec (.mcastWrite t port tx) s = .next s' ∧
      s'.rf Reg.rteMcDrop 31 0 = Nat.min (s.rf Reg.rteMcDrop 31 0 + 1) (2 ^ 32 - 1) ∧ s'.ur = s.ur ∧ s'.sv = s.sv ∧ s'.mem = s.mem) ∧
    (∀ e, s.treeOf tx.dst = some e → treeIn e ≠ port → ∃ s' : State, exec (.mcastWrite t port tx) s = .next s' ∧
      s'.rf Reg.rteMcDrop 31 0 = Nat.min (s.rf Reg.rteMcDrop 31 0 + 1) (2 ^ 32 - 1) ∧ s'.ur = s.ur ∧ s'.sv = s.sv) ∧
    (∀ e, s.treeOf tx.dst = some e → treeIn e = port →
      (treeLocal e = false → ∃ s' : State, exec (.mcastWrite t port tx) s = .next s' ∧ s'.mem = s.mem ∧ s'.sv = s.sv ∧
        (∀ n < 20, e.2.testBit n = true → s1.portUp n = true → (s'.link n).txq = (s.link n).txq ++ [⟨tx, 0⟩]) ∧
        (∀ n, e.2.testBit n = false ∨ s1.portUp n = false ∨ 20 ≤ n → s'.link n = s.link n)) ∧
      (treeLocal e = true → s.frozen = false → exec (.mcastWrite t port tx) s = .next ((s1.treeSend e tx).mcDeliver tx)) ∧
      (treeLocal e = true → s.frozen = true → s1.holdRoom tx = true → exec (.mcastWrite t port tx) s = .next ((s1.treeSend e tx).holdTx port tx)) ∧
      (treeLocal e = true → s.frozen = true → s1.holdRoom tx = false → exec (.mcastWrite t port tx) s = .next s1))

/-- An armed epoch that has come, with no message waiting and nothing outstanding, makes the shadow bank the active one, flips the
bank bit, disarms and starts the copy; before its time nothing happens. When the copy is done the shadow bank equals the active
one. A flow that still has transactions in a queue, or whose quiet time has not passed, releases nothing. A drain ends only when
the part is drained and not frozen. Where the rules leave a reading or a choice, this is the model's: log entries 36, 37. (12
R420, 12 R421, 12 R428) -/
def Obligations.RoutingEpochsAndDrains : Prop :=
  ∀ (s : State) (t : Nat),
    let s1 := s.at t
    (s.rbit Reg.rteStatus 1 = true → s.reg Reg.rteEpoch ≤ s1.now → s.copying = false → s.ur.routeWaits = [] → s.ur.outst = [] →
      ∃ s', exec (.routeEpochSwap t) s = .next s' ∧ s'.ur.active = s.ur.shadow ∧ s'.ur.mcActive = s.ur.mcShadow ∧
        s'.rbit Reg.rteStatus 1 = false ∧ s'.copying = true ∧ s'.rf Reg.rteStatus 0 0 = 1 - s.rf Reg.rteStatus 0 0 ∧ s'.sv = s.sv) ∧
    (s.rbit Reg.rteStatus 1 = false ∨ s1.now < s.reg Reg.rteEpoch → exec (.routeEpochSwap t) s = .next s1) ∧
    (s.copying = true → (∀ w ∈ s.ur.routeWaits, w.copying = false) →
      ∃ s', exec (.shadowCopyDone t) s = .next s' ∧ s'.ur.shadow = s.ur.active ∧ s'.ur.active = s.ur.active ∧
        s'.ur.mcShadow = s.ur.mcActive ∧ s'.copying = false ∧ s'.sv = s.sv) ∧
    (∀ (dst vc : Nat) (f : Flow), s.ur.flows.find? (fun f => f.dst == dst && f.vc == vc) = some f →
      (s.flowBusy dst vc = true ∨ s1.now < f.last + s.quiesceNs → exec (.quiesceRelease t dst vc) s = .next s1) ∧
      (f.waiting = [] → exec (.quiesceRelease t dst vc) s = .next s1) ∧
      (∀ (tx : Tx) (n : Nat), f.waiting = [tx] → s.flowBusy dst vc = false → f.last + s.quiesceNs ≤ s1.now → s1.routeTx tx = .ok n →
        ∃ s2 : State, exec (.quiesceRelease t dst vc) s = .next (s2.sendTx tx).1 ∧ s2.sv = s.sv ∧ s2.ur.links = s.ur.links ∧
          (∀ g ∈ s2.ur.flows, g.dst = dst → g.vc = vc → g.waiting = [] ∧ g.port = n))) ∧
    (s.frozen = true ∨ s.ur.draining = [] ∨ s1.drained = false → exec (.drainComplete t) s = .next s1) ∧
    (∀ m : Nat, s.frozen = false → s.ur.draining = [m] → s1.drained = true →
      exec (.drainComplete t) s = .next ((s1.modUr (fun u => { u with draining := [] })).adminEnd m 0 (leBytes 1 1)))

/-- A part without parent asks nobody. One with a parent whose port is up queues one request and remembers it. A request of a child
is answered on its port, and nothing else happens to the clock. An answer whose delay exceeds one of the last by more than 2 ns
is discarded: it ends the exchange and steps nothing. The edge on PPS_IN of a part that is no anchored root only records ring
time. The pulse goes out at each second where the pin is driven, and at no other time. An answer whose delay is no more than
that locks the part, or slews it, and records the offset. The anchored root's edge records its time in TIME_PPS and is STATUS 4;
its first edge before the part admits requests steps to the next second. Ring time never steps back. Where the rules leave a
reading or a choice, this is the model's: log entry 38. (12 R430, 12 R431, 12 R432, 12 R433, 15 R524) -/
def Obligations.RingTimeExchanges : Prop :=
  ∀ (s : State) (t sub : Nat),
    let s1 := s.at t
    (s.ur.clock.parent = none → exec (.timeSyncRequest t sub) s = .next s1) ∧
    (∀ p : Nat, s.ur.clock.parent = some p → s.rbit Reg.timeCfg 1 = false → s1.portUp p = true →
      ∃ s', exec (.timeSyncRequest t sub) s = .next s' ∧ s'.ur.clock.t1 = some (p, s.ur.nextTag) ∧
        ∃ q : QTx, (s'.link p).txq = (s.link p).txq ++ [q] ∧ q.tx.op = 6 ∧ q.tx.vc = 7 ∧ q.tx.tag = s.ur.nextTag ∧
          q.tx.data = syncData (s1.stamp sub) 0 0 0) ∧
    (∀ (n : Nat) (tx : Tx), n < 20 → tx.op = 6 → s.role n = 1 ∨ s.role n = 2 → s.ur.clock.t1 ≠ some (n, tx.tag) →
      ∃ s', exec (.timeSync t n tx sub) s = .next s' ∧ s'.ur.clock = s.ur.clock ∧ s'.csr = s.csr ∧ s'.now = s1.now ∧
        ∃ q : QTx, (s'.link n).txq = (s.link n).txq ++ [q] ∧ q.tx.tag = tx.tag ∧ q.tx.dst = tx.src ∧
          q.tx.data = syncData (fieldLE tx.data 0 8) (s1.stamp sub) (s1.stamp sub) (fieldLE tx.data 24 4)) ∧
    (∀ (n : Nat) (tx : Tx), n < 20 → tx.op = 6 → s.role n = 1 ∨ s.role n = 2 → s.ur.clock.t1 = some (n, tx.tag) →
      let d := (tsDiff (s1.stamp sub) (fieldLE tx.data 0 8) - tsDiff (fieldLE tx.data 16 8) (fieldLE tx.data 8 8) -
        signed32 (fieldLE tx.data 24 4)) / 2
      s.ur.clock.delays.any (fun x => decide (x + 32 < d.toNat)) = true →
      ∃ s', exec (.timeSync t n tx sub) s = .next s' ∧ s'.now = s1.now ∧ s'.csr = s.csr ∧ s'.ur.clock.t1 = none) ∧
    (s.rbit Reg.timeCfg 1 = false ∨ s.rbit Reg.timeCfg 0 = false → ∃ s', exec (.ppsInEdge t) s = .next s' ∧ s'.now = s1.now ∧
      s'.reg Reg.timePps = s1.now ∧ (∀ o, o ≠ Reg.timePps → s'.reg o = s.reg o)) ∧
    (s1.now % 1000000000 = 0 → s.rbit Reg.rstPinopt 2 = true → exec (.ppsOutPulse t) s = .next (s1.emit (.pps s1.now))) ∧
    (s1.now % 1000000000 ≠ 0 ∨ s.rbit Reg.rstPinopt 2 = false → exec (.ppsOutPulse t) s = .next s1) ∧
    (∀ (n : Nat) (tx : Tx), n < 20 → tx.op = 6 → s.role n = 1 ∨ s.role n = 2 → s.ur.clock.t1 = some (n, tx.tag) →
      let d := (tsDiff (s1.stamp sub) (fieldLE tx.data 0 8) - tsDiff (fieldLE tx.data 16 8) (fieldLE tx.data 8 8) -
        signed32 (fieldLE tx.data 24 4)) / 2
      let off := (tsDiff (fieldLE tx.data 8 8) (fieldLE tx.data 0 8) + tsDiff (fieldLE tx.data 16 8) (s1.stamp sub)) / 2
      s.ur.clock.delays.any (fun x => decide (x + 32 < d.toNat)) = false →
      ∃ s' : State, exec (.timeSync t n tx sub) s = .next s' ∧ s'.ur.clock.t1 = none ∧ s'.ur.clock.everLocked = true ∧
        s'.reg Reg.timeOffset = (off % 2 ^ 32).toNat ∧ s'.rf Reg.timeStatus 2 0 = 1 ∧ (s.now < 2 ^ 64 → s1.now ≤ s'.now)) ∧
    (s.rbit Reg.timeCfg 1 = true → s.rbit Reg.timeCfg 0 = true → ∃ s' : State, exec (.ppsInEdge t) s = .next s' ∧
      s'.rf Reg.timeStatus 2 0 = 4 ∧ s'.reg Reg.timePps = s'.now ∧
      s'.now = (if s.rf Reg.timeStatus 2 0 ≠ 4 ∧ s.rbit Reg.rootStatus 2 = false then min (cdiv s1.now 1000000000 * 1000000000) (2 ^ 64 - 1)
        else s1.now)) ∧
    (∀ (off : Int), s.now < 2 ^ 64 → s1.now ≤ (s1.takeOffset off).now) ∧
    (∀ s', s.now < 2 ^ 64 → exec (.ppsInEdge t) s = .next s' → s.now ≤ s'.now)

/-- A fill writes the section of its configuration and its directory entry with the CRC-32C into the slot the bank picks, and is
then a context load, or done where MODEL_LOAD asked for the fill alone; an image without a verified near copy is fetched first;
a fill of MODEL_LOAD that finds no slot is dropped. A load command makes its context invalid. A context load whose CRC matches
makes the context valid on the branch and its leaves; one that does not match sets ERR, empties slot and context and fills
again; a load into the context of a running pass waits. The manifest of a load that reads it is checked with its image; a lost
codeword in that read ends the load with TIER_ERROR; a preload places its ranges once and binds the load once they have ended;
an evicted image is released. A frozen part performs none of them. Where the rules leave a reading or a choice, this is the
model's: log entry 27. (05 R187, 05 R190, 05 R191, 05 R192, 05 R193, 05 R194, 06 R233, 08 R277, 11 R390) -/
def Obligations.LoadsAndSeedBanks : Prop :=
  ∀ (s : State) (t b id : Nat) (flips : List (Nat × Byte)) (imf maf : List Nat),
    let s1 := s.at t
    (s.frozen = true → exec (.seedBankFill t b) s = .next s1 ∧ exec (.contextLoad t b flips) s = .next s1 ∧
      exec (.preloadRun t id) s = .next s1 ∧ exec (.imageRelease t id) s = .next s1 ∧ exec (.manifestVerified t id imf maf) s = .next s1) ∧
    (∀ (c : CfgLoad) (k : Nat) (o : PoolObj), s.frozen = false → s.sv.cfgLoads.find? (fun c => c.branch == b && c.fill) = some c →
      s1.imageObj c.load = some o → o.state = .verified → s1.pickSeed b = some k →
      (let img := s1.objRead o 0 o.size
      let x := brSect img c.cfg c.rel
      ∃ s' : State, exec (.seedBankFill t b) s = .next s' ∧
        s'.mem = ((s1.memWrite (memKey 4 (seedAddr b k)) x).memWrite (memKey 4 (b * 0x400000 + k * 32))
          (dirBytes (imgId img) c.cfg c.rel x.length (crc32c x))).mem ∧
        tget SeedSlot.empty (s'.branch b).seeds k = ⟨true, c.load, c.cfg, c.rel, x.length, crc32c x, s1.now⟩ ∧
        (s'.branch b).loads = sat32 ((s.branch b).loads + 1) ∧ s'.csr = s.csr ∧
        (8 ≤ c.ctx → s'.sv.cfgLoads.length + 1 = s.sv.cfgLoads.length) ∧
        (c.ctx < 8 → ∃ c' ∈ s'.sv.cfgLoads, c'.branch = b ∧ c'.fill = false ∧ c'.load = c.load ∧ c'.cfg = c.cfg ∧ c'.ctx = c.ctx))) ∧
    (∀ (c : CfgLoad) (o : PoolObj), s.frozen = false → s.sv.cfgLoads.find? (fun c => c.branch == b && c.fill) = some c →
      s1.imageObj c.load = some o →
      (o.state ≠ .verified → (∀ f ∈ s.sv.fetches, f.obj ≠ o.id) → ∃ s' : State, exec (.seedBankFill t b) s = .next s' ∧
        s'.sv.fetches.map (·.obj) = s.sv.fetches.map (·.obj) ++ [o.id] ∧ s'.sv.cfgLoads = s.sv.cfgLoads ∧ s'.mem = s.mem) ∧
      (o.state = .verified → s1.pickSeed b = none → 8 ≤ c.ctx → ∃ s' : State, exec (.seedBankFill t b) s = .next s' ∧
        s'.sv.cfgLoads.length + 1 = s.sv.cfgLoads.length ∧ s'.mem = s.mem)) ∧
    (∀ (c : CfgLoad) (k : Nat), let s2 := s1.beginLoads [b]
      s.frozen = false → s2.sv.cfgLoads.filter (fun c => c.branch == b && !c.fill) = [c] → c.begun = true →
      s2.seedOf b c.load c.cfg c.rel = some k →
      (let q := tget SeedSlot.empty (s2.branch b).seeds k
      let x := flips.foldl (fun (l : List Byte) f => l.modify f.1 (fun v => v ^^^ f.2)) (s.memRead (memKey 4 (seedAddr b k)) q.size)
      (crc32c x ≠ q.crc → ∃ s' : State, exec (.contextLoad t b flips) s = .next s' ∧ (s'.branch b).loadErr = true ∧
        (tget BrcCtx.empty (s'.branch b).ctxs c.ctx).valid = false ∧ tget SeedSlot.empty (s'.branch b).seeds k = SeedSlot.empty ∧
        s'.csr = s.csr ∧ (∃ c' ∈ s'.sv.cfgLoads, c'.branch = b ∧ c'.fill = true ∧ c'.load = c.load ∧ c'.cfg = c.cfg)) ∧
      (crc32c x = q.crc → s.sv.passes = [] → ∃ s' : State, exec (.contextLoad t b flips) s = .next s' ∧
        (tget BrcCtx.empty (s'.branch b).ctxs c.ctx).valid = true ∧ (tget BrcCtx.empty (s'.branch b).ctxs c.ctx).cfg = c.cfg ∧
        (∀ j < 64, ((s'.leaf (b * 64 + j)).ctxAt c.ctx).valid = true ∧ ((s'.leaf (b * 64 + j)).ctxAt c.ctx).cfg = k) ∧
        (s'.branch b).loadErr = (s.branch b).loadErr ∧ s'.sv.cfgLoads.length + 1 = s.sv.cfgLoads.length ∧ s'.mem = s.mem ∧ s'.csr = s.csr))) ∧
    (∀ (c : CfgLoad) (k : Nat), s.frozen = false → s.sv.cfgLoads.find? (fun c => c.branch == b && !c.fill) = some c → c.begun = false →
      s.seedOf b c.load c.cfg c.rel = some k →
      ((s.branch b).active = c.ctx → (branchLeaves b).any (fun l => (s.leaf l).mode == .run || (s.leaf l).mode == .stall) = true →
        exec (.contextLoad t b flips) s = .next s1) ∧
      ((s.branch b).active ≠ c.ctx →
        (tget BrcCtx.empty ((s1.beginLoads [b]).branch b).ctxs c.ctx).valid = false ∧ ((s1.beginLoads [b]).branch b).loadSlot = k ∧
        (∀ j < 64, (((s1.beginLoads [b]).leaf (b * 64 + j)).ctxAt c.ctx).valid = false))) ∧
    (∀ l : Load, s.load id = some l → l.phase ≠ .manifest → exec (.manifestVerified t id imf maf) s = .next s1) ∧
    (∀ (l : Load) (s2 : State), s.load id = some l → s.frozen = false → l.phase = .manifest → l.image ≠ [] →
      (let n := fieldLE l.rxManifest 16 4
      (l.role = 2 → n = 0 ∨ l.rxManifest.length < n → exec (.manifestVerified t id imf maf) s = .next s1) ∧
      (l.role = 2 → n ≠ 0 → n ≤ l.rxManifest.length →
        exec (.manifestVerified t id imf maf) s = .next (s1.takeManifest { l with rxManifest := [] } (l.rxManifest.take n)))) ∧
      (l.role ≠ 2 → imgManifestId l.image = 0 → exec (.manifestVerified t id imf maf) s = .next (s1.takeManifest l [])) ∧
      (∀ h m : List Byte, l.role ≠ 2 → imgManifestId l.image ≠ 0 → s1.volGet l.stand l.volume l.block 64 = .bytes h →
        s1.rootRead l.stand l.volume l.block (fieldLE h 16 4) maf = (s2, .bytes m) →
        exec (.manifestVerified t id imf maf) s = .next (s2.takeManifest l m)) ∧
      (∀ h : List Byte, l.role ≠ 2 → imgManifestId l.image ≠ 0 → s1.volGet l.stand l.volume l.block 64 = .bytes h →
        s1.rootRead l.stand l.volume l.block (fieldLE h 16 4) maf = (s2, .lost) →
        exec (.manifestVerified t id imf maf) s = .next (s2.endLoad l 0x30))) ∧
    (∀ (l : Load) (m : List Byte), (imgManifestId l.image ≠ 0 → manifestOk s.sv.imageKeys l.image m = false) →
      (imgManifestId l.image = 0 → imageManifestOk l [] = false) → s.takeManifest l m = s.endLoad l 0x14) ∧
    (∀ l : Load, s.load id = some l → s.frozen = false → pinEntries l.image ≠ [] → l.phase = .loading ∨ l.phase = .ready → s1.serving = true →
      l.manifest = [] ∨ s1.missing l = [] → s1.pinReady l = true →
      (l.preloaded = false → exec (.preloadRun t id) s =
        .next (((s1.pinInsts l).foldl (fun s i => s.placePreloads l i) s1).modLoad id (fun x => { x with preloaded := true }))) ∧
      (l.preloaded = true → s1.preloadsDone l = true → l.phase = .loading → l.bound = false →
        (let s2 := (s1.pinInsts l).foldl State.clearRings s1
        let express := (pinEntries l.image).any (fun e => entClasses l.image e == 1)
        (express = false ∨ s2.powerFits (s2.bindExpress l) [(s2.now, s2.now + 1)] = true →
          exec (.preloadRun t id) s = .next (s2.bindExpress l).settleLoads) ∧
        (express = true → s2.powerFits (s2.bindExpress l) [(s2.now, s2.now + 1)] = false →
          exec (.preloadRun t id) s = .next (s2.endLoad l 0x12).settleLoads))) ∧
      (l.preloaded = true → s1.preloadsDone l = false → exec (.preloadRun t id) s = .next s1)) ∧
    (∀ l : Load, s.load id = some l → s.frozen = false → l.phase = .evicting → s.sv.loads = [l] → s.sv.requests = [] →
      exec (.imageRelease t id) s = .next (match l.evictMsg with
        | some m => (s1.releaseLoad l).adminEnd m 0 []
        | none => s1.releaseLoad l) ∧ (s1.releaseLoad l).load id = none) ∧
    (∀ l : Load, s.load id = some l → l.phase ≠ .evicting → exec (.imageRelease t id) s = .next s1)

/-- A controller serves the next access of its queue: a write stores exactly its bytes, an atomic exactly the word that its FN gives
and nothing where its comparison fails, a read leaves memory as it is and takes the bytes there, through the cache of its branch
where it has one; with an empty queue nothing happens. A detected error stores what was read, counts it and enters the sector in
the poison map; a corrected one delivers the sector with the error pattern taken out. A patrol scrub moves to the next granule
or sector and after the last one begins again; sectors that decode clean leave memory, poison map and registers alone. A map-out
of a stack or channel that is mapped out already changes nothing, any other takes it out of service. An access unserved at its
limit is answered with TIER_ERROR and logged, not before. An absent stack is a fault. Where the rules leave a reading or a
choice, this is the model's: log entries 14, 28. (03 R115, 06 R205, 06 R208, 06 R210, 06 R211, 06 R212, 06 R214, 06 R218, 06
R235, 06 R236, 06 R237) -/
def Obligations.NearAndWarmTiers : Prop :=
  ∀ (s : State) (t k c id : Nat),
    let s1 := s.at t
    (s.nStacks ≤ k → ∀ errs, exec (.nearAccess t k errs) s = .fault .absentUnit ∧ exec (.nearPatrolScrub t k errs) s = .fault .absentUnit ∧
      exec (.stackMapOut t k) s = .fault .absentUnit) ∧
    (k < s.nStacks → s.frozen = false → s1.nextAccess true k = none → exec (.nearAccess t k []) s = .next s1) ∧
    (c < 24 → s.frozen = false → s1.nextAccess false c = none → exec (.warmAccess t c []) s = .next s1) ∧
    (∀ (a : Access) (i : Instr), s.frozen = false →
      (k < s.nStacks ∧ s1.nextAccess true k = some a ∧ i = .nearAccess t k []) ∨
        (c < 24 ∧ s1.nextAccess false c = some a ∧ i = .warmAccess t c []) →
      let key := memKey a.space a.off
      let seen : State → List Byte → Prop := fun s' bs => ∃ b ∈ s'.tiers.accesses, b.id = a.id ∧ b.entered = none ∧ b.toReturn = a.packets ∧ b.data = bs
      let old := BitVec.ofNat 32 (leNat (s.memRead key 4))
      exec i s = .next (s1.serveAccess a []) ∧
      (a.kind = 0 → (s1.serveAccess a []).mem = s.mem ∧
        (a.cacheOf = none → seen (s1.serveAccess a []) ((List.range a.len).map (fun j => s.memByte (memKey a.space (a.off + j))))) ∧
        (∀ b, a.cacheOf = some b → seen (s1.serveAccess a []) ((s.branch b).cacheBytes a.off a.len (fun j => s.memByte (memKey a.space j))))) ∧
      (a.kind = 1 → (∀ j < a.data.length, (s1.serveAccess a []).memByte (key + j) = a.data.getD j 0) ∧
        (∀ x, (∀ j < a.data.length, x ≠ key + j) → (s1.serveAccess a []).memByte x = s.memByte x)) ∧
      (a.kind = 2 → seen (s1.serveAccess a []) (leBytes 4 old.toNat) ∧
        (a.fn = 5 → old ≠ a.rc → s.memSame (s1.serveAccess a [])) ∧
        (a.fn ≠ 5 ∨ old = a.rc → (s1.serveAccess a []).memRead key 4 = leBytes 4 (atomValue a.fn old a.rb a.rc).toNat ∧
          (∀ x, (∀ j < 4, x ≠ key + j) → (s1.serveAccess a []).memByte x = s.memByte x)))) ∧
    (∀ (off : Nat) (es : SectorErr), k < s.nStacks → s.frozen = false → off / 64 * 64 < 0xFE0000000 →
      (let r := s1.nearSector k (off / 64 * 64) es (s1.failedLane k (off / 64 * 64 / 256 % 8)) false
      r.1.nextAccess true k = none → exec (.nearAccess t k [(off, es)]) s = .next r.1)) ∧
    (∀ (m : Nat) (es : SectorErr), c < 24 → s.frozen = false → (s1.warmSector c (m / 64 * 64) es false).1.nextAccess false c = none →
      exec (.warmAccess t c [(m, es)]) s = .next (s1.warmSector c (m / 64 * 64) es false).1) ∧
    (∀ (off : Nat) (es fix : SectorErr) (failed : Option Nat) (b : Bool), k < 16 →
      let key := memKey 0 (k * 2 ^ 37 + off)
      let w := addErrors (nearWord (s.memRead key 64)) es
      let r := s.nearSector k off es failed b
      (nearDecode (s.rf (Reg.ntcCfg k) 1 0) failed w = .clean → r = (s, nearBytes w)) ∧
      (nearDecode (s.rf (Reg.ntcCfg k) 1 0) failed w = .corrected fix → r.2 = nearBytes (addErrors w fix)) ∧
      (nearDecode (s.rf (Reg.ntcCfg k) 1 0) failed w = .detected → r.2 = nearBytes w ∧ r.1.mem = (s.memWrite key r.2).mem ∧
        tget 0 r.1.tiers.poison (key / 64) = 3 ∧
        r.1.rf (Reg.ntcUeCnt k) 31 0 = Nat.min (s.rf (Reg.ntcUeCnt k) 31 0 + 1) (2 ^ 32 - 1))) ∧
    (∀ errs : List (Nat × SectorErr), k < s.nStacks → s.frozen = false → s.rf (Reg.ntcStatus k) 2 0 = 2 ∨ s.rf (Reg.ntcStatus k) 2 0 = 3 →
      (let g := s.rf (Reg.ntcScrubPos k) 31 0
      ∃ s' : State, exec (.nearPatrolScrub t k errs) s = .next s' ∧
        s'.rf (Reg.ntcScrubPos k) 31 0 = (if g + 1 < 266338304 then g + 1 else 0) ∧
        (errs = [] → (∀ j < 4, nearDecode (s.rf (Reg.ntcCfg k) 1 0) (s.failedLane k (g % 8))
            (nearWord (s.memRead (memKey 0 (k * 2 ^ 37 + (g * 256 + j * 64))) 64)) = .clean) →
          s'.mem = s.mem ∧ s'.sv = s.sv ∧ s'.tiers.poison = s.tiers.poison ∧ (∀ o, o ≠ Reg.ntcScrubPos k → s'.reg o = s.reg o)))) ∧
    (∀ (errs : SectorErr) (odecc rfm : Nat), c < 24 → s.frozen = false → s.rf (Reg.wtcStatus c) 2 0 = 2 ∨ s.rf (Reg.wtcStatus c) 2 0 = 3 →
      (let m := tget 0 s.tiers.warmScrub c
      ∃ s' : State, exec (.warmPatrolScrub t c errs odecc rfm) s = .next s' ∧
        tget 0 s'.tiers.warmScrub c = (if m + 1 < s.dimmGib c * 2 ^ 24 then m + 1 else 0) ∧
        (errs = [] → warmDecode (s.failedDev c (m % 2)) (warmWord (s.memRead (memKey 1 (s.warmOff c (m * 64))) 64)) = .clean →
          s'.mem = s.mem ∧ s'.sv = s.sv ∧ s'.tiers.poison = s.tiers.poison ∧
          (∀ o, o ≠ Reg.wtcRfm c → o ≠ Reg.wtcOdecc c → s'.reg o = s.reg o)))) ∧
    (k < s.nStacks → exec (.stackMapOut t k) s = .next (if s.rf (Reg.ntcStatus k) 2 0 = 4 then s1 else s1.stackOut k 0 0)) ∧
    (k < 16 → s.rf (Reg.ntcStatus k) 2 0 ≠ 4 → s.tiers.accesses = [] → s.sv.objs = [] → s.sv.insts = [] →
      (s1.stackOut k 0 0).rf (Reg.ntcStatus k) 2 0 = 4 ∧ (s1.stackOut k 0 0).rf (Reg.ntcStatus k) 15 8 = 0 ∧ (s1.stackOut k 0 0).mem = s.mem) ∧
    exec (.warmChannelMapOut t c) s = .next (if 24 ≤ c ∨ s.rf (Reg.wtcStatus c) 2 0 = 0 ∨ s.rf (Reg.wtcStatus c) 2 0 = 4 then s1
      else s1.channelOut c 0 0) ∧
    (c < 24 → s.rf (Reg.wtcStatus c) 2 0 ≠ 4 → s.tiers.accesses = [] → s.sv.objs = [] → s.sv.insts = [] → s.sv.loads = [] → s.sv.jobs = [] →
      (s1.channelOut c 0 0).rf (Reg.wtcStatus c) 2 0 = 4 ∧ (s1.channelOut c 0 0).sv.warm = [] ∧
      (s1.channelOut c 0 0).tiers.stripe.contains c = false) ∧
    (∀ (a : Access) (e : Nat), s.frozen = false →
      s.tiers.accesses.find? (fun a => a.id == id && a.pid == s1.ownPid && decide (a.space < 2) && !a.hit) = some a → a.entered = some e →
      (s1.now < e + a.limit → exec (.tierAccessLate t id) s = .next s1) ∧
      (e + a.limit ≤ s1.now → a.space = 0 → exec (.tierAccessLate t id) s =
        .next ((s1.ntcEvent (nearStack a.off) 4 0 (a.off / 256 % 8) (a.off % 2 ^ 36 / 64 * 64)).errorOut a 0x30)) ∧
      (∀ d m : Nat, e + a.limit ≤ s1.now → a.space ≠ 0 → s1.warmPlace a.off = some (d, m) →
        exec (.tierAccessLate t id) s = .next ((s1.wtcEvent d 4 (m / 64 % 2) 0 (m / 64 * 64)).errorOut a 0x30)))

/-- Of VOLUME_READ, VOLUME_WRITE, FTL_REPLAY_END, STRIPE_CLOSE, STATIC_WEAR_LEVEL_MOVE, READ_LIMIT_RELOCATE, FTL_PATROL_READ,
NAND_PROGRAM_FAIL, DEEP_CHANNEL_LOSS and FTL_REBUILD_END. A read of a written block counts the logical block and a read of the
block of its superblock, and decodes four codewords, leaving memory and the map as they are; before replay has ended it waits. A
write stores the block and its map entry and nothing else, maps it and counts it where a superblock has room; while the layer is
read-only or failed, or beyond FTL_CAP, it does nothing. Where the access that the tier serves next reads or writes that block,
it is served, or answered with TIER_ERROR. Replay ends once, with a layer that answers; an open stripe is padded and closed; a
superblock moves at the wear and read limits, at a patrol read that needed more than hard decode, and not below them; a failed
program retires its block; the loss of a channel or of a chip enable degrades a ready layer and names the stripes to be
rewritten, and the end of the rebuild recomputes FTL_CAP and returns the layer to ready or read-only. Where the rules leave a
reading or a choice, this is the model's: log entries 17, 30. (06 R222, 06 R223, 06 R224, 06 R225, 06 R226, 06 R227, 06 R228, 06
R229, 06 R235, 06 R240) -/
def Obligations.DeepTier : Prop :=
  ∀ (s : State) (t block id : Nat) (fails : List Nat),
    let s1 := s.at t
    let d := s.deepAt t
    (d.ftlReady = false ∨ d.frozen = true → exec (.volumeRead t block fails) s = .next d) ∧
    (d.ftlReady = true → d.frozen = false →
      (d.nextVol = none → tget none d.tiers.ftl.map block = none → exec (.volumeRead t block fails) s = .next (d.bump Reg.ftlHostRd 63 0 1)) ∧
      (∀ (sb i : Nat) (b : SuperBlock), d.nextVol = none → tget none d.tiers.ftl.map block = some (sb, i) → d.sb sb = some b →
        (let ch := b.chanOf i
        (ch < 32 → d.tiers.ftl.lostPos.contains (sb, ch) = false → (∀ k, k < 4 → fails.getD k 0 = 0) →
          ∃ s' : State, exec (.volumeRead t block fails) s = .next s' ∧ s'.mem = d.mem ∧ s'.tiers.poison = d.tiers.poison ∧
            s'.tiers.ftl.map = d.tiers.ftl.map ∧ (s'.sb sb).map (fun x => tget 0 x.reads ch) = some (tget 0 b.reads ch + b.chans.count ch) ∧
            s'.rf Reg.ftlHostRd 63 0 = Nat.min (d.rf Reg.ftlHostRd 63 0 + 1) (2 ^ 64 - 1) ∧
            s'.rf (Reg.dtcCwRead ch) 31 0 = Nat.min (d.rf (Reg.dtcCwRead ch) 31 0 + 4) (2 ^ 32 - 1) ∧
            (∀ o, o ≠ Reg.ftlHostRd → o ≠ Reg.dtcCwRead ch → s'.reg o = d.reg o)))) ∧
      (∀ a : Access, d.nextVol = some a →
        (a.kind = 0 → a.off / 16384 = block → exec (.volumeRead t block fails) s =
          .next (if d.mapReadable block then (d.readBlock block fails).serveAccess a [] else d.errorOut a 0x30)) ∧
        (a.kind ≠ 0 ∨ a.off / 16384 ≠ block → exec (.volumeRead t block fails) s = .next (d.readBlock block fails)))) ∧
    (∀ data : List Byte,
      (d.ftlState = 1 ∨ d.frozen = true → exec (.volumeWrite t block data) s = .next d) ∧
      (d.nextVol = none → d.ftlWrites = false ∨ d.rf Reg.ftlCap 47 0 ≤ block → exec (.volumeWrite t block data) s = .next d) ∧
      (∀ b : SuperBlock, d.nextVol = none → d.ftlWrites = true → d.frozen = false → block < d.rf Reg.ftlCap 47 0 → d.mapReadable block = true →
        d.openSb = some b →
        ∃ s' : State, exec (.volumeWrite t block data) s = .next s' ∧
          (∀ i < 16384, s'.memByte (volKey block i) = (data ++ List.replicate 16384 0).getD i 0) ∧
          (∀ k, (∀ i < 16384, k ≠ volKey block i) → (∀ off, d.mapOff block = some off → ∀ i < 8, k ≠ memKey 1 (off + i)) →
            s'.memByte k = d.memByte k) ∧
          tget none s'.tiers.ftl.map block = some (b.id, b.pages.length) ∧ s'.tiers.ftl.openBlk = some b.id ∧
          (∀ x, x ≠ block → tget none s'.tiers.ftl.map x = tget none d.tiers.ftl.map x) ∧
          s'.rf Reg.ftlHostWr 63 0 = Nat.min (d.rf Reg.ftlHostWr 63 0 + 1) (2 ^ 64 - 1)) ∧
      (∀ a : Access, d.nextVol = some a → a.kind = 1 → a.off / 16384 = block → d.ftlState ≠ 1 → d.frozen = false →
        (d.ftlWrites = false ∨ d.rf Reg.ftlCap 47 0 ≤ block → exec (.volumeWrite t block data) s = .next (d.errorOut a 0x30)) ∧
        (∀ s2 : State, d.ftlWrites = true → block < d.rf Reg.ftlCap 47 0 → d.volWrite block (a.off % 16384) a.data = (s2, true) →
          exec (.volumeWrite t block data) s = .next ((s2.poisonRange 8 a.off a.len a.poison.toNat).answer a.id)))) ∧
    (s.ftlState ≠ 1 → exec (.ftlReplayEnd t) s = .next s1) ∧
    (s.ftlState = 1 → s.frozen = false → ∃ s' : State, exec (.ftlReplayEnd t) s = .next s' ∧ s'.ftlReady = true ∧
      s' = (s1.loadMap.wf Reg.ftlStatus 2 0 (if s.tiers.ftl.rebuilding then 3 else 2)).ftlRegs) ∧
    (s.tiers.ftl.openSince = none → exec (.stripeClose t) s = .next s1) ∧
    (∀ (o bid : Nat) (b : SuperBlock), s.tiers.ftl.openSince = some o → s.tiers.ftl.openBlk = some bid → s.sb bid = some b → s.frozen = false →
      ∃ s' : State, exec (.stripeClose t) s = .next s' ∧ s'.tiers.ftl.openSince = none ∧ s'.mem = s.mem ∧
        s'.rf Reg.ftlNandWr 63 0 = Nat.min (s.rf Reg.ftlNandWr 63 0 +
          ((b.chans.length - 1 - b.pages.length % (b.chans.length - 1)) % (b.chans.length - 1) + 1)) (2 ^ 64 - 1)) ∧
    (∀ b : SuperBlock, minBy (fun b => b.pe) d.tiers.ftl.blocks = some b →
      exec (.staticWearLevelMove t) s = .next (if d.frozen = true ∨
        (d.tiers.ftl.blocks.map (·.pe)).foldl Nat.max 0 ≤ b.pe + d.rf Reg.ftlCfg 39 24 then d else d.moveSb b.id)) ∧
    (∀ b : SuperBlock, d.sb id = some b → exec (.readLimitRelocate t id) s =
      .next (if d.frozen = true ∨ (∀ c ∈ b.chans, tget 0 b.reads c < d.rf Reg.ftlCfg 63 40) then d else d.moveSb id)) ∧
    (d.sb id = none → ∀ page ch : Nat, exec (.readLimitRelocate t id) s = .next d ∧ exec (.ftlPatrolRead t id page fails) s = .next d ∧
      exec (.nandProgramFail t id ch) s = .next d) ∧
    (∀ (b : SuperBlock) (page blk : Nat), d.sb id = some b → b.pages[page]? = some (some blk) → d.frozen = false → d.ftlReady = true →
      exec (.ftlPatrolRead t id page fails) s = .next (if (List.range 4).any (fun k => fails.getD k 0 != 0)
        then (d.readPage b page blk fails).moveSb id else d.readPage b page blk fails)) ∧
    (∀ (b : SuperBlock) (ch : Nat), d.sb id = some b → b.bad.contains ch = true ∨ 32 ≤ ch → exec (.nandProgramFail t id ch) s = .next d) ∧
    (∀ (b : SuperBlock) (ch : Nat), d.sb id = some b → b.bad.contains ch = false → ch < 32 → d.frozen = false →
      exec (.nandProgramFail t id ch) s = .next ((((d.bump (Reg.dtcRetired ch) 31 0 1).dropPages ch [id]).modSb id
        (fun x => { x with bad := x.bad ++ [ch] })).moveSb id).ftlRegs) ∧
    (∀ (ch ce : Nat) (whole : Bool), d.tiers.ftl.channels.contains ch = false ∨ (whole = false ∧ 8 ≤ ce) → exec (.deepChannelLoss t ch ce whole) s = .next d) ∧
    (∀ (ch ce : Nat) (whole : Bool), ch < 32 → (whole = false → ce < 8) → d.tiers.ftl.channels.contains ch = true →
      ∃ s' : State, exec (.deepChannelLoss t ch ce whole) s = .next s' ∧ s'.rf (Reg.dtcStatus ch) 2 0 = (if whole then 4 else 3) ∧
        (d.ftlState = 2 → s'.ftlState = 3 ∨ s'.ftlState = 4) ∧ s'.tiers.ftl.rebuilding = true ∧
        s'.tiers.ftl.openBlk = none ∧ s'.tiers.ftl.openSince = none ∧
        (whole = true → s'.tiers.ftl.channels.contains ch = false) ∧
        (whole = false → s'.tiers.ftl.channels = d.tiers.ftl.channels ∧ s'.tiers.ftl.offCe.contains (ch, ce) = true ∧
          s'.rbit (Reg.dtcStatus ch) (16 + ce) = true) ∧
        (∀ b ∈ d.tiers.ftl.blocks, ch ∈ b.chans → b.pages ≠ [] → whole = true ∨ b.ce = ce → (b.id, ch) ∈ s'.tiers.ftl.lostPos)) ∧
    (d.tiers.ftl.rebuilding = false ∨ d.frozen = true ∨ d.ftlReady = false → exec (.ftlRebuildEnd t) s = .next d) ∧
    (d.tiers.ftl.rebuilding = true → d.frozen = false → d.ftlReady = true →
      (let s2 := d.each ((d.tiers.ftl.lostPos.map (·.1)).eraseDups) State.moveSb
      (s2.tiers.ftl.lostPos ≠ [] → exec (.ftlRebuildEnd t) s = .next s2) ∧
      (s2.tiers.ftl.lostPos = [] → ∃ s' : State, exec (.ftlRebuildEnd t) s = .next s' ∧ s'.tiers.ftl.rebuilding = false ∧
        s'.reg Reg.ftlCap = s2.ftlCap ∧ s'.rf Reg.ftlStatus 23 16 = 100 ∧ (s2.ftlCap < s2.volExtent → s'.ftlState = 4) ∧
        (s2.volExtent ≤ s2.ftlCap → s'.ftlState = 2 ∨ s'.ftlState = 4))))

/-- A fetch marks the next descriptors of the ring, at most 8, fetched, unless 8 fetched ones wait. The next descriptor that may
start completes at once where it is a NOP; starts its move where it is a MOVE and no move of the mover is in progress; and where
it is a WAIT takes the next input token, freeing its credit, or waits for one. A move whose data has gone, whose writes are
acknowledged and whose beats have left completes. A command for another kind, or for a mover that cannot act, changes nothing;
one of an absent branch is a fault. Where the rules leave a reading or a choice, this is the model's: log entry 31. (07 R247, 07
R250, 07 R251, 07 R252, 07 R255) -/
def Obligations.MoverCommands : Prop :=
  ∀ (s : State) (t b m i : Nat),
    let s1 := s.at t
    let x := (s.branch b).mover m
    (s.nBranches ≤ b → exec (.moverDescriptorFetch t b m) s = .fault .absentUnit ∧ exec (.moverNop t b m) s = .fault .absentUnit ∧
      exec (.moverMove t b m) s = .fault .absentUnit ∧ exec (.moverWait t b m) s = .fault .absentUnit ∧
      exec (.moveComplete t b m i) s = .fault .absentUnit) ∧
    (b < s.nBranches → s1.moverRuns b m = false → exec (.moverDescriptorFetch t b m) s = .next s1 ∧ exec (.moverNop t b m) s = .next s1 ∧
      exec (.moverMove t b m) s = .next s1 ∧ exec (.moverWait t b m) s = .next s1 ∧ exec (.moveComplete t b m i) s = .next s1) ∧
    (b < s.nBranches → s1.moverRuns b m = true → (x.ring.filter RingDesc.ready).length < 8 →
      (let k := x.firstUnfetched
      let n := Nat.min 8 (x.ring.length - k)
      ∃ s' : State, exec (.moverDescriptorFetch t b m) s = .next s' ∧
        ((s'.branch b).mover m).ring = x.ring.take k ++ ((x.ring.drop k).take n).map (fun d => { d with fetched := true }) ++ x.ring.drop (k + n) ∧
        s'.mem = s.mem ∧ s'.csr = s.csr ∧ s'.leaves = s.leaves ∧
        (∀ m', m' ≠ m → (s'.branch b).mover m' = (s.branch b).mover m') ∧ (∀ b', b' ≠ b → s'.branch b' = s.branch b'))) ∧
    (b < s.nBranches → s1.moverRuns b m = true → 8 ≤ (x.ring.filter RingDesc.ready).length → exec (.moverDescriptorFetch t b m) s = .next s1) ∧
    (∀ d : RingDesc, b < s.nBranches → s1.moverRuns b m = true → x.nextStart = some (i, d) →
      (d.kind ≠ 0 → exec (.moverNop t b m) s = .next s1) ∧
      (d.kind = 0 → ∃ (s' : State) (e : RingDesc), exec (.moverNop t b m) s = .next s' ∧ ((s'.branch b).mover m).ring[i]? = some e ∧
        e.done = true ∧ e.bytes = d.bytes ∧ s'.mem = s.mem ∧ s'.csr = s.csr ∧ s'.leaves = s.leaves)) ∧
    (∀ d : RingDesc, b < s.nBranches → s1.moverRuns b m = true → x.nextStart = some (i, d) →
      (∀ e ∈ x.ring, (e.running && e.kind == 1) = false) →
      exec (.moverMove t b m) s = .next (if d.kind ≠ 1 then s1 else s1.startMove b m i d)) ∧
    (∀ d : RingDesc, b < s.nBranches → s1.moverRuns b m = true → x.ring = [d] → d.running = true → d.kind = 1 →
      (((s1.goOn b m 0).branch b).mover m).nextStart = none → exec (.moverMove t b m) s = .next (s1.goOn b m 0)) ∧
    (∀ d : RingDesc, b < s.nBranches → s1.moverRuns b m = true → x.nextStart = some (i, d) → (∀ e ∈ x.ring, (e.running && e.kind == 2) = false) →
      (d.kind ≠ 2 → exec (.moverWait t b m) s = .next s1) ∧
      (d.kind = 2 → x.inTokens = [] → ∃ s' : State, exec (.moverWait t b m) s = .next s' ∧
        (∃ e, ((s'.branch b).mover m).ring[i]? = some e ∧ e.started = true ∧ e.done = d.done) ∧ s'.mem = s.mem ∧ s'.csr = s.csr) ∧
      (∀ (tk : Tok) (rest : List Tok), d.kind = 2 → x.inTokens = tk :: rest → exec (.moverWait t b m) s =
        .next (((s1.modMover b m (fun x => { x with inTokens := rest })).freeCredit b tk.src false).descDone b m i))) ∧
    (∀ (d : RingDesc) (tk : Tok) (rest : List Tok), b < s.nBranches → s1.moverRuns b m = true →
      findIdx (fun d => d.running && d.kind == 2) x.ring 0 = some (i, d) → x.inTokens = tk :: rest → exec (.moverWait t b m) s =
        .next (((s1.modMover b m (fun x => { x with inTokens := rest })).freeCredit b tk.src false).descDone b m i)) ∧
    (∀ d : RingDesc, b < s.nBranches → s1.moverRuns b m = true → x.ring[i]? = some d →
      (let ends := d.running = true ∧ d.kind = 1 ∧ d.moved = true ∧ d.acks = 0 ∧ d.upto ≤ x.outLeft
      (¬ ends → exec (.moveComplete t b m i) s = .next s1) ∧
      (ends → ∃ (s' : State) (e : RingDesc), exec (.moveComplete t b m i) s = .next s' ∧ ((s'.branch b).mover m).ring[i]? = some e ∧
        e.done = true ∧ e.bytes = d.bytes ∧ s'.mem = s.mem ∧ s'.csr = s.csr ∧ s'.leaves = s.leaves)))

/-- Bytes that arrive for a copy are kept and their digest decides between verified and quarantined; without bytes the copy is
quarantined. A digest scrub quarantines a verified copy whose digest differs, and changes nothing else. A quarantined copy tries
its next source, three at most. The copier starts the first queued job at the present time. A source sends its manifest and
image first, then each verified shard. A receiver's load ends at its deadline where a shard lacks, with its first recorded
failure or FABRIC_UNREACHABLE, not before. A staging version of a graft whose image has been read is quarantined where its
digest differs, discarded where it fails a check, else ready, or current where it has no commit time; at its commit time a ready
version becomes current and a staging one is discarded, not before. A fetch at the head of the queue gives its near copy the
bytes of the tier below. Where the rules leave a reading or a choice, this is the model's: log entry 48. (08 R273, 08 R274, 08
R275, 08 R280, 08 R281, 08 R282, 08 R283, 08 R289, 08 R290, 08 R293) -/
def Obligations.CopiesAndGrafts : Prop :=
  ∀ (s : State) (t id : Nat),
    let s1 := s.at t
    (s.frozen = true → ∀ (near : Bool) (rx : Option (List Byte)) (sd ver : Nat),
      exec (.shardArrivalVerify t near id) s = .next s1 ∧ exec (.digestScrub t near id) s = .next s1 ∧ exec (.refetchComplete t near id rx) s = .next s1 ∧
      exec (.copyJobStart t) s = .next s1 ∧ exec (.mcastShardSend t id) s = .next s1 ∧ exec (.loadDeadlineExpiry t id) s = .next s1 ∧
      exec (.graftReady t sd id ver) s = .next s1 ∧ exec (.graftCommit t sd id ver) s = .next s1 ∧ exec (.graftFetch t) s = .next s1) ∧
    (∀ (o : PoolObj) (l : Load) (s2 : State) (bs : List Byte), s.frozen = false → s.obj id = some o → s.objLoad o = some l → o.kind = 0 →
      o.state = .unverified → manLyorn l.manifest = true → s1.volShard l o.index = (s2, .bytes bs) →
      exec (.shardArrivalVerify t true id) s = .next (s2.nearArrive o (some bs)).settleLoads) ∧
    (∀ (o : PoolObj) (l : Load) (j : CopyJob), s.frozen = false → s.obj id = some o → s.objLoad o = some l → o.kind = 0 → o.state = .unverified →
      manLyorn l.manifest = false → s.sv.jobs.find? (fun j => j.started.isSome) = some j → j.stand = o.stand → j.manifest = o.manifest →
      j.shards.find? (s1.jobOpen j) = some o.index →
      (s.draining = true → exec (.shardArrivalVerify t true id) s = .next s1.stopJob) ∧
      (∀ bs : List Byte, s.draining = false → s1.lower o = .bytes bs →
        exec (.shardArrivalVerify t true id) s = .next (((s1.useWarm o).nearArrive o (some bs)).endJobs).settleLoads)) ∧
    (∀ w : WarmCopy, s.frozen = false → s.warmCopy id = some w → w.state = .unverified →
      (s1.readerOf w.manifest w.digest = none →
        exec (.shardArrivalVerify t false id) s = .next (s1.warmArrive w (some (s1.warmBytes w))).settleLoads) ∧
      (∀ (l : Load) (s2 : State) (bs : List Byte), s1.readerOf w.manifest w.digest = some l → s1.volShard l w.shard = (s2, .bytes bs) →
        exec (.shardArrivalVerify t false id) s = .next (s2.warmArrive w (some bs)).settleLoads)) ∧
    (∀ (o : PoolObj) (bs : List Byte), s.obj o.id = some o →
      ∃ o', (s.nearArrive o (some bs)).obj o.id = some o' ∧ o'.frames = o.frames ∧ o'.expect = o.expect ∧
        (o'.state = .verified ↔ chunkDigest ((s.objWrite o 0 (bs.take o.size)).objRead o 0 o.size) = o.expect) ∧ o'.state ≠ .unverified) ∧
    (∀ o : PoolObj, s.obj o.id = some o → ∃ o', (s.nearArrive o none).obj o.id = some o' ∧ o'.state = .quarantined ∧ (s.nearArrive o none).mem = s.mem) ∧
    (∀ o : PoolObj, s.frozen = false → s.obj id = some o →
      (let bad := o.kind < 2 ∧ o.state = .verified ∧ chunkDigest (s.objRead o 0 o.size) ≠ o.expect
      (¬ bad → exec (.digestScrub t true id) s = .next s1) ∧
      (bad → ∃ (s' : State) (o' : PoolObj), exec (.digestScrub t true id) s = .next s' ∧ s'.obj id = some o' ∧ o'.state = .quarantined ∧
        o'.tries = 0 ∧ s'.mem = s.mem))) ∧
    (∀ w : WarmCopy, s.frozen = false → s.warmCopy id = some w →
      (let bad := w.state = .verified ∧ chunkDigest (s.warmBytes w) ≠ w.expect
      (¬ bad → exec (.digestScrub t false id) s = .next s1) ∧
      (bad → ∃ (s' : State) (w' : WarmCopy), exec (.digestScrub t false id) s = .next s' ∧ s'.warmCopy id = some w' ∧ w'.state = .quarantined ∧
        w'.tries = 0 ∧ s'.mem = s.mem))) ∧
    (∀ g : Graft, s.frozen = false → s.warmCopy id = none → s.graftNum id = some g → exec (.digestScrub t false id) s =
      .next (if g.copy = .verified ∧ chunkDigest (s1.graftBytes g) ≠ g.digest
        then s1.modGraftNum id (fun x => { x with copy := .quarantined, tries := 0 }) else s1)) ∧
    (∀ (o : PoolObj) (rx : Option (List Byte)), s.frozen = false → s.obj id = some o →
      (let fin' := fun (s2 : State) (got : Option (List Byte)) => ((((s2.nearArrive o got).modObj id (fun x => { x with tries := o.tries + 1 })).reviseJobs
        (fun j => j.stand == o.stand && j.manifest == o.manifest && o.kind == 0)).endJobs).settleLoads
      (o.state ≠ .quarantined ∨ 3 ≤ o.tries ∨ 2 ≤ o.kind → exec (.refetchComplete t true id rx) s = .next s1) ∧
      (∀ (s2 : State) (bs : List Byte), o.state = .quarantined → o.kind < 2 → o.tries = 0 → s1.nearAgain o = (s2, .bytes bs) →
        exec (.refetchComplete t true id rx) s = .next (fin' s2 (some bs))) ∧
      (o.state = .quarantined → o.kind < 2 → 0 < o.tries → o.tries < 3 → exec (.refetchComplete t true id rx) s =
        .next (fin' (s1.noAnswer o.manifest (o.tries - 1) rx) (s1.replicaBytes o.manifest (o.tries - 1) rx))))) ∧
    (∀ (w : WarmCopy) (rx : Option (List Byte)), s.frozen = false → s.warmCopy id = some w →
      (w.state ≠ .quarantined ∨ 3 ≤ w.tries → exec (.refetchComplete t false id rx) s = .next s1) ∧
      (∀ (s2 : State) (bs : List Byte), w.state = .quarantined → w.tries = 0 → s1.warmAgain w = (s2, .bytes bs) →
        exec (.refetchComplete t false id rx) s = .next ((s2.warmArrive w (some bs)).modWarm id (fun x => { x with tries := 1 })).settleLoads) ∧
      (w.state = .quarantined → 0 < w.tries → w.tries < 3 → exec (.refetchComplete t false id rx) s =
        .next (((s1.noAnswer w.manifest (w.tries - 1) rx).warmArrive w (s1.replicaBytes w.manifest (w.tries - 1) rx)).modWarm id
          (fun x => { x with tries := w.tries + 1 })).settleLoads)) ∧
    (∀ (j : CopyJob) (js : List CopyJob) (l : Load), s.frozen = false → s.draining = false → s.sv.jobs = j :: js → j.started = none →
      s1.jobLoad j = some l →
      (let ready := s1.jobReady l.manifest j.shards s1.now
      exec (.copyJobStart t) s = .next ((s1.modSv (fun v => { v with
        jobs := { j with started := some s1.now, ready := ready } :: js
        loads := mapIf (fun x => x.stand == j.stand && x.phase == .loading && !x.manifest.isEmpty && manId x.manifest == j.manifest)
          (fun x => { x with admitTime := Nat.max j.queued (jobAdmit l.manifest ready) }) v.loads })).endJobs).settleLoads)) ∧
    (∀ (j : CopyJob) (js : List CopyJob), s.frozen = false → s.sv.jobs = j :: js → j.started.isSome = true → exec (.copyJobStart t) s = .next s1) ∧
    (∀ l : Load, s.frozen = false → s.load id = some l →
      (l.role ≠ 1 → exec (.mcastShardSend t id) s = .next s1) ∧
      (l.role = 1 → l.manifest ≠ [] → l.trees ≠ [] → l.sentShards = 0 → exec (.mcastShardSend t id) s =
        .next (((s1.mcSend (l.trees.getD 0 0) 0 l.manifest).mcSend (l.trees.getD 0 0) treeImage l.image).modLoad id (fun x => { x with sentShards := 1 }))) ∧
      (∀ (k : Nat) (w : WarmCopy), l.role = 1 → l.manifest ≠ [] → l.trees ≠ [] → l.sentShards = k + 1 → k < manShards l.manifest →
        s1.warmShard l.manifest k = some w →
        (w.state ≠ .verified → exec (.mcastShardSend t id) s = .next s1) ∧
        (w.state = .verified → k + 1 < manShards l.manifest → exec (.mcastShardSend t id) s =
          .next ((s1.each (if shardMember l.manifest k = 0xFFFF then l.trees else [l.trees.getD (shardMember l.manifest k % l.trees.length) 0])
            (fun s tr => s.mcSend tr (shardBlock l.manifest k * 16384) (s1.warmBytes w))).modLoad id (fun x => { x with sentShards := k + 2 }))))) ∧
    (∀ l : Load, s.frozen = false → s.load id = some l →
      (l.role ≠ 2 ∨ l.deadline = 0 ∨ s1.now < l.deadline → exec (.loadDeadlineExpiry t id) s = .next s1) ∧
      (l.role = 2 → l.deadline ≠ 0 → l.deadline ≤ s1.now → l.manifest = [] ∨ s1.warmMissing l ≠ [] → l.phase = .loading ∨ l.phase = .manifest →
        exec (.loadDeadlineExpiry t id) s = .next (s1.endLoad l (if l.failure = 0 then 0x41 else l.failure)))) ∧
    (∀ (sd ver : Nat) (g : Graft), s.frozen = false → s.graft sd id ver = some g → g.state = .staging → g.waits = 0 →
      (g.commit ≠ 0 → g.commit ≤ s1.now → exec (.graftReady t sd id ver) s = .next (s1.discardGraft g 0x10)) ∧
      (∀ a : Admin, g.commit = 0 ∨ s1.now < g.commit → g.taken = false → s1.graftMsg g = some a →
        exec (.graftReady t sd id ver) s = .next (s1.readGraft g a)) ∧
      (g.commit = 0 ∨ s1.now < g.commit → g.taken = true → g.copy = .unverified → chunkDigest (s1.graftBytes g) ≠ g.digest →
        exec (.graftReady t sd id ver) s = .next (s1.modGraftNum g.num (fun x => { x with copy := .quarantined, tries := 0 }))) ∧
      (∀ man, g.commit = 0 ∨ s1.now < g.commit → g.taken = true → g.copy = .unverified → chunkDigest (s1.graftBytes g) = g.digest →
        s1.standManifest sd g.manifest = some man →
        (graftOk g (s1.graftBytes g) man = false → exec (.graftReady t sd id ver) s = .next (s1.discardGraft g 0x14)) ∧
        (graftOk g (s1.graftBytes g) man = true →
          (let g' := { g with state := .ready, copy := .verified }
          let s2 := s1.modGraft sd id ver (fun _ => g')
          exec (.graftReady t sd id ver) s = .next (if g.commit = 0 then s2.commitGraft g' else s2))))) ∧
    (∀ (sd ver : Nat) (g : Graft), s.frozen = false → s.graft sd id ver = some g →
      (g.commit = 0 ∨ s1.now < g.commit → exec (.graftCommit t sd id ver) s = .next s1) ∧
      (g.commit ≠ 0 → g.commit ≤ s1.now → g.state = .ready → exec (.graftCommit t sd id ver) s = .next (s1.commitGraft g)) ∧
      (g.commit ≠ 0 → g.commit ≤ s1.now → g.state = .staging → exec (.graftCommit t sd id ver) s = .next (s1.discardGraft g 0x10))) ∧
    (s.frozen = false → s.sv.fetches = [] → exec (.graftFetch t) s = .next s1) ∧
    (∀ (f : Fetch) (fs : List Fetch) (o : PoolObj), s.frozen = false → s.sv.fetches = f :: fs → s.obj f.obj = some o →
      (let s2 := s1.modSv (fun v => { v with fetches := fs })
      (∀ (g : Graft) (bs : List Byte), o.kind = 1 → s2.graftOf o = some g → (s2.refillGraft g).lower o = .bytes bs →
        exec (.graftFetch t) s = .next ((s2.refillGraft g).nearArrive o (some bs))) ∧
      (∀ l : Load, o.kind = 3 → s.load o.manifest = some l →
        exec (.graftFetch t) s = .next ((s2.objWrite o 0 l.image).modObj o.id (fun x => { x with state := .verified })))))

/-- A doorbell that announces more records sets the step's COUNT; a lower COUNT, or any write after FINAL, changes no count and is
logged with KIND 6; on FINAL the step is decided, and before it an EAGER step with an absolute capacity has sent rank 0 of every
record announced. A release adds 1 to the local target's doorbell word, sends one release message to a target on another part,
and logs KIND 5 where that part is not valid. A trigger needs NSRC in the doorbell word and writes it 0; its runs start the next
entry with rows, once the run in hand has ended, and count it; a trigger with no entry left returns its fork-fed rows and ends,
with the ready word at the number of completed triggers, once every return is acknowledged. A returned row lands once. A join
whose every accepted choice has a row writes its tiles and its ready word 1 and counts itself; while a row lacks it does
nothing. A frozen part, or a branch without a running pass, performs none. Where the rules leave a reading or a choice, this is
the model's: log entry 32. (09 R301, 09 R302, 09 R308, 09 R311, 09 R312, 09 R314, 09 R315, 09 R316, 09 R318, 09 R319, 09 R326) -/
def Obligations.ForksAndGroups : Prop :=
  ∀ (s : State) (t b k rel : Nat) (i : Inst) (p : Pass) (l : Load) (c : Nat) (rt : List Byte),
    let s1 := s.at t
    (s.frozen = true ∨ s1.instOn b = none → exec (.forkDoorbell t b k) s = .next s1 ∧ exec (.forkRelease t b k) s = .next s1 ∧
      exec (.groupTrigger t b k) s = .next s1 ∧ exec (.groupRun t b k) s = .next s1 ∧ exec (.triggerComplete t b k) s = .next s1 ∧
      exec (.join t b k) s = .next s1) ∧
    (s.frozen = false → s1.instOn b = some (i, rel) → s1.runningCfg i = some (p, l, c, rt) →
      (let f := forkStep rt k
      let r := (s1.startFork p i c k).1
      let s2 := (s1.startFork p i c k).2
      let w := leNat (s2.scratchRead b (fkDb f) 4)
      k < nForks rt → fkRel f = rel →
        (r.final = true ∨ w % 65536 < r.count → exec (.forkDoorbell t b k) s = .next (s2.forkFault 6 p.stand k 0 0).forkStatus) ∧
        (r.final = false → r.count ≤ w % 65536 → w.testBit 31 = false → (fkHier f || fkCapf f) = true →
          exec (.forkDoorbell t b k) s = .next (s2.modFork r.id (fun x => { x with count := w % 65536, final := false })).forkStatus) ∧
        (r.final = false → r.count ≤ w % 65536 → w.testBit 31 = true → ∃ s', exec (.forkDoorbell t b k) s = .next s' ∧
          ∀ x ∈ s'.sv.forks, x.id = r.id → x.decided = true) ∧
        (r.final = false → r.count ≤ w % 65536 → w.testBit 31 = false → (fkHier f || fkCapf f) = false →
          ∃ s', exec (.forkDoorbell t b k) s = .next s' ∧ ∀ x ∈ s'.sv.forks, x.id = r.id → x.rank0 = w % 65536)) ∧
      (let f := forkStep rt k
      ∀ (run : ForkRun) (e g : Nat), s1.forkRun p.id k = some run → run.decided = true → fkRel f = rel →
        s1.releaseTarget p i run rt f k = some (0, e, g) →
        (let s2 := s1.modFork run.id (fun y => { y with released := y.released ++ [targetKey (0, e, g, 0)] })
        exec (.forkRelease t b k) s = .next (s2.putRelWord i (gsRel (groupStep rt g)) (gsDb (groupStep rt g))
          ((s2.relWord i (gsRel (groupStep rt g)) (gsDb (groupStep rt g)) + 1) % 2 ^ 32)))) ∧
      (let f := forkStep rt k
      ∀ (run : ForkRun) (q e g : Nat), s1.forkRun p.id k = some run → run.decided = true → fkRel f = rel →
        s1.releaseTarget p i run rt f k = some (q, e, g) → q ≠ 0 →
        (let key := targetKey (q, e, g, 0)
        let s2 := s1.modFork run.id (fun y => { y with released := y.released ++ [key] })
        ((run.peers.getD q 0).testBit 63 = false → exec (.forkRelease t b k) s = .next (s2.forkFault 5 p.stand k q 0)) ∧
        (∀ s3 : State, (run.peers.getD q 0).testBit 63 = true → s2.launch (s2.forkTx p run f (q, e, g, 0) 1 [] 0) (.fork run.id key) = (s3, none) →
          exec (.forkRelease t b k) s = .next s3))) ∧
      (∀ run : ForkRun, s1.forkRun p.id k = some run → s1.releaseTarget p i run rt (forkStep rt k) k = none →
        exec (.forkRelease t b k) s = .next s1) ∧
      (∀ run : ForkRun, s1.forkRun p.id k = some run → run.decided = false → exec (.forkRelease t b k) s = .next s1) ∧
      (let g := groupStep rt k
      let r := (s1.startGroup p i c k).1
      let s2 := (s1.startGroup p i c k).2
      k < nGroups rt → gsRel g = rel →
        (r.active = false → r.done < gsTrigs g → gsNsrc g ≤ leNat (s2.scratchRead b (gsDb g) 4) → exec (.groupTrigger t b k) s =
          .next ((s2.scratchWrite b (gsDb g) (leBytes 4 0)).modGroup p.id k (fun x => { x with active := true, entry := 0, running := false })).forkStatus) ∧
        (r.active = true ∨ gsTrigs g ≤ r.done ∨ leNat (s2.scratchRead b (gsDb g) 4) < gsNsrc g → exec (.groupTrigger t b k) s = .next s2)) ∧
      (let g := groupStep rt k
      ∀ run : GroupRun, s1.groupRun p.id k = some run → run.active = true → gsRel g = rel → s1.branchIdle b = true →
        (let e0 := if run.running then run.entry + 1 else run.entry
        let sb := if run.running then s1.modBranch b (fun x => { x with movers := x.movers.map (fun m => (m.1, { m.2 with ring := [] })) }) else s1
        (∀ e, run.returning = false → sb.nextEntry b g run.done e0 = some e →
          exec (.groupRun t b k) s = .next (sb.runEntry b k p l c rel rt g run.done e) ∧
          (sb.runEntry b k p l c rel rt g run.done e).rf Reg.forkRuns 31 0 = Nat.min (s.rf Reg.forkRuns 31 0 + 1) (2 ^ 32 - 1)) ∧
        (run.returning = false → sb.nextEntry b g run.done e0 = none →
          exec (.groupRun t b k) s = .next (sb.modGroup p.id k (fun x => { x with entry := gsEntries g, running := false }))) ∧
        (run.returning = true → exec (.groupRun t b k) s = .next s1) ∧
        (s1.nextEntry b g run.done e0 = none → run.returning = true ∨ gsForkFed g = false →
          (run.waits = 0 → s1.returnsQueued k = false → exec (.triggerComplete t b k) s = .next (s1.endTrigger b k p.id g run.done)) ∧
          (run.waits ≠ 0 ∨ s1.returnsQueued k = true → exec (.triggerComplete t b k) s = .next s1)) ∧
        (s1.nextEntry b g run.done e0 = none → run.returning = false → gsForkFed g = true →
          (let s2 := s1.returnRows b k p i rt g run.done
          let waits := ((s2.groupRun p.id k).map (fun x => x.waits)).getD 0
          (waits ≠ 0 ∨ s2.returnsQueued k = true → exec (.triggerComplete t b k) s = .next s2) ∧
          (waits = 0 → s2.returnsQueued k = false → exec (.triggerComplete t b k) s = .next (s2.endTrigger b k p.id g run.done)))) ∧
        (∀ e, s1.nextEntry b g run.done e0 = some e → exec (.triggerComplete t b k) s = .next s1))) ∧
      (let f := forkStep rt k
      ∀ run : ForkRun, s1.forkRun p.id k = some run → fkRel f = rel → run.decided = true → run.joined = false →
        (let have_ := fun (x : Nat × Nat) => run.returned.any (fun y => y.1 == x.1 && y.2.1 == x.2) || run.failed.contains x
        ((s1.joinWant b f run.count).all have_ = true → exec (.join t b k) s =
          .next (((((s1.joinTiles b p f run).scratchWrite b (fkRdy f) (leBytes 4 1)).bump Reg.forkJoins 31 0 1).modFork run.id
            (fun x => { x with joined := true })).forkStatus)) ∧
        ((s1.joinWant b f run.count).all have_ = false → exec (.join t b k) s = .next s1)))) ∧
    (s.frozen = false → (∀ r ∈ s.sv.rows, r.kind ≠ 2) → exec (.returnedRowArrival t) s = .next s1) ∧
    (∀ (n : Nat) (r : ForkRow), s.frozen = false → findIdx (fun r => r.kind == 2) s.sv.rows 0 = some (n, r) →
      (let s2 := (s1.modSv (fun v => { v with rows := v.rows.take n ++ v.rows.drop (n + 1) })).landRow r.origin r.bytes r.poison
      exec (.returnedRowArrival t) s = .next (s2.modSv (fun v => { v with
        groups := mapIf (fun g => g.inst == r.inst && g.gstep == r.gstep) (fun g => { g with waits := g.waits - 1 }) v.groups }))))

/-- Of PCIE_INLET_WRITE, APERTURE_ACCESS, ADMIN_RING_FETCH, SET_OFFSET, READ_CSR, WRITE_CSR, TELEM, ADM_PUT, ADM_GO, ADM_GET,
ADM_STAT, SMBUS_WAKE, ALERT_RESPONSE and ALERT_N_REASSERT. An access of a function that does not exist, or of no bytes or more
than 4,096, does nothing; BAR0 reads complete with the register's value, BAR2 reads with zeros from the inlet windows and with
the admin registers' values above them, and BAR4 is an access of the stand at HPT_APER.BASE * 2^32 + offset, held in a freeze. A
frame that is one write at offset 0 of a bound inlet is taken, held in a freeze. A frame that is not one write at offset 0 of a
bound inlet is dropped and counted. An admin ring that is enabled and not empty gives its message and advances HEAD. On the
SMBus a served command acts: the offset is set, registers and telemetry are read and step it, ADM_PUT appends up to 1,024 bytes,
ADM_GO submits, ADM_GET and ADM_STAT answer; a wrong PEC is counted and ignored; what is not served, and a refused register
read, is not acknowledged; without power nothing answers. ALERT_N is released by the alert response and asserted again after 100
ms while a cause holds. Where the rules leave a reading or a choice, this is the model's: log entries 39, 47. (13 R438, 13 R440,
13 R441, 13 R442, 13 R454, 13 R461, 13 R462, 13 R464, 14 R478, 16 R525, 18 R566) -/
def Obligations.HostPortsAndSmbus : Prop :=
  ∀ (s : State) (t : Nat),
    let s1 := s.at t
    (∀ (k f bar off n tag : Nat) (wr : Option (List Byte)), s1.fnEnabled k f = false → exec (.apertureAccess t k f bar off n tag wr) s = .next s1) ∧
    (∀ k f bar off n tag : Nat, n = 0 ∨ 4096 < n → exec (.apertureAccess t k f bar off n tag none) s = .next s1) ∧
    (∀ k f off n tag : Nat, s1.fnEnabled k f = true → 0 < n → n ≤ 4096 → off < 0x20000000 →
      exec (.apertureAccess t k f 0 off n tag none) s =
        .next ((s1.csrRead (fnSource f) off n).1.pcieComplete k tag ((s1.csrRead (fnSource f) off n).2.map (leBytes 8)))) ∧
    (∀ (k f off n tag : Nat) (d : List Byte), s1.fnEnabled k f = true → d ≠ [] → d.length ≤ 4096 → off < 0x20000000 →
      (let r := s1.csrWrite (fnSource f) off d
      exec (.apertureAccess t k f 0 off n tag (some d)) s = .next (if r.2 then r.1 else r.1.dropWrite k))) ∧
    (∀ k f off n tag : Nat, s1.fnEnabled k f = true → 0 < f → 0 < n → n ≤ 4096 → off < 0x40000 →
      exec (.apertureAccess t k f 2 off n tag none) s = .next (s1.emit (.completion s1.now k tag 0 (leBytes n 0)))) ∧
    (∀ k f off n tag : Nat, s1.fnEnabled k f = true → 0 < f → off = 0 ∨ off = 8 ∨ off = 0x10 → s.frozen = false →
      exec (.apertureAccess t k f 2 (0x40000 + off) 8 tag none) s =
        .next (s1.emit (.completion s1.now k tag 0 (leBytes 8 (s1.csrPeek (Reg.hptAqBase k f + off))))) ∧
      (∀ d : List Byte, d.length = 8 → exec (.apertureAccess t k f 2 (0x40000 + off) n tag (some d)) s =
        .next (s1.csrStore (fnSource f) (Reg.hptAqBase k f + off) (leNat d)))) ∧
    (∀ (k f w off n tag : Nat) (d : List Byte), s1.fnEnabled k f = true → 0 < f → d ≠ [] → d.length ≤ 4096 → w < 64 → off < 0x1000 →
      exec (.apertureAccess t k f 2 (w * 0x1000 + off) n tag (some d)) s = .next (s1.inletWrite k (f - 1) w off d)) ∧
    (∀ (k f off n tag : Nat), s1.fnEnabled k f = true → 0 < f → 0 < n → n ≤ 4096 → off + n ≤ 2 ^ 32 →
      (let addr := (s1.rf (Reg.hptAper k f) 63 32 * 2 ^ 32 + off) % 2 ^ 64
      let tx := { s1.ownTx 1 s1.ownPid addr 4 (f - 1) 0 0 [] 2 with len := n, tag := tag }
      exec (.apertureAccess t k f 4 off n tag none) s = .next (if s.frozen then s1.holdTx (16 + k) tx else s1.hostAccess (16 + k) (f - 1) tx true))) ∧
    (∀ (k f off n tag : Nat) (d : List Byte), s1.fnEnabled k f = true → 0 < f → d ≠ [] → d.length ≤ 4096 → off + d.length ≤ 2 ^ 32 →
      (let addr := (s1.rf (Reg.hptAper k f) 63 32 * 2 ^ 32 + off) % 2 ^ 64
      let tx := { s1.ownTx 2 s1.ownPid addr 4 (f - 1) 0 0 d 2 with len := d.length, tag := tag }
      exec (.apertureAccess t k f 4 off n tag (some d)) s = .next (if s.frozen then s1.holdTx (16 + k) tx else s1.hostAccess (16 + k) (f - 1) tx true))) ∧
    (∀ (k sd n off : Nat) (d : List Byte), s1.fnEnabled k (sd + 1) = true → n < 64 →
      off ≠ 0 ∨ d.length ≠ 32 + fieldLE d 4 2 ∨ s.sv.inlets.any (fun i => i.num == n && i.stand == sd) = false →
      exec (.pcieInletWrite t k sd n off d) s = .next (s1.dropInlet k (n * 0x1000 + off))) ∧
    (∀ (k sd n : Nat) (d : List Byte), s1.fnEnabled k (sd + 1) = true → n < 64 → d.length = 32 + fieldLE d 4 2 →
      s.sv.inlets.any (fun i => i.num == n && i.stand == sd) = true → s.frozen = false → s1.serving = true →
      exec (.pcieInletWrite t k sd n 0 d) s = .next (s1.inletFrame n d)) ∧
    (∀ (k sd n : Nat) (d : List Byte), s1.fnEnabled k (sd + 1) = true → n < 64 → d.length = 32 + fieldLE d 4 2 →
      s.sv.inlets.any (fun i => i.num == n && i.stand == sd) = true → s.frozen = true →
      exec (.pcieInletWrite t k sd n 0 d) s = .next (s1.holdTx (16 + k) (s1.ownTx 2 s1.ownPid (n * 0x1000) 4 sd 0 0 d 0))) ∧
    (∀ (k sd n off : Nat) (d : List Byte), s1.fnEnabled k (sd + 1) = false ∨ 64 ≤ n → exec (.pcieInletWrite t k sd n off d) s = .next s1) ∧
    (∀ (k f : Nat) (slot : List Byte),
      (let head := s.rf (Reg.hptAqPtr k f) 5 0
      (s1.fnEnabled k f = true → s.rbit (Reg.hptAqBase k f) 0 = true → head ≠ s.rf (Reg.hptAqPtr k f) 13 8 →
        exec (.adminRingFetch t k f slot) s = .next ((s1.wf (Reg.hptAqPtr k f) 5 0 ((head + 1) % 64)).admin (.hostPort f) (.ring k f head)
          ((slot.take 1024).take (fieldLE slot 2 2)))) ∧
      (s1.fnEnabled k f = false ∨ s.rbit (Reg.hptAqBase k f) 0 = false ∨ head = s.rf (Reg.hptAqPtr k f) 13 8 →
        exec (.adminRingFetch t k f slot) s = .next s1))) ∧
    (s.pw.supply = .off → ∀ (v : Nat) (d : List Byte) (pec : Bool), exec (.setOffset t v pec) s = .next s1 ∧ exec (.readCsr t) s = .next s1 ∧
      exec (.writeCsr t v pec) s = .next s1 ∧ exec (.telem t) s = .next s1 ∧ exec (.admPut t d pec) s = .next s1 ∧ exec (.admGo t pec) s = .next s1 ∧
      exec (.admGet t) s = .next s1 ∧ exec (.admStat t) s = .next s1 ∧ exec (.smbusWake t pec) s = .next s1) ∧
    (s.pw.supply ≠ .off → ∀ (v : Nat) (d : List Byte), exec (.setOffset t v false) s = .next (s1.dropWrite 0) ∧
      exec (.writeCsr t v false) s = .next (s1.dropWrite 0) ∧ exec (.admPut t d false) s = .next (s1.dropWrite 0) ∧
      exec (.admGo t false) s = .next (s1.dropWrite 0) ∧ exec (.smbusWake t false) s = .next (s1.dropWrite 0) ∧
      (∃ s', exec (.setOffset t v true) s = .next s' ∧ s'.mg = { s.mg with offset := v % 2 ^ 32 } ∧ s'.csr = s.csr ∧ s'.out = s.out) ∧
      exec (.smbusWake t true) s = .next (s1.wakeAny 3 0)) ∧
    (s.pw.supply ≠ .off → s1.smbFull = false → ∀ (v : Nat) (d : List Byte),
      (let nack : Host.Outcome State Fault Refusal := .next (s1.emit (.smbusNack s1.now))
      exec (.writeCsr t v true) s = nack ∧ exec (.telem t) s = nack ∧ exec (.admPut t d true) s = nack ∧ exec (.admGo t true) s = nack ∧
      exec (.admGet t) s = nack ∧ exec (.admStat t) s = nack ∧ (smbAlways s.mg.offset = false → exec (.readCsr t) s = nack))) ∧
    (s.pw.supply ≠ .off → s1.smbFull = true ∨ smbAlways s.mg.offset = true →
      (∀ (s2 : State) (x : Nat), s1.csrRead .smbus s.mg.offset 8 = (s2, some x) →
        exec (.readCsr t) s = .next ((s2.emit (.smbus s2.now (leBytes 8 x))).smbStep 8)) ∧
      (∀ s2 : State, s1.csrRead .smbus s.mg.offset 8 = (s2, none) →
        exec (.readCsr t) s = .next ((s2.emit (.smbusNack s2.now)).smbStep 8))) ∧
    (s1.smbFull = true → ∀ (v : Nat) (d : List Byte),
      exec (.writeCsr t v true) s = .next ((s1.writeWord .smbus s.mg.offset v).smbStep 8) ∧
      exec (.telem t) s = .next ((s1.emit (.smbus s1.now (s.pageBytes s.mg.offset 32))).smbStep 32) ∧
      (d ≠ [] → d.length ≤ 32 → s.mg.state ≠ 3 →
        (s.mg.buf.length + d.length ≤ 1024 → exec (.admPut t d true) s = .next { s1 with mg := { s.mg with buf := s.mg.buf ++ d } }) ∧
        (1024 < s.mg.buf.length + d.length → exec (.admPut t d true) s = .next { s1 with mg := { s.mg with state := 3 } })) ∧
      (d = [] ∨ 32 < d.length ∨ s.mg.state = 3 → exec (.admPut t d true) s = .next s1) ∧
      (s1.smbRunning = true → exec (.admGo t true) s = .next s1) ∧
      (s1.smbRunning = false → s.mg.state = 3 → exec (.admGo t true) s = .next { s1 with mg := { s.mg with buf := [], state := 0 } }) ∧
      (s1.smbRunning = false → s.mg.state ≠ 3 → exec (.admGo t true) s =
        .next ({ s1 with mg := { s.mg with buf := [], resp := [], respPos := 0, state := 1 } }.admin .smbus .smbus s.mg.buf)) ∧
      (∃ s', exec (.admGet t) s = .next s' ∧ s'.out = s.out ++ [.smbus s1.now ((s.mg.resp.drop s.mg.respPos ++ leBytes 32 0).take 32)] ∧
        s'.mg = { s.mg with respPos := s.mg.respPos + 32 } ∧ s'.csr = s.csr) ∧
      exec (.admStat t) s = .next (s1.emit (.smbus s1.now (leBytes 1 s.mg.state)))) ∧
    (s.mg.alerting = false → exec (.alertResponse t) s = .next s1) ∧
    (s.mg.alerting = true → ∃ s', exec (.alertResponse t) s = .next s' ∧ s'.out = s.out ++ [.smbus s1.now (leBytes 1 ((0x58 + s.pw.strap % 4) * 2))] ∧
      s'.mg = { s.mg with alerting := false, alertAnswered := some s1.now } ∧ s'.csr = s.csr) ∧
    (s.mg.alertAnswered = none → exec (.alertNReassert t) s = .next s1) ∧
    (∀ a : Nat, s.mg.alertAnswered = some a →
      (s1.now < a + 100000000 ∨ s1.alertCauses = 0 → exec (.alertNReassert t) s = .next s1) ∧
      (a + 100000000 ≤ s1.now → s1.alertCauses ≠ 0 → exec (.alertNReassert t) s =
        .next ({ s1 with mg := { s.mg with alerting := true, alertCauses := s1.alertCauses, alertAnswered := none } }.pfVector 1)))

/-- Of EXTEST, SAMPLE_PRELOAD, IDCODE, JTAG_FREEZE, JTAG_THAW, SCAN_SEL, SCAN_DATA, BYPASS, DUMP_PIECE_EMIT, TRACE_RECORD_SEND,
FREEZE_N_FALLING_EDGE, FREEZE_N_STUCK_LOW, OUTPUT_SHORT_DETECT and COUNTER_SNAPSHOT_TICK. Scan instructions act while the debug
island has power: each is loaded, its data register shifts out what it captured (the IDCODE, 0 in BYPASS, the pins) and keeps
what was shifted in where it is updated; SCAN_DATA steps its offset by 8 where something lies there. A dump piece moves the
offset by 4,096 or goes on to the next region, and waits for room; the oldest trace record leaves where a lane is active.
FREEZE_N freezes after a high level of at least 1 us with FREEZE_IN set; an output short logs once per pin. A snapshot tick
latches the page, with SEQ one higher and the present time, and starts the counts again, and outside a freeze ends the
COUNTER_SNAPSHOT messages that wait; at any other time, or twice at one time, it does nothing. Where the rules leave a reading
or a choice, this is the model's: log entries 15, 45, 46. (16 R525, 16 R526, 16 R528, 16 R529, 16 R537, 16 R538, 16 R539, 16
R540, 16 R542, 17 R548, 17 R550) -/
def Obligations.DebugAccess : Prop :=
  ∀ (s : State) (t n v : Nat),
    let s1 := s.at t
    (s1.jtagAlive = false → ∀ pins : Nat, exec (.extest t pins n v) s = .next s1 ∧ exec (.samplePreload t pins n v) s = .next s1 ∧
      exec (.idcode t n v) s = .next s1 ∧ exec (.jtagFreeze t) s = .next s1 ∧ exec (.jtagThaw t) s = .next s1 ∧ exec (.scanSel t n v) s = .next s1 ∧
      exec (.scanData t n v) s = .next s1 ∧ exec (.bypass t n v) s = .next s1) ∧
    (s1.jtagAlive = true → 0 < n →
      (∀ pins : Nat, ∀ q : Instr × Nat, q = (.extest t pins n v, 0) ∨ q = (.samplePreload t pins n v, 1) →
        ∃ s', exec q.1 s = .next s' ∧ s'.db = { s.db with ir := q.2, boundary := (shiftDr Config.boundaryBits pins n v).2 } ∧
          s'.out = s.out ++ [.tdo s1.now n (shiftDr Config.boundaryBits pins n v).1] ∧ s'.csr = s.csr ∧ s'.mem = s.mem) ∧
      (∃ s', exec (.idcode t n v) s = .next s' ∧ s'.db = { s.db with ir := 2 } ∧ s'.out = s.out ++ [.tdo s1.now n (shiftDr 32 s.idcode n v).1] ∧
        s'.csr = s.csr ∧ s'.mem = s.mem) ∧
      (∃ s', exec (.bypass t n v) s = .next s' ∧ s'.db = { s.db with ir := 0xFF } ∧ s'.out = s.out ++ [.tdo s1.now n (v * 2 % 2 ^ n)] ∧
        s'.csr = s.csr ∧ s'.mem = s.mem) ∧
      (∃ s', exec (.scanSel t n v) s = .next s' ∧ s'.db = { s.db with ir := 0x10, scan := (shiftDr 64 s.db.scan n v).2 } ∧
        s'.out = s.out ++ [.tdo s1.now n (shiftDr 64 s.db.scan n v).1] ∧ s'.csr = s.csr ∧ s'.mem = s.mem) ∧
      (s1.scanOk = true → ∃ s', exec (.scanData t n v) s = .next s' ∧
        s'.db = { s.db with ir := 0x11, scan := setFld s.db.scan 31 0 (fld s.db.scan 31 0 + 8) } ∧
        s'.out = s.out ++ [.tdo s1.now n (shiftDr 64 (leNat (s1.regionBytes (fld s.db.scan 63 60) (fld s.db.scan 59 52)
          (fld s.db.scan 31 0 / 8 * 8) 8)) n v).1] ∧ s'.csr = s.csr ∧ s'.mem = s.mem) ∧
      (s1.scanOk = false → ∃ s', exec (.scanData t n v) s = .next s' ∧ s'.db = { s.db with ir := 0x11 } ∧
        s'.out = s.out ++ [.tdo s1.now n (shiftDr 64 0 n v).1] ∧ s'.csr = s.csr ∧ s'.mem = s.mem)) ∧
    (s1.jtagAlive = true → exec (.jtagFreeze t) s = .next ((s1.loadIr 8).freeze 4 true true) ∧ exec (.jtagThaw t) s = .next (s1.loadIr 9).thaw) ∧
    (∀ (cause : Nat) (drive peers : Bool), s.rf Reg.rootStatus 15 8 < 11 ∨ s.frozen = true → s.freeze cause drive peers = s) ∧
    (∀ (cause : Nat) (drive : Bool), 11 ≤ s.rf Reg.rootStatus 15 8 → s.frozen = false →
      (let s' := s.freeze cause drive false
      s'.frozen = true ∧ s'.rf Reg.dbgStatus 15 8 = cause % 256 ∧ s'.reg Reg.dbgFrzTime = s.now ∧
      s'.reg Reg.dbgFrzSpan ≤ 64 ∧ (∀ b, b < s.nBranches → (s'.branch b).frozen = true) ∧ s'.mem = s.mem ∧ s'.sv = s.sv)) ∧
    (s.rf Reg.dbgStatus 2 0 ≠ 2 → s.thaw = s) ∧
    (s.db.dump = none → exec (.dumpPieceEmit t) s = .next s1) ∧
    (∀ b r o : Nat, s.db.dump = some (b, r, o) →
      (s1.traceFits (4104 + 24) = false → exec (.dumpPieceEmit t) s = .next s1) ∧
      (s1.traceFits (4104 + 24) = true → ∃ s', exec (.dumpPieceEmit t) s = .next s' ∧ s'.mem = s.mem ∧ s'.sv = s.sv ∧
        (o + 4096 < regionSize r → s'.db.dump = some (b, r, o + 4096) ∧ s'.db.recs.length = s.db.recs.length + 1) ∧
        (regionSize r ≤ o + 4096 → s'.db.dump = (nextPair s.dumpList (b, r)).map (fun p => (p.1, p.2, 0))))) ∧
    (s.db.recs = [] ∨ s.rf Reg.trcCtl 5 4 = 0 ∨ s.pw.supply ≠ .on → exec (.traceRecordSend t) s = .next s1) ∧
    (∀ (r : List Byte) (rs : List (List Byte)), s.db.recs = r :: rs → s.rf Reg.trcCtl 5 4 ≠ 0 → s.pw.supply = .on → s.db.lost = 0 →
      ∃ s', exec (.traceRecordSend t) s = .next s' ∧ s'.out = s.out ++ [.trace s1.now r] ∧ s'.db.recs = rs ∧
        s'.rf Reg.trcRecords 63 0 = Nat.min (s.rf Reg.trcRecords 63 0 + 1) (2 ^ 64 - 1)) ∧
    (∀ high : Nat, exec (.freezeNFallingEdge t high) s =
      .next (if 1000 ≤ high ∧ s.rbit Reg.rstPinopt 1 = true then s1.freeze 3 false false else s1)) ∧
    (s.frozen = true ∨ s.pw.supply ≠ .on → exec (.freezeNStuckLow t) s = .next s1) ∧
    (s.frozen = false → s.pw.supply = .on → exec (.freezeNStuckLow t) s = .next (s1.faultLog 2 0 0)) ∧
    (∀ (cell : Nat) (rail : Bool), s.db.shorted.contains cell = true ∨ s.pw.supply ≠ .on → exec (.outputShortDetect t cell rail) s = .next s1) ∧
    (∀ (cell : Nat) (rail : Bool), s.db.shorted.contains cell = false → s.pw.supply = .on → ∃ s', exec (.outputShortDetect t cell rail) s = .next s' ∧
      s'.db.shorted = s.db.shorted ++ [cell] ∧ s'.mem = s.mem ∧ s'.sv = s.sv) ∧
    (∀ busy stall : List (Nat × Nat), s1.now % 1000000 ≠ 0 ∨ s.pw.supply ≠ .on ∨ s.rf Reg.rootStatus 15 8 < 10 ∨ leNat (s.pageBytes 8 8) = s1.now →
      exec (.counterSnapshotTick t busy stall) s = .next s1) ∧
    (∀ busy stall : List (Nat × Nat), s1.now % 1000000 = 0 → s.pw.supply = .on → 10 ≤ s.rf Reg.rootStatus 15 8 → leNat (s.pageBytes 8 8) ≠ s1.now →
      (let s2 := s1.countSkipped busy stall
      let s3 := { s2 with page := pageTab s2.newPage, cnt := [] }
      let s4 := s3.traceRec 1 s1.now (leBytes 2 s.ownPid ++ leBytes 6 0 ++ s3.pageBytes 0 8)
      s4.page = pageTab s2.newPage ∧ s4.cnt = [] ∧ s4.sv = s.sv ∧ s4.mem = s.mem ∧
      exec (.counterSnapshotTick t busy stall) s =
        .next (if s.frozen then s4 else s4.each (s.sv.admins.filter (fun a => a.type == 0x70)) State.endSnapshot)))

/-- Of MODEL_LOAD, MODEL_EVICT, GRAFT_PUT, GRAFT_RETIRE, STAND_RESET, BER_TEST, LINK_RESTORE, PART_JOIN, PART_DRAIN, ROUTE_UPDATE,
CAP_SET, FREEZE, THAW, COUNTER_SNAPSHOT, BER_TEST_START, BER_TEST_END and BRING_UP_STEP. A message of any of the 14 types joins
those in progress and does its type's work where its sender is permitted, its header, length and body are legal and fewer than
64 of its sender are in progress; at 64 it ends with status 0x13, malformed with 0x14; during a freeze it waits, but for
CAP_SET, FREEZE and THAW. A due bit-error test starts, and one that is over ends and leaves the list. Each step of bring-up runs
at or after its time, in order, and becomes BOOT_STEP; out of order, before its time or after a rejected image it does nothing.
Where the rules leave a reading or a choice, this is the model's: log entries 37, 40, 47. (13 R454, 13 R455, 13 R456, 13 R457,
13 R460, 15 R511, 15 R512, 12 R424, 12 R428, 16 R533) -/
def Obligations.AdminMessagesAndBringUp : Prop :=
  (∀ (s : State) (t : Nat) (src : Source) (m : List Byte),
    let s1 := s.at t
    let s2 := if (sourceStand src).isNone then s1.leaveS2 4 0 else s1
    let a : Admin := ⟨s2.sv.nextId, src, (sourceStand src).getD 0, fieldLE m 0 2, fieldLE m 4 4, .row, m⟩
    let s3 := s2.fresh.2.modSv (fun v => { v with admins := v.admins ++ [a] })
    let legal := fun (who size : Nat) (body : Bool) => s2.inProgress src < 64 ∧ (who = 2 ∨ (who = 0 ∧ (sourceStand src).isSome = true) ∨
      (who = 1 ∧ (sourceStand src).isSome = false)) ∧ headerOk src m = true ∧ m.length = size ∧ fieldLE m 2 2 = size ∧ body = true
    (s.frozen = false ∨ runsFrozen (fieldLE m 0 2) = true →
      (legal 1 176 (decide (fieldLE m 36 1 < 4) && zeros m 37 3 && zeros m 168 8) → exec (.capSet t src m) s = .next (s3.beginCapSet a)) ∧
      (legal 1 32 true → exec (.thaw t src m) s = .next (s3.thaw.adminEnd a.id 0 [])) ∧
      ((∀ n, src ≠ .remoteAdmin n) → legal 1 48 (decide (fieldLE m 32 1 < 2) && zeros m 33 15) →
        exec (.freeze t src m) s = .next ((s3.freeze 2 (fieldLE m 32 1 == 1) (fieldLE m 32 1 == 1)).adminEnd a.id 0 [])) ∧
      (∀ n, src = .remoteAdmin n → legal 1 48 (decide (fieldLE m 32 1 < 2) && zeros m 33 15) → fieldLE m 32 1 = 1 →
        exec (.freeze t src m) s = .next ((s3.freeze 6 true false).adminEnd a.id 0 [])) ∧
      (∀ n, src = .remoteAdmin n → legal 1 48 (decide (fieldLE m 32 1 < 2) && zeros m 33 15) → fieldLE m 32 1 = 0 →
        exec (.freeze t src m) s = .next ((s3.freeze 2 false false).adminEnd a.id 0 [])) ∧
      (legal 0 384 (modelLoadOk m) → exec (.modelLoad t src m) s = .next (s3.beginLoad a)) ∧
      (legal 0 64 (zeros m 34 30) → exec (.modelEvict t src m) s = .next (s3.beginEvict a)) ∧
      (legal 0 128 (graftPutOk m) → exec (.graftPut t src m) s = .next (s3.beginGraft a)) ∧
      (legal 0 64 (decide (1 ≤ fieldLE m 32 3) && zeros m 36 28) → exec (.graftRetire t src m) s = .next (s3.beginRetire a)) ∧
      (legal 2 64 (zeros m 33 31) → exec (.standReset t src m) s = .next (s3.beginStandReset a)) ∧
      (legal 1 64 (zeros m 36 4 && zeros m 52 12 && decide (fieldLE m 32 4 < 2 ^ 20) && decide (1 ≤ fieldLE m 48 4 ∧ fieldLE m 48 4 ≤ 3600000)) →
        exec (.berTest t src m) s = .next (s3.modUr (fun u => { u with
          bers := u.bers ++ [⟨a.id, fieldLE m 32 4, fieldLE m 40 8, fieldLE m 40 8 + fieldLE m 48 4 * 1000000, false, 0⟩] }))) ∧
      (legal 1 48 (zeros m 33 7 && decide (fieldLE m 32 1 < 20)) → s3.role (fieldLE m 32 1) ≠ 0 →
        exec (.linkRestore t src m) s = .next ((s3.downLink (fieldLE m 32 1) 1).modLink (fieldLE m 32 1) (fun l => { l with
          restore := some (a.id, fieldLE m 40 8), held := false, attempts := [], cause := 0 }))) ∧
      (legal 1 64 (zeros m 34 6) → s3.copying = false → exec (.partJoin t src m) s = .next (s3.partJoin a)) ∧
      (legal 1 32 true → ∃ s', exec (.partDrain t src m) s = .next s' ∧ s'.rbit Reg.rootStatus 2 = false ∧ s'.ur.draining = s3.ur.draining ++ [a.id] ∧
        s'.sv.admins = s3.sv.admins ∧ (∀ j ∈ s'.sv.jobs, j.started.isSome = true)) ∧
      (legal 1 (48 + 24 * fieldLE m 40 2) (routeUpdateOk m) → fieldLE m 32 8 = 0 ∨ s3.now + 100000 ≤ fieldLE m 32 8 → s3.copying = false →
        exec (.routeUpdate t src m) s = .next (s3.routeUpdate a)) ∧
      (legal 2 64 (zeros m 40 24 && decide (fieldLE m 32 8 % 8 = 0) && !(src == .smbus && fieldLE m 32 8 != 0)) →
        exec (.counterSnapshot t src m) s = .next s3)) ∧
    (∀ i ∈ [Instr.modelLoad t src m, .modelEvict t src m, .graftPut t src m, .graftRetire t src m, .standReset t src m, .berTest t src m,
        .linkRestore t src m, .partJoin t src m, .partDrain t src m, .routeUpdate t src m, .capSet t src m, .freeze t src m, .thaw t src m,
        .counterSnapshot t src m],
      (s.frozen = true → runsFrozen (fieldLE m 0 2) = false →
        exec i s = .next { s1 with db := { s.db with heldAdmin := s.db.heldAdmin ++ [(src, .row, m)] } }) ∧
      (s.frozen = false → 64 ≤ s2.inProgress src → exec i s = .next (a.stop s3 0x13)) ∧
      (s.frozen = false → s2.inProgress src < 64 → headerOk src m = false ∨ m.length ≠ fieldLE m 2 2 → exec i s = .next (a.stop s3 0x14)))) ∧
  (∀ (s : State) (t : Nat) (res : List (Nat × Nat × List Nat)),
    let s1 := s.at t
    (s.ur.bers = [] → exec (.berTestStart t) s = .next s1 ∧ exec (.berTestEnd t res) s = .next s1) ∧
    (∀ j : BerJob, s.ur.bers.find? (fun j => !j.running && decide (j.start ≤ s1.now)) = some j →
      exec (.berTestStart t) s = .next ((s1.each ((List.range 20).filter (fun n => j.ports.testBit n && s1.testable n)) (fun s n => s.downLink n 5)).modUr
        (fun u => { u with bers := mapIf (fun x => x.msg == j.msg) (fun x => { x with running := true }) u.bers }))) ∧
    (∀ j : BerJob, s.ur.bers.find? (fun j => j.running && decide (j.fin ≤ s1.now)) = some j →
      (let ns := (List.range 20).filter (fun n => j.ports.testBit n)
      let s2 := s1.each ns (fun s n => match res.find? (fun r => r.1 == n) with
        | some r => s.berResult n r.2.1 r.2.2
        | none => s.berResult n 0 [])
      let s3 := s2.each ns (fun s n => if s.linkState n = 5 then s.downLink n 1 else s)
      exec (.berTestEnd t res) s = .next ((s3.modUr (fun u => { u with bers := u.bers.filter (fun x => x.msg != j.msg) })).adminEnd j.msg 0
        ((List.range 20).flatMap (s3.berBody j.ports)))))) ∧
  (∀ (s : State) (t n : Nat) (f : BootFacts),
    let s1 := s.at t
    (s.pw.origin = none ∨ s.pw.supply ≠ .on ∨ s.rf Reg.seedStatus 2 0 = 4 ∨ 11 < n ∨ s.rf Reg.rootStatus 15 8 + 1 ≠ n →
      exec (.bringUpStep t n f) s = .next s1) ∧
    (∀ o : Nat, s.pw.origin = some o →
      (s1.now < o + bootMs n * 1000000 → exec (.bringUpStep t n f) s = .next s1) ∧
      (s.pw.supply = .on → s.rf Reg.seedStatus 2 0 ≠ 4 → s.rf Reg.rootStatus 15 8 + 1 = n → n ≤ 11 → o + bootMs n * 1000000 ≤ s1.now →
        (n = 1 → exec (.bringUpStep t n f) s = .next (s1.boot1.stepDone 1)) ∧
        (n = 2 → exec (.bringUpStep t n f) s = .next ((s1.boot2 f).stepDone 2)) ∧
        (n = 3 → f.store = 1 ∨ f.store = 2 → exec (.bringUpStep t n f) s = .next (s1.seedReject f.store 0)) ∧
        (n = 3 → f.store ≠ 1 → f.store ≠ 2 → exec (.bringUpStep t n f) s = .next ((s1.boot3 f).stepDone 3)) ∧
        (n = 4 → exec (.bringUpStep t n f) s = .next ((s1.boot4 f).stepDone 4)) ∧
        (n = 6 → exec (.bringUpStep t n f) s = .next (s1.boot6.stepDone 6)) ∧
        (n = 7 → exec (.bringUpStep t n f) s = .next ((s1.boot7 f).stepDone 7)) ∧
        (n = 8 → exec (.bringUpStep t n f) s = .next ((s1.boot8 f).stepDone 8)) ∧
        (n = 9 → exec (.bringUpStep t n f) s = .next s1.boot9) ∧
        (n = 5 → exec (.bringUpStep t n f) s = .next (match s1.seedFault s.mg.seed s1.strap with
          | some (e, x) => s1.seedReject e x
          | none => (s1.boot5 o).stepDone 5)) ∧
        (n = 10 → ∃ s', exec (.bringUpStep t n f) s = .next s' ∧ s'.rf Reg.rootStatus 15 8 = 10 ∧ s'.rbit Reg.rootStatus 0 = true) ∧
        (n = 11 → s1.timeReady = true → ∃ s', exec (.bringUpStep t n f) s = .next s' ∧ s'.rf Reg.rootStatus 15 8 = 11 ∧
          s'.rbit Reg.rootStatus 2 = true ∧ s'.rf Reg.pwrStatus 18 16 = 0 ∧ s'.pw.origin = none ∧ s'.pw.lastBeat = s1.now) ∧
        (n = 11 → s1.timeReady = false → exec (.bringUpStep t n f) s = .next s1))))
end

