-- ==== Sys2Proof/Laws/Tab.lean ====
section
/-! SUPPORT. Laws of sparse tables and of memory: read after write, other entries untouched, the canonical form kept. -/

namespace Sys2Proof.Machine

variable {α : Type} [DecidableEq α] {d : α}

theorem tabWf_mono {t : Tab α} {lo lo' : Nat} (h : lo' ≤ lo) (w : tabWf d lo t = true) : tabWf d lo' t = true := by
  cases t with
  | nil => rfl
  | cons e t =>
    obtain ⟨k, v⟩ := e
    simp only [tabWf, Bool.and_eq_true, decide_eq_true_eq] at w ⊢
    exact ⟨⟨Nat.le_trans h w.1.1, w.1.2⟩, w.2⟩

/-- Below the bound of a canonical table every entry is the default. -/
theorem tget_below {t : Tab α} {lo i : Nat} (w : tabWf d lo t = true) (h : i < lo) : tget d t i = d := by
  induction t generalizing lo with
  | nil => rfl
  | cons e t ih =>
    obtain ⟨k, v⟩ := e
    simp only [tabWf, Bool.and_eq_true, decide_eq_true_eq] at w
    have hk : i ≠ k := by omega
    simp only [tget, hk, if_false]
    exact ih w.2 (by omega)

theorem tget_tdel_same {β : Type} {d : β} (t : Tab β) (i : Nat) : tget d (tdel t i) i = d := by
  induction t with
  | nil => rfl
  | cons e t ih =>
    obtain ⟨k, x⟩ := e
    by_cases h : i = k
    · simp only [tdel, h, if_true]; rw [← h]; exact ih
    · simp only [tdel, h, if_false, tget]; exact ih

theorem tget_tdel_other {β : Type} {d : β} (t : Tab β) {i j : Nat} (h : j ≠ i) : tget d (tdel t i) j = tget d t j := by
  induction t with
  | nil => rfl
  | cons e t ih =>
    obtain ⟨k, x⟩ := e
    by_cases hk : i = k
    · subst hk
      simp only [tdel, if_true, tget, h, if_false]; exact ih
    · simp only [tdel, hk, if_false, tget, ih]

theorem tget_tput_same {β : Type} {d : β} (t : Tab β) (i : Nat) (v : β) : tget d (tput t i v) i = v := by
  induction t with
  | nil => simp [tput, tget]
  | cons e t ih =>
    obtain ⟨k, x⟩ := e
    by_cases h1 : i < k
    · simp [tput, tget, h1]
    · by_cases h2 : i = k
      · simp [tput, tget, h2]
      · simp only [tput, h1, h2, if_false, tget]; exact ih

theorem tget_tput_other {β : Type} {d : β} (t : Tab β) {i j : Nat} (v : β) (h : j ≠ i) :
    tget d (tput t i v) j = tget d t j := by
  induction t with
  | nil => simp [tput, tget, h]
  | cons e t ih =>
    obtain ⟨k, x⟩ := e
    by_cases h1 : i < k
    · simp [tput, tget, h1, h]
    · by_cases h2 : i = k
      · subst h2; simp [tput, tget, h]
      · simp only [tput, h1, h2, if_false, tget, ih]

/-- A written value is read back, from any table. -/
@[simp] theorem tget_tset_same (t : Tab α) (i : Nat) (v : α) : tget d (tset d t i v) i = v := by
  unfold tset
  by_cases h : v = d
  · rw [if_pos h, h]; exact tget_tdel_same t i
  · rw [if_neg h]; exact tget_tput_same t i v

/-- Every other entry keeps its value, in any table. -/
theorem tget_tset_other {t : Tab α} {i j : Nat} (v : α) (h : j ≠ i) : tget d (tset d t i v) j = tget d t j := by
  unfold tset
  by_cases hv : v = d
  · rw [if_pos hv]; exact tget_tdel_other t h
  · rw [if_neg hv]; exact tget_tput_other t v h

theorem tabWf_tdel {t : Tab α} {lo : Nat} (i : Nat) (w : tabWf d lo t = true) : tabWf d lo (tdel t i) = true := by
  induction t generalizing lo with
  | nil => rfl
  | cons e t ih =>
    obtain ⟨k, x⟩ := e
    simp only [tabWf, Bool.and_eq_true, decide_eq_true_eq] at w
    by_cases h : i = k
    · simp only [tdel, h, if_true]; exact tabWf_mono (by omega) (h ▸ ih w.2)
    · simp only [tdel, h, if_false, tabWf, Bool.and_eq_true, decide_eq_true_eq]
      exact ⟨w.1, ih w.2⟩

/-- A write keeps the canonical form. -/
theorem tabWf_tset {t : Tab α} {lo i : Nat} (v : α) (hi : lo ≤ i) (w : tabWf d lo t = true) : tabWf d lo (tset d t i v) = true := by
  unfold tset
  by_cases hv : v = d
  · rw [if_pos hv]; exact tabWf_tdel i w
  · rw [if_neg hv]
    induction t generalizing lo with
    | nil => simp [tput, tabWf, hv, hi]
    | cons e t ih =>
      obtain ⟨k, x⟩ := e
      have w' := w
      simp only [tabWf, Bool.and_eq_true, decide_eq_true_eq] at w'
      by_cases h1 : i < k
      · simp only [tput, h1, if_true, tabWf, Bool.and_eq_true, decide_eq_true_eq]
        exact ⟨⟨hi, hv⟩, ⟨⟨by omega, w'.1.2⟩, w'.2⟩⟩
      · by_cases h2 : i = k
        · simp only [tput, h2, Nat.lt_irrefl, if_true, if_false, tabWf, Bool.and_eq_true, decide_eq_true_eq]
          exact ⟨⟨w'.1.1, hv⟩, w'.2⟩
        · simp only [tput, h1, h2, if_false, tabWf, Bool.and_eq_true, decide_eq_true_eq]
          exact ⟨w'.1, ih (by omega) w'.2⟩

theorem tabWf_tsetAll {t : Tab α} {i : Nat} (vs : List α) (w : tabWf d 0 t = true) : tabWf d 0 (tsetAll d t i vs) = true := by
  induction vs generalizing t i with
  | nil => exact w
  | cons v vs ih => exact ih (tabWf_tset v (Nat.zero_le _) w)

theorem tabWf_filter {t : Tab α} {lo : Nat} (p : Nat × α → Bool) (w : tabWf d lo t = true) : tabWf d lo (t.filter p) = true := by
  induction t generalizing lo with
  | nil => rfl
  | cons e t ih =>
    obtain ⟨k, v⟩ := e
    simp only [tabWf, Bool.and_eq_true, decide_eq_true_eq] at w
    by_cases hp : p (k, v) = true
    · simp only [List.filter_cons, hp, if_true, tabWf, Bool.and_eq_true, decide_eq_true_eq]
      exact ⟨w.1, ih w.2⟩
    · simp only [List.filter_cons, hp, Bool.false_eq_true, if_false]
      exact tabWf_mono (by omega) (ih w.2)

theorem tabWf_foldl_tset {β : Type} {g : β → Option (Nat × α)} (l : List β) {t : Tab α} (w : tabWf d 0 t = true) :
    tabWf d 0 (l.foldl (fun m e => match g e with | some x => tset d m x.1 x.2 | none => m) t) = true := by
  induction l generalizing t with
  | nil => exact w
  | cons a l ih =>
    simp only [List.foldl_cons]
    cases h : g a with
    | none => exact ih w
    | some x => exact ih (tabWf_tset x.2 (Nat.zero_le _) w)

/-! Memory -/

theorem memWf_set (s : State) (k : Nat) (v : Byte) (w : Memory.wf s.mem = true) : Memory.wf (s.memSet k v).mem = true :=
  tabWf_tset v (Nat.zero_le _) w
theorem memWf_write (s : State) (k : Nat) (bs : List Byte) (w : Memory.wf s.mem = true) : Memory.wf (s.memWrite k bs).mem = true :=
  tabWf_tsetAll bs w
@[simp] theorem memByte_set_same (s : State) (k : Nat) (v : Byte) : (s.memSet k v).memByte k = v := tget_tset_same _ _ _
theorem memByte_set_other (s : State) (k j : Nat) (v : Byte) (h : j ≠ k) : (s.memSet k v).memByte j = s.memByte j :=
  tget_tset_other v h
/-- Bytes outside those written keep their values. -/
theorem tget_tsetAll_outside {t : Tab α} {i j : Nat} (vs : List α) (h : j < i ∨ i + vs.length ≤ j) :
    tget d (tsetAll d t i vs) j = tget d t j := by
  induction vs generalizing t i with
  | nil => rfl
  | cons v vs ih =>
    simp only [List.length_cons] at h
    rw [tsetAll, ih (by omega), tget_tset_other v (by omega)]
theorem memByte_write_outside (s : State) (k j : Nat) (bs : List Byte) (h : j < k ∨ k + bs.length ≤ j) :
    (s.memWrite k bs).memByte j = s.memByte j := tget_tsetAll_outside bs h
/-- The bytes written are read back. -/
theorem tgetAll_tsetAll {t : Tab α} {i : Nat} (vs : List α) : tgetAll d (tsetAll d t i vs) i vs.length = vs := by
  induction vs generalizing t i with
  | nil => rfl
  | cons v vs ih =>
    simp only [tsetAll, List.length_cons, tgetAll, ih, List.cons.injEq, and_true]
    rw [tget_tsetAll_outside vs (by omega), tget_tset_same]
theorem memRead_write (s : State) (k : Nat) (bs : List Byte) : (s.memWrite k bs).memRead k bs.length = bs := tgetAll_tsetAll bs

end Sys2Proof.Machine
end

