-- ==== Sys2Proof/Laws/Regs.lean ====
section
/-! SUPPORT. Laws of register fields: a stored field is read back, disjoint fields and other registers stay. -/

namespace Sys2Proof.Machine

/-- A number with a field replaced: what is above, the field, what is below. -/
theorem setFld_parts (v hi lo x : Nat) :
    setFld v hi lo x = v / 2 ^ (lo + (hi - lo + 1)) * 2 ^ (lo + (hi - lo + 1)) + x % 2 ^ (hi - lo + 1) * 2 ^ lo + v % 2 ^ lo := by
  unfold setFld fld
  generalize hi - lo + 1 = w
  rw [Nat.shiftRight_eq_div_pow, Nat.pow_add, ← Nat.div_div_eq_div_mul]
  have h1 := Nat.div_add_mod v (2 ^ lo)
  have h2 := Nat.div_add_mod (v / 2 ^ lo) (2 ^ w)
  generalize v / 2 ^ lo / 2 ^ w = a at *
  generalize v / 2 ^ lo % 2 ^ w = f at *
  generalize v % 2 ^ lo = b at *
  generalize x % 2 ^ w = y
  have h3 : v = a * (2 ^ lo * 2 ^ w) + f * 2 ^ lo + b := by
    rw [← h1, ← h2, Nat.mul_add, Nat.mul_comm (2 ^ lo) f]
    congr 2
    rw [← Nat.mul_assoc, Nat.mul_comm a]
  omega

theorem fld_setFld_same (v hi lo x : Nat) : fld (setFld v hi lo x) hi lo = x % 2 ^ (hi - lo + 1) := by
  rw [setFld_parts]
  unfold fld
  generalize hi - lo + 1 = w
  rw [Nat.shiftRight_eq_div_pow, Nat.pow_add]
  have hb : v % 2 ^ lo < 2 ^ lo := Nat.mod_lt _ (Nat.two_pow_pos lo)
  have e : v / (2 ^ lo * 2 ^ w) * (2 ^ lo * 2 ^ w) + x % 2 ^ w * 2 ^ lo + v % 2 ^ lo
      = 2 ^ lo * (v / (2 ^ lo * 2 ^ w) * 2 ^ w + x % 2 ^ w) + v % 2 ^ lo := by
    rw [Nat.mul_add, Nat.mul_comm (x % 2 ^ w)]
    congr 2
    rw [Nat.mul_left_comm]
  rw [e, Nat.mul_add_div (Nat.two_pow_pos lo), Nat.div_eq_of_lt hb, Nat.add_zero, Nat.mul_comm, Nat.mul_add_mod, Nat.mod_mod]

/-- A field wholly below or wholly above the one replaced stays. -/
theorem fld_setFld_other (v hi lo x hi' lo' : Nat) (h : lo ≤ hi) (h' : lo' ≤ hi') (g : hi' < lo ∨ hi < lo') :
    fld (setFld v hi lo x) hi' lo' = fld v hi' lo' := by
  rw [setFld_parts]
  unfold fld
  simp only [Nat.shiftRight_eq_div_pow]
  obtain ⟨w, hw⟩ : ∃ w, hi - lo + 1 = w := ⟨_, rfl⟩
  obtain ⟨w', hw'⟩ : ∃ w', hi' - lo' + 1 = w' := ⟨_, rfl⟩
  rw [hw, hw']
  rcases g with g | g
  · -- below: both sides are the field of the low lo bits
    have hle : lo' + w' ≤ lo := by omega
    have key : ∀ y : Nat, y / 2 ^ lo' % 2 ^ w' = (y % 2 ^ lo) / 2 ^ lo' % 2 ^ w' := by
      intro y
      obtain ⟨k, rfl⟩ : ∃ k, lo = lo' + w' + k := ⟨lo - (lo' + w'), by omega⟩
      rw [Nat.add_assoc, Nat.pow_add, Nat.mod_mul_right_div_self, Nat.pow_add, Nat.mod_mul_right_mod]
    rw [key, key v]
    congr 2
    rw [Nat.pow_add]
    have : v / (2 ^ lo * 2 ^ w) * (2 ^ lo * 2 ^ w) + x % 2 ^ w * 2 ^ lo + v % 2 ^ lo
        = v % 2 ^ lo + 2 ^ lo * (v / (2 ^ lo * 2 ^ w) * 2 ^ w + x % 2 ^ w) := by
      rw [Nat.mul_add, Nat.mul_comm (2 ^ lo) (x % 2 ^ w), Nat.mul_left_comm (2 ^ lo)]
      omega
    rw [this, Nat.add_mul_mod_self_left, Nat.mod_mod]
  · -- above: both sides are a field of what lies above the replaced one
    obtain ⟨k, rfl⟩ : ∃ k, lo' = lo + w + k := ⟨lo' - (lo + w), by omega⟩
    rw [Nat.pow_add (2) (lo + w) k, ← Nat.div_div_eq_div_mul, ← Nat.div_div_eq_div_mul]
    congr 2
    have hlt : x % 2 ^ w * 2 ^ lo + v % 2 ^ lo < 2 ^ (lo + w) := by
      have h1 : x % 2 ^ w < 2 ^ w := Nat.mod_lt _ (Nat.two_pow_pos w)
      have h2 : v % 2 ^ lo < 2 ^ lo := Nat.mod_lt _ (Nat.two_pow_pos lo)
      have h3 : (x % 2 ^ w + 1) * 2 ^ lo ≤ 2 ^ w * 2 ^ lo := Nat.mul_le_mul_right _ h1
      rw [Nat.add_mul, Nat.one_mul] at h3
      rw [Nat.pow_add, Nat.mul_comm (2 ^ lo)]
      omega
    rw [Nat.add_assoc, Nat.mul_comm _ (2 ^ (lo + w)), Nat.mul_add_div (Nat.two_pow_pos _), Nat.div_eq_of_lt hlt, Nat.add_zero]

/-! Registers -/

/-- The register table is in canonical form. -/
abbrev State.csrWf (s : State) : Prop := tabWf none 0 s.csr = true

theorem reg_putReg_same (s : State) (o v : Nat) : (s.putReg o v).reg o = v := by
  unfold State.reg State.putReg
  simp only [tget_tset_same]
  by_cases h : v = regReset o <;> simp [h]
theorem reg_putReg_other (s : State) (o o' v : Nat) (h : o' ≠ o) : (s.putReg o v).reg o' = s.reg o' := by
  unfold State.reg State.putReg
  simp only [tget_tset_other _ h]
theorem csrWf_putReg (s : State) (o v : Nat) (w : s.csrWf) : (s.putReg o v).csrWf := tabWf_tset _ (Nat.zero_le _) w
theorem csrWf_wf (s : State) (o hi lo x : Nat) (w : s.csrWf) : (s.wf o hi lo x).csrWf := csrWf_putReg s _ _ w
theorem rf_wf_same (s : State) (o hi lo x : Nat) : (s.wf o hi lo x).rf o hi lo = x % 2 ^ (hi - lo + 1) := by
  unfold State.rf State.wf
  rw [reg_putReg_same, fld_setFld_same]
theorem rf_wf_field (s : State) (o hi lo x hi' lo' : Nat) (h : lo ≤ hi) (h' : lo' ≤ hi') (g : hi' < lo ∨ hi < lo') :
    (s.wf o hi lo x).rf o hi' lo' = s.rf o hi' lo' := by
  unfold State.rf State.wf
  rw [reg_putReg_same, fld_setFld_other _ _ _ _ _ _ h h' g]
theorem rf_wf_other (s : State) (o hi lo x o' hi' lo' : Nat) (h : o' ≠ o) : (s.wf o hi lo x).rf o' hi' lo' = s.rf o' hi' lo' := by
  unfold State.rf State.wf
  rw [reg_putReg_other _ _ _ _ h]
theorem rbit_wbit_same (s : State) (o i : Nat) (b : Bool) : (s.wbit o i b).rbit o i = b := by
  unfold State.rbit State.wbit
  rw [rf_wf_same]
  cases b <;> simp
theorem rbit_wbit_other (s : State) (o i o' i' : Nat) (b : Bool) (h : o' ≠ o ∨ i' ≠ i) :
    (s.wbit o i b).rbit o' i' = s.rbit o' i' := by
  unfold State.rbit State.wbit
  by_cases ho : o' = o
  · subst ho
    rw [rf_wf_field _ _ _ _ _ _ _ (Nat.le_refl _) (Nat.le_refl _) (by omega)]
  · rw [rf_wf_other _ _ _ _ _ _ _ _ ho]

end Sys2Proof.Machine
end

