-- ==== Sys2Proof/Laws/State.lean ====
section
/-! SUPPORT. What each update of the state does to each of its fields, and to the views of the fields it leaves alone. -/

namespace Sys2Proof.Machine

variable (s : State)

/-! ### at -/

@[simp] theorem State.at_part (t : Nat) : (s.at t).part = s.part := rfl
@[simp] theorem State.at_now (t : Nat) : (s.at t).now = Nat.max s.now (t % 2 ^ 64) := rfl
@[simp] theorem State.at_free (t : Nat) : (s.at t).free = s.free := rfl
@[simp] theorem State.at_mem (t : Nat) : (s.at t).mem = s.mem := rfl
@[simp] theorem State.at_leaves (t : Nat) : (s.at t).leaves = s.leaves := rfl
@[simp] theorem State.at_branches (t : Nat) : (s.at t).branches = s.branches := rfl
@[simp] theorem State.at_csr (t : Nat) : (s.at t).csr = s.csr := rfl
@[simp] theorem State.at_sv (t : Nat) : (s.at t).sv = s.sv := rfl
@[simp] theorem State.at_tiers (t : Nat) : (s.at t).tiers = s.tiers := rfl
@[simp] theorem State.at_pw (t : Nat) : (s.at t).pw = s.pw := rfl
@[simp] theorem State.at_mg (t : Nat) : (s.at t).mg = s.mg := rfl
@[simp] theorem State.at_db (t : Nat) : (s.at t).db = s.db := rfl
@[simp] theorem State.at_ur (t : Nat) : (s.at t).ur = s.ur := rfl
@[simp] theorem State.at_cnt (t : Nat) : (s.at t).cnt = s.cnt := rfl
@[simp] theorem State.at_page (t : Nat) : (s.at t).page = s.page := rfl
@[simp] theorem State.at_out (t : Nat) : (s.at t).out = s.out := rfl
@[simp] theorem State.at_poisonLog (t : Nat) : (s.at t).poisonLog = s.poisonLog := rfl
@[simp] theorem State.at_packets (t : Nat) : (s.at t).packets = s.packets := rfl
@[simp] theorem State.at_nextPacket (t : Nat) : (s.at t).nextPacket = s.nextPacket := rfl
@[simp] theorem State.at_pending (t : Nat) : (s.at t).pending = s.pending := rfl
@[simp] theorem State.at_reg (t : Nat) (o' : Nat) : (s.at t).reg o' = s.reg o' := rfl
@[simp] theorem State.at_rf (t : Nat) (o' hi' lo' : Nat) : (s.at t).rf o' hi' lo' = s.rf o' hi' lo' := rfl
@[simp] theorem State.at_rbit (t : Nat) (o' i' : Nat) : (s.at t).rbit o' i' = s.rbit o' i' := rfl
@[simp] theorem State.at_frozen (t : Nat) : (s.at t).frozen = s.frozen := rfl
@[simp] theorem State.at_memByte (t : Nat) (k' : Nat) : (s.at t).memByte k' = s.memByte k' := rfl
@[simp] theorem State.at_memRead (t : Nat) (k' n' : Nat) : (s.at t).memRead k' n' = s.memRead k' n' := rfl
@[simp] theorem State.at_leaf (t : Nat) (l' : Nat) : (s.at t).leaf l' = s.leaf l' := rfl
@[simp] theorem State.at_branch (t : Nat) (b' : Nat) : (s.at t).branch b' = s.branch b' := rfl
@[simp] theorem State.at_nBranches (t : Nat) : (s.at t).nBranches = s.nBranches := rfl
@[simp] theorem State.at_nLeaves (t : Nat) : (s.at t).nLeaves = s.nLeaves := rfl
@[simp] theorem State.at_nStacks (t : Nat) : (s.at t).nStacks = s.nStacks := rfl

/-! ### tick -/

@[simp] theorem State.tick_part : (s.tick).part = s.part := rfl
@[simp] theorem State.tick_now : (s.tick).now = s.now := rfl
@[simp] theorem State.tick_free : (s.tick).free = s.free + 1 := rfl
@[simp] theorem State.tick_mem : (s.tick).mem = s.mem := rfl
@[simp] theorem State.tick_leaves : (s.tick).leaves = s.leaves := rfl
@[simp] theorem State.tick_branches : (s.tick).branches = s.branches := rfl
@[simp] theorem State.tick_csr : (s.tick).csr = s.csr := rfl
@[simp] theorem State.tick_sv : (s.tick).sv = s.sv := rfl
@[simp] theorem State.tick_tiers : (s.tick).tiers = s.tiers := rfl
@[simp] theorem State.tick_pw : (s.tick).pw = s.pw := rfl
@[simp] theorem State.tick_mg : (s.tick).mg = s.mg := rfl
@[simp] theorem State.tick_db : (s.tick).db = s.db := rfl
@[simp] theorem State.tick_ur : (s.tick).ur = s.ur := rfl
@[simp] theorem State.tick_cnt : (s.tick).cnt = s.cnt := rfl
@[simp] theorem State.tick_page : (s.tick).page = s.page := rfl
@[simp] theorem State.tick_out : (s.tick).out = s.out := rfl
@[simp] theorem State.tick_poisonLog : (s.tick).poisonLog = s.poisonLog := rfl
@[simp] theorem State.tick_packets : (s.tick).packets = s.packets := rfl
@[simp] theorem State.tick_nextPacket : (s.tick).nextPacket = s.nextPacket := rfl
@[simp] theorem State.tick_pending : (s.tick).pending = s.pending := rfl
@[simp] theorem State.tick_reg (o' : Nat) : (s.tick).reg o' = s.reg o' := rfl
@[simp] theorem State.tick_rf (o' hi' lo' : Nat) : (s.tick).rf o' hi' lo' = s.rf o' hi' lo' := rfl
@[simp] theorem State.tick_rbit (o' i' : Nat) : (s.tick).rbit o' i' = s.rbit o' i' := rfl
@[simp] theorem State.tick_frozen : (s.tick).frozen = s.frozen := rfl
@[simp] theorem State.tick_memByte (k' : Nat) : (s.tick).memByte k' = s.memByte k' := rfl
@[simp] theorem State.tick_memRead (k' n' : Nat) : (s.tick).memRead k' n' = s.memRead k' n' := rfl
@[simp] theorem State.tick_leaf (l' : Nat) : (s.tick).leaf l' = s.leaf l' := rfl
@[simp] theorem State.tick_branch (b' : Nat) : (s.tick).branch b' = s.branch b' := rfl
@[simp] theorem State.tick_nBranches : (s.tick).nBranches = s.nBranches := rfl
@[simp] theorem State.tick_nLeaves : (s.tick).nLeaves = s.nLeaves := rfl
@[simp] theorem State.tick_nStacks : (s.tick).nStacks = s.nStacks := rfl

/-! ### memSet -/

@[simp] theorem State.memSet_part (k : Nat) (v : Byte) : (s.memSet k v).part = s.part := rfl
@[simp] theorem State.memSet_now (k : Nat) (v : Byte) : (s.memSet k v).now = s.now := rfl
@[simp] theorem State.memSet_free (k : Nat) (v : Byte) : (s.memSet k v).free = s.free := rfl
@[simp] theorem State.memSet_mem (k : Nat) (v : Byte) : (s.memSet k v).mem = tset 0 s.mem k v := rfl
@[simp] theorem State.memSet_leaves (k : Nat) (v : Byte) : (s.memSet k v).leaves = s.leaves := rfl
@[simp] theorem State.memSet_branches (k : Nat) (v : Byte) : (s.memSet k v).branches = s.branches := rfl
@[simp] theorem State.memSet_csr (k : Nat) (v : Byte) : (s.memSet k v).csr = s.csr := rfl
@[simp] theorem State.memSet_sv (k : Nat) (v : Byte) : (s.memSet k v).sv = s.sv := rfl
@[simp] theorem State.memSet_tiers (k : Nat) (v : Byte) : (s.memSet k v).tiers = s.tiers := rfl
@[simp] theorem State.memSet_pw (k : Nat) (v : Byte) : (s.memSet k v).pw = s.pw := rfl
@[simp] theorem State.memSet_mg (k : Nat) (v : Byte) : (s.memSet k v).mg = s.mg := rfl
@[simp] theorem State.memSet_db (k : Nat) (v : Byte) : (s.memSet k v).db = s.db := rfl
@[simp] theorem State.memSet_ur (k : Nat) (v : Byte) : (s.memSet k v).ur = s.ur := rfl
@[simp] theorem State.memSet_cnt (k : Nat) (v : Byte) : (s.memSet k v).cnt = s.cnt := rfl
@[simp] theorem State.memSet_page (k : Nat) (v : Byte) : (s.memSet k v).page = s.page := rfl
@[simp] theorem State.memSet_out (k : Nat) (v : Byte) : (s.memSet k v).out = s.out := rfl
@[simp] theorem State.memSet_poisonLog (k : Nat) (v : Byte) : (s.memSet k v).poisonLog = s.poisonLog := rfl
@[simp] theorem State.memSet_packets (k : Nat) (v : Byte) : (s.memSet k v).packets = s.packets := rfl
@[simp] theorem State.memSet_nextPacket (k : Nat) (v : Byte) : (s.memSet k v).nextPacket = s.nextPacket := rfl
@[simp] theorem State.memSet_pending (k : Nat) (v : Byte) : (s.memSet k v).pending = s.pending := rfl
@[simp] theorem State.memSet_reg (k : Nat) (v : Byte) (o' : Nat) : (s.memSet k v).reg o' = s.reg o' := rfl
@[simp] theorem State.memSet_rf (k : Nat) (v : Byte) (o' hi' lo' : Nat) : (s.memSet k v).rf o' hi' lo' = s.rf o' hi' lo' := rfl
@[simp] theorem State.memSet_rbit (k : Nat) (v : Byte) (o' i' : Nat) : (s.memSet k v).rbit o' i' = s.rbit o' i' := rfl
@[simp] theorem State.memSet_frozen (k : Nat) (v : Byte) : (s.memSet k v).frozen = s.frozen := rfl
@[simp] theorem State.memSet_leaf (k : Nat) (v : Byte) (l' : Nat) : (s.memSet k v).leaf l' = s.leaf l' := rfl
@[simp] theorem State.memSet_branch (k : Nat) (v : Byte) (b' : Nat) : (s.memSet k v).branch b' = s.branch b' := rfl
@[simp] theorem State.memSet_nBranches (k : Nat) (v : Byte) : (s.memSet k v).nBranches = s.nBranches := rfl
@[simp] theorem State.memSet_nLeaves (k : Nat) (v : Byte) : (s.memSet k v).nLeaves = s.nLeaves := rfl
@[simp] theorem State.memSet_nStacks (k : Nat) (v : Byte) : (s.memSet k v).nStacks = s.nStacks := rfl

/-! ### memWrite -/

@[simp] theorem State.memWrite_part (k : Nat) (bs : List Byte) : (s.memWrite k bs).part = s.part := rfl
@[simp] theorem State.memWrite_now (k : Nat) (bs : List Byte) : (s.memWrite k bs).now = s.now := rfl
@[simp] theorem State.memWrite_free (k : Nat) (bs : List Byte) : (s.memWrite k bs).free = s.free := rfl
@[simp] theorem State.memWrite_mem (k : Nat) (bs : List Byte) : (s.memWrite k bs).mem = tsetAll 0 s.mem k bs := rfl
@[simp] theorem State.memWrite_leaves (k : Nat) (bs : List Byte) : (s.memWrite k bs).leaves = s.leaves := rfl
@[simp] theorem State.memWrite_branches (k : Nat) (bs : List Byte) : (s.memWrite k bs).branches = s.branches := rfl
@[simp] theorem State.memWrite_csr (k : Nat) (bs : List Byte) : (s.memWrite k bs).csr = s.csr := rfl
@[simp] theorem State.memWrite_sv (k : Nat) (bs : List Byte) : (s.memWrite k bs).sv = s.sv := rfl
@[simp] theorem State.memWrite_tiers (k : Nat) (bs : List Byte) : (s.memWrite k bs).tiers = s.tiers := rfl
@[simp] theorem State.memWrite_pw (k : Nat) (bs : List Byte) : (s.memWrite k bs).pw = s.pw := rfl
@[simp] theorem State.memWrite_mg (k : Nat) (bs : List Byte) : (s.memWrite k bs).mg = s.mg := rfl
@[simp] theorem State.memWrite_db (k : Nat) (bs : List Byte) : (s.memWrite k bs).db = s.db := rfl
@[simp] theorem State.memWrite_ur (k : Nat) (bs : List Byte) : (s.memWrite k bs).ur = s.ur := rfl
@[simp] theorem State.memWrite_cnt (k : Nat) (bs : List Byte) : (s.memWrite k bs).cnt = s.cnt := rfl
@[simp] theorem State.memWrite_page (k : Nat) (bs : List Byte) : (s.memWrite k bs).page = s.page := rfl
@[simp] theorem State.memWrite_out (k : Nat) (bs : List Byte) : (s.memWrite k bs).out = s.out := rfl
@[simp] theorem State.memWrite_poisonLog (k : Nat) (bs : List Byte) : (s.memWrite k bs).poisonLog = s.poisonLog := rfl
@[simp] theorem State.memWrite_packets (k : Nat) (bs : List Byte) : (s.memWrite k bs).packets = s.packets := rfl
@[simp] theorem State.memWrite_nextPacket (k : Nat) (bs : List Byte) : (s.memWrite k bs).nextPacket = s.nextPacket := rfl
@[simp] theorem State.memWrite_pending (k : Nat) (bs : List Byte) : (s.memWrite k bs).pending = s.pending := rfl
@[simp] theorem State.memWrite_reg (k : Nat) (bs : List Byte) (o' : Nat) : (s.memWrite k bs).reg o' = s.reg o' := rfl
@[simp] theorem State.memWrite_rf (k : Nat) (bs : List Byte) (o' hi' lo' : Nat) : (s.memWrite k bs).rf o' hi' lo' = s.rf o' hi' lo' := rfl
@[simp] theorem State.memWrite_rbit (k : Nat) (bs : List Byte) (o' i' : Nat) : (s.memWrite k bs).rbit o' i' = s.rbit o' i' := rfl
@[simp] theorem State.memWrite_frozen (k : Nat) (bs : List Byte) : (s.memWrite k bs).frozen = s.frozen := rfl
@[simp] theorem State.memWrite_leaf (k : Nat) (bs : List Byte) (l' : Nat) : (s.memWrite k bs).leaf l' = s.leaf l' := rfl
@[simp] theorem State.memWrite_branch (k : Nat) (bs : List Byte) (b' : Nat) : (s.memWrite k bs).branch b' = s.branch b' := rfl
@[simp] theorem State.memWrite_nBranches (k : Nat) (bs : List Byte) : (s.memWrite k bs).nBranches = s.nBranches := rfl
@[simp] theorem State.memWrite_nLeaves (k : Nat) (bs : List Byte) : (s.memWrite k bs).nLeaves = s.nLeaves := rfl
@[simp] theorem State.memWrite_nStacks (k : Nat) (bs : List Byte) : (s.memWrite k bs).nStacks = s.nStacks := rfl

/-! ### putLeaf -/

@[simp] theorem State.putLeaf_part (l : Nat) (x : Leaf) : (s.putLeaf l x).part = s.part := rfl
@[simp] theorem State.putLeaf_now (l : Nat) (x : Leaf) : (s.putLeaf l x).now = s.now := rfl
@[simp] theorem State.putLeaf_free (l : Nat) (x : Leaf) : (s.putLeaf l x).free = s.free := rfl
@[simp] theorem State.putLeaf_mem (l : Nat) (x : Leaf) : (s.putLeaf l x).mem = s.mem := rfl
@[simp] theorem State.putLeaf_leaves (l : Nat) (x : Leaf) : (s.putLeaf l x).leaves = tset Leaf.empty s.leaves l x := rfl
@[simp] theorem State.putLeaf_branches (l : Nat) (x : Leaf) : (s.putLeaf l x).branches = s.branches := rfl
@[simp] theorem State.putLeaf_csr (l : Nat) (x : Leaf) : (s.putLeaf l x).csr = s.csr := rfl
@[simp] theorem State.putLeaf_sv (l : Nat) (x : Leaf) : (s.putLeaf l x).sv = s.sv := rfl
@[simp] theorem State.putLeaf_tiers (l : Nat) (x : Leaf) : (s.putLeaf l x).tiers = s.tiers := rfl
@[simp] theorem State.putLeaf_pw (l : Nat) (x : Leaf) : (s.putLeaf l x).pw = s.pw := rfl
@[simp] theorem State.putLeaf_mg (l : Nat) (x : Leaf) : (s.putLeaf l x).mg = s.mg := rfl
@[simp] theorem State.putLeaf_db (l : Nat) (x : Leaf) : (s.putLeaf l x).db = s.db := rfl
@[simp] theorem State.putLeaf_ur (l : Nat) (x : Leaf) : (s.putLeaf l x).ur = s.ur := rfl
@[simp] theorem State.putLeaf_cnt (l : Nat) (x : Leaf) : (s.putLeaf l x).cnt = s.cnt := rfl
@[simp] theorem State.putLeaf_page (l : Nat) (x : Leaf) : (s.putLeaf l x).page = s.page := rfl
@[simp] theorem State.putLeaf_out (l : Nat) (x : Leaf) : (s.putLeaf l x).out = s.out := rfl
@[simp] theorem State.putLeaf_poisonLog (l : Nat) (x : Leaf) : (s.putLeaf l x).poisonLog = s.poisonLog := rfl
@[simp] theorem State.putLeaf_packets (l : Nat) (x : Leaf) : (s.putLeaf l x).packets = s.packets := rfl
@[simp] theorem State.putLeaf_nextPacket (l : Nat) (x : Leaf) : (s.putLeaf l x).nextPacket = s.nextPacket := rfl
@[simp] theorem State.putLeaf_pending (l : Nat) (x : Leaf) : (s.putLeaf l x).pending = s.pending := rfl
@[simp] theorem State.putLeaf_reg (l : Nat) (x : Leaf) (o' : Nat) : (s.putLeaf l x).reg o' = s.reg o' := rfl
@[simp] theorem State.putLeaf_rf (l : Nat) (x : Leaf) (o' hi' lo' : Nat) : (s.putLeaf l x).rf o' hi' lo' = s.rf o' hi' lo' := rfl
@[simp] theorem State.putLeaf_rbit (l : Nat) (x : Leaf) (o' i' : Nat) : (s.putLeaf l x).rbit o' i' = s.rbit o' i' := rfl
@[simp] theorem State.putLeaf_frozen (l : Nat) (x : Leaf) : (s.putLeaf l x).frozen = s.frozen := rfl
@[simp] theorem State.putLeaf_memByte (l : Nat) (x : Leaf) (k' : Nat) : (s.putLeaf l x).memByte k' = s.memByte k' := rfl
@[simp] theorem State.putLeaf_memRead (l : Nat) (x : Leaf) (k' n' : Nat) : (s.putLeaf l x).memRead k' n' = s.memRead k' n' := rfl
@[simp] theorem State.putLeaf_branch (l : Nat) (x : Leaf) (b' : Nat) : (s.putLeaf l x).branch b' = s.branch b' := rfl
@[simp] theorem State.putLeaf_nBranches (l : Nat) (x : Leaf) : (s.putLeaf l x).nBranches = s.nBranches := rfl
@[simp] theorem State.putLeaf_nLeaves (l : Nat) (x : Leaf) : (s.putLeaf l x).nLeaves = s.nLeaves := rfl
@[simp] theorem State.putLeaf_nStacks (l : Nat) (x : Leaf) : (s.putLeaf l x).nStacks = s.nStacks := rfl

/-! ### modLeaf -/

@[simp] theorem State.modLeaf_part (l : Nat) (f : Leaf → Leaf) : (s.modLeaf l f).part = s.part := rfl
@[simp] theorem State.modLeaf_now (l : Nat) (f : Leaf → Leaf) : (s.modLeaf l f).now = s.now := rfl
@[simp] theorem State.modLeaf_free (l : Nat) (f : Leaf → Leaf) : (s.modLeaf l f).free = s.free := rfl
@[simp] theorem State.modLeaf_mem (l : Nat) (f : Leaf → Leaf) : (s.modLeaf l f).mem = s.mem := rfl
@[simp] theorem State.modLeaf_leaves (l : Nat) (f : Leaf → Leaf) : (s.modLeaf l f).leaves = tset Leaf.empty s.leaves l (f (s.leaf l)) := rfl
@[simp] theorem State.modLeaf_branches (l : Nat) (f : Leaf → Leaf) : (s.modLeaf l f).branches = s.branches := rfl
@[simp] theorem State.modLeaf_csr (l : Nat) (f : Leaf → Leaf) : (s.modLeaf l f).csr = s.csr := rfl
@[simp] theorem State.modLeaf_sv (l : Nat) (f : Leaf → Leaf) : (s.modLeaf l f).sv = s.sv := rfl
@[simp] theorem State.modLeaf_tiers (l : Nat) (f : Leaf → Leaf) : (s.modLeaf l f).tiers = s.tiers := rfl
@[simp] theorem State.modLeaf_pw (l : Nat) (f : Leaf → Leaf) : (s.modLeaf l f).pw = s.pw := rfl
@[simp] theorem State.modLeaf_mg (l : Nat) (f : Leaf → Leaf) : (s.modLeaf l f).mg = s.mg := rfl
@[simp] theorem State.modLeaf_db (l : Nat) (f : Leaf → Leaf) : (s.modLeaf l f).db = s.db := rfl
@[simp] theorem State.modLeaf_ur (l : Nat) (f : Leaf → Leaf) : (s.modLeaf l f).ur = s.ur := rfl
@[simp] theorem State.modLeaf_cnt (l : Nat) (f : Leaf → Leaf) : (s.modLeaf l f).cnt = s.cnt := rfl
@[simp] theorem State.modLeaf_page (l : Nat) (f : Leaf → Leaf) : (s.modLeaf l f).page = s.page := rfl
@[simp] theorem State.modLeaf_out (l : Nat) (f : Leaf → Leaf) : (s.modLeaf l f).out = s.out := rfl
@[simp] theorem State.modLeaf_poisonLog (l : Nat) (f : Leaf → Leaf) : (s.modLeaf l f).poisonLog = s.poisonLog := rfl
@[simp] theorem State.modLeaf_packets (l : Nat) (f : Leaf → Leaf) : (s.modLeaf l f).packets = s.packets := rfl
@[simp] theorem State.modLeaf_nextPacket (l : Nat) (f : Leaf → Leaf) : (s.modLeaf l f).nextPacket = s.nextPacket := rfl
@[simp] theorem State.modLeaf_pending (l : Nat) (f : Leaf → Leaf) : (s.modLeaf l f).pending = s.pending := rfl
@[simp] theorem State.modLeaf_reg (l : Nat) (f : Leaf → Leaf) (o' : Nat) : (s.modLeaf l f).reg o' = s.reg o' := rfl
@[simp] theorem State.modLeaf_rf (l : Nat) (f : Leaf → Leaf) (o' hi' lo' : Nat) : (s.modLeaf l f).rf o' hi' lo' = s.rf o' hi' lo' := rfl
@[simp] theorem State.modLeaf_rbit (l : Nat) (f : Leaf → Leaf) (o' i' : Nat) : (s.modLeaf l f).rbit o' i' = s.rbit o' i' := rfl
@[simp] theorem State.modLeaf_frozen (l : Nat) (f : Leaf → Leaf) : (s.modLeaf l f).frozen = s.frozen := rfl
@[simp] theorem State.modLeaf_memByte (l : Nat) (f : Leaf → Leaf) (k' : Nat) : (s.modLeaf l f).memByte k' = s.memByte k' := rfl
@[simp] theorem State.modLeaf_memRead (l : Nat) (f : Leaf → Leaf) (k' n' : Nat) : (s.modLeaf l f).memRead k' n' = s.memRead k' n' := rfl
@[simp] theorem State.modLeaf_branch (l : Nat) (f : Leaf → Leaf) (b' : Nat) : (s.modLeaf l f).branch b' = s.branch b' := rfl
@[simp] theorem State.modLeaf_nBranches (l : Nat) (f : Leaf → Leaf) : (s.modLeaf l f).nBranches = s.nBranches := rfl
@[simp] theorem State.modLeaf_nLeaves (l : Nat) (f : Leaf → Leaf) : (s.modLeaf l f).nLeaves = s.nLeaves := rfl
@[simp] theorem State.modLeaf_nStacks (l : Nat) (f : Leaf → Leaf) : (s.modLeaf l f).nStacks = s.nStacks := rfl

/-! ### putBranch -/

@[simp] theorem State.putBranch_part (b : Nat) (x : Branch) : (s.putBranch b x).part = s.part := rfl
@[simp] theorem State.putBranch_now (b : Nat) (x : Branch) : (s.putBranch b x).now = s.now := rfl
@[simp] theorem State.putBranch_free (b : Nat) (x : Branch) : (s.putBranch b x).free = s.free := rfl
@[simp] theorem State.putBranch_mem (b : Nat) (x : Branch) : (s.putBranch b x).mem = s.mem := rfl
@[simp] theorem State.putBranch_leaves (b : Nat) (x : Branch) : (s.putBranch b x).leaves = s.leaves := rfl
@[simp] theorem State.putBranch_branches (b : Nat) (x : Branch) : (s.putBranch b x).branches = tset Branch.empty s.branches b x := rfl
@[simp] theorem State.putBranch_csr (b : Nat) (x : Branch) : (s.putBranch b x).csr = s.csr := rfl
@[simp] theorem State.putBranch_sv (b : Nat) (x : Branch) : (s.putBranch b x).sv = s.sv := rfl
@[simp] theorem State.putBranch_tiers (b : Nat) (x : Branch) : (s.putBranch b x).tiers = s.tiers := rfl
@[simp] theorem State.putBranch_pw (b : Nat) (x : Branch) : (s.putBranch b x).pw = s.pw := rfl
@[simp] theorem State.putBranch_mg (b : Nat) (x : Branch) : (s.putBranch b x).mg = s.mg := rfl
@[simp] theorem State.putBranch_db (b : Nat) (x : Branch) : (s.putBranch b x).db = s.db := rfl
@[simp] theorem State.putBranch_ur (b : Nat) (x : Branch) : (s.putBranch b x).ur = s.ur := rfl
@[simp] theorem State.putBranch_cnt (b : Nat) (x : Branch) : (s.putBranch b x).cnt = s.cnt := rfl
@[simp] theorem State.putBranch_page (b : Nat) (x : Branch) : (s.putBranch b x).page = s.page := rfl
@[simp] theorem State.putBranch_out (b : Nat) (x : Branch) : (s.putBranch b x).out = s.out := rfl
@[simp] theorem State.putBranch_poisonLog (b : Nat) (x : Branch) : (s.putBranch b x).poisonLog = s.poisonLog := rfl
@[simp] theorem State.putBranch_packets (b : Nat) (x : Branch) : (s.putBranch b x).packets = s.packets := rfl
@[simp] theorem State.putBranch_nextPacket (b : Nat) (x : Branch) : (s.putBranch b x).nextPacket = s.nextPacket := rfl
@[simp] theorem State.putBranch_pending (b : Nat) (x : Branch) : (s.putBranch b x).pending = s.pending := rfl
@[simp] theorem State.putBranch_reg (b : Nat) (x : Branch) (o' : Nat) : (s.putBranch b x).reg o' = s.reg o' := rfl
@[simp] theorem State.putBranch_rf (b : Nat) (x : Branch) (o' hi' lo' : Nat) : (s.putBranch b x).rf o' hi' lo' = s.rf o' hi' lo' := rfl
@[simp] theorem State.putBranch_rbit (b : Nat) (x : Branch) (o' i' : Nat) : (s.putBranch b x).rbit o' i' = s.rbit o' i' := rfl
@[simp] theorem State.putBranch_frozen (b : Nat) (x : Branch) : (s.putBranch b x).frozen = s.frozen := rfl
@[simp] theorem State.putBranch_memByte (b : Nat) (x : Branch) (k' : Nat) : (s.putBranch b x).memByte k' = s.memByte k' := rfl
@[simp] theorem State.putBranch_memRead (b : Nat) (x : Branch) (k' n' : Nat) : (s.putBranch b x).memRead k' n' = s.memRead k' n' := rfl
@[simp] theorem State.putBranch_leaf (b : Nat) (x : Branch) (l' : Nat) : (s.putBranch b x).leaf l' = s.leaf l' := rfl
@[simp] theorem State.putBranch_nBranches (b : Nat) (x : Branch) : (s.putBranch b x).nBranches = s.nBranches := rfl
@[simp] theorem State.putBranch_nLeaves (b : Nat) (x : Branch) : (s.putBranch b x).nLeaves = s.nLeaves := rfl
@[simp] theorem State.putBranch_nStacks (b : Nat) (x : Branch) : (s.putBranch b x).nStacks = s.nStacks := rfl

/-! ### modBranch -/

@[simp] theorem State.modBranch_part (b : Nat) (f : Branch → Branch) : (s.modBranch b f).part = s.part := rfl
@[simp] theorem State.modBranch_now (b : Nat) (f : Branch → Branch) : (s.modBranch b f).now = s.now := rfl
@[simp] theorem State.modBranch_free (b : Nat) (f : Branch → Branch) : (s.modBranch b f).free = s.free := rfl
@[simp] theorem State.modBranch_mem (b : Nat) (f : Branch → Branch) : (s.modBranch b f).mem = s.mem := rfl
@[simp] theorem State.modBranch_leaves (b : Nat) (f : Branch → Branch) : (s.modBranch b f).leaves = s.leaves := rfl
@[simp] theorem State.modBranch_branches (b : Nat) (f : Branch → Branch) : (s.modBranch b f).branches = tset Branch.empty s.branches b (f (s.branch b)) := rfl
@[simp] theorem State.modBranch_csr (b : Nat) (f : Branch → Branch) : (s.modBranch b f).csr = s.csr := rfl
@[simp] theorem State.modBranch_sv (b : Nat) (f : Branch → Branch) : (s.modBranch b f).sv = s.sv := rfl
@[simp] theorem State.modBranch_tiers (b : Nat) (f : Branch → Branch) : (s.modBranch b f).tiers = s.tiers := rfl
@[simp] theorem State.modBranch_pw (b : Nat) (f : Branch → Branch) : (s.modBranch b f).pw = s.pw := rfl
@[simp] theorem State.modBranch_mg (b : Nat) (f : Branch → Branch) : (s.modBranch b f).mg = s.mg := rfl
@[simp] theorem State.modBranch_db (b : Nat) (f : Branch → Branch) : (s.modBranch b f).db = s.db := rfl
@[simp] theorem State.modBranch_ur (b : Nat) (f : Branch → Branch) : (s.modBranch b f).ur = s.ur := rfl
@[simp] theorem State.modBranch_cnt (b : Nat) (f : Branch → Branch) : (s.modBranch b f).cnt = s.cnt := rfl
@[simp] theorem State.modBranch_page (b : Nat) (f : Branch → Branch) : (s.modBranch b f).page = s.page := rfl
@[simp] theorem State.modBranch_out (b : Nat) (f : Branch → Branch) : (s.modBranch b f).out = s.out := rfl
@[simp] theorem State.modBranch_poisonLog (b : Nat) (f : Branch → Branch) : (s.modBranch b f).poisonLog = s.poisonLog := rfl
@[simp] theorem State.modBranch_packets (b : Nat) (f : Branch → Branch) : (s.modBranch b f).packets = s.packets := rfl
@[simp] theorem State.modBranch_nextPacket (b : Nat) (f : Branch → Branch) : (s.modBranch b f).nextPacket = s.nextPacket := rfl
@[simp] theorem State.modBranch_pending (b : Nat) (f : Branch → Branch) : (s.modBranch b f).pending = s.pending := rfl
@[simp] theorem State.modBranch_reg (b : Nat) (f : Branch → Branch) (o' : Nat) : (s.modBranch b f).reg o' = s.reg o' := rfl
@[simp] theorem State.modBranch_rf (b : Nat) (f : Branch → Branch) (o' hi' lo' : Nat) : (s.modBranch b f).rf o' hi' lo' = s.rf o' hi' lo' := rfl
@[simp] theorem State.modBranch_rbit (b : Nat) (f : Branch → Branch) (o' i' : Nat) : (s.modBranch b f).rbit o' i' = s.rbit o' i' := rfl
@[simp] theorem State.modBranch_frozen (b : Nat) (f : Branch → Branch) : (s.modBranch b f).frozen = s.frozen := rfl
@[simp] theorem State.modBranch_memByte (b : Nat) (f : Branch → Branch) (k' : Nat) : (s.modBranch b f).memByte k' = s.memByte k' := rfl
@[simp] theorem State.modBranch_memRead (b : Nat) (f : Branch → Branch) (k' n' : Nat) : (s.modBranch b f).memRead k' n' = s.memRead k' n' := rfl
@[simp] theorem State.modBranch_leaf (b : Nat) (f : Branch → Branch) (l' : Nat) : (s.modBranch b f).leaf l' = s.leaf l' := rfl
@[simp] theorem State.modBranch_nBranches (b : Nat) (f : Branch → Branch) : (s.modBranch b f).nBranches = s.nBranches := rfl
@[simp] theorem State.modBranch_nLeaves (b : Nat) (f : Branch → Branch) : (s.modBranch b f).nLeaves = s.nLeaves := rfl
@[simp] theorem State.modBranch_nStacks (b : Nat) (f : Branch → Branch) : (s.modBranch b f).nStacks = s.nStacks := rfl

/-! ### putReg -/

@[simp] theorem State.putReg_part (o v : Nat) : (s.putReg o v).part = s.part := rfl
@[simp] theorem State.putReg_now (o v : Nat) : (s.putReg o v).now = s.now := rfl
@[simp] theorem State.putReg_free (o v : Nat) : (s.putReg o v).free = s.free := rfl
@[simp] theorem State.putReg_mem (o v : Nat) : (s.putReg o v).mem = s.mem := rfl
@[simp] theorem State.putReg_leaves (o v : Nat) : (s.putReg o v).leaves = s.leaves := rfl
@[simp] theorem State.putReg_branches (o v : Nat) : (s.putReg o v).branches = s.branches := rfl
@[simp] theorem State.putReg_csr (o v : Nat) : (s.putReg o v).csr = tset none s.csr o (if v = regReset o then none else some v) := rfl
@[simp] theorem State.putReg_sv (o v : Nat) : (s.putReg o v).sv = s.sv := rfl
@[simp] theorem State.putReg_tiers (o v : Nat) : (s.putReg o v).tiers = s.tiers := rfl
@[simp] theorem State.putReg_pw (o v : Nat) : (s.putReg o v).pw = s.pw := rfl
@[simp] theorem State.putReg_mg (o v : Nat) : (s.putReg o v).mg = s.mg := rfl
@[simp] theorem State.putReg_db (o v : Nat) : (s.putReg o v).db = s.db := rfl
@[simp] theorem State.putReg_ur (o v : Nat) : (s.putReg o v).ur = s.ur := rfl
@[simp] theorem State.putReg_cnt (o v : Nat) : (s.putReg o v).cnt = s.cnt := rfl
@[simp] theorem State.putReg_page (o v : Nat) : (s.putReg o v).page = s.page := rfl
@[simp] theorem State.putReg_out (o v : Nat) : (s.putReg o v).out = s.out := rfl
@[simp] theorem State.putReg_poisonLog (o v : Nat) : (s.putReg o v).poisonLog = s.poisonLog := rfl
@[simp] theorem State.putReg_packets (o v : Nat) : (s.putReg o v).packets = s.packets := rfl
@[simp] theorem State.putReg_nextPacket (o v : Nat) : (s.putReg o v).nextPacket = s.nextPacket := rfl
@[simp] theorem State.putReg_pending (o v : Nat) : (s.putReg o v).pending = s.pending := rfl
@[simp] theorem State.putReg_memByte (o v : Nat) (k' : Nat) : (s.putReg o v).memByte k' = s.memByte k' := rfl
@[simp] theorem State.putReg_memRead (o v : Nat) (k' n' : Nat) : (s.putReg o v).memRead k' n' = s.memRead k' n' := rfl
@[simp] theorem State.putReg_leaf (o v : Nat) (l' : Nat) : (s.putReg o v).leaf l' = s.leaf l' := rfl
@[simp] theorem State.putReg_branch (o v : Nat) (b' : Nat) : (s.putReg o v).branch b' = s.branch b' := rfl
@[simp] theorem State.putReg_nBranches (o v : Nat) : (s.putReg o v).nBranches = s.nBranches := rfl
@[simp] theorem State.putReg_nLeaves (o v : Nat) : (s.putReg o v).nLeaves = s.nLeaves := rfl
@[simp] theorem State.putReg_nStacks (o v : Nat) : (s.putReg o v).nStacks = s.nStacks := rfl

/-! ### wf -/

@[simp] theorem State.wf_part (o hi lo v : Nat) : (s.wf o hi lo v).part = s.part := rfl
@[simp] theorem State.wf_now (o hi lo v : Nat) : (s.wf o hi lo v).now = s.now := rfl
@[simp] theorem State.wf_free (o hi lo v : Nat) : (s.wf o hi lo v).free = s.free := rfl
@[simp] theorem State.wf_mem (o hi lo v : Nat) : (s.wf o hi lo v).mem = s.mem := rfl
@[simp] theorem State.wf_leaves (o hi lo v : Nat) : (s.wf o hi lo v).leaves = s.leaves := rfl
@[simp] theorem State.wf_branches (o hi lo v : Nat) : (s.wf o hi lo v).branches = s.branches := rfl
@[simp] theorem State.wf_csr (o hi lo v : Nat) : (s.wf o hi lo v).csr = (s.putReg o (setFld (s.reg o) hi lo v)).csr := rfl
@[simp] theorem State.wf_sv (o hi lo v : Nat) : (s.wf o hi lo v).sv = s.sv := rfl
@[simp] theorem State.wf_tiers (o hi lo v : Nat) : (s.wf o hi lo v).tiers = s.tiers := rfl
@[simp] theorem State.wf_pw (o hi lo v : Nat) : (s.wf o hi lo v).pw = s.pw := rfl
@[simp] theorem State.wf_mg (o hi lo v : Nat) : (s.wf o hi lo v).mg = s.mg := rfl
@[simp] theorem State.wf_db (o hi lo v : Nat) : (s.wf o hi lo v).db = s.db := rfl
@[simp] theorem State.wf_ur (o hi lo v : Nat) : (s.wf o hi lo v).ur = s.ur := rfl
@[simp] theorem State.wf_cnt (o hi lo v : Nat) : (s.wf o hi lo v).cnt = s.cnt := rfl
@[simp] theorem State.wf_page (o hi lo v : Nat) : (s.wf o hi lo v).page = s.page := rfl
@[simp] theorem State.wf_out (o hi lo v : Nat) : (s.wf o hi lo v).out = s.out := rfl
@[simp] theorem State.wf_poisonLog (o hi lo v : Nat) : (s.wf o hi lo v).poisonLog = s.poisonLog := rfl
@[simp] theorem State.wf_packets (o hi lo v : Nat) : (s.wf o hi lo v).packets = s.packets := rfl
@[simp] theorem State.wf_nextPacket (o hi lo v : Nat) : (s.wf o hi lo v).nextPacket = s.nextPacket := rfl
@[simp] theorem State.wf_pending (o hi lo v : Nat) : (s.wf o hi lo v).pending = s.pending := rfl
@[simp] theorem State.wf_memByte (o hi lo v : Nat) (k' : Nat) : (s.wf o hi lo v).memByte k' = s.memByte k' := rfl
@[simp] theorem State.wf_memRead (o hi lo v : Nat) (k' n' : Nat) : (s.wf o hi lo v).memRead k' n' = s.memRead k' n' := rfl
@[simp] theorem State.wf_leaf (o hi lo v : Nat) (l' : Nat) : (s.wf o hi lo v).leaf l' = s.leaf l' := rfl
@[simp] theorem State.wf_branch (o hi lo v : Nat) (b' : Nat) : (s.wf o hi lo v).branch b' = s.branch b' := rfl
@[simp] theorem State.wf_nBranches (o hi lo v : Nat) : (s.wf o hi lo v).nBranches = s.nBranches := rfl
@[simp] theorem State.wf_nLeaves (o hi lo v : Nat) : (s.wf o hi lo v).nLeaves = s.nLeaves := rfl
@[simp] theorem State.wf_nStacks (o hi lo v : Nat) : (s.wf o hi lo v).nStacks = s.nStacks := rfl

/-! ### wbit -/

@[simp] theorem State.wbit_part (o i : Nat) (b : Bool) : (s.wbit o i b).part = s.part := rfl
@[simp] theorem State.wbit_now (o i : Nat) (b : Bool) : (s.wbit o i b).now = s.now := rfl
@[simp] theorem State.wbit_free (o i : Nat) (b : Bool) : (s.wbit o i b).free = s.free := rfl
@[simp] theorem State.wbit_mem (o i : Nat) (b : Bool) : (s.wbit o i b).mem = s.mem := rfl
@[simp] theorem State.wbit_leaves (o i : Nat) (b : Bool) : (s.wbit o i b).leaves = s.leaves := rfl
@[simp] theorem State.wbit_branches (o i : Nat) (b : Bool) : (s.wbit o i b).branches = s.branches := rfl
@[simp] theorem State.wbit_csr (o i : Nat) (b : Bool) : (s.wbit o i b).csr = (s.wf o i i (if b then 1 else 0)).csr := rfl
@[simp] theorem State.wbit_sv (o i : Nat) (b : Bool) : (s.wbit o i b).sv = s.sv := rfl
@[simp] theorem State.wbit_tiers (o i : Nat) (b : Bool) : (s.wbit o i b).tiers = s.tiers := rfl
@[simp] theorem State.wbit_pw (o i : Nat) (b : Bool) : (s.wbit o i b).pw = s.pw := rfl
@[simp] theorem State.wbit_mg (o i : Nat) (b : Bool) : (s.wbit o i b).mg = s.mg := rfl
@[simp] theorem State.wbit_db (o i : Nat) (b : Bool) : (s.wbit o i b).db = s.db := rfl
@[simp] theorem State.wbit_ur (o i : Nat) (b : Bool) : (s.wbit o i b).ur = s.ur := rfl
@[simp] theorem State.wbit_cnt (o i : Nat) (b : Bool) : (s.wbit o i b).cnt = s.cnt := rfl
@[simp] theorem State.wbit_page (o i : Nat) (b : Bool) : (s.wbit o i b).page = s.page := rfl
@[simp] theorem State.wbit_out (o i : Nat) (b : Bool) : (s.wbit o i b).out = s.out := rfl
@[simp] theorem State.wbit_poisonLog (o i : Nat) (b : Bool) : (s.wbit o i b).poisonLog = s.poisonLog := rfl
@[simp] theorem State.wbit_packets (o i : Nat) (b : Bool) : (s.wbit o i b).packets = s.packets := rfl
@[simp] theorem State.wbit_nextPacket (o i : Nat) (b : Bool) : (s.wbit o i b).nextPacket = s.nextPacket := rfl
@[simp] theorem State.wbit_pending (o i : Nat) (b : Bool) : (s.wbit o i b).pending = s.pending := rfl
@[simp] theorem State.wbit_memByte (o i : Nat) (b : Bool) (k' : Nat) : (s.wbit o i b).memByte k' = s.memByte k' := rfl
@[simp] theorem State.wbit_memRead (o i : Nat) (b : Bool) (k' n' : Nat) : (s.wbit o i b).memRead k' n' = s.memRead k' n' := rfl
@[simp] theorem State.wbit_leaf (o i : Nat) (b : Bool) (l' : Nat) : (s.wbit o i b).leaf l' = s.leaf l' := rfl
@[simp] theorem State.wbit_branch (o i : Nat) (b : Bool) (b' : Nat) : (s.wbit o i b).branch b' = s.branch b' := rfl
@[simp] theorem State.wbit_nBranches (o i : Nat) (b : Bool) : (s.wbit o i b).nBranches = s.nBranches := rfl
@[simp] theorem State.wbit_nLeaves (o i : Nat) (b : Bool) : (s.wbit o i b).nLeaves = s.nLeaves := rfl
@[simp] theorem State.wbit_nStacks (o i : Nat) (b : Bool) : (s.wbit o i b).nStacks = s.nStacks := rfl

/-! ### bump -/

@[simp] theorem State.bump_part (o hi lo v : Nat) : (s.bump o hi lo v).part = s.part := rfl
@[simp] theorem State.bump_now (o hi lo v : Nat) : (s.bump o hi lo v).now = s.now := rfl
@[simp] theorem State.bump_free (o hi lo v : Nat) : (s.bump o hi lo v).free = s.free := rfl
@[simp] theorem State.bump_mem (o hi lo v : Nat) : (s.bump o hi lo v).mem = s.mem := rfl
@[simp] theorem State.bump_leaves (o hi lo v : Nat) : (s.bump o hi lo v).leaves = s.leaves := rfl
@[simp] theorem State.bump_branches (o hi lo v : Nat) : (s.bump o hi lo v).branches = s.branches := rfl
@[simp] theorem State.bump_csr (o hi lo v : Nat) : (s.bump o hi lo v).csr = (s.wf o hi lo (Nat.min (s.rf o hi lo + v) (2 ^ (hi - lo + 1) - 1))).csr := rfl
@[simp] theorem State.bump_sv (o hi lo v : Nat) : (s.bump o hi lo v).sv = s.sv := rfl
@[simp] theorem State.bump_tiers (o hi lo v : Nat) : (s.bump o hi lo v).tiers = s.tiers := rfl
@[simp] theorem State.bump_pw (o hi lo v : Nat) : (s.bump o hi lo v).pw = s.pw := rfl
@[simp] theorem State.bump_mg (o hi lo v : Nat) : (s.bump o hi lo v).mg = s.mg := rfl
@[simp] theorem State.bump_db (o hi lo v : Nat) : (s.bump o hi lo v).db = s.db := rfl
@[simp] theorem State.bump_ur (o hi lo v : Nat) : (s.bump o hi lo v).ur = s.ur := rfl
@[simp] theorem State.bump_cnt (o hi lo v : Nat) : (s.bump o hi lo v).cnt = s.cnt := rfl
@[simp] theorem State.bump_page (o hi lo v : Nat) : (s.bump o hi lo v).page = s.page := rfl
@[simp] theorem State.bump_out (o hi lo v : Nat) : (s.bump o hi lo v).out = s.out := rfl
@[simp] theorem State.bump_poisonLog (o hi lo v : Nat) : (s.bump o hi lo v).poisonLog = s.poisonLog := rfl
@[simp] theorem State.bump_packets (o hi lo v : Nat) : (s.bump o hi lo v).packets = s.packets := rfl
@[simp] theorem State.bump_nextPacket (o hi lo v : Nat) : (s.bump o hi lo v).nextPacket = s.nextPacket := rfl
@[simp] theorem State.bump_pending (o hi lo v : Nat) : (s.bump o hi lo v).pending = s.pending := rfl
@[simp] theorem State.bump_memByte (o hi lo v : Nat) (k' : Nat) : (s.bump o hi lo v).memByte k' = s.memByte k' := rfl
@[simp] theorem State.bump_memRead (o hi lo v : Nat) (k' n' : Nat) : (s.bump o hi lo v).memRead k' n' = s.memRead k' n' := rfl
@[simp] theorem State.bump_leaf (o hi lo v : Nat) (l' : Nat) : (s.bump o hi lo v).leaf l' = s.leaf l' := rfl
@[simp] theorem State.bump_branch (o hi lo v : Nat) (b' : Nat) : (s.bump o hi lo v).branch b' = s.branch b' := rfl
@[simp] theorem State.bump_nBranches (o hi lo v : Nat) : (s.bump o hi lo v).nBranches = s.nBranches := rfl
@[simp] theorem State.bump_nLeaves (o hi lo v : Nat) : (s.bump o hi lo v).nLeaves = s.nLeaves := rfl
@[simp] theorem State.bump_nStacks (o hi lo v : Nat) : (s.bump o hi lo v).nStacks = s.nStacks := rfl

/-! ### clearReg -/

@[simp] theorem State.clearReg_part (o : Nat) : (s.clearReg o).part = s.part := rfl
@[simp] theorem State.clearReg_now (o : Nat) : (s.clearReg o).now = s.now := rfl
@[simp] theorem State.clearReg_free (o : Nat) : (s.clearReg o).free = s.free := rfl
@[simp] theorem State.clearReg_mem (o : Nat) : (s.clearReg o).mem = s.mem := rfl
@[simp] theorem State.clearReg_leaves (o : Nat) : (s.clearReg o).leaves = s.leaves := rfl
@[simp] theorem State.clearReg_branches (o : Nat) : (s.clearReg o).branches = s.branches := rfl
@[simp] theorem State.clearReg_csr (o : Nat) : (s.clearReg o).csr = tset none s.csr o none := rfl
@[simp] theorem State.clearReg_sv (o : Nat) : (s.clearReg o).sv = s.sv := rfl
@[simp] theorem State.clearReg_tiers (o : Nat) : (s.clearReg o).tiers = s.tiers := rfl
@[simp] theorem State.clearReg_pw (o : Nat) : (s.clearReg o).pw = s.pw := rfl
@[simp] theorem State.clearReg_mg (o : Nat) : (s.clearReg o).mg = s.mg := rfl
@[simp] theorem State.clearReg_db (o : Nat) : (s.clearReg o).db = s.db := rfl
@[simp] theorem State.clearReg_ur (o : Nat) : (s.clearReg o).ur = s.ur := rfl
@[simp] theorem State.clearReg_cnt (o : Nat) : (s.clearReg o).cnt = s.cnt := rfl
@[simp] theorem State.clearReg_page (o : Nat) : (s.clearReg o).page = s.page := rfl
@[simp] theorem State.clearReg_out (o : Nat) : (s.clearReg o).out = s.out := rfl
@[simp] theorem State.clearReg_poisonLog (o : Nat) : (s.clearReg o).poisonLog = s.poisonLog := rfl
@[simp] theorem State.clearReg_packets (o : Nat) : (s.clearReg o).packets = s.packets := rfl
@[simp] theorem State.clearReg_nextPacket (o : Nat) : (s.clearReg o).nextPacket = s.nextPacket := rfl
@[simp] theorem State.clearReg_pending (o : Nat) : (s.clearReg o).pending = s.pending := rfl
@[simp] theorem State.clearReg_memByte (o : Nat) (k' : Nat) : (s.clearReg o).memByte k' = s.memByte k' := rfl
@[simp] theorem State.clearReg_memRead (o : Nat) (k' n' : Nat) : (s.clearReg o).memRead k' n' = s.memRead k' n' := rfl
@[simp] theorem State.clearReg_leaf (o : Nat) (l' : Nat) : (s.clearReg o).leaf l' = s.leaf l' := rfl
@[simp] theorem State.clearReg_branch (o : Nat) (b' : Nat) : (s.clearReg o).branch b' = s.branch b' := rfl
@[simp] theorem State.clearReg_nBranches (o : Nat) : (s.clearReg o).nBranches = s.nBranches := rfl
@[simp] theorem State.clearReg_nLeaves (o : Nat) : (s.clearReg o).nLeaves = s.nLeaves := rfl
@[simp] theorem State.clearReg_nStacks (o : Nat) : (s.clearReg o).nStacks = s.nStacks := rfl

/-! ### count -/

@[simp] theorem State.count_part (o v : Nat) : (s.count o v).part = s.part := rfl
@[simp] theorem State.count_now (o v : Nat) : (s.count o v).now = s.now := rfl
@[simp] theorem State.count_free (o v : Nat) : (s.count o v).free = s.free := rfl
@[simp] theorem State.count_mem (o v : Nat) : (s.count o v).mem = s.mem := rfl
@[simp] theorem State.count_leaves (o v : Nat) : (s.count o v).leaves = s.leaves := rfl
@[simp] theorem State.count_branches (o v : Nat) : (s.count o v).branches = s.branches := rfl
@[simp] theorem State.count_csr (o v : Nat) : (s.count o v).csr = s.csr := rfl
@[simp] theorem State.count_sv (o v : Nat) : (s.count o v).sv = s.sv := rfl
@[simp] theorem State.count_tiers (o v : Nat) : (s.count o v).tiers = s.tiers := rfl
@[simp] theorem State.count_pw (o v : Nat) : (s.count o v).pw = s.pw := rfl
@[simp] theorem State.count_mg (o v : Nat) : (s.count o v).mg = s.mg := rfl
@[simp] theorem State.count_db (o v : Nat) : (s.count o v).db = s.db := rfl
@[simp] theorem State.count_ur (o v : Nat) : (s.count o v).ur = s.ur := rfl
@[simp] theorem State.count_cnt (o v : Nat) : (s.count o v).cnt = tmod 0 s.cnt o (fun x => Nat.min (x + v) (2 ^ pageBits o - 1)) := rfl
@[simp] theorem State.count_page (o v : Nat) : (s.count o v).page = s.page := rfl
@[simp] theorem State.count_out (o v : Nat) : (s.count o v).out = s.out := rfl
@[simp] theorem State.count_poisonLog (o v : Nat) : (s.count o v).poisonLog = s.poisonLog := rfl
@[simp] theorem State.count_packets (o v : Nat) : (s.count o v).packets = s.packets := rfl
@[simp] theorem State.count_nextPacket (o v : Nat) : (s.count o v).nextPacket = s.nextPacket := rfl
@[simp] theorem State.count_pending (o v : Nat) : (s.count o v).pending = s.pending := rfl
@[simp] theorem State.count_reg (o v : Nat) (o' : Nat) : (s.count o v).reg o' = s.reg o' := rfl
@[simp] theorem State.count_rf (o v : Nat) (o' hi' lo' : Nat) : (s.count o v).rf o' hi' lo' = s.rf o' hi' lo' := rfl
@[simp] theorem State.count_rbit (o v : Nat) (o' i' : Nat) : (s.count o v).rbit o' i' = s.rbit o' i' := rfl
@[simp] theorem State.count_frozen (o v : Nat) : (s.count o v).frozen = s.frozen := rfl
@[simp] theorem State.count_memByte (o v : Nat) (k' : Nat) : (s.count o v).memByte k' = s.memByte k' := rfl
@[simp] theorem State.count_memRead (o v : Nat) (k' n' : Nat) : (s.count o v).memRead k' n' = s.memRead k' n' := rfl
@[simp] theorem State.count_leaf (o v : Nat) (l' : Nat) : (s.count o v).leaf l' = s.leaf l' := rfl
@[simp] theorem State.count_branch (o v : Nat) (b' : Nat) : (s.count o v).branch b' = s.branch b' := rfl
@[simp] theorem State.count_nBranches (o v : Nat) : (s.count o v).nBranches = s.nBranches := rfl
@[simp] theorem State.count_nLeaves (o v : Nat) : (s.count o v).nLeaves = s.nLeaves := rfl
@[simp] theorem State.count_nStacks (o v : Nat) : (s.count o v).nStacks = s.nStacks := rfl

/-! ### emit -/

@[simp] theorem State.emit_part (o : Output) : (s.emit o).part = s.part := rfl
@[simp] theorem State.emit_now (o : Output) : (s.emit o).now = s.now := rfl
@[simp] theorem State.emit_free (o : Output) : (s.emit o).free = s.free := rfl
@[simp] theorem State.emit_mem (o : Output) : (s.emit o).mem = s.mem := rfl
@[simp] theorem State.emit_leaves (o : Output) : (s.emit o).leaves = s.leaves := rfl
@[simp] theorem State.emit_branches (o : Output) : (s.emit o).branches = s.branches := rfl
@[simp] theorem State.emit_csr (o : Output) : (s.emit o).csr = s.csr := rfl
@[simp] theorem State.emit_sv (o : Output) : (s.emit o).sv = s.sv := rfl
@[simp] theorem State.emit_tiers (o : Output) : (s.emit o).tiers = s.tiers := rfl
@[simp] theorem State.emit_pw (o : Output) : (s.emit o).pw = s.pw := rfl
@[simp] theorem State.emit_mg (o : Output) : (s.emit o).mg = s.mg := rfl
@[simp] theorem State.emit_db (o : Output) : (s.emit o).db = s.db := rfl
@[simp] theorem State.emit_ur (o : Output) : (s.emit o).ur = s.ur := rfl
@[simp] theorem State.emit_cnt (o : Output) : (s.emit o).cnt = s.cnt := rfl
@[simp] theorem State.emit_page (o : Output) : (s.emit o).page = s.page := rfl
@[simp] theorem State.emit_out (o : Output) : (s.emit o).out = s.out ++ [o] := rfl
@[simp] theorem State.emit_poisonLog (o : Output) : (s.emit o).poisonLog = s.poisonLog := rfl
@[simp] theorem State.emit_packets (o : Output) : (s.emit o).packets = s.packets := rfl
@[simp] theorem State.emit_nextPacket (o : Output) : (s.emit o).nextPacket = s.nextPacket := rfl
@[simp] theorem State.emit_pending (o : Output) : (s.emit o).pending = s.pending := rfl
@[simp] theorem State.emit_reg (o : Output) (o' : Nat) : (s.emit o).reg o' = s.reg o' := rfl
@[simp] theorem State.emit_rf (o : Output) (o' hi' lo' : Nat) : (s.emit o).rf o' hi' lo' = s.rf o' hi' lo' := rfl
@[simp] theorem State.emit_rbit (o : Output) (o' i' : Nat) : (s.emit o).rbit o' i' = s.rbit o' i' := rfl
@[simp] theorem State.emit_frozen (o : Output) : (s.emit o).frozen = s.frozen := rfl
@[simp] theorem State.emit_memByte (o : Output) (k' : Nat) : (s.emit o).memByte k' = s.memByte k' := rfl
@[simp] theorem State.emit_memRead (o : Output) (k' n' : Nat) : (s.emit o).memRead k' n' = s.memRead k' n' := rfl
@[simp] theorem State.emit_leaf (o : Output) (l' : Nat) : (s.emit o).leaf l' = s.leaf l' := rfl
@[simp] theorem State.emit_branch (o : Output) (b' : Nat) : (s.emit o).branch b' = s.branch b' := rfl
@[simp] theorem State.emit_nBranches (o : Output) : (s.emit o).nBranches = s.nBranches := rfl
@[simp] theorem State.emit_nLeaves (o : Output) : (s.emit o).nLeaves = s.nLeaves := rfl
@[simp] theorem State.emit_nStacks (o : Output) : (s.emit o).nStacks = s.nStacks := rfl

/-! ### reportPoison -/

@[simp] theorem State.reportPoison_part (b m i : Nat) (r : Byte) (q : Option Nat) (a : Nat) : (s.reportPoison b m i r q a).part = s.part := rfl
@[simp] theorem State.reportPoison_now (b m i : Nat) (r : Byte) (q : Option Nat) (a : Nat) : (s.reportPoison b m i r q a).now = s.now := rfl
@[simp] theorem State.reportPoison_free (b m i : Nat) (r : Byte) (q : Option Nat) (a : Nat) : (s.reportPoison b m i r q a).free = s.free := rfl
@[simp] theorem State.reportPoison_mem (b m i : Nat) (r : Byte) (q : Option Nat) (a : Nat) : (s.reportPoison b m i r q a).mem = s.mem := rfl
@[simp] theorem State.reportPoison_leaves (b m i : Nat) (r : Byte) (q : Option Nat) (a : Nat) : (s.reportPoison b m i r q a).leaves = s.leaves := rfl
@[simp] theorem State.reportPoison_branches (b m i : Nat) (r : Byte) (q : Option Nat) (a : Nat) : (s.reportPoison b m i r q a).branches = s.branches := rfl
@[simp] theorem State.reportPoison_csr (b m i : Nat) (r : Byte) (q : Option Nat) (a : Nat) : (s.reportPoison b m i r q a).csr = s.csr := rfl
@[simp] theorem State.reportPoison_sv (b m i : Nat) (r : Byte) (q : Option Nat) (a : Nat) : (s.reportPoison b m i r q a).sv = s.sv := rfl
@[simp] theorem State.reportPoison_tiers (b m i : Nat) (r : Byte) (q : Option Nat) (a : Nat) : (s.reportPoison b m i r q a).tiers = s.tiers := rfl
@[simp] theorem State.reportPoison_pw (b m i : Nat) (r : Byte) (q : Option Nat) (a : Nat) : (s.reportPoison b m i r q a).pw = s.pw := rfl
@[simp] theorem State.reportPoison_mg (b m i : Nat) (r : Byte) (q : Option Nat) (a : Nat) : (s.reportPoison b m i r q a).mg = s.mg := rfl
@[simp] theorem State.reportPoison_db (b m i : Nat) (r : Byte) (q : Option Nat) (a : Nat) : (s.reportPoison b m i r q a).db = s.db := rfl
@[simp] theorem State.reportPoison_ur (b m i : Nat) (r : Byte) (q : Option Nat) (a : Nat) : (s.reportPoison b m i r q a).ur = s.ur := rfl
@[simp] theorem State.reportPoison_cnt (b m i : Nat) (r : Byte) (q : Option Nat) (a : Nat) : (s.reportPoison b m i r q a).cnt = s.cnt := rfl
@[simp] theorem State.reportPoison_page (b m i : Nat) (r : Byte) (q : Option Nat) (a : Nat) : (s.reportPoison b m i r q a).page = s.page := rfl
@[simp] theorem State.reportPoison_out (b m i : Nat) (r : Byte) (q : Option Nat) (a : Nat) : (s.reportPoison b m i r q a).out = s.out := rfl
@[simp] theorem State.reportPoison_poisonLog (b m i : Nat) (r : Byte) (q : Option Nat) (a : Nat) : (s.reportPoison b m i r q a).poisonLog = s.poisonLog ++ [⟨s.now, b, m, i, r, q, a⟩] := rfl
@[simp] theorem State.reportPoison_packets (b m i : Nat) (r : Byte) (q : Option Nat) (a : Nat) : (s.reportPoison b m i r q a).packets = s.packets := rfl
@[simp] theorem State.reportPoison_nextPacket (b m i : Nat) (r : Byte) (q : Option Nat) (a : Nat) : (s.reportPoison b m i r q a).nextPacket = s.nextPacket := rfl
@[simp] theorem State.reportPoison_pending (b m i : Nat) (r : Byte) (q : Option Nat) (a : Nat) : (s.reportPoison b m i r q a).pending = s.pending := rfl
@[simp] theorem State.reportPoison_reg (b m i : Nat) (r : Byte) (q : Option Nat) (a : Nat) (o' : Nat) : (s.reportPoison b m i r q a).reg o' = s.reg o' := rfl
@[simp] theorem State.reportPoison_rf (b m i : Nat) (r : Byte) (q : Option Nat) (a : Nat) (o' hi' lo' : Nat) : (s.reportPoison b m i r q a).rf o' hi' lo' = s.rf o' hi' lo' := rfl
@[simp] theorem State.reportPoison_rbit (b m i : Nat) (r : Byte) (q : Option Nat) (a : Nat) (o' i' : Nat) : (s.reportPoison b m i r q a).rbit o' i' = s.rbit o' i' := rfl
@[simp] theorem State.reportPoison_frozen (b m i : Nat) (r : Byte) (q : Option Nat) (a : Nat) : (s.reportPoison b m i r q a).frozen = s.frozen := rfl
@[simp] theorem State.reportPoison_memByte (b m i : Nat) (r : Byte) (q : Option Nat) (a : Nat) (k' : Nat) : (s.reportPoison b m i r q a).memByte k' = s.memByte k' := rfl
@[simp] theorem State.reportPoison_memRead (b m i : Nat) (r : Byte) (q : Option Nat) (a : Nat) (k' n' : Nat) : (s.reportPoison b m i r q a).memRead k' n' = s.memRead k' n' := rfl
@[simp] theorem State.reportPoison_leaf (b m i : Nat) (r : Byte) (q : Option Nat) (a : Nat) (l' : Nat) : (s.reportPoison b m i r q a).leaf l' = s.leaf l' := rfl
@[simp] theorem State.reportPoison_branch (b m i : Nat) (r : Byte) (q : Option Nat) (a : Nat) (b' : Nat) : (s.reportPoison b m i r q a).branch b' = s.branch b' := rfl
@[simp] theorem State.reportPoison_nBranches (b m i : Nat) (r : Byte) (q : Option Nat) (a : Nat) : (s.reportPoison b m i r q a).nBranches = s.nBranches := rfl
@[simp] theorem State.reportPoison_nLeaves (b m i : Nat) (r : Byte) (q : Option Nat) (a : Nat) : (s.reportPoison b m i r q a).nLeaves = s.nLeaves := rfl
@[simp] theorem State.reportPoison_nStacks (b m i : Nat) (r : Byte) (q : Option Nat) (a : Nat) : (s.reportPoison b m i r q a).nStacks = s.nStacks := rfl

/-! ### modSv -/

@[simp] theorem State.modSv_part (f : Serving → Serving) : (s.modSv f).part = s.part := rfl
@[simp] theorem State.modSv_now (f : Serving → Serving) : (s.modSv f).now = s.now := rfl
@[simp] theorem State.modSv_free (f : Serving → Serving) : (s.modSv f).free = s.free := rfl
@[simp] theorem State.modSv_mem (f : Serving → Serving) : (s.modSv f).mem = s.mem := rfl
@[simp] theorem State.modSv_leaves (f : Serving → Serving) : (s.modSv f).leaves = s.leaves := rfl
@[simp] theorem State.modSv_branches (f : Serving → Serving) : (s.modSv f).branches = s.branches := rfl
@[simp] theorem State.modSv_csr (f : Serving → Serving) : (s.modSv f).csr = s.csr := rfl
@[simp] theorem State.modSv_sv (f : Serving → Serving) : (s.modSv f).sv = f s.sv := rfl
@[simp] theorem State.modSv_tiers (f : Serving → Serving) : (s.modSv f).tiers = s.tiers := rfl
@[simp] theorem State.modSv_pw (f : Serving → Serving) : (s.modSv f).pw = s.pw := rfl
@[simp] theorem State.modSv_mg (f : Serving → Serving) : (s.modSv f).mg = s.mg := rfl
@[simp] theorem State.modSv_db (f : Serving → Serving) : (s.modSv f).db = s.db := rfl
@[simp] theorem State.modSv_ur (f : Serving → Serving) : (s.modSv f).ur = s.ur := rfl
@[simp] theorem State.modSv_cnt (f : Serving → Serving) : (s.modSv f).cnt = s.cnt := rfl
@[simp] theorem State.modSv_page (f : Serving → Serving) : (s.modSv f).page = s.page := rfl
@[simp] theorem State.modSv_out (f : Serving → Serving) : (s.modSv f).out = s.out := rfl
@[simp] theorem State.modSv_poisonLog (f : Serving → Serving) : (s.modSv f).poisonLog = s.poisonLog := rfl
@[simp] theorem State.modSv_packets (f : Serving → Serving) : (s.modSv f).packets = s.packets := rfl
@[simp] theorem State.modSv_nextPacket (f : Serving → Serving) : (s.modSv f).nextPacket = s.nextPacket := rfl
@[simp] theorem State.modSv_pending (f : Serving → Serving) : (s.modSv f).pending = s.pending := rfl
@[simp] theorem State.modSv_reg (f : Serving → Serving) (o' : Nat) : (s.modSv f).reg o' = s.reg o' := rfl
@[simp] theorem State.modSv_rf (f : Serving → Serving) (o' hi' lo' : Nat) : (s.modSv f).rf o' hi' lo' = s.rf o' hi' lo' := rfl
@[simp] theorem State.modSv_rbit (f : Serving → Serving) (o' i' : Nat) : (s.modSv f).rbit o' i' = s.rbit o' i' := rfl
@[simp] theorem State.modSv_frozen (f : Serving → Serving) : (s.modSv f).frozen = s.frozen := rfl
@[simp] theorem State.modSv_memByte (f : Serving → Serving) (k' : Nat) : (s.modSv f).memByte k' = s.memByte k' := rfl
@[simp] theorem State.modSv_memRead (f : Serving → Serving) (k' n' : Nat) : (s.modSv f).memRead k' n' = s.memRead k' n' := rfl
@[simp] theorem State.modSv_leaf (f : Serving → Serving) (l' : Nat) : (s.modSv f).leaf l' = s.leaf l' := rfl
@[simp] theorem State.modSv_branch (f : Serving → Serving) (b' : Nat) : (s.modSv f).branch b' = s.branch b' := rfl
@[simp] theorem State.modSv_nBranches (f : Serving → Serving) : (s.modSv f).nBranches = s.nBranches := rfl
@[simp] theorem State.modSv_nLeaves (f : Serving → Serving) : (s.modSv f).nLeaves = s.nLeaves := rfl
@[simp] theorem State.modSv_nStacks (f : Serving → Serving) : (s.modSv f).nStacks = s.nStacks := rfl

/-! ### modUr -/

@[simp] theorem State.modUr_part (f : Urren → Urren) : (s.modUr f).part = s.part := rfl
@[simp] theorem State.modUr_now (f : Urren → Urren) : (s.modUr f).now = s.now := rfl
@[simp] theorem State.modUr_free (f : Urren → Urren) : (s.modUr f).free = s.free := rfl
@[simp] theorem State.modUr_mem (f : Urren → Urren) : (s.modUr f).mem = s.mem := rfl
@[simp] theorem State.modUr_leaves (f : Urren → Urren) : (s.modUr f).leaves = s.leaves := rfl
@[simp] theorem State.modUr_branches (f : Urren → Urren) : (s.modUr f).branches = s.branches := rfl
@[simp] theorem State.modUr_csr (f : Urren → Urren) : (s.modUr f).csr = s.csr := rfl
@[simp] theorem State.modUr_sv (f : Urren → Urren) : (s.modUr f).sv = s.sv := rfl
@[simp] theorem State.modUr_tiers (f : Urren → Urren) : (s.modUr f).tiers = s.tiers := rfl
@[simp] theorem State.modUr_pw (f : Urren → Urren) : (s.modUr f).pw = s.pw := rfl
@[simp] theorem State.modUr_mg (f : Urren → Urren) : (s.modUr f).mg = s.mg := rfl
@[simp] theorem State.modUr_db (f : Urren → Urren) : (s.modUr f).db = s.db := rfl
@[simp] theorem State.modUr_ur (f : Urren → Urren) : (s.modUr f).ur = f s.ur := rfl
@[simp] theorem State.modUr_cnt (f : Urren → Urren) : (s.modUr f).cnt = s.cnt := rfl
@[simp] theorem State.modUr_page (f : Urren → Urren) : (s.modUr f).page = s.page := rfl
@[simp] theorem State.modUr_out (f : Urren → Urren) : (s.modUr f).out = s.out := rfl
@[simp] theorem State.modUr_poisonLog (f : Urren → Urren) : (s.modUr f).poisonLog = s.poisonLog := rfl
@[simp] theorem State.modUr_packets (f : Urren → Urren) : (s.modUr f).packets = s.packets := rfl
@[simp] theorem State.modUr_nextPacket (f : Urren → Urren) : (s.modUr f).nextPacket = s.nextPacket := rfl
@[simp] theorem State.modUr_pending (f : Urren → Urren) : (s.modUr f).pending = s.pending := rfl
@[simp] theorem State.modUr_reg (f : Urren → Urren) (o' : Nat) : (s.modUr f).reg o' = s.reg o' := rfl
@[simp] theorem State.modUr_rf (f : Urren → Urren) (o' hi' lo' : Nat) : (s.modUr f).rf o' hi' lo' = s.rf o' hi' lo' := rfl
@[simp] theorem State.modUr_rbit (f : Urren → Urren) (o' i' : Nat) : (s.modUr f).rbit o' i' = s.rbit o' i' := rfl
@[simp] theorem State.modUr_frozen (f : Urren → Urren) : (s.modUr f).frozen = s.frozen := rfl
@[simp] theorem State.modUr_memByte (f : Urren → Urren) (k' : Nat) : (s.modUr f).memByte k' = s.memByte k' := rfl
@[simp] theorem State.modUr_memRead (f : Urren → Urren) (k' n' : Nat) : (s.modUr f).memRead k' n' = s.memRead k' n' := rfl
@[simp] theorem State.modUr_leaf (f : Urren → Urren) (l' : Nat) : (s.modUr f).leaf l' = s.leaf l' := rfl
@[simp] theorem State.modUr_branch (f : Urren → Urren) (b' : Nat) : (s.modUr f).branch b' = s.branch b' := rfl
@[simp] theorem State.modUr_nBranches (f : Urren → Urren) : (s.modUr f).nBranches = s.nBranches := rfl
@[simp] theorem State.modUr_nLeaves (f : Urren → Urren) : (s.modUr f).nLeaves = s.nLeaves := rfl
@[simp] theorem State.modUr_nStacks (f : Urren → Urren) : (s.modUr f).nStacks = s.nStacks := rfl

/-! ### modPw -/

@[simp] theorem State.modPw_part (f : Power → Power) : (s.modPw f).part = s.part := rfl
@[simp] theorem State.modPw_now (f : Power → Power) : (s.modPw f).now = s.now := rfl
@[simp] theorem State.modPw_free (f : Power → Power) : (s.modPw f).free = s.free := rfl
@[simp] theorem State.modPw_mem (f : Power → Power) : (s.modPw f).mem = s.mem := rfl
@[simp] theorem State.modPw_leaves (f : Power → Power) : (s.modPw f).leaves = s.leaves := rfl
@[simp] theorem State.modPw_branches (f : Power → Power) : (s.modPw f).branches = s.branches := rfl
@[simp] theorem State.modPw_csr (f : Power → Power) : (s.modPw f).csr = s.csr := rfl
@[simp] theorem State.modPw_sv (f : Power → Power) : (s.modPw f).sv = s.sv := rfl
@[simp] theorem State.modPw_tiers (f : Power → Power) : (s.modPw f).tiers = s.tiers := rfl
@[simp] theorem State.modPw_pw (f : Power → Power) : (s.modPw f).pw = f s.pw := rfl
@[simp] theorem State.modPw_mg (f : Power → Power) : (s.modPw f).mg = s.mg := rfl
@[simp] theorem State.modPw_db (f : Power → Power) : (s.modPw f).db = s.db := rfl
@[simp] theorem State.modPw_ur (f : Power → Power) : (s.modPw f).ur = s.ur := rfl
@[simp] theorem State.modPw_cnt (f : Power → Power) : (s.modPw f).cnt = s.cnt := rfl
@[simp] theorem State.modPw_page (f : Power → Power) : (s.modPw f).page = s.page := rfl
@[simp] theorem State.modPw_out (f : Power → Power) : (s.modPw f).out = s.out := rfl
@[simp] theorem State.modPw_poisonLog (f : Power → Power) : (s.modPw f).poisonLog = s.poisonLog := rfl
@[simp] theorem State.modPw_packets (f : Power → Power) : (s.modPw f).packets = s.packets := rfl
@[simp] theorem State.modPw_nextPacket (f : Power → Power) : (s.modPw f).nextPacket = s.nextPacket := rfl
@[simp] theorem State.modPw_pending (f : Power → Power) : (s.modPw f).pending = s.pending := rfl
@[simp] theorem State.modPw_reg (f : Power → Power) (o' : Nat) : (s.modPw f).reg o' = s.reg o' := rfl
@[simp] theorem State.modPw_rf (f : Power → Power) (o' hi' lo' : Nat) : (s.modPw f).rf o' hi' lo' = s.rf o' hi' lo' := rfl
@[simp] theorem State.modPw_rbit (f : Power → Power) (o' i' : Nat) : (s.modPw f).rbit o' i' = s.rbit o' i' := rfl
@[simp] theorem State.modPw_frozen (f : Power → Power) : (s.modPw f).frozen = s.frozen := rfl
@[simp] theorem State.modPw_memByte (f : Power → Power) (k' : Nat) : (s.modPw f).memByte k' = s.memByte k' := rfl
@[simp] theorem State.modPw_memRead (f : Power → Power) (k' n' : Nat) : (s.modPw f).memRead k' n' = s.memRead k' n' := rfl
@[simp] theorem State.modPw_leaf (f : Power → Power) (l' : Nat) : (s.modPw f).leaf l' = s.leaf l' := rfl
@[simp] theorem State.modPw_branch (f : Power → Power) (b' : Nat) : (s.modPw f).branch b' = s.branch b' := rfl
@[simp] theorem State.modPw_nBranches (f : Power → Power) : (s.modPw f).nBranches = s.nBranches := rfl
@[simp] theorem State.modPw_nLeaves (f : Power → Power) : (s.modPw f).nLeaves = s.nLeaves := rfl
@[simp] theorem State.modPw_nStacks (f : Power → Power) : (s.modPw f).nStacks = s.nStacks := rfl

/-! ### modMg -/

@[simp] theorem State.modMg_part (f : Mgmt → Mgmt) : (s.modMg f).part = s.part := rfl
@[simp] theorem State.modMg_now (f : Mgmt → Mgmt) : (s.modMg f).now = s.now := rfl
@[simp] theorem State.modMg_free (f : Mgmt → Mgmt) : (s.modMg f).free = s.free := rfl
@[simp] theorem State.modMg_mem (f : Mgmt → Mgmt) : (s.modMg f).mem = s.mem := rfl
@[simp] theorem State.modMg_leaves (f : Mgmt → Mgmt) : (s.modMg f).leaves = s.leaves := rfl
@[simp] theorem State.modMg_branches (f : Mgmt → Mgmt) : (s.modMg f).branches = s.branches := rfl
@[simp] theorem State.modMg_csr (f : Mgmt → Mgmt) : (s.modMg f).csr = s.csr := rfl
@[simp] theorem State.modMg_sv (f : Mgmt → Mgmt) : (s.modMg f).sv = s.sv := rfl
@[simp] theorem State.modMg_tiers (f : Mgmt → Mgmt) : (s.modMg f).tiers = s.tiers := rfl
@[simp] theorem State.modMg_pw (f : Mgmt → Mgmt) : (s.modMg f).pw = s.pw := rfl
@[simp] theorem State.modMg_mg (f : Mgmt → Mgmt) : (s.modMg f).mg = f s.mg := rfl
@[simp] theorem State.modMg_db (f : Mgmt → Mgmt) : (s.modMg f).db = s.db := rfl
@[simp] theorem State.modMg_ur (f : Mgmt → Mgmt) : (s.modMg f).ur = s.ur := rfl
@[simp] theorem State.modMg_cnt (f : Mgmt → Mgmt) : (s.modMg f).cnt = s.cnt := rfl
@[simp] theorem State.modMg_page (f : Mgmt → Mgmt) : (s.modMg f).page = s.page := rfl
@[simp] theorem State.modMg_out (f : Mgmt → Mgmt) : (s.modMg f).out = s.out := rfl
@[simp] theorem State.modMg_poisonLog (f : Mgmt → Mgmt) : (s.modMg f).poisonLog = s.poisonLog := rfl
@[simp] theorem State.modMg_packets (f : Mgmt → Mgmt) : (s.modMg f).packets = s.packets := rfl
@[simp] theorem State.modMg_nextPacket (f : Mgmt → Mgmt) : (s.modMg f).nextPacket = s.nextPacket := rfl
@[simp] theorem State.modMg_pending (f : Mgmt → Mgmt) : (s.modMg f).pending = s.pending := rfl
@[simp] theorem State.modMg_reg (f : Mgmt → Mgmt) (o' : Nat) : (s.modMg f).reg o' = s.reg o' := rfl
@[simp] theorem State.modMg_rf (f : Mgmt → Mgmt) (o' hi' lo' : Nat) : (s.modMg f).rf o' hi' lo' = s.rf o' hi' lo' := rfl
@[simp] theorem State.modMg_rbit (f : Mgmt → Mgmt) (o' i' : Nat) : (s.modMg f).rbit o' i' = s.rbit o' i' := rfl
@[simp] theorem State.modMg_frozen (f : Mgmt → Mgmt) : (s.modMg f).frozen = s.frozen := rfl
@[simp] theorem State.modMg_memByte (f : Mgmt → Mgmt) (k' : Nat) : (s.modMg f).memByte k' = s.memByte k' := rfl
@[simp] theorem State.modMg_memRead (f : Mgmt → Mgmt) (k' n' : Nat) : (s.modMg f).memRead k' n' = s.memRead k' n' := rfl
@[simp] theorem State.modMg_leaf (f : Mgmt → Mgmt) (l' : Nat) : (s.modMg f).leaf l' = s.leaf l' := rfl
@[simp] theorem State.modMg_branch (f : Mgmt → Mgmt) (b' : Nat) : (s.modMg f).branch b' = s.branch b' := rfl
@[simp] theorem State.modMg_nBranches (f : Mgmt → Mgmt) : (s.modMg f).nBranches = s.nBranches := rfl
@[simp] theorem State.modMg_nLeaves (f : Mgmt → Mgmt) : (s.modMg f).nLeaves = s.nLeaves := rfl
@[simp] theorem State.modMg_nStacks (f : Mgmt → Mgmt) : (s.modMg f).nStacks = s.nStacks := rfl

/-! ### modDb -/

@[simp] theorem State.modDb_part (f : Debug → Debug) : (s.modDb f).part = s.part := rfl
@[simp] theorem State.modDb_now (f : Debug → Debug) : (s.modDb f).now = s.now := rfl
@[simp] theorem State.modDb_free (f : Debug → Debug) : (s.modDb f).free = s.free := rfl
@[simp] theorem State.modDb_mem (f : Debug → Debug) : (s.modDb f).mem = s.mem := rfl
@[simp] theorem State.modDb_leaves (f : Debug → Debug) : (s.modDb f).leaves = s.leaves := rfl
@[simp] theorem State.modDb_branches (f : Debug → Debug) : (s.modDb f).branches = s.branches := rfl
@[simp] theorem State.modDb_csr (f : Debug → Debug) : (s.modDb f).csr = s.csr := rfl
@[simp] theorem State.modDb_sv (f : Debug → Debug) : (s.modDb f).sv = s.sv := rfl
@[simp] theorem State.modDb_tiers (f : Debug → Debug) : (s.modDb f).tiers = s.tiers := rfl
@[simp] theorem State.modDb_pw (f : Debug → Debug) : (s.modDb f).pw = s.pw := rfl
@[simp] theorem State.modDb_mg (f : Debug → Debug) : (s.modDb f).mg = s.mg := rfl
@[simp] theorem State.modDb_db (f : Debug → Debug) : (s.modDb f).db = f s.db := rfl
@[simp] theorem State.modDb_ur (f : Debug → Debug) : (s.modDb f).ur = s.ur := rfl
@[simp] theorem State.modDb_cnt (f : Debug → Debug) : (s.modDb f).cnt = s.cnt := rfl
@[simp] theorem State.modDb_page (f : Debug → Debug) : (s.modDb f).page = s.page := rfl
@[simp] theorem State.modDb_out (f : Debug → Debug) : (s.modDb f).out = s.out := rfl
@[simp] theorem State.modDb_poisonLog (f : Debug → Debug) : (s.modDb f).poisonLog = s.poisonLog := rfl
@[simp] theorem State.modDb_packets (f : Debug → Debug) : (s.modDb f).packets = s.packets := rfl
@[simp] theorem State.modDb_nextPacket (f : Debug → Debug) : (s.modDb f).nextPacket = s.nextPacket := rfl
@[simp] theorem State.modDb_pending (f : Debug → Debug) : (s.modDb f).pending = s.pending := rfl
@[simp] theorem State.modDb_reg (f : Debug → Debug) (o' : Nat) : (s.modDb f).reg o' = s.reg o' := rfl
@[simp] theorem State.modDb_rf (f : Debug → Debug) (o' hi' lo' : Nat) : (s.modDb f).rf o' hi' lo' = s.rf o' hi' lo' := rfl
@[simp] theorem State.modDb_rbit (f : Debug → Debug) (o' i' : Nat) : (s.modDb f).rbit o' i' = s.rbit o' i' := rfl
@[simp] theorem State.modDb_frozen (f : Debug → Debug) : (s.modDb f).frozen = s.frozen := rfl
@[simp] theorem State.modDb_memByte (f : Debug → Debug) (k' : Nat) : (s.modDb f).memByte k' = s.memByte k' := rfl
@[simp] theorem State.modDb_memRead (f : Debug → Debug) (k' n' : Nat) : (s.modDb f).memRead k' n' = s.memRead k' n' := rfl
@[simp] theorem State.modDb_leaf (f : Debug → Debug) (l' : Nat) : (s.modDb f).leaf l' = s.leaf l' := rfl
@[simp] theorem State.modDb_branch (f : Debug → Debug) (b' : Nat) : (s.modDb f).branch b' = s.branch b' := rfl
@[simp] theorem State.modDb_nBranches (f : Debug → Debug) : (s.modDb f).nBranches = s.nBranches := rfl
@[simp] theorem State.modDb_nLeaves (f : Debug → Debug) : (s.modDb f).nLeaves = s.nLeaves := rfl
@[simp] theorem State.modDb_nStacks (f : Debug → Debug) : (s.modDb f).nStacks = s.nStacks := rfl

/-! ### modTiers -/

@[simp] theorem State.modTiers_part (f : Tiers → Tiers) : (s.modTiers f).part = s.part := rfl
@[simp] theorem State.modTiers_now (f : Tiers → Tiers) : (s.modTiers f).now = s.now := rfl
@[simp] theorem State.modTiers_free (f : Tiers → Tiers) : (s.modTiers f).free = s.free := rfl
@[simp] theorem State.modTiers_mem (f : Tiers → Tiers) : (s.modTiers f).mem = s.mem := rfl
@[simp] theorem State.modTiers_leaves (f : Tiers → Tiers) : (s.modTiers f).leaves = s.leaves := rfl
@[simp] theorem State.modTiers_branches (f : Tiers → Tiers) : (s.modTiers f).branches = s.branches := rfl
@[simp] theorem State.modTiers_csr (f : Tiers → Tiers) : (s.modTiers f).csr = s.csr := rfl
@[simp] theorem State.modTiers_sv (f : Tiers → Tiers) : (s.modTiers f).sv = s.sv := rfl
@[simp] theorem State.modTiers_tiers (f : Tiers → Tiers) : (s.modTiers f).tiers = f s.tiers := rfl
@[simp] theorem State.modTiers_pw (f : Tiers → Tiers) : (s.modTiers f).pw = s.pw := rfl
@[simp] theorem State.modTiers_mg (f : Tiers → Tiers) : (s.modTiers f).mg = s.mg := rfl
@[simp] theorem State.modTiers_db (f : Tiers → Tiers) : (s.modTiers f).db = s.db := rfl
@[simp] theorem State.modTiers_ur (f : Tiers → Tiers) : (s.modTiers f).ur = s.ur := rfl
@[simp] theorem State.modTiers_cnt (f : Tiers → Tiers) : (s.modTiers f).cnt = s.cnt := rfl
@[simp] theorem State.modTiers_page (f : Tiers → Tiers) : (s.modTiers f).page = s.page := rfl
@[simp] theorem State.modTiers_out (f : Tiers → Tiers) : (s.modTiers f).out = s.out := rfl
@[simp] theorem State.modTiers_poisonLog (f : Tiers → Tiers) : (s.modTiers f).poisonLog = s.poisonLog := rfl
@[simp] theorem State.modTiers_packets (f : Tiers → Tiers) : (s.modTiers f).packets = s.packets := rfl
@[simp] theorem State.modTiers_nextPacket (f : Tiers → Tiers) : (s.modTiers f).nextPacket = s.nextPacket := rfl
@[simp] theorem State.modTiers_pending (f : Tiers → Tiers) : (s.modTiers f).pending = s.pending := rfl
@[simp] theorem State.modTiers_reg (f : Tiers → Tiers) (o' : Nat) : (s.modTiers f).reg o' = s.reg o' := rfl
@[simp] theorem State.modTiers_rf (f : Tiers → Tiers) (o' hi' lo' : Nat) : (s.modTiers f).rf o' hi' lo' = s.rf o' hi' lo' := rfl
@[simp] theorem State.modTiers_rbit (f : Tiers → Tiers) (o' i' : Nat) : (s.modTiers f).rbit o' i' = s.rbit o' i' := rfl
@[simp] theorem State.modTiers_frozen (f : Tiers → Tiers) : (s.modTiers f).frozen = s.frozen := rfl
@[simp] theorem State.modTiers_memByte (f : Tiers → Tiers) (k' : Nat) : (s.modTiers f).memByte k' = s.memByte k' := rfl
@[simp] theorem State.modTiers_memRead (f : Tiers → Tiers) (k' n' : Nat) : (s.modTiers f).memRead k' n' = s.memRead k' n' := rfl
@[simp] theorem State.modTiers_leaf (f : Tiers → Tiers) (l' : Nat) : (s.modTiers f).leaf l' = s.leaf l' := rfl
@[simp] theorem State.modTiers_branch (f : Tiers → Tiers) (b' : Nat) : (s.modTiers f).branch b' = s.branch b' := rfl
@[simp] theorem State.modTiers_nBranches (f : Tiers → Tiers) : (s.modTiers f).nBranches = s.nBranches := rfl
@[simp] theorem State.modTiers_nLeaves (f : Tiers → Tiers) : (s.modTiers f).nLeaves = s.nLeaves := rfl
@[simp] theorem State.modTiers_nStacks (f : Tiers → Tiers) : (s.modTiers f).nStacks = s.nStacks := rfl

/-! ### modFtl -/

@[simp] theorem State.modFtl_part (f : Ftl → Ftl) : (s.modFtl f).part = s.part := rfl
@[simp] theorem State.modFtl_now (f : Ftl → Ftl) : (s.modFtl f).now = s.now := rfl
@[simp] theorem State.modFtl_free (f : Ftl → Ftl) : (s.modFtl f).free = s.free := rfl
@[simp] theorem State.modFtl_mem (f : Ftl → Ftl) : (s.modFtl f).mem = s.mem := rfl
@[simp] theorem State.modFtl_leaves (f : Ftl → Ftl) : (s.modFtl f).leaves = s.leaves := rfl
@[simp] theorem State.modFtl_branches (f : Ftl → Ftl) : (s.modFtl f).branches = s.branches := rfl
@[simp] theorem State.modFtl_csr (f : Ftl → Ftl) : (s.modFtl f).csr = s.csr := rfl
@[simp] theorem State.modFtl_sv (f : Ftl → Ftl) : (s.modFtl f).sv = s.sv := rfl
@[simp] theorem State.modFtl_tiers (f : Ftl → Ftl) : (s.modFtl f).tiers = { s.tiers with ftl := f s.tiers.ftl } := rfl
@[simp] theorem State.modFtl_pw (f : Ftl → Ftl) : (s.modFtl f).pw = s.pw := rfl
@[simp] theorem State.modFtl_mg (f : Ftl → Ftl) : (s.modFtl f).mg = s.mg := rfl
@[simp] theorem State.modFtl_db (f : Ftl → Ftl) : (s.modFtl f).db = s.db := rfl
@[simp] theorem State.modFtl_ur (f : Ftl → Ftl) : (s.modFtl f).ur = s.ur := rfl
@[simp] theorem State.modFtl_cnt (f : Ftl → Ftl) : (s.modFtl f).cnt = s.cnt := rfl
@[simp] theorem State.modFtl_page (f : Ftl → Ftl) : (s.modFtl f).page = s.page := rfl
@[simp] theorem State.modFtl_out (f : Ftl → Ftl) : (s.modFtl f).out = s.out := rfl
@[simp] theorem State.modFtl_poisonLog (f : Ftl → Ftl) : (s.modFtl f).poisonLog = s.poisonLog := rfl
@[simp] theorem State.modFtl_packets (f : Ftl → Ftl) : (s.modFtl f).packets = s.packets := rfl
@[simp] theorem State.modFtl_nextPacket (f : Ftl → Ftl) : (s.modFtl f).nextPacket = s.nextPacket := rfl
@[simp] theorem State.modFtl_pending (f : Ftl → Ftl) : (s.modFtl f).pending = s.pending := rfl
@[simp] theorem State.modFtl_reg (f : Ftl → Ftl) (o' : Nat) : (s.modFtl f).reg o' = s.reg o' := rfl
@[simp] theorem State.modFtl_rf (f : Ftl → Ftl) (o' hi' lo' : Nat) : (s.modFtl f).rf o' hi' lo' = s.rf o' hi' lo' := rfl
@[simp] theorem State.modFtl_rbit (f : Ftl → Ftl) (o' i' : Nat) : (s.modFtl f).rbit o' i' = s.rbit o' i' := rfl
@[simp] theorem State.modFtl_frozen (f : Ftl → Ftl) : (s.modFtl f).frozen = s.frozen := rfl
@[simp] theorem State.modFtl_memByte (f : Ftl → Ftl) (k' : Nat) : (s.modFtl f).memByte k' = s.memByte k' := rfl
@[simp] theorem State.modFtl_memRead (f : Ftl → Ftl) (k' n' : Nat) : (s.modFtl f).memRead k' n' = s.memRead k' n' := rfl
@[simp] theorem State.modFtl_leaf (f : Ftl → Ftl) (l' : Nat) : (s.modFtl f).leaf l' = s.leaf l' := rfl
@[simp] theorem State.modFtl_branch (f : Ftl → Ftl) (b' : Nat) : (s.modFtl f).branch b' = s.branch b' := rfl
@[simp] theorem State.modFtl_nBranches (f : Ftl → Ftl) : (s.modFtl f).nBranches = s.nBranches := rfl
@[simp] theorem State.modFtl_nLeaves (f : Ftl → Ftl) : (s.modFtl f).nLeaves = s.nLeaves := rfl
@[simp] theorem State.modFtl_nStacks (f : Ftl → Ftl) : (s.modFtl f).nStacks = s.nStacks := rfl

/-! ### dequeue -/

@[simp] theorem State.dequeue_part : (s.dequeue).part = s.part := rfl
@[simp] theorem State.dequeue_now : (s.dequeue).now = s.now := rfl
@[simp] theorem State.dequeue_free : (s.dequeue).free = s.free := rfl
@[simp] theorem State.dequeue_mem : (s.dequeue).mem = s.mem := rfl
@[simp] theorem State.dequeue_leaves : (s.dequeue).leaves = s.leaves := rfl
@[simp] theorem State.dequeue_branches : (s.dequeue).branches = s.branches := rfl
@[simp] theorem State.dequeue_csr : (s.dequeue).csr = s.csr := rfl
@[simp] theorem State.dequeue_sv : (s.dequeue).sv = s.sv := rfl
@[simp] theorem State.dequeue_tiers : (s.dequeue).tiers = s.tiers := rfl
@[simp] theorem State.dequeue_pw : (s.dequeue).pw = s.pw := rfl
@[simp] theorem State.dequeue_mg : (s.dequeue).mg = s.mg := rfl
@[simp] theorem State.dequeue_db : (s.dequeue).db = s.db := rfl
@[simp] theorem State.dequeue_ur : (s.dequeue).ur = s.ur := rfl
@[simp] theorem State.dequeue_cnt : (s.dequeue).cnt = s.cnt := rfl
@[simp] theorem State.dequeue_page : (s.dequeue).page = s.page := rfl
@[simp] theorem State.dequeue_out : (s.dequeue).out = s.out := rfl
@[simp] theorem State.dequeue_poisonLog : (s.dequeue).poisonLog = s.poisonLog := rfl
@[simp] theorem State.dequeue_packets : (s.dequeue).packets = s.packets := rfl
@[simp] theorem State.dequeue_nextPacket : (s.dequeue).nextPacket = s.nextPacket := rfl
@[simp] theorem State.dequeue_pending : (s.dequeue).pending = s.pending.tail := rfl
@[simp] theorem State.dequeue_reg (o' : Nat) : (s.dequeue).reg o' = s.reg o' := rfl
@[simp] theorem State.dequeue_rf (o' hi' lo' : Nat) : (s.dequeue).rf o' hi' lo' = s.rf o' hi' lo' := rfl
@[simp] theorem State.dequeue_rbit (o' i' : Nat) : (s.dequeue).rbit o' i' = s.rbit o' i' := rfl
@[simp] theorem State.dequeue_frozen : (s.dequeue).frozen = s.frozen := rfl
@[simp] theorem State.dequeue_memByte (k' : Nat) : (s.dequeue).memByte k' = s.memByte k' := rfl
@[simp] theorem State.dequeue_memRead (k' n' : Nat) : (s.dequeue).memRead k' n' = s.memRead k' n' := rfl
@[simp] theorem State.dequeue_leaf (l' : Nat) : (s.dequeue).leaf l' = s.leaf l' := rfl
@[simp] theorem State.dequeue_branch (b' : Nat) : (s.dequeue).branch b' = s.branch b' := rfl
@[simp] theorem State.dequeue_nBranches : (s.dequeue).nBranches = s.nBranches := rfl
@[simp] theorem State.dequeue_nLeaves : (s.dequeue).nLeaves = s.nLeaves := rfl
@[simp] theorem State.dequeue_nStacks : (s.dequeue).nStacks = s.nStacks := rfl

end Sys2Proof.Machine
end

