-- ==== Sys2Proof/Laws/Ops.lean ====
section
/-! SUPPORT. Laws of the shared operations: list helpers, leaves and branches, repeated updates, records of the trace port, receipt of
admin messages, and memory operations. -/

namespace Sys2Proof.Machine

/-! ### List helpers -/

@[simp] theorem length_mapIf {α : Type} (p : α → Bool) (f : α → α) (l : List α) : (mapIf p f l).length = l.length := by simp [mapIf]
@[simp] theorem mapIf_nil {α : Type} (p : α → Bool) (f : α → α) : mapIf p f [] = [] := rfl
/-- An element of the mapped list is the image of an element that met the test, or an element that did not. -/
theorem mem_mapIf {α : Type} {p : α → Bool} {f : α → α} {l : List α} {y : α} :
    y ∈ mapIf p f l ↔ ∃ x ∈ l, y = if p x then f x else x := by
  simp only [mapIf, List.mem_map]
  exact ⟨fun ⟨x, h, e⟩ => ⟨x, h, e.symm⟩, fun ⟨x, h, e⟩ => ⟨x, h, e.symm⟩⟩
/-- A change that keeps a test's outcome changes what the test finds, and nothing else. -/
theorem find?_mapIf {α : Type} {p q : α → Bool} {f : α → α} (h : ∀ x, p x = true → q (f x) = q x) (l : List α) :
    (mapIf p f l).find? q = (l.find? q).map (fun x => if p x then f x else x) := by
  induction l with
  | nil => rfl
  | cons a l ih =>
    have e : q (if p a then f a else a) = q a := by
      cases hp : p a with
      | true => simp [h a hp]
      | false => simp
    simp only [mapIf, List.map_cons, List.find?_cons, e]
    cases q a with
    | true => simp
    | false => exact ih

theorem findIdx_none {α : Type} {p : α → Bool} {l : List α} {i : Nat} : findIdx p l i = none ↔ ∀ a ∈ l, p a = false := by
  induction l generalizing i with
  | nil => simp [findIdx]
  | cons a l ih =>
    unfold findIdx
    cases h : p a <;> simp [h, ih]
/-- What findIdx finds meets the test, stands at the index it gives, and nothing before it meets the test. -/
theorem findIdx_some {α : Type} {p : α → Bool} {l : List α} {i k : Nat} {a : α} (h : findIdx p l i = some (k, a)) :
    i ≤ k ∧ l[k - i]? = some a ∧ p a = true ∧ ∀ b ∈ l.take (k - i), p b = false := by
  induction l generalizing i with
  | nil => simp [findIdx] at h
  | cons x l ih =>
    unfold findIdx at h
    cases hx : p x with
    | true =>
      simp only [hx, if_true, Option.some.injEq, Prod.mk.injEq] at h
      obtain ⟨rfl, rfl⟩ := h
      simp [hx]
    | false =>
      simp only [hx, Bool.false_eq_true, if_false] at h
      obtain ⟨h1, h2, h3, h4⟩ := ih h
      have e : k - i = (k - (i + 1)) + 1 := by omega
      refine ⟨by omega, ?_, h3, ?_⟩
      · rw [e, List.getElem?_cons_succ]; exact h2
      · rw [e, List.take_succ_cons]
        intro b hb
        rcases List.mem_cons.1 hb with rfl | hb
        · exact hx
        · exact h4 b hb
theorem findIdx_eq_find? {α : Type} (p : α → Bool) (l : List α) (i : Nat) : (findIdx p l i).map (·.2) = l.find? p := by
  induction l generalizing i with
  | nil => rfl
  | cons a l ih =>
    unfold findIdx
    cases h : p a <;> simp [h, ih]

theorem minBy_mem {α : Type} {key : α → Nat} {l : List α} {a : α} (h : minBy key l = some a) : a ∈ l ∧ ∀ b ∈ l, key a ≤ key b := by
  induction l generalizing a with
  | nil => simp [minBy] at h
  | cons x l ih =>
    unfold minBy at h
    cases e : minBy key l with
    | none =>
      simp only [e, Option.some.injEq] at h
      subst h
      have : l = [] := by
        cases l with
        | nil => rfl
        | cons y l => exfalso; revert e; unfold minBy; cases minBy key l <;> simp only [] <;> first | (split <;> simp) | simp
      simp [this]
    | some b =>
      obtain ⟨h1, h2⟩ := ih e
      simp only [e] at h
      split at h <;> rename_i hk <;> simp only [Option.some.injEq] at h <;> subst h
      · refine ⟨by simp, fun c hc => ?_⟩
        rcases List.mem_cons.1 hc with rfl | hc
        · exact Nat.le_refl _
        · exact Nat.le_trans hk (h2 c hc)
      · refine ⟨by simp [h1], fun c hc => ?_⟩
        rcases List.mem_cons.1 hc with rfl | hc
        · omega
        · exact h2 c hc

/-! ### Repeated updates -/

@[simp] theorem State.each_nil {α : Type} (s : State) (f : State → α → State) : s.each [] f = s := rfl
@[simp] theorem State.each_cons {α : Type} (s : State) (a : α) (l : List α) (f : State → α → State) :
    s.each (a :: l) f = (f s a).each l f := rfl
/-- What every single update keeps, the whole keeps. -/
theorem State.each_keeps {α : Type} {P : State → Prop} {f : State → α → State} {l : List α} {s : State} (h0 : P s)
    (h : ∀ s a, a ∈ l → P s → P (f s a)) : P (s.each l f) := by
  induction l generalizing s with
  | nil => exact h0
  | cons a l ih => exact ih (h s a (by simp) h0) (fun s b hb => h s b (by simp [hb]))
/-- A view that no single update changes, the whole leaves unchanged. -/
theorem State.each_frame {α β : Type} {g : State → β} {f : State → α → State} (h : ∀ s a, g (f s a) = g s) (l : List α) (s : State) :
    g (s.each l f) = g s := by
  induction l generalizing s with
  | nil => rfl
  | cons a l ih => rw [State.each_cons, ih, h]
theorem State.foldl_frame {α β : Type} {g : State → β} {f : State → α → State} (h : ∀ s a, g (f s a) = g s) (l : List α) (s : State) :
    g (l.foldl f s) = g s := State.each_frame h l s

/-! ### Leaves and branches -/

@[simp] theorem State.leaf_modLeaf_same (s : State) (l : Nat) (f : Leaf → Leaf) : (s.modLeaf l f).leaf l = f (s.leaf l) := tget_tset_same _ _ _
theorem State.leaf_modLeaf_other (s : State) (l l' : Nat) (f : Leaf → Leaf) (h : l' ≠ l) : (s.modLeaf l f).leaf l' = s.leaf l' :=
  tget_tset_other _ h
@[simp] theorem State.branch_modBranch_same (s : State) (b : Nat) (f : Branch → Branch) : (s.modBranch b f).branch b = f (s.branch b) :=
  tget_tset_same _ _ _
theorem State.branch_modBranch_other (s : State) (b b' : Nat) (f : Branch → Branch) (h : b' ≠ b) :
    (s.modBranch b f).branch b' = s.branch b' := tget_tset_other _ h
theorem State.branch_modBranches_other (s : State) (bs : List Nat) (f : Branch → Branch) {b : Nat} (h : b ∉ bs) :
    (s.modBranches bs f).branch b = s.branch b := by
  unfold State.modBranches
  induction bs generalizing s with
  | nil => rfl
  | cons a bs ih =>
    simp only [List.mem_cons, not_or] at h
    rw [List.foldl_cons, ih _ h.2, State.branch_modBranch_other _ _ _ _ h.1]
/-- Every field of the state but the branches stays when branches change. -/
theorem State.modBranches_frame {β : Type} {g : State → β} (hg : ∀ s b f, g (State.modBranch s b f) = g s) (s : State) (bs : List Nat)
    (f : Branch → Branch) : g (s.modBranches bs f) = g s := State.foldl_frame (fun s b => hg s b f) bs s
/-- Every field of the state but the leaves stays when the leaves of a branch change. -/
theorem State.modLeavesOf_frame {β : Type} {g : State → β} (hg : ∀ s l f, g (State.modLeaf s l f) = g s) (s : State) (b : Nat)
    (f : Leaf → Leaf) : g (s.modLeavesOf b f) = g s := State.foldl_frame (fun s l => hg s l f) (branchLeaves b) s

/-! ### Registers -/

theorem rf_bump_same (s : State) (o hi lo x : Nat) :
    (s.bump o hi lo x).rf o hi lo = Nat.min (s.rf o hi lo + x) (2 ^ (hi - lo + 1) - 1) := by
  unfold State.bump
  rw [rf_wf_same, Nat.mod_eq_of_lt]
  have := Nat.two_pow_pos (hi - lo + 1)
  exact Nat.lt_of_le_of_lt (Nat.min_le_right _ _) (by omega)
theorem reg_wf_other (s : State) (o hi lo x o' : Nat) (h : o' ≠ o) : (s.wf o hi lo x).reg o' = s.reg o' := reg_putReg_other _ _ _ _ h
theorem reg_wbit_other (s : State) (o i o' : Nat) (b : Bool) (h : o' ≠ o) : (s.wbit o i b).reg o' = s.reg o' := reg_putReg_other _ _ _ _ h
theorem reg_bump_other (s : State) (o hi lo x o' : Nat) (h : o' ≠ o) : (s.bump o hi lo x).reg o' = s.reg o' := reg_putReg_other _ _ _ _ h
/-- A first event writes its two registers, or nothing. -/
theorem State.firstEvent_cases (s : State) (log tr v : Nat) :
    (s.rbit log 63 = true ∧ s.firstEvent log tr v = s) ∨
    (s.rbit log 63 = false ∧ s.firstEvent log tr v = (s.putReg log (2 ^ 63 + v)).putReg tr s.now) := by
  unfold State.firstEvent
  cases s.rbit log 63 <;> simp

/-! ### Trace records -/

/-- A record changes the debug island and the three trace registers alone. -/
theorem State.traceRec_only (s : State) (type time : Nat) (p : List Byte) :
    ∃ db csr, s.traceRec type time p = { s with db := db, csr := csr } ∧ db.dump = s.db.dump ∧ db.faults = s.db.faults ∧
      ∀ o, o ≠ Reg.trcSeq → o ≠ Reg.trcStatus → o ≠ Reg.trcLost → (s.traceRec type time p).reg o = s.reg o := by
  have push : ∀ (x : State) (ty tm : Nat) (q : List Byte), ∃ db csr, x.tracePush ty tm q = { x with db := db, csr := csr } ∧
      db.dump = x.db.dump ∧ db.faults = x.db.faults ∧ ∀ o, o ≠ Reg.trcSeq → o ≠ Reg.trcStatus → (x.tracePush ty tm q).reg o = x.reg o := by
    intro x ty tm q
    refine ⟨_, _, rfl, rfl, rfl, ?_⟩
    intro o h1 h2
    simp only [State.tracePush, State.traceFill]
    rw [reg_wf_other _ _ _ _ _ _ h2, reg_wf_other _ _ _ _ _ _ h1]; rfl
  have lose : ∀ x : State, ∃ db csr, x.traceLose = { x with db := db, csr := csr } ∧ db.dump = x.db.dump ∧ db.faults = x.db.faults ∧
      ∀ o, o ≠ Reg.trcLost → (x.traceLose).reg o = x.reg o := by
    intro x
    refine ⟨_, _, rfl, rfl, rfl, ?_⟩
    intro o h
    simp only [State.traceLose, State.modDb_reg]
    exact reg_bump_other _ _ _ _ _ _ h
  have lost : ∃ db csr, s.traceLost = { s with db := db, csr := csr } ∧ db.dump = s.db.dump ∧ db.faults = s.db.faults ∧
      ∀ o, o ≠ Reg.trcSeq → o ≠ Reg.trcStatus → (s.traceLost).reg o = s.reg o := by
    unfold State.traceLost
    split
    · obtain ⟨db, csr, h, h1, h2, h3⟩ := push s 7 s.now (leBytes 4 s.db.lost ++ leBytes 4 0)
      refine ⟨{ db with lost := 0 }, csr, ?_, h1, h2, ?_⟩
      · rw [h]; rfl
      · intro o a b; rw [State.modDb_reg]; exact h3 o a b
    · exact ⟨s.db, s.csr, rfl, rfl, rfl, fun _ _ _ => rfl⟩
  unfold State.traceRec
  split
  · exact ⟨s.db, s.csr, rfl, rfl, rfl, fun _ _ _ _ => rfl⟩
  · split
    · obtain ⟨db, csr, h, h1, h2, h3⟩ := lose s
      exact ⟨db, csr, h, h1, h2, fun o _ _ c => h3 o c⟩
    · obtain ⟨db, csr, h, h1, h2, h3⟩ := lost
      simp only []
      split
      · obtain ⟨db', csr', g, g1, g2, g3⟩ := push s.traceLost type time p
        refine ⟨db', csr', ?_, ?_, ?_, ?_⟩
        · rw [g, h]
        · rw [g1, h]; exact h1
        · rw [g2, h]; exact h2
        · intro o a b _; rw [g3 o a b, h3 o a b]
      · obtain ⟨db', csr', g, g1, g2, g3⟩ := lose s.traceLost
        refine ⟨db', csr', ?_, ?_, ?_, ?_⟩
        · rw [g, h]
        · rw [g1, h]; exact h1
        · rw [g2, h]; exact h2
        · intro o a b c; rw [g3 o c, h3 o a b]

/-! ### Admin messages -/

/-- Receipt of a message during a freeze that does not let its type run: it is held. -/
theorem State.receive_held (s : State) (src : Source) (route : AdminRoute) (m : List Byte) (who size : Nat) (ok : Bool)
    (work : State → Admin → State) (h : s.frozen = true) (r : runsFrozen (fieldLE m 0 2) = false) :
    s.receive src route m who size ok work = s.modDb (fun d => { d with heldAdmin := d.heldAdmin ++ [(src, route, m)] }) := by
  simp [State.receive, h, r]
/-- Receipt otherwise. -/
theorem State.receive_taken (s : State) (src : Source) (route : AdminRoute) (m : List Byte) (who size : Nat) (ok : Bool)
    (work : State → Admin → State) (h : s.frozen = false ∨ runsFrozen (fieldLE m 0 2) = true) :
    s.receive src route m who size ok work =
      (if (sourceStand src).isNone then s.leaveS2 4 0 else s).takeMsg src route m who size ok work := by
  rcases h with h | h <;> simp [State.receive, h]

/-! ### Memory -/

theorem memWf_filter (m : List Host.Cell) (p : Host.Cell → Bool) (w : Memory.wf m = true) : Memory.wf (m.filter p) = true := tabWf_filter _ w
/-- A write by one unit is noted by the commands of others that read the bytes; it changes leaves alone. -/
theorem State.noteOutside_only (s : State) (space off n : Nat) :
    s.noteOutside space off n = { s with leaves := (s.noteOutside space off n).leaves } := by
  unfold State.noteOutside
  by_cases h : space = 2 ∧ off % 0x2000000 < 0x1000000
  · rw [if_pos h]; unfold State.noteSeen; split <;> rfl
  · rw [if_neg h]
@[simp] theorem State.noteOutside_mem (s : State) (space off n : Nat) : (s.noteOutside space off n).mem = s.mem := by
  rw [State.noteOutside_only]
@[simp] theorem State.noteOutside_csr (s : State) (space off n : Nat) : (s.noteOutside space off n).csr = s.csr := by
  rw [State.noteOutside_only]
@[simp] theorem State.noteOutside_pending (s : State) (space off n : Nat) : (s.noteOutside space off n).pending = s.pending := by
  rw [State.noteOutside_only]
/-- Stored bytes stand in memory, every other byte stays, and no register changes. -/
@[simp] theorem State.store_mem (s : State) (space off : Nat) (bs : List Byte) :
    (s.store space off bs).mem = tsetAll 0 s.mem (memKey space off) bs := by
  unfold State.store
  simp only [State.memWrite_mem, State.noteOutside_mem]
@[simp] theorem State.store_csr (s : State) (space off : Nat) (bs : List Byte) : (s.store space off bs).csr = s.csr := by
  unfold State.store
  simp only [State.memWrite_csr, State.noteOutside_csr]
theorem memWf_store (s : State) (space off : Nat) (bs : List Byte) (w : Memory.wf s.mem = true) : Memory.wf (s.store space off bs).mem = true := by
  rw [State.store_mem]
  exact tabWf_tsetAll bs w
/-- Contents moved by a change of the stripe set are in canonical form whatever they were. -/
theorem memWf_rekeyWarm (lost p p' : Nat) (m : List Host.Cell) : Memory.wf (rekeyWarm lost p p' m) = true := by
  have key : ∀ (l t : List Host.Cell), Memory.wf t = true → Memory.wf (l.foldl (fun m e => match rekeyPlace lost p p' e.1 with
      | some k => tset 0 m k e.2 | none => m) t) = true := by
    intro l
    induction l with
    | nil => intro t w; exact w
    | cons a l ih =>
      intro t w
      simp only [List.foldl_cons]
      cases rekeyPlace lost p p' a.1 with
      | none => exact ih _ w
      | some k => exact ih _ (tabWf_tset _ (Nat.zero_le _) w)
  exact key m [] rfl
theorem memWf_objWrite (s : State) (o : PoolObj) (off : Nat) (bs : List Byte) (w : Memory.wf s.mem = true) :
    Memory.wf (s.objWrite o off bs).mem = true :=
  State.each_keeps (P := fun s => Memory.wf s.mem = true) w (fun _ _ _ h => memWf_store _ _ _ _ h)
/-- Memory right after reset is in canonical form, and lists nothing. -/
@[simp] theorem memWf_reset : Memory.wf State.reset.mem = true := rfl
@[simp] theorem reset_mem : State.reset.mem = [] := rfl

/-- The outputs of a request that did not end DONE keep memory in canonical form; nothing but memory and the counter of free choices
changes. -/
theorem memWf_undefine (s : State) (r : Request) (w : Memory.wf s.mem = true) : Memory.wf (s.undefine r).mem = true :=
  State.each_keeps (P := fun s => Memory.wf s.mem = true) w (fun s' _ _ h => memWf_write s' _ _ h)
theorem State.undefine_only (s : State) (r : Request) :
    s.undefine r = { s with mem := (s.undefine r).mem, free := (s.undefine r).free } := by
  unfold State.undefine State.each
  generalize r.wrote = l
  induction l generalizing s with
  | nil => rfl
  | cons _ t ih => exact ih _

end Sys2Proof.Machine
end

