-- ==== Sys2Proof/Laws/Leaf.lean ====
section
/-! SUPPORT. Laws of leaf code: what advancing the program counter, ending a pass and issuing an instruction can do. -/

namespace Sys2Proof.Machine

/-! ### Contexts and registers of one leaf -/

@[simp] theorem Leaf.ctx_modCtx (lf : Leaf) (f : Ctx → Ctx) : (lf.modCtx f).ctx = f lf.ctx := tget_tset_same _ _ _
@[simp] theorem Leaf.active_modCtx (lf : Leaf) (f : Ctx → Ctx) : (lf.modCtx f).active = lf.active := rfl
theorem Leaf.ctxAt_modCtx_other (lf : Leaf) (f : Ctx → Ctx) {c : Nat} (h : c ≠ lf.active) : (lf.modCtx f).ctxAt c = lf.ctxAt c :=
  tget_tset_other _ h
@[simp] theorem Leaf.ctxAt_active (lf : Leaf) : lf.ctxAt lf.active = lf.ctx := rfl

/-- What an instruction may not change besides the active context's registers: the other contexts, the sticky flags, vector registers,
accumulators and the command queue. -/
structure Leaf.Same (a b : Leaf) : Prop where
  active : b.active = a.active
  swReq : b.swReq = a.swReq
  ctxNext : b.ctxNext = a.ctxNext
  others : ∀ c, c ≠ a.active → b.ctxAt c = a.ctxAt c
  flags : b.ctx.flags = a.ctx.flags
  vregs : b.vregs = a.vregs
  accs : b.accs = a.accs
  queue : b.queue = a.queue
  inPorts : b.inPorts = a.inPorts
  fault : b.fault = a.fault
  poison : b.poison = a.poison

theorem Leaf.Same.refl (a : Leaf) : Leaf.Same a a := ⟨rfl, rfl, rfl, fun _ _ => rfl, rfl, rfl, rfl, rfl, rfl, rfl, rfl⟩
theorem Leaf.Same.trans {a b c : Leaf} (h : Leaf.Same a b) (g : Leaf.Same b c) : Leaf.Same a c where
  active := g.active.trans h.active
  swReq := g.swReq.trans h.swReq
  ctxNext := g.ctxNext.trans h.ctxNext
  others := fun k hk => (g.others k (by rw [h.active]; exact hk)).trans (h.others k hk)
  flags := g.flags.trans h.flags
  vregs := g.vregs.trans h.vregs
  accs := g.accs.trans h.accs
  queue := g.queue.trans h.queue
  inPorts := g.inPorts.trans h.inPorts
  fault := g.fault.trans h.fault
  poison := g.poison.trans h.poison
/-- A change of the active context that keeps its flags. -/
theorem Leaf.Same.modCtx (a : Leaf) (f : Ctx → Ctx) (h : (f a.ctx).flags = a.ctx.flags) : Leaf.Same a (a.modCtx f) :=
  ⟨rfl, rfl, rfl, fun _ hc => tget_tset_other _ hc, by rw [Leaf.ctx_modCtx]; exact h, rfl, rfl, rfl, rfl, rfl, rfl⟩
/-- Changes of the mode, the hold and the output ports alone. -/
theorem Leaf.Same.ports (a : Leaf) (m : LeafMode) (b : LeafBlock) (p : Tab OutPort) :
    Leaf.Same a { a with mode := m, block := b, outPorts := p } := ⟨rfl, rfl, rfl, fun _ _ => rfl, rfl, rfl, rfl, rfl, rfl, rfl, rfl⟩

/-- Registers stay, too. -/
structure Leaf.Kept (a b : Leaf) : Prop extends Leaf.Same a b where
  regs : b.ctx.regs = a.ctx.regs
  preds : b.ctx.preds = a.ctx.preds

theorem Leaf.Kept.refl (a : Leaf) : Leaf.Kept a a := ⟨Leaf.Same.refl a, rfl, rfl⟩
theorem Leaf.Kept.trans {a b c : Leaf} (h : Leaf.Kept a b) (g : Leaf.Kept b c) : Leaf.Kept a c :=
  ⟨h.toSame.trans g.toSame, g.regs.trans h.regs, g.preds.trans h.preds⟩
theorem Leaf.Kept.modCtx (a : Leaf) (f : Ctx → Ctx) (h : (f a.ctx).flags = a.ctx.flags) (hr : (f a.ctx).regs = a.ctx.regs)
    (hp : (f a.ctx).preds = a.ctx.preds) : Leaf.Kept a (a.modCtx f) :=
  ⟨Leaf.Same.modCtx a f h, by rw [Leaf.ctx_modCtx]; exact hr, by rw [Leaf.ctx_modCtx]; exact hp⟩

/-! ### The program counter -/

theorem Leaf.sendToken_kept {lf lf' : Leaf} {p : Nat} {v : BitVec 16} (h : lf.sendToken p v = some lf') :
    Leaf.Kept lf lf' ∧ lf'.mode = lf.mode ∧ lf'.block = lf.block ∧ lf'.ctxs = lf.ctxs := by
  unfold Leaf.sendToken at h
  split at h
  · cases h
  · cases h
    exact ⟨⟨Leaf.Same.ports lf lf.mode lf.block _, rfl, rfl⟩, rfl, rfl, rfl⟩
theorem Leaf.sendEnds_kept {lf lf' : Leaf} {ps : List Nat} (h : lf.sendEnds ps = some lf') :
    Leaf.Kept lf lf' ∧ lf'.mode = lf.mode ∧ lf'.block = lf.block ∧ lf'.ctxs = lf.ctxs := by
  induction ps generalizing lf with
  | nil => cases h; exact ⟨Leaf.Kept.refl _, rfl, rfl, rfl⟩
  | cons p ps ih =>
    unfold Leaf.sendEnds at h
    split at h
    · cases h
    · rename_i lf1 h1
      obtain ⟨a1, a2, a3, a4⟩ := Leaf.sendToken_kept h1
      obtain ⟨b1, b2, b3, b4⟩ := ih h
      exact ⟨a1.trans b1, b2.trans a2, b3.trans a3, b4.trans a4⟩

/-- Advancing keeps every register and the queue; the hold it leaves is the one before or END's (03 R82, R97). -/
theorem Leaf.advanceFrom_kept {lf lf' : Leaf} {pc : Nat} (h : lf.advanceFrom pc = some lf') :
    Leaf.Kept lf lf' ∧ lf'.mode = .run ∧ (lf'.block = lf.block ∨ lf'.block = .ending) := by
  unfold Leaf.advanceFrom at h
  simp only [] at h
  split at h
  · cases h
  · rename_i lf1 h1
    obtain ⟨k1, -, k3, -⟩ := Leaf.sendEnds_kept h1
    have run : ∀ f : Ctx → Ctx, (f lf1.ctx).flags = lf1.ctx.flags → (f lf1.ctx).regs = lf1.ctx.regs → (f lf1.ctx).preds = lf1.ctx.preds →
        Leaf.Kept lf { lf1.modCtx f with mode := .run } := by
      intro f a b c
      exact k1.trans ((Leaf.Kept.modCtx lf1 f a b c).trans ⟨Leaf.Same.ports _ .run _ _, rfl, rfl⟩)
    split at h
    · cases h; exact ⟨run _ rfl rfl rfl, rfl, .inl k3⟩
    · split at h
      · cases h
        refine ⟨k1.trans (Leaf.Kept.trans (Leaf.Kept.modCtx lf1 _ rfl rfl rfl) (Leaf.Kept.trans (Leaf.Kept.modCtx _ (fun c => { c with loops := [] }) rfl rfl rfl)
          ⟨Leaf.Same.ports _ .run .ending _, rfl, rfl⟩)), rfl, .inr rfl⟩
      · cases h; exact ⟨run _ rfl rfl rfl, rfl, .inl k3⟩

/-- Where no loop ends at the PC and it is below 511, advancing goes to the next PC and does nothing else. -/
theorem Leaf.advanceFrom_next {lf : Leaf} {pc : Nat} (h : pc < 511) (hl : ∀ f ∈ lf.ctx.loops, f.stop ≠ pc) :
    lf.advanceFrom pc = some { lf.modCtx (fun c => { c with pc := pc + 1 }) with mode := .run } := by
  have e : loopBack pc lf.ctx.loops = (lf.ctx.loops, none, []) := by
    cases hx : lf.ctx.loops with
    | nil => rfl
    | cons f fs => simp [loopBack, hl f (by rw [hx]; simp)]
  unfold Leaf.advanceFrom
  simp only [e, Leaf.sendEnds]
  rw [if_neg (by omega)]
  rfl

/-! ### The end of a pass -/

/-- endCheck changes the leaf's mode, hold, vector registers, accumulators and context at most, and the branch's handover; without a
pending switch only the mode and the hold. -/
theorem State.endCheck_quiet (s : State) (l : Nat) (h : (s.leaf l).swReq = false) :
    s.endCheck l = s ∨ s.endCheck l = s.modLeaf l (fun lf => { lf with mode := .waitPass, block := .none }) := by
  unfold State.endCheck
  dsimp only
  split
  · right; rw [h]; rfl
  · left; rfl
theorem State.handoverCheck_only (s : State) (l n : Nat) :
    s.handoverCheck l n = { s with leaves := (s.handoverCheck l n).leaves, branches := (s.handoverCheck l n).branches } := by
  unfold State.handoverCheck
  dsimp only
  split
  · rfl
  · split <;> rfl
theorem State.endCheck_only (s : State) (l : Nat) :
    s.endCheck l = { s with leaves := (s.endCheck l).leaves, branches := (s.endCheck l).branches } := by
  unfold State.endCheck
  dsimp only
  split
  · split
    · unfold State.leafSwitch; dsimp only; rw [State.handoverCheck_only]; rfl
    · rfl
  · rfl
@[simp] theorem State.endCheck_mem (s : State) (l : Nat) : (s.endCheck l).mem = s.mem := by rw [State.endCheck_only]
@[simp] theorem State.endCheck_csr (s : State) (l : Nat) : (s.endCheck l).csr = s.csr := by rw [State.endCheck_only]
@[simp] theorem State.endCheck_tiers (s : State) (l : Nat) : (s.endCheck l).tiers = s.tiers := by rw [State.endCheck_only]
@[simp] theorem State.endCheck_part (s : State) (l : Nat) : (s.endCheck l).part = s.part := by rw [State.endCheck_only]
@[simp] theorem State.endCheck_pending (s : State) (l : Nat) : (s.endCheck l).pending = s.pending := by rw [State.endCheck_only]
theorem State.handoverCheck_leaf (s : State) (l n : Nat) : (∀ l', l' ≠ l → (s.handoverCheck l n).leaf l' = s.leaf l') ∧
    ((s.handoverCheck l n).leaf l).ctxs = (s.leaf l).ctxs := by
  unfold State.handoverCheck
  dsimp only
  split
  · refine ⟨fun l' h => State.leaf_modLeaf_other _ _ _ _ h, ?_⟩
    rw [State.leaf_modLeaf_same]; unfold Leaf.switchEnd; split <;> rfl
  · split <;> exact ⟨fun _ _ => rfl, rfl⟩
/-- Other leaves stay, and so do the contexts of this one. -/
theorem State.endCheck_leaf (s : State) (l : Nat) : (∀ l', l' ≠ l → (s.endCheck l).leaf l' = s.leaf l') ∧
    ((s.endCheck l).leaf l).ctxs = (s.leaf l).ctxs := by
  unfold State.endCheck
  dsimp only
  split
  · split
    · obtain ⟨h1, h2⟩ := State.handoverCheck_leaf ((s.modLeaf l (fun lf => { lf with mode := .waitPass, block := .none })).modLeaf l Leaf.switchNow) l
        ((s.modLeaf l (fun lf => { lf with mode := .waitPass, block := .none })).leaf l).ctxNext
      refine ⟨fun l' h => (h1 l' h).trans ?_, h2.trans ?_⟩
      · rw [State.leaf_modLeaf_other _ _ _ _ h, State.leaf_modLeaf_other _ _ _ _ h]
      · rw [State.leaf_modLeaf_same, State.leaf_modLeaf_same]; rfl
    · exact ⟨fun l' h => State.leaf_modLeaf_other _ _ _ _ h, by rw [State.leaf_modLeaf_same]⟩
  · exact ⟨fun _ _ => rfl, rfl⟩

/-! ### Issue -/

/-- A ready instruction whose effect completes and whose PC can go on answers that next state. -/
theorem State.issueWith_done {s s1 : State} {l : Nat} {g : Guard} {uses : List RegRef} {body : State → Issue} {adv : Leaf → Option Leaf}
    {lf : Leaf} (hl : l < s.nLeaves) (hc : s.canIssue l = true) (hg : (s.leaf l).regsPending (guardUses g) = false)
    (hk : (s.leaf l).guardOk g = true) (hu : (s.leaf l).regsPending uses = false) (hb : body s = .done s1) (ha : adv (s1.leaf l) = some lf) :
    s.issueWith l g uses body adv = .next ((s1.putLeaf l lf).tick.endCheck l) := by
  simp [State.issueWith, Nat.not_le.2 hl, hc, hg, hk, hu, hb, ha]

/-- What the frame of a scalar instruction asks of the state it leaves, when the leaf it puts back keeps all but one register. -/
theorem State.scalarFrame_put {s s1 : State} {l : Nat} {lf : Leaf} {rd : Option (BitVec 5)} {pd : BitVec 3 → Bool}
    (hsame : Leaf.Same (s.leaf l) lf) (hr : ∀ r : BitVec 5, some r ≠ rd → tget 0 lf.ctx.regs r.toNat = (s.leaf l).reg r)
    (hp : ∀ p : BitVec 3, pd p = false → tget 0 lf.ctx.preds p.toNat = (s.leaf l).pred p)
    (ho : ∀ l', l' ≠ l → s1.leaf l' = s.leaf l') (hm : s1.mem = s.mem) (hcsr : s1.csr = s.csr) :
    s.scalarFrame ((s1.putLeaf l lf).tick.endCheck l) l rd pd := by
  have hleaf : ((s1.putLeaf l lf).tick).leaf l = lf := tget_tset_same _ _ _
  have hother : ∀ l', l' ≠ l → ((s1.putLeaf l lf).tick).leaf l' = s.leaf l' := fun l' h => (tget_tset_other _ h).trans (ho l' h)
  obtain ⟨e1, e2⟩ := State.endCheck_leaf ((s1.putLeaf l lf).tick) l
  have hc : ∀ c, (((s1.putLeaf l lf).tick.endCheck l).leaf l).ctxAt c = lf.ctxAt c := by
    intro c; unfold Leaf.ctxAt; rw [e2, hleaf]
  refine ⟨⟨fun l' h => by rw [e1 l' h, hother l' h], fun c h => by rw [hc, hsame.others c h], fun r h => ?_, fun p h => ?_, fun _ => ?_⟩, ?_, ?_, ?_⟩
  · unfold State.gpr; rw [hc, ← hsame.active, Leaf.ctxAt_active, hr r h, hsame.active]; rfl
  · unfold State.prd; rw [hc, ← hsame.active, Leaf.ctxAt_active, hp p h, hsame.active]; rfl
  · rw [hc, ← hsame.active, Leaf.ctxAt_active, hsame.flags, hsame.active]; rfl
  · intro hsw
    have hq := State.endCheck_quiet ((s1.putLeaf l lf).tick) l (by rw [hleaf, hsame.swReq]; exact hsw)
    have hv : (((s1.putLeaf l lf).tick.endCheck l).leaf l).vregs = (s.leaf l).vregs ∧
        (((s1.putLeaf l lf).tick.endCheck l).leaf l).accs = (s.leaf l).accs := by
      rcases hq with h | h <;> rw [h]
      · rw [hleaf]; exact ⟨hsame.vregs, hsame.accs⟩
      · rw [State.leaf_modLeaf_same, hleaf]; exact ⟨hsame.vregs, hsame.accs⟩
    exact ⟨fun v _ => by unfold Leaf.vreg; rw [hv.1], fun a _ => by unfold Leaf.acc; rw [hv.2]⟩
  · intro k; unfold State.memByte; rw [State.endCheck_mem]; show tget 0 s1.mem k = _; rw [hm]
  · rw [State.endCheck_csr]; exact hcsr

/-- An instruction that writes one general register completes with its value there (03 R92, R120). -/
theorem State.issueReg_setReg {s : State} {i : Instr} {l : Nat} {g : Guard} (rd : BitVec 5) (v : Leaf → Word)
    (hi : leafGuard i = some (l, g)) (h : s.executes i) :
    s.setsReg l rd (v (s.leaf l)) (s.issueReg l g (leafUses i) (fun lf => lf.setReg rd (v lf))) := by
  obtain ⟨⟨l1, g1, e1, hl, hc, hg, hk, hu⟩, l2, g2, e2, ha⟩ := h
  rw [hi] at e1 e2
  cases e1; cases e2
  have hsome : ((((s.leaf l).setReg rd (v (s.leaf l)))).advance).isSome = true := by
    rw [← ha]
    unfold Leaf.advance Leaf.advanceFrom
    have e : ((s.leaf l).setReg rd (v (s.leaf l))).ctx.loops = (s.leaf l).ctx.loops ∧
        ((s.leaf l).setReg rd (v (s.leaf l))).ctx.pc = (s.leaf l).ctx.pc := by
      unfold Leaf.setReg; rw [Leaf.ctx_modCtx]; exact ⟨rfl, rfl⟩
    rw [e.1, e.2]
    have hs : ∀ (ps : List Nat) (x y : Leaf), x.outPorts = y.outPorts → x.tags = y.tags → (x.sendEnds ps).isSome = (y.sendEnds ps).isSome := by
      intro ps
      induction ps with
      | nil => intros; rfl
      | cons p ps ih =>
        intro x y ho ht
        have et : x.tokenWord p 0xFFFF = y.tokenWord p 0xFFFF := by unfold Leaf.tokenWord; rw [ht]
        have eo : x.outPort p = y.outPort p := by unfold Leaf.outPort; rw [ho]
        unfold Leaf.sendEnds Leaf.sendToken
        rw [eo, et]
        cases (y.outPort p).pushToken (y.tokenWord p 0xFFFF) with
        | none => rfl
        | some q => exact ih _ _ (by unfold Leaf.setOut; rw [ho]) ht
    have := hs (loopBack (s.leaf l).ctx.pc (s.leaf l).ctx.loops).2.2 ((s.leaf l).setReg rd (v (s.leaf l))) (s.leaf l) rfl rfl
    dsimp only
    revert this
    cases ((s.leaf l).setReg rd (v (s.leaf l))).sendEnds (loopBack (s.leaf l).ctx.pc (s.leaf l).ctx.loops).2.2 <;>
      cases (s.leaf l).sendEnds (loopBack (s.leaf l).ctx.pc (s.leaf l).ctx.loops).2.2 <;> intro this <;> simp at this ⊢
    split <;> (try split) <;> rfl
  obtain ⟨lf', hlf⟩ := Option.isSome_iff_exists.1 hsome
  obtain ⟨k, -, -⟩ := Leaf.advanceFrom_kept hlf
  have hd := State.issueWith_done (body := fun s => .done (s.modLeaf l (fun lf => lf.setReg rd (v lf)))) (adv := Leaf.advance) hl hc hg hk hu rfl
    (by rw [State.leaf_modLeaf_same]; exact hlf)
  refine ⟨_, hd, ?_, ?_⟩
  · have e2 := (State.endCheck_leaf (((s.modLeaf l (fun lf => lf.setReg rd (v lf))).putLeaf l lf').tick) l).2
    have e3 : (((s.modLeaf l (fun lf => lf.setReg rd (v lf))).putLeaf l lf').tick).leaf l = lf' := tget_tset_same _ _ _
    unfold State.gpr Leaf.ctxAt
    rw [e2, e3]
    have : (s.leaf l).active = lf'.active := k.active.symm
    rw [this]
    show tget 0 lf'.ctx.regs rd.toNat = _
    rw [k.regs]
    unfold Leaf.setReg
    rw [Leaf.ctx_modCtx]
    exact tget_tset_same _ _ _
  · refine State.scalarFrame_put ((Leaf.Same.modCtx _ _ rfl).trans k.toSame) (fun r hr => ?_) (fun p _ => ?_)
      (fun l' hl' => State.leaf_modLeaf_other _ _ _ _ hl') rfl rfl
    · rw [k.regs]
      unfold Leaf.setReg
      rw [Leaf.ctx_modCtx]
      exact tget_tset_other _ (fun e => hr (by rw [BitVec.eq_of_toNat_eq e]))
    · rw [k.preds]
      unfold Leaf.setReg
      rw [Leaf.ctx_modCtx]; rfl

end Sys2Proof.Machine
end

