-- ==== Sys2Proof/Tests/Slice0.lean ====
section
/-! SUPPORT. Tests: leaf words written out from 03 R120, terms that the checks of WellFormed refuse, single steps, and for each obligation
that has hypotheses a state and operands that meet them (wit_...). -/

namespace Sys2Proof.Tests

open Sys2Proof Sys2Proof.Machine

set_option maxRecDepth 20000

/-- No guard. -/
def g0 : Guard := ⟨false, false, 0⟩
/-- A guard on a predicate that holds 0 after reset. -/
def g1 : Guard := ⟨true, false, 1⟩
/-- Leaf 5 runs a pass, with a change. -/
def onLeaf (f : Leaf → Leaf) : State := State.reset.modLeaf 5 (fun lf => f { lf with mode := .run })
/-- The part with registers stored. -/
def regs (l : List (Nat × Nat)) : State := State.reset.each l (fun s r => s.putReg r.1 r.2)
/-- An outcome is a next state that meets a test. -/
def nextIs (o : Host.Outcome State Fault Refusal) (p : State → Bool) : Bool :=
  match o with | .next s => p s | _ => false
/-- A command in a leaf unit's queue. -/
def cmdOf (u : LeafUnit) (op : UnitOp) : UnitCmd := ⟨u, 0, 0, 0, 0, 0, 0, 0, op, 0, []⟩
/-- Leaf 5 with one vector command that loads a word. -/
def busyLeaf : State := onLeaf (fun lf => { lf with queue := [cmdOf .vector (.loadWord 0 0)] })

/-- The conditions of ready, executes and executesOn as tests. -/
def readyB (s : State) (i : Instr) : Bool :=
  match leafGuard i with
  | some (l, g) => decide (l < s.nLeaves) && s.canIssue l && !(s.leaf l).regsPending (guardUses g) && (s.leaf l).guardOk g &&
      !(s.leaf l).regsPending (leafUses i)
  | none => false
def executesB (s : State) (i : Instr) : Bool :=
  readyB s i && (match leafGuard i with | some (l, _) => (s.leaf l).advance.isSome | none => false)
def executesOnB (s : State) (u : LeafUnit) (port : Nat) (i : Instr) : Bool :=
  executesB s i && (match leafGuard i with | some (l, _) => (s.leaf l).hasRoom u port | none => false)
theorem ready_of {s : State} {i : Instr} (h : readyB s i = true) : s.ready i := by
  unfold readyB at h
  split at h
  · rename_i l g hg
    simp only [Bool.and_eq_true, Bool.not_eq_true', decide_eq_true_eq] at h
    exact ⟨l, g, hg, h.1.1.1.1, h.1.1.1.2, h.1.1.2, h.1.2, h.2⟩
  · cases h
theorem executes_of {s : State} {i : Instr} (h : executesB s i = true) : s.executes i := by
  simp only [executesB, Bool.and_eq_true] at h
  refine ⟨ready_of h.1, ?_⟩
  have h2 := h.2
  split at h2
  · rename_i l g hg
    exact ⟨l, g, hg, h2⟩
  · cases h2
theorem executesOn_of {s : State} {i : Instr} {u : LeafUnit} {port : Nat} (h : executesOnB s u port i = true) : s.executesOn i u port := by
  simp only [executesOnB, Bool.and_eq_true] at h
  refine ⟨executes_of h.1, ?_⟩
  have h2 := h.2
  split at h2
  · rename_i l g hg
    exact ⟨l, g, hg, h2⟩
  · cases h2

/-! ### Terms that WellFormed refuses (03 R121) -/

theorem test_wf_cmp : (Instr.cmp 0 g0 0 6 0 ⟨false, 0, 0⟩).wf = false := by decide
theorem test_wf_loop : (Instr.loop 0 g0 0 0 5 0 true 1).wf = false := by decide
theorem test_wf_red : (Instr.red 0 g0 0 0 31 0).wf = false ∧ (Instr.red 0 g0 0 0 0 3).wf = false := by decide
theorem test_wf_topk : (Instr.topk 0 g0 0 0 3 1 0 0 false).wf = false ∧ (Instr.topk 0 g0 0 0 0 0 0 0 false).wf = false ∧
    (Instr.topk 0 g0 0 0 0 9 0 0 false).wf = false := by decide
theorem test_wf_ports : (Instr.send 0 g0 4 0 0 0 true 1).wf = false ∧ (Instr.recv 0 g0 4 0 0 true 1).wf = false ∧
    (Instr.tsend 0 g0 4 0 true 1).wf = false ∧ (Instr.trecv 0 g0 0 4).wf = false := by decide
theorem test_wf_mma : (Instr.mma 0 g0 0 0 0 0 0 false false 0 0 true 0 0).wf = false := by decide
theorem test_wf_accout : (Instr.accout 0 g0 0 0 29 false 0).wf = false := by decide
theorem test_wf_accin : (Instr.accin 0 g0 0 0 1 false).wf = false ∧ (Instr.accin 0 g0 0 0 0 true).wf = false := by decide
theorem test_wf_thdr : (Instr.thdr 0 g0 0 31 0 0 0).wf = false := by decide
theorem test_wf_packets : (Instr.get 0 g0 0 1 0).wf = false ∧ (Instr.put 0 g0 0 1 0).wf = false ∧ (Instr.atom 0 g0 0 1 0 0 0).wf = false ∧
    (Instr.atom 0 g0 0 0 0 0 6).wf = false := by decide
theorem test_wf_vop : (Instr.vop 0 g0 0 0 0 0 8 0).wf = false ∧ (Instr.vop 0 g0 0 0 0 0 6 1).wf = false := by decide
theorem test_wf_vcmp : (Instr.vcmp 0 g0 0 0 0 7).wf = false ∧ (Instr.vcmp 0 g0 1 0 0 0).wf = false := by decide
theorem test_wf_vsf : (Instr.vsf 0 g0 0 0 6).wf = false := by decide
theorem test_wf_vector_formats : (Instr.vldt 0 g0 0 0 31 0 false 0).wf = false ∧ (Instr.vstt 0 g0 0 0 31 false 0 false 0).wf = false ∧
    (Instr.vld 0 g0 0 0 31).wf = false ∧ (Instr.vst 0 g0 0 0 31 false).wf = false := by decide

/-! ### Words of leaf code, written out field by field from 03 R119 and R120 -/

theorem test_word_alu : decodeLeafWord 9 (0x03 * 2 ^ 58 + 2 ^ 57 + 2 * 2 ^ 53 + 31 * 2 ^ 48 + 1 * 2 ^ 43 + 2 ^ 32 + 0xFFFFFFFF) =
    some (.mul 9 ⟨true, false, 2⟩ 31 1 ⟨true, 0, 0xFFFFFFFF⟩) := by decide
theorem test_word_predicate : decodeLeafWord 9 (0x10 * 2 ^ 58 + 7 * 2 ^ 50 + 5 * 2 ^ 47 + 30 * 2 ^ 42 + 17 * 2 ^ 37) =
    some (.cmp 9 g0 7 5 30 ⟨false, 17, 0⟩) := by decide
theorem test_word_memory : decodeLeafWord 9 (0x14 * 2 ^ 58 + 2 * 2 ^ 48 + 3 * 2 ^ 43 + 64) = some (.ld 9 g0 2 3 64) := by decide
theorem test_word_control : decodeLeafWord 9 (0x20 * 2 ^ 58 + 3 * 2 ^ 51 + 511 * 2 ^ 42 + 4 * 2 ^ 39 + 2 * 2 ^ 33 + 2 ^ 32 + 100) =
    some (.loop 9 g0 3 511 4 2 true 100) ∧ decodeLeafWord 9 (0x23 * 2 ^ 58 + 0x3F) = some (.fence 9 g0 0x3F) := by decide
theorem test_word_reduction : decodeLeafWord 9 (0x29 * 2 ^ 58 + 4 * 2 ^ 48 + 5 * 2 ^ 42 + 2 * 2 ^ 37 + 8 * 2 ^ 33 + 6 * 2 ^ 27 + 7 * 2 ^ 22 + 2 ^ 21) =
    some (.topk 9 g0 4 5 2 8 6 7 true) := by decide
theorem test_word_stream : decodeLeafWord 9 (0x2C * 2 ^ 58 + 3 * 2 ^ 50 + 2 * 2 ^ 48 + 5 * 2 ^ 42 + 6 * 2 ^ 37 + 2 ^ 32 + 0xFFFF) =
    some (.send 9 g0 3 2 5 6 true 0xFFFF) := by decide
theorem test_word_matrix : decodeLeafWord 9 (0x30 * 2 ^ 58 + 3 * 2 ^ 51 + 1 * 2 ^ 46 + 2 * 2 ^ 41 + 1 * 2 ^ 36 + 2 * 2 ^ 31 + 2 ^ 30 + 7 * 2 ^ 26 + 6 * 2 ^ 23) =
    some (.mma 9 g0 3 1 2 1 2 true false 7 6 false 0 0) := by decide
theorem test_word_packet : decodeLeafWord 9 (0x36 * 2 ^ 58 + 1 * 2 ^ 48 + 2 * 2 ^ 43 + 3 * 2 ^ 38 + 4 * 2 ^ 33 + 5 * 2 ^ 30) =
    some (.atom 9 g0 1 2 3 4 5) ∧ decodeLeafWord 9 (0x34 * 2 ^ 58 + 1 * 2 ^ 48 + 2 * 2 ^ 43 + 0xFFF * 2 ^ 31) = some (.get 9 g0 1 2 0xFFF) := by decide
theorem test_word_vector : decodeLeafWord 9 (0x38 * 2 ^ 58 + 15 * 2 ^ 49 + 14 * 2 ^ 45 + 13 * 2 ^ 41 + 12 * 2 ^ 37 + 6 * 2 ^ 33 + 4 * 2 ^ 30) =
    some (.vop 9 g0 15 14 13 12 6 4) ∧
    decodeLeafWord 9 (0x3F * 2 ^ 58 + 1 * 2 ^ 49 + 2 * 2 ^ 44 + 2 ^ 43 + 63 * 2 ^ 37 + 2 ^ 36) = some (.vmov 9 g0 1 2 true 63 true) := by decide

/-! ### Single steps with results worked out from the spec -/

/-- ADD wraps modulo 2^32 (03 R120). -/
theorem test_add_wraps : nextIs (exec (.add 5 g0 2 1 ⟨true, 0, 1⟩) (onLeaf (fun lf => lf.setReg 1 0xFFFFFFFF))) (fun s => s.gpr 5 0 2 == 0) = true := by
  decide
/-- A shift by the full width is a shift by 0 (03 R120). -/
theorem test_shl_width : nextIs (exec (.shl 5 g0 1 1 ⟨true, 0, 32⟩) (onLeaf (fun lf => lf.setReg 1 3))) (fun s => s.gpr 5 0 1 == 3) = true := by decide
/-- SAR keeps the sign (03 R120). -/
theorem test_sar_sign : nextIs (exec (.sar 5 g0 1 1 ⟨true, 0, 31⟩) (onLeaf (fun lf => lf.setReg 1 0x80000000))) (fun s => s.gpr 5 0 1 == 0xFFFFFFFF) =
    true := by decide
/-- MIN is signed, MINU is not (03 R120). -/
theorem test_min_signed : nextIs (exec (.min 5 g0 2 1 ⟨true, 0, 1⟩) (onLeaf (fun lf => lf.setReg 1 0xFFFFFFFF))) (fun s => s.gpr 5 0 2 == 0xFFFFFFFF) =
    true ∧ nextIs (exec (.minu 5 g0 2 1 ⟨true, 0, 1⟩) (onLeaf (fun lf => lf.setReg 1 0xFFFFFFFF))) (fun s => s.gpr 5 0 2 == 1) = true := by decide
/-- ST issues a little-endian store of the word (03 R114, 00 R14), which wraps at 256 KiB and which the vector unit then does. -/
theorem test_st_issues : nextIs (exec (.st 5 g0 1 2 4) (onLeaf (fun lf => (lf.setReg 1 0x11223344).setReg 2 0x3FFFC))) (fun s =>
    (s.leaf 5).queue.map (·.op) == [.store [(0, [0x44, 0x33, 0x22, 0x11])] false 0 none 0]) = true := by decide
theorem test_store_completes : nextIs (exec (.unitCommandComplete 0 5 (1, 0) none)
    (onLeaf (fun lf => { lf with queue := [cmdOf .vector (.store [(0, [0x44, 0x33, 0x22, 0x11])] false 0 none 0)] }))) (fun s =>
    s.memByte (leafKey 5 0) == 0x44 && s.memByte (leafKey 5 3) == 0x11 && (s.leaf 5).queue == []) = true := by decide
/-- PMASK of 32 sets every bit (03 R120). -/
theorem test_pmask_full : nextIs (exec (.pmask 5 g0 1 0 true 32) (onLeaf id)) (fun s => s.prd 5 0 1 == 0xFFFFFFFF) = true := by decide
/-- A guarded-off instruction advances the PC alone (03 R93). -/
theorem test_guarded_off : nextIs (exec (.mov 5 g1 1 ⟨true, 0, 7⟩) (onLeaf id)) (fun s => s.gpr 5 0 1 == 0 && ((s.leaf 5).ctxAt 0).pc == 1) = true := by
  decide
/-- An absent leaf is a fault. -/
theorem test_absent_leaf : exec (.nop 8192 g0) State.reset = .fault .absentUnit := by rfl
/-- A command that waits runs first in, first out. -/
theorem test_queue_order : nextIs (step { onLeaf id with pending := [.nop 5 g0, .endPass 5 g0] }) (fun s => s.pending == [.endPass 5 g0]) = true := by decide

/-! ### Hypotheses that are met: leaf code -/

theorem wit_StepRunsTheFrontCommand : ({ State.reset with pending := [.nop 5 g0] } : State).pending = .nop 5 g0 :: [] ∧ State.reset.pending = [] := by decide
theorem wit_StepKeepsThePartAndTheQueue : goesOn (step { State.reset with pending := [.nop 5 g0] }) = true := by decide
theorem wit_StepKeepsTheCanonicalForm : State.reset.canonical ∧ goesOn (step { State.reset with pending := [.nop 5 g0] }) = true :=
  ⟨⟨rfl, rfl⟩, by decide⟩
theorem wit_LeafCodeRoundTrip : leafGuard (.cmp 5 g0 7 5 31 ⟨true, 0, 0⟩) = some (5, g0) ∧ (Instr.cmp 5 g0 7 5 31 ⟨true, 0, 0⟩).wf = true := by decide
theorem wit_LeafWords : decodeLeafWord 5 0 = some (.nop 5 g0) := by decide
/-- Every instruction of a list is executed, or issues. -/
theorem all_execute {s : State} {l : List Instr} (h : l.all (executesB s) = true) : ∀ i ∈ l, s.executes i :=
  fun i hi => executes_of (List.all_eq_true.mp h i hi)
theorem all_execute_on {s : State} {u : LeafUnit} {l : List Instr} (h : l.all (executesOnB s u 0) = true) : ∀ i ∈ l, s.executesOn i u 0 :=
  fun i hi => executesOn_of (List.all_eq_true.mp h i hi)
theorem all_ready {s : State} {l : List Instr} (h : l.all (readyB s) = true) : ∀ i ∈ l, s.ready i :=
  fun i hi => ready_of (List.all_eq_true.mp h i hi)
/-- With an immediate and with a register as second operand. -/
theorem wit_ScalarResults : ∀ i ∈ ([.add 5 g0 2 1 ⟨true, 0, 1⟩, .sub 5 g0 2 1 ⟨false, 3, 0⟩, .mul 5 g0 2 1 ⟨true, 0, 1⟩, .and 5 g0 2 1 ⟨true, 0, 1⟩,
    .or 5 g0 2 1 ⟨true, 0, 1⟩, .xor 5 g0 2 1 ⟨true, 0, 1⟩, .shl 5 g0 2 1 ⟨true, 0, 33⟩, .shr 5 g0 2 1 ⟨true, 0, 32⟩, .sar 5 g0 2 1 ⟨true, 0, 31⟩,
    .min 5 g0 2 1 ⟨true, 0, 1⟩, .max 5 g0 2 1 ⟨true, 0, 1⟩, .minu 5 g0 2 1 ⟨true, 0, 1⟩, .maxu 5 g0 31 31 ⟨false, 31, 0⟩, .mov 5 g0 2 ⟨true, 0, 1⟩] :
    List Instr), (onLeaf id).executes i := all_execute (by decide)
/-- The last leaf of the part, stalled, and a guard on a predicate that holds all ones. -/
theorem wit_last_leaf : (State.reset.modLeaf 8191 (fun lf => ({ lf with mode := .stall }).setPred 1 0xFFFFFFFF)).executes
    (.mov 8191 ⟨true, false, 1⟩ 2 ⟨true, 0, 1⟩) := executes_of (by decide)
theorem wit_PredicateResults : (∀ i ∈ ([.cmp 5 g0 7 0 1 ⟨true, 0, 0⟩, .cmp 5 g0 7 1 1 ⟨true, 0, 0⟩, .cmp 5 g0 7 2 1 ⟨true, 0, 0⟩, .cmp 5 g0 7 3 1 ⟨true, 0, 0⟩,
    .cmp 5 g0 7 4 1 ⟨true, 0, 0⟩, .cmp 5 g0 7 5 1 ⟨true, 0, 0⟩, .pmask 5 g0 1 0 true 32, .plog 5 g0 1 2 3 0, .plog 5 g0 1 2 3 1, .plog 5 g0 1 2 3 2,
    .plog 5 g0 1 2 3 3, .pmov 5 g0 1 2 false, .pmov 5 g0 1 2 true] : List Instr), (onLeaf id).executes i) ∧ 5 < (6 : BitVec 3).toNat :=
  ⟨all_execute (by decide), by decide⟩
/-- A quiet leaf, and one whose vector unit has one entry left. -/
theorem wit_LoadAndStoreWords : (∀ i ∈ ([.ld 5 g0 1 2 4, .st 5 g0 1 2 4] : List Instr), (onLeaf id).executes i) ∧ ((onLeaf id).leaf 5).quiet ∧
    (∀ i ∈ ([.ld 5 g0 1 2 4, .st 5 g0 1 2 4] : List Instr),
      (onLeaf (fun lf => { lf with queue := List.replicate 3 (cmdOf .vector (.loadWord 9 0)) })).executesOn i .vector 0) :=
  ⟨all_execute (by decide), ⟨rfl, rfl⟩, all_execute_on (by decide)⟩
theorem wit_GuardedOffInstruction : leafGuard (.mov 5 g1 1 ⟨true, 0, 7⟩) = some (5, g1) ∧ (Instr.mov 5 g1 1 ⟨true, 0, 7⟩).wf = true ∧
    5 < (onLeaf id).nLeaves ∧ ((onLeaf id).leaf 5).guardOk g1 = false ∧ (onLeaf id).canIssue 5 = true ∧
    ((onLeaf id).leaf 5).regsPending (guardUses g1) = false ∧ ((onLeaf id).leaf 5).ctx.pc < 511 ∧ ((onLeaf id).leaf 5).ctx.loops = [] := by decide
/-- Leaf 5 at the end of a body with an iteration left, and after the last one. -/
def inLoop (idx : Nat) : State := onLeaf (fun lf => lf.modCtx (fun c => { c with pc := 3, loops := [⟨0, 2, 3, idx, 2, none⟩] }))
/-- At PC 510 outside loops, at PC 0, with trip counts 0 and 1, and at the end of a body. -/
theorem wit_LoopsBranchesAndTheCounter :
    (∀ i ∈ ([.nop 5 g0, .movc 5 g0 1 0, .br 5 g0 511, .loop 5 g0 0 509 4 1 true 1, .loop 5 g0 0 509 0 1 true 0] : List Instr), (onLeaf id).ready i) ∧
    (∀ i ∈ ([.nop 5 g0] : List Instr), (inLoop 0).ready i) ∧ (∀ i ∈ ([.nop 5 g0] : List Instr), (inLoop 1).ready i) ∧
    (onLeaf (fun lf => lf.modCtx (fun c => { c with pc := 510 }))).ready (.nop 5 g0) ∧
    ((onLeaf id).leaf 5).ctx.pc < 511 ∧ ((onLeaf id).leaf 5).ctx.loops = [] ∧ (4 : BitVec 3).toNat ≤ 4 ∧ 0 + 1 + (509 : BitVec 9).toNat < 511 ∧
    ((inLoop 0).leaf 5).ctx.loops = [⟨0, 2, 3, 0, 2, none⟩] ∧ 0 + 1 < 2 ∧ 2 ≤ 1 + 1 ∧ ((inLoop 1).leaf 5).ctx.pc = 3 :=
  ⟨all_ready (by decide), all_ready (by decide), all_ready (by decide), ready_of (by decide), by decide, by decide, by decide, by decide, by decide,
    by decide, by decide, by decide⟩
/-- A unit with a command and without one; the end of a pass with and without a command outstanding. -/
theorem wit_FenceAndEnd : (∀ i ∈ ([.fence 5 g0 2, .endPass 5 g0] : List Instr), (onLeaf id).ready i) ∧
    (∀ i ∈ ([.fence 5 g0 2, .endPass 5 g0] : List Instr), busyLeaf.ready i) ∧ fenceHolds 2 ((onLeaf id).leaf 5).queue = false ∧
    ((onLeaf id).leaf 5).quiet ∧ fenceHolds 2 (busyLeaf.leaf 5).queue = true ∧ (busyLeaf.leaf 5).queue ≠ [] :=
  ⟨all_ready (by decide), all_ready (by decide), by decide, ⟨rfl, rfl⟩, by decide, by decide⟩

/-! ### Hypotheses that are met: vectors, matrices, ports and packets -/

/-- Each FN at the limits of its range, on a quiet leaf and behind other commands. -/
theorem wit_VectorArithmetic : (∀ i ∈ ([.vop 5 g0 1 2 3 4 0 0, .vop 5 g0 1 2 3 4 6 4, .vop 5 g0 1 2 3 4 7 7, .vsf 5 g0 1 2 5, .vcmp 5 g0 6 2 3 6] : List Instr),
    (onLeaf id).executes i) ∧ ((onLeaf id).leaf 5).quiet ∧ (7 : BitVec 4).toNat ≤ 7 ∧ (4 : BitVec 3).toNat % 2 = 0 ∧ (6 : BitVec 3).toNat ≤ 6 ∧
    (∀ i ∈ ([.vop 5 g0 1 2 3 4 6 4, .vsf 5 g0 1 2 5, .vcmp 5 g0 6 2 3 6] : List Instr), busyLeaf.executesOn i .vector 0) ∧
    (Instr.vop 5 g0 1 2 3 4 6 4).wf = true ∧ (Instr.vsf 5 g0 1 2 5).wf = true ∧ (Instr.vcmp 5 g0 6 2 3 6).wf = true :=
  ⟨all_execute (by decide), ⟨rfl, rfl⟩, by decide, by decide, by decide, all_execute_on (by decide), by decide, by decide, by decide⟩
/-- The header that reads at byte 0 of the memory of leaf 5: all zeros, so of FORMAT 0. -/
def hdr5 : TileHdr := hdrAt ((onLeaf id).leafPlain 5) 0
/-- Both directions, and every format class; a header of FORMAT 0 equals FI = 0 and differs from FI = 1. -/
theorem wit_VectorMoves : (∀ i ∈ ([.vmov 5 g0 1 2 false 63 true, .vmov 5 g0 1 2 true 63 true, .vld 5 g0 1 2 0, .vst 5 g0 1 2 0 false,
    .vldt 5 g0 1 2 0 0 false 15, .vldt 5 g0 1 2 1 0 true 0, .vstt 5 g0 1 2 0 false 0 false 15] : List Instr), (onLeaf id).executes i) ∧
    ((onLeaf id).leaf 5).quiet ∧ okUnscaledVec (0 : BitVec 5).toNat = true ∧ okVector (1 : BitVec 5).toNat = true ∧ hdr5.fmt = 0 ∧
    hdr5.fmt ≠ (1 : BitVec 5).toNat ∧ ((onLeaf id).leaf 5).fault = none :=
  ⟨all_execute (by decide), ⟨rfl, rfl⟩, by decide, by decide, by decide, by decide, by decide⟩
/-- FP32 is no matrix format, so operands of format 1 mismatch a header of zeros, and match a header that names format 1. -/
theorem wit_MatrixUnit : (∀ i ∈ ([.mma 5 g0 1 2 3 1 2 true false 0 0 false 0 0, .mma 5 g0 1 2 3 1 2 false true 0 0 false 0 0, .accout 5 g0 1 2 0 true 3,
    .accin 5 g0 1 2 0 false, .accin 5 g0 1 2 30 true] : List Instr), (onLeaf id).executes i) ∧ ((onLeaf id).leaf 5).quiet ∧
    mmaWf 1 2 false 0 = true ∧ okExaOut (0 : BitVec 5).toNat = true ∧ (matOperand ((onLeaf id).leafPlain 5) 0 1).hdr.fmt ≠ 1 ∧
    (matOperand (((onLeaf id).memSet (leafKey 5 0) 1).leafPlain 5) 0 1).hdr.fmt = 1 ∧ hdr5.fmt = (0 : BitVec 5).toNat ∧
    hdr5.fmt ≠ (30 : BitVec 5).toNat :=
  ⟨all_execute (by decide), ⟨rfl, rfl⟩, by decide, by decide, by decide, by decide, by decide, by decide⟩
theorem wit_TileHeaderAndReductions : (∀ i ∈ ([.thdr 5 g0 1 0 2 3 4, .red 5 g0 1 2 0 2, .red 5 g0 1 2 1 0, .topk 5 g0 1 2 0 1 3 4 false,
    .topk 5 g0 1 2 0 8 3 4 true] : List Instr), (onLeaf id).executes i) ∧ ((onLeaf id).leaf 5).quiet ∧
    isReservedCode (0 : BitVec 5).toNat = false ∧ okVector (0 : BitVec 5).toNat = true ∧ (2 : BitVec 2).toNat ≤ 2 ∧
    (topkFormat (0 : BitVec 5).toNat).isSome = true ∧ 1 ≤ (1 : BitVec 4).toNat ∧ (8 : BitVec 4).toNat ≤ 8 ∧ hdr5.fmt ≠ (1 : BitVec 5).toNat :=
  ⟨all_execute (by decide), ⟨rfl, rfl⟩, by decide, by decide, by decide, by decide, by decide, by decide, by decide⟩
/-- Leaf 5 with tokens on output port 3 and on input port 3, and beats on input port 3. -/
def ports (n : Nat) (ts : List Tok) (bs : List Beat) : State :=
  onLeaf (fun lf => (lf.setOut 3 { lf.outPort 3 with tokens := List.replicate n (0, 0) }).setIn 3 ⟨bs, ts⟩)
/-- A port with 7 and one with 8 tokens; an input port with a token and one without; counts of 0 and 1. -/
theorem wit_TokensAndStreams : (∀ i ∈ ([.tsend 5 g0 3 1 true 7] : List Instr), (ports 7 [] []).ready i) ∧
    (∀ i ∈ ([.tsend 5 g0 3 1 true 7] : List Instr), (ports 8 [] []).ready i) ∧ (3 : BitVec 3).toNat ≤ 3 ∧
    (((ports 7 [] []).leaf 5).outPort 3).tokens.length < 8 ∧ 8 ≤ (((ports 8 [] []).leaf 5).outPort 3).tokens.length ∧
    (∀ i ∈ ([.trecv 5 g0 1 3] : List Instr), (ports 0 [⟨1, 0⟩] []).executes i) ∧ (((ports 0 [⟨1, 0⟩] []).leaf 5).inPort 3).tokens = [⟨1, 0⟩] ∧
    (∀ i ∈ ([.trecv 5 g0 1 3] : List Instr), (ports 0 [] []).ready i) ∧ (((ports 0 [] []).leaf 5).inPort 3).tokens = [] ∧
    (∀ i ∈ ([.send 5 g0 3 0 1 2 true 1, .send 5 g0 3 0 1 2 true 0, .recv 5 g0 3 1 2 true 0, .recv 5 g0 3 1 2 true 1] : List Instr),
      (ports 0 [] [⟨1, List.replicate 64 0⟩]).executes i) ∧
    ((ports 0 [] [⟨1, List.replicate 64 0⟩]).leaf 5).quiet ∧ ((ports 0 [] []).leaf 5).hasRoom .streamOut 3 = true ∧
    ((ports 0 [] []).leaf 5).hasRoom .streamIn 3 = true ∧ (((ports 0 [] []).leaf 5).outPort 3).beats.length + 16 ≤ 16 ∧
    (((ports 0 [] [⟨1, List.replicate 64 0⟩]).leaf 5).inPort 3).beats = [⟨1, List.replicate 64 0⟩] ++ [] :=
  ⟨all_ready (by decide), all_ready (by decide), by decide, by decide, by decide, all_execute (by decide), by decide, all_ready (by decide),
    by decide, all_execute (by decide), ⟨rfl, rfl⟩, by decide, by decide, by decide, by decide⟩
/-- A segment of stand 0 that leads to part 7. -/
def segState : State := ((onLeaf id).putReg (Reg.stdSegA 0 0) (2 ^ 63 + 7 * 2 ^ 60 + 7)).putReg (Reg.stdSegB 0 0) (2 ^ 24)
theorem wit_PacketAccesses : (∀ i ∈ ([.get 5 g0 4 2 0xFFF, .put 5 g0 4 2 0xFFF, .atom 5 g0 4 2 6 7 5] : List Instr), segState.executesOn i .packet 0) ∧
    (∀ i ∈ ([.get 5 g0 4 2 0, .put 5 g0 4 2 0, .atom 5 g0 4 30 6 7 0] : List Instr), (onLeaf id).executesOn i .packet 0) ∧
    segState.translate 0 0 .read = some ⟨7, 0, 0⟩ ∧ segState.translate 0 0 .write = some ⟨7, 0, 0⟩ ∧ segState.translate 0 0 .atomic = some ⟨7, 0, 0⟩ ∧
    crosses4k 0 4096 = false ∧ 7 ≠ segState.ownPid ∧ (onLeaf id).translate 0 0 .atomic = none ∧ (onLeaf id).translate 0 0 .read = none ∧
    (30 : BitVec 5).toNat % 2 = 0 ∧ (5 : BitVec 3).toNat ≤ 5 ∧ (31 : BitVec 5).toNat % 2 = 1 ∧ 5 < (6 : BitVec 3).toNat :=
  ⟨all_execute_on (by decide), all_execute_on (by decide), by decide, by decide, by decide, by decide, by decide, by decide, by decide, by decide,
    by decide, by decide, by decide⟩
/-- The only command of the unit with an END waiting, a fence that waited for it, and a stream command that is not ready. -/
theorem wit_UnitCommandsComplete : (∀ b ∈ [LeafBlock.ending, .fence 2],
    (let s := onLeaf (fun lf => { lf with queue := [cmdOf .vector (.loadWord 0 0)], block := b })
     5 < s.nLeaves ∧ s.branchRuns 0 = true ∧ (s.leaf 5).queue = cmdOf .vector (.loadWord 0 0) :: [] ∧ (s.leaf 5).swReq = false ∧
     (s.leaf 5).cmdReady (cmdOf .vector (.loadWord 0 0)) = true ∧ (cmdOf .vector (.loadWord 0 0)).unit = unitOf 1 ∧ fenceHolds 2 [] = false ∧
     (s.leaf 5).ctx.pc < 511 ∧ (s.leaf 5).ctx.loops = [])) ∧
    (let c : UnitCmd := { cmdOf .streamIn .recv with left := 1 }
     (onLeaf (fun lf => { lf with queue := [c] })).leaf 5 |>.cmdReady c) = false := by decide
/-- THDR writes FORMAT at byte 0 and scales of 0x7F from byte 32 on (03 R112). -/
theorem test_thdr_issues : nextIs (exec (.thdr 5 g0 0 1 0 0 0) (onLeaf id)) (fun s =>
    match ((s.leaf 5).queue.map (·.op) : List UnitOp) with
    | [UnitOp.store [(0, bs)] _ _ _ _] => bs.getD 0 0 == 1 && bs.getD 31 0 == 0 && bs.getD 63 0 == 0x7F && bs.length == 64
    | _ => false) = true := by decide
/-- TRECV takes the whole token word (03 R100). -/
theorem test_trecv_word : nextIs (exec (.trecv 5 g0 1 3) (onLeaf (fun lf => lf.setIn 3 { lf.inPort 3 with tokens := [⟨0, 0xABCD1234⟩] })))
    (fun s => s.gpr 5 0 1 == 0xABCD1234) = true := by decide

/-! ### Small serving states -/

def le (n v : Nat) : List Byte := leBytes n v
/-- A test image: one entry (64 bytes), one declaration (32 bytes), a shape set of one bucket, one configuration of a branch (the rest). -/
def imgOf (ent decl cfg : List Byte) : List Byte :=
  List.replicate 20 0 ++ le 2 4 ++ le 2 1 ++ le 2 1 ++ le 2 0 ++ le 4 64 ++ List.replicate 32 0 ++
  (le 2 3 ++ le 2 0 ++ le 4 0 ++ le 4 128 ++ le 4 64) ++ (le 2 4 ++ le 2 0 ++ le 4 0 ++ le 4 192 ++ le 4 32) ++
  (le 2 5 ++ le 2 0 ++ le 4 0 ++ le 4 224 ++ le 4 32) ++
  (le 2 1 ++ le 2 0 ++ le 4 0 ++ le 4 256 ++ le 4 cfg.length) ++ ent ++ decl ++ ([0, 1] ++ List.replicate 30 0) ++ cfg
/-- An entry of every class with one configuration, and pin its PIN bit. -/
def entOf (pin : Nat) : List Byte := le 2 0 ++ le 1 7 ++ le 1 0xFF ++ le 1 1 ++ le 1 pin ++ List.replicate 58 0
/-- A declaration of kind k of entry 0 with a fixed size. -/
def declOf (k size : Nat) : List Byte := le 2 0 ++ le 1 k ++ le 1 0xFF ++ le 4 size ++ List.replicate 24 0
/-- A configuration of one branch with two batch slots and no routing block. -/
def cfgPlain : List Byte := le 2 0 ++ le 1 1 ++ le 1 2 ++ List.replicate 60 0
def img0 : List Byte := imgOf (entOf 0) (declOf 3 64) cfgPlain
/-- A load of an image by stand 0, whose declaration 0 is bound to an outlet. -/
def loadOf (img : List Byte) : Load :=
  ⟨1, 0, 0, 0, 1, false, img, [], 0, false, 0, [], [], 0, 0, 1, 2 ^ 62, .ready, true, true, 0, 0, 0, [⟨1, 0, 0, 0, 16, 0, 0⟩], [], 0, none, [], []⟩
/-- Instance 2 of load 1 on branch 0. -/
def inst0 : Inst := ⟨2, 1, 0, [0]⟩
/-- A request of stand 0 with a descriptor. -/
def reqOf (d : List Byte) (ph : Phase) : Request :=
  ⟨10, 0, 0, 0, 0, d, [], 0, 2 ^ 40, ph, 1, 0, 2, 0, 0, 0, 0, 0, 0, 0, 0, 0, 0, 0, none, 0, false, []⟩
/-- A descriptor with an opcode and FLAGS. -/
def descOf (op flags : Nat) : List Byte := le 2 op ++ List.replicate 54 0 ++ le 2 flags ++ List.replicate 6 0
/-- A pass of instance 2 with request 10. -/
def passOf (cls : Nat) (disp started : Bool) : Pass := ⟨5, 0, some 2, cls, 0, [10], 0, 100, 100, false, disp, 0, 0, started, 0, 0⟩
/-- A part with its image loaded on branch 0, some requests and some passes. -/
def srv (img : List Byte) (rs : List Request) (ps : List Pass) : State :=
  State.reset.modSv (fun v => { v with loads := [loadOf img], insts := [inst0], requests := rs, passes := ps })

/-! ### Hypotheses that are met: leaf control, slot plane, packet plane, passes and stands -/

theorem wit_LeafControlWrites : State.reset.part.legal = true ∧ 5 < State.reset.nLeaves ∧ State.reset.pw.supply = .on ∧ State.reset.frozen = false ∧
    (2 : Nat) < 2 ^ 64 ∧ (2 : Nat).testBit 1 = true ∧ (2 : Nat).testBit 0 = false ∧ (1 : Nat).testBit 0 = true ∧ (1 : Nat).testBit 1 = false ∧
    (3 : Nat).testBit 0 = true ∧ (3 : Nat).testBit 1 = true ∧
    ((State.reset.modLeaf 5 (fun lf => { lf with mode := .waitPass })).leaf 5).mode = .waitPass ∧
    ((onLeaf id).leaf 5).mode = .run ∧ ((onLeaf id).leaf 5).swReq = false ∧ (State.reset.leaf 5).mode = .idle ∧ (busyLeaf.leaf 5).mode = .run ∧
    (∀ c ∈ ((onLeaf id).leaf 5).queue, c.unit ≠ .vector) := by decide
/-- Branch 0 with an entry in slot 0, which copies the beat that node 1 sent west in slot 30 into port 1 of leaf 0. -/
def inEntry : State := State.reset.modBranch 0 (fun x => { x with slots := [(4 * 32, 0x2010)], wires := [(wireKey 30 1 3, ⟨some ⟨9, [1]⟩, none⟩)] })
/-- Branch 0 with an entry in slot 0 that sends port 0 of leaf 0 east, and a beat waiting there. -/
def outEntry : State := (State.reset.modBranch 0 (fun x => { x with slots := [(32, 0x5000)] })).modLeaf 0 (fun lf =>
  lf.setOut 0 { lf.outPort 0 with beats := [(0, [7])] })
theorem wit_slot_entries : (∀ n < 64, ∀ d < 12, (inEntry.branch 0).entry 0 n d 0 = if n = 0 ∧ d = 4 then 0x2010 else 0) ∧
    (∀ n < 64, ∀ d < 12, (outEntry.branch 0).entry 0 n d 0 = if n = 0 ∧ d = 1 then 0x5000 else 0) ∧
    entTsrc 0x2010 = 0 ∧ entDsrc 0x2010 = 1 + 1 ∧ nodeNeighbour 0 1 = some 1 ∧ oppSide 1 = 3 ∧
    (tget Wire.empty (inEntry.branch 0).wires (wireKey ((0 + 30) % 32) 1 3)).beat = some ⟨9, [1]⟩ ∧ (inEntry.leaf 0).queue = [] ∧
    (inEntry.branch 0).handover = false ∧ (inEntry.branch 0).slotCtr = 0 ∧ (inEntry.branch 0).active = 0 := by decide
theorem wit_slot_sources : entTsrc 0x5000 = 0 ∧ entDsrc 0x5000 = 5 ∧ entSport 0x5000 = 0 ∧ ((outEntry.leaf 0).outPort 0).beats = (0, [7]) :: [] ∧
    0 ≤ ((outEntry.leaf 0).outPort 0).leftTokens ∧ outEntry.hasCredit 0 (srcKey 0 5 0) 0 1 0 false = true ∧ (outEntry.leaf 0).queue = [] ∧
    (outEntry.branch 0).active = 0 := by decide
/-- The first and the last branch, a lane with a token in flight, and the first absent branch. -/
theorem wit_SlotPlaneCommands : 0 < State.reset.nBranches ∧ State.reset.branchRuns 0 = true ∧ State.reset.branchRuns 127 = true ∧ 127 < State.reset.nBranches ∧
    (tget Lane.empty ((State.reset.modBranch 0 (fun x => { x with lanes := [(3, ⟨[.tok ⟨1, 0⟩], []⟩)] })).branch 0).lanes 3).flight = [.tok ⟨1, 0⟩] ∧
    State.reset.nBranches ≤ 128 ∧ srcKey 63 5 3 < inletSrc 0 ∧ tget [] (State.reset.branch 127).inlets (inletSrc 0 - inletSrc 0) = [] ∧
    State.reset.frozen = false := by decide
/-- A MERGE unit with a data unit on each input, and a control token: value 0, or a SKIP. -/
def mergeIn (w : Word) : Steer := { Steer.empty with qa := [.beat ⟨1, []⟩], qb := [.beat ⟨2, []⟩], qt := [⟨3, w⟩] }
/-- Branch 0 with a MERGE unit of node 0 that meets a SKIP, its instance and its pass. -/
def skipState : State := (srv img0 [] [passOf 2 true true]).modBranch 0 (fun x => { x with
  steers := [(0, mergeIn 0xFFFE)], steerCfg := [(0, 1)], sentIdle := 65536 })
theorem wit_steering_decisions : (mergeIn 0).fault = 0 ∧ (mergeIn 0).cur = none ∧ (mergeIn 0).pend0 = [] ∧ (mergeIn 0).pend1 = [] ∧
    (mergeIn 0).qt = ⟨3, 0⟩ :: [] ∧ (mergeIn 0).qa = .beat ⟨1, []⟩ :: [] ∧ (mergeIn 0).qb = .beat ⟨2, []⟩ :: [] ∧
    tokTag (0 : Word) = 0 ∧ tokTag (0x00FF0000 : Word) ≠ 0 ∧ isSkipTok (0 : Word) = false ∧ isEndTok (0 : Word) = false ∧ isSkipTok (0xFFFE : Word) = true ∧
    ((skipState.branch 0).steerSet 0 0 0).kind = 1 ∧ 0 < ((skipState.branch 0).steerSet 0 0 0).unitA ∧ 0 < ((skipState.branch 0).steerSet 0 0 0).unitB := by
  decide
theorem wit_SteeringAndSentinels : 0 < State.reset.nBranches ∧ State.reset.branchRuns 0 = true ∧
    (((State.reset.branch 0).steer 0 0).decide ((State.reset.branch 0).steerSet 0 0 0)).st.fault = 0 ∧
    (((skipState.branch 0).steer 0 0).decide ((skipState.branch 0).steerSet 0 0 0)).st.fault = 3 ∧ ((skipState.branch 0).steer 0 0).fault = 0 ∧
    skipState.circuitInst 0 = some inst0 ∧
    skipState.passOn 0 = some (passOf 2 true true) ∧ skipState.runningInst 0 = some inst0 ∧ inst0.home = 0 ∧ (passOf 2 true true).members ≠ [] ∧
    (skipState.branch 0).frozen = false ∧ skipState.sentinelHeld inst0 (passOf 2 true true) = false ∧ (skipState.branch 0).sentEn = true ∧
    Nat.max 1024 (skipState.branch 0).sentLimit ≤ (skipState.branch 0).sentIdle ∧
    ((srv img0 [] [passOf 2 true true]).branch 0).sentIdle < Nat.max 1024 ((srv img0 [] [passOf 2 true true]).branch 0).sentLimit := by decide
/-- Input port 1 of leaf 0 full of beats. -/
theorem wit_SentinelScanFindsFullQueues :
    let s := State.reset.modLeaf 0 (fun lf => lf.setIn 1 ⟨List.replicate 64 ⟨1, []⟩, []⟩)
    0 ∈ inst0.branches ∧ 1 ∈ destPorts 0 4 ∧ s.destFull 0 0 4 1 = true ∧ (s.scanFull inst0.branches).map (·.cause) = some 1 := by decide
theorem wit_LinkCyclesAndArbitration : (∀ i ∈ [0, 5, 8], i < 9) ∧ arbWinner 16 9 [0, 5, 8] = some 5 ∧ 4 % 4 = 0 ∧ 22 % 16 = 6 ∧ 26 % 16 = 10 ∧ 1 % 4 ≠ 0 := by decide
/-- A packet from leaf 5 to leaf 6 of two flits, at the router of leaf 5 with so many flits sent and its output held or not. -/
def pktOf (sent : Nat) (holds resp : Bool) : Packet := ⟨3, 2, .router 5 4, .router 6 4, resp, 2, [⟨5, 1, 4, 0, sent, holds, 0⟩], 7⟩
/-- Access 7 of leaf 5: two bytes, written or read, to a branch memory or to near memory of the own part. -/
def accOf (kind space : Nat) : Access := ⟨7, .leaf 5 0 0, .router 5 4, kind, 0, 0, 0, 0, space, 64, 0, [1, 2], 2, false, false, 0, 0, 2, 1, 1, 1, none, 0, 0, 0⟩
def pktState (p : Packet) (a : Access) : State := { State.reset.modTiers (fun x => { x with accesses := [a] }) with packets := [p] }
theorem wit_PacketPlaneCommands :
    5 < State.reset.nLeaves ∧ (holderOf (pktState (pktOf 0 true false) (accOf 1 2)).packets 5 1 2).isSome = true ∧
    tget 0 (State.reset.branch 0).outCycle (5 * 8 + 1) ≠ (State.reset.branch 0).linkCycle + 1 ∧
    (vcOrder (State.reset.branch 0).linkCycle).find? (fun v => match holderOf (pktState (pktOf 0 true false) (accOf 1 2)).packets 5 1 v with
      | some a => a.canSend (pktState (pktOf 0 true false) (accOf 1 2)).packets 0 | none => false) = some 2 ∧
    (holderOf (pktState (pktOf 0 false false) (accOf 1 2)).packets 5 1 2).isNone = true ∧
    arbWinner 0 (routerPorts 5) ((waitingFor (pktState (pktOf 0 false false) (accOf 1 2)).packets 5 1 2).map (·.h.inp)) = some 4 ∧
    ((waitingFor (pktState (pktOf 0 false false) (accOf 1 2)).packets 5 1 2).find? (fun a => a.h.inp == 4)).isSome = true := by decide
theorem wit_packet_arrivals : (pktOf 0 true false).through = false ∧
    (∀ x ∈ [(false, 1, 2), (false, 0, 0), (true, 0, 0), (true, 1, 0), (true, 2, 0)],
      (let s := (pktState (pktOf 2 false x.1) (accOf x.2.1 x.2.2)).modLeaf 5 (fun lf => { lf with queue := [{ cmdOf .packet (.access 7 none) with upto := 7 }] })
       s.packets.find? (fun p => p.id == 3) = some (pktOf 2 false x.1) ∧ (pktOf 2 false x.1).through = true ∧
       s.packets.any (fun q => decide (q.id < 3) && q.src == (pktOf 2 false x.1).src && q.dst == (pktOf 2 false x.1).dst && q.vc == 2) = false ∧
       s.tiers.accesses.find? (fun a => a.id == 7) = some (accOf x.2.1 x.2.2) ∧ (accOf x.2.1 x.2.2).toArrive ≤ 1 ∧ (accOf x.2.1 x.2.2).pid = s.ownPid ∧
       (s.leaf 5).queue.find? (fun c => c.unit == .packet && c.upto == 7) = some { cmdOf .packet (.access 7 none) with upto := 7 })) ∧
    64 % 2 ^ 25 < 2 ^ 24 ∧ ((State.reset.wf (Reg.ntcStatus 0) 2 0 2).localOk 0 64 2) = none := by decide
/-- A descriptor with its CHECK right, and a ring of stand 0 with one descriptor, of a built stand. -/
def dsc : List Byte := descOf 1 1 |>.take 60
def ringState : State := (regs [(Reg.stdRingCtl 0 0, 2 ^ 63), (Reg.stdRingPtr 0 0, 2 ^ 48)]).wf (Reg.stdStatus 0) 2 0 2
theorem wit_DescriptorFetchQueuesRequests : (dsc ++ le 4 (recCheck 0 dsc)).length = 64 ∧ ringState.nextRing 0 = some 0 ∧ ringState.stdState 0 = 2 ∧
    ringState.serving = true ∧ ringState.ringReady 0 0 1 = true ∧ State.reset.nextRing 63 = none ∧
    fieldLE (dsc ++ le 4 (recCheck 0 dsc)) 60 4 = recCheck (fieldLE (dsc ++ le 4 (recCheck 0 dsc)) 4 4) ((dsc ++ le 4 (recCheck 0 dsc)).take 60) := by decide
theorem wit_DecisionCommands : ∀ op ∈ [1, 2, 3, 4, 0x10, 0x21, 0x20, 0x7F],
    (srv img0 [reqOf (descOf op 1) .undecided] []).firstUndecided 0 = some (reqOf (descOf op 1) .undecided) ∧
    (srv img0 [reqOf (descOf op 1) .undecided] []).serving = true ∧ (srv img0 [] []).stdState 0 ≠ 3 := by decide
/-- An Express INFER with empty buffers on a ring that may carry it, bound to contract 0 with one request of burst. -/
def xreq : Request := reqOf (descOf 1 0) .undecided
def xState : State := ((srv img0 [xreq] []).modSv (fun v => { v with ringBinds := [⟨0, 0, 0, 1⟩] })).each
  [(Reg.stdRingCtl 0 0, 2 ^ 56), (Reg.stdXcon 0 0, 2 ^ 32)] (fun s r => s.putReg r.1 r.2)
theorem wit_express_target : xState.ringTarget { xreq with entry := 0 } (loadOf img0) = some (0, inst0) := by
  have h : xState.instsOf (loadOf img0) 0 = [inst0] := by
    unfold State.instsOf
    rw [show xState.sv.insts.filter (fun i => i.load == (loadOf img0).id && i.entry == 0) = [inst0] from rfl]
    exact List.mergeSort_singleton inst0
  unfold State.ringTarget
  rw [show xState.sv.ringBinds.find? (fun b => b.stand == ({ xreq with entry := 0 } : Request).stand && b.ring == ({ xreq with entry := 0 } : Request).ring &&
    b.load == (loadOf img0).id) = some ⟨0, 0, 0, 1⟩ from rfl]
  show (minBy _ (xState.instsOf (loadOf img0) 0)).map _ = _
  rw [h]; rfl
theorem wit_express_request : xState.firstUndecided 0 = some xreq ∧ xState.serving = true ∧ xState.stdState 0 ≠ 3 ∧ xreq.opcode = 1 ∧ xreq.seqId = 0 ∧
    xreq.aux = 0 ∧ xreq.flags % 4 = 0 ∧ (∀ q ∈ xState.sv.requests, q.id = xreq.id → q = xreq) ∧ xState.entryCheck xreq = some (loadOf img0, 0, none) ∧
    xState.badBuffers xreq = none ∧ shapeCheck img0 0 xreq.shape xreq.inLen xreq.outMax = some 0 ∧
    (xState.res 0).reload = false ∧ 1000000000 ≤ xState.credits 0 0 ∧
    (xState.xLatency 0 0 img0 0 xState.level : Int) ≤ (xreq.deadline : Int) - xreq.arrival := by decide
theorem wit_RefusalsWriteARecordAndForgetTheRequest : (reqOf (descOf 0x7F 1) .undecided).stand < 64 ∧ (reqOf (descOf 0x7F 1) .undecided).ring < 8 ∧
    knownOpcode (reqOf (descOf 0x7F 1) .undecided).opcode = false ∧ (reqOf (descOf 0x7F 1) .undecided).opcode ≠ 1 ∧
    (srv img0 [reqOf (descOf 0x7F 1) .undecided] []).firstUndecided 0 = some (reqOf (descOf 0x7F 1) .undecided) := by decide
/-- An address without a segment, one in another part, and the last byte of one near segment of the own part. -/
theorem wit_StandAddressesTranslate : (State.reset.reg (Reg.stdSegA 0 0)).testBit 63 = false ∧
    segState.translate 0 0 .read ≠ none ∧ fld (segState.reg (Reg.stdSegA 0 0)) 15 0 ≠ segState.ownPid ∧
    (let s := (regs [(Reg.stdSegA 0 0, 2 ^ 63 + 2 ^ 62), (Reg.stdSegB 0 0, 2 ^ 24)]).modSv (fun v => { v with upStacks := [3] })
     s.translate 0 (2 ^ 21 - 1) .read = some ⟨0, 0, 3 * 2 ^ 37 + 2 ^ 21 - 1⟩ ∧ s.translate 0 (2 ^ 21) .read = none ∧ s.translate 0 0 .write = none) ∧
    (5 : Nat).testBit 1 = false := by decide
theorem wit_PassMembersGetTheirSlots : [10, 11].Nodup ∧ 0 < [10, 11].length ∧ (srv img0 [reqOf (descOf 1 1) .waiting] []).req 10 = some (reqOf (descOf 1 1) .waiting) ∧
    7 ∉ [10, 11] ∧ (srv img0 [] [passOf 1 false false]).pass 5 = some (passOf 1 false false) := by decide
/-- A Deadline pass and one of no class that waits, and a planned ship of stand 0. -/
theorem wit_PassesAreDispatched : (∀ c ∈ [0, 1],
      (let s := srv img0 [reqOf (descOf 1 1) .waiting] [passOf c false false]
       s.runningOn 2 = none ∧ (s.planOf 2).find? (fun p => !p.dispatched) = some (passOf c false false) ∧ s.maxReady (passOf c false false) ≤ 0 ∧
       s.serving = true ∧ s.frozen = false ∧ s.inst 2 = some inst0 ∧ s.pass 5 = some (passOf c false false))) ∧
    (passOf 1 false false).inst.bind (srv img0 [] [passOf 1 false false]).inst = some inst0 ∧
    ((srv img0 [] [passOf 1 false false]).fillBulk (passOf 1 false false) inst0).pass 5 = some (passOf 1 false false) ∧
    (let s := srv img0 [] [{ passOf 1 false false with inst := none }]
     (s.shipPlan 0).find? (·.dispatched) = none ∧ (s.shipPlan 0).find? (fun p => !p.dispatched) = some { passOf 1 false false with inst := none }) := by decide
theorem wit_PassesOfEachClass :
    (srv img0 [] []).bulkWaiting inst0 none = [] ∧ (srv img0 [] []).planOf 2 = [] ∧ (srv img0 [] []).xQueue 2 = [] ∧ (srv img0 [] []).runningOn 2 = none ∧
    (srv img0 [reqOf (descOf 1 2) .waiting] []).bulkWaiting inst0 none = [reqOf (descOf 1 2) .waiting] ∧
    0 < entSlots img0 0 ∧ (srv img0 [reqOf (descOf 1 0) .waiting] []).xQueue 2 = [reqOf (descOf 1 0) .waiting] := by decide
/-- A pass whose leaves have ended, of its last and of an earlier stage, and one with a leaf that still runs. -/
theorem wit_PassesComplete :
    ((srv img0 [] [passOf 1 true true]).planOf 2).find? (fun p => p.dispatched && p.inst == some 2) = some (passOf 1 true true) ∧
    (srv img0 [] [passOf 1 true true]).stageDone inst0 = true ∧ (srv img0 [] [passOf 1 true true]).groupsDone (passOf 1 true true) inst0 = true ∧
    (srv img0 [] [passOf 1 true true]).outletsDone inst0 = true ∧ (entCfgs img0 0).length ≤ 0 + 1 ∧
    0 + 1 < (entCfgs (imgOf ((entOf 0).set 4 2) (declOf 3 64) cfgPlain) 0).length ∧
    ((srv img0 [] [passOf 1 true true]).modLeaf 5 (fun lf => { lf with mode := .run })).stageDone inst0 = false := by decide
/-- A live request with its deadline reached and not; a ship from part 9 in its last stage, and one from a sequence of the own part. -/
def shipReq (src : Nat) : Request := reqOf (le 2 0x10 ++ List.replicate 30 0 ++ le 8 src ++ List.replicate 24 0) .running
theorem wit_TimersOfRequests : (srv img0 [reqOf (descOf 1 1) .waiting] []).req 10 = some (reqOf (descOf 1 1) .waiting) ∧
    (reqOf (descOf 1 1) .waiting).live = true ∧ (reqOf (descOf 1 1) .waiting).deadline ≤ (State.reset.at (2 ^ 40)).now + guardNs ∧
    State.reset.now + guardNs < (reqOf (descOf 1 1) .waiting).deadline ∧
    (let s := srv img0 [shipReq (9 * 2 ^ 48)] [{ passOf 1 true true with inst := none, stage := 1 }]
     s.shipRunning 0 = some (shipReq (9 * 2 ^ 48)) ∧ (shipReq (9 * 2 ^ 48)).fault = 0 ∧ fieldLE (shipReq (9 * 2 ^ 48)).desc 32 8 / 2 ^ 48 ≠ s.ownPid ∧
     (s.shipPass 0).map (·.stage) = some 1) ∧
    (let q : Seq := ⟨0, 1, [], 0, 0, [], .ready, true, none⟩
     let d : Seq := ⟨0, 0, [], 0, 0, [], .arriving, false, none⟩
     let s := (srv img0 [shipReq 1] [{ passOf 1 true true with inst := none }]).modSv (fun v => { v with seqs := [q, d] })
     s.shipRunning 0 = some (shipReq 1) ∧ fieldLE (shipReq 1).desc 32 8 / 2 ^ 48 = s.ownPid ∧ s.seq (fld (fieldLE (shipReq 1).desc 32 8) 45 40) 1 = some q ∧
     s.seq 0 (shipReq 1).seqId = some d ∧ shipSourceOk q (shipReq 1).inLen d.geometry = true) := by decide
/-- A frame without payload for inlet 63 of instance 2, whose declaration has size 0. -/
def imgIn : List Byte := imgOf (entOf 0) (declOf 0 0) cfgPlain
def frame0 : List Byte := List.replicate 28 0 ++ le 4 (recCheck 0 (List.replicate 28 0))
def inletState : State := ((srv imgIn [] []).modSv (fun v => { v with inlets := [⟨63, 0, 2, 0, 0, 16, 0⟩] })).putReg (Reg.stdXcon 0 0) (2 ^ 32)
theorem wit_inlet_frames : inletState.serving = true ∧ inletState.frozen = false ∧
    inletState.sv.inlets.find? (fun n => n.num == 63) = some ⟨63, 0, 2, 0, 0, 16, 0⟩ ∧ inletState.inst 2 = some inst0 ∧
    inletState.load 1 = some (loadOf imgIn) ∧ (loadOf imgIn).bound = true ∧
    fieldLE frame0 28 4 = recCheck (fieldLE frame0 0 4) (frame0.take 28) ∧ fieldLE frame0 6 2 = 0 ∧ fieldLE frame0 24 4 = 0 ∧
    fieldLE frame0 4 2 = declSize (declRec imgIn 0) (fun _ => 0) ∧ (frame0.drop 32).length = fieldLE frame0 4 2 ∧
    bucketOf (entShape imgIn 0) (fun _ => 0) = some 0 ∧ (inletState.res 0).reload = false ∧ 1000000000 ≤ inletState.credits 0 0 ∧ fieldLE frame0 8 8 = 0 := by
  decide
/-- Instance 2 with the start of its pass, an outlet circuit at node 0 towards the west, and a result that waits in its lane. -/
def outState (items : List SlotItem) : State :=
  (srv img0 [reqOf (descOf 1 1) .running] [passOf 1 true true]).modBranch 0 (fun x => { x with
    slots := [(3 * 32, 0x1000)], lanes := [(barkKey 0 3 0, ⟨[], items⟩)] })
theorem wit_outlet_frames : (outState []).outletsOf inst0 0 = [(0, 0, (0, 3, 0))] := by decide
theorem wit_PassesTimersAndFrames : untilTok (tget Lane.empty ((outState []).branch 0).lanes (barkKey 0 3 0)).ready = none ∧
    untilTok (tget Lane.empty ((outState [.beat ⟨1, []⟩, .tok ⟨1, 0⟩]).branch 0).lanes (barkKey 0 3 0)).ready = some ([⟨1, []⟩], ⟨1, 0⟩, []) ∧
    isEndTok (0 : Word) = false ∧ isEndTok (0xFFFF : Word) = true ∧ (outState []).runningOn 2 = some (passOf 1 true true) ∧
    (outState []).slotReq (passOf 1 true true) (tokValue (0 : Word)) = some (reqOf (descOf 1 1) .running) ∧
    1 = cdiv (declSize (declRec img0 0) (reqOf (descOf 1 1) .running).shape) 64 := by decide

/-! ### Hypotheses that are met: registers, power, links and transactions -/

/-- The part with its power state changed. -/
def pow (f : Power → Power) : State := State.reset.modPw f
theorem wit_RegisterFieldsFollowTheirAccess :
    (∀ f ∈ [(⟨7, 0, .rw, 0⟩ : RegField), ⟨63, 8, .w1c, 0⟩], f.lo ≤ f.hi ∧ f.hi < 64) ∧
    [(⟨7, 0, .rw, 0⟩ : RegField), ⟨63, 8, .w1c, 0⟩].Pairwise (fun f g => f.hi < g.lo ∨ g.hi < f.lo) := by decide
/-- Seven bytes, an odd offset, a hole, another stand's block, and a write that a stand may not make. -/
theorem wit_RefusedRegisterAccesses : (le 7 0).length ≠ 8 ∧ 0x4001 % 8 ≠ 0 ∧ csrPopulated 0xC000 = false ∧
    sourceStand (.stand 2) = some 2 ∧ stdOf (Reg.stdStatus 3) = some 3 ∧ State.reset.pw.supply = .on ∧ sourceStand .root = none ∧
    (State.reset.at 9).csrKind .root true 0xC000 8 = some 0 ∧ State.reset.rbit Reg.rootCsrErr 63 = false ∧
    (regs [(Reg.rootCsrErr, 2 ^ 63)]).rbit Reg.rootCsrErr 63 = true := by decide
theorem wit_AcceptedRegisterWrites : Reg.pwrPolicy % 8 = 0 ∧ 0x4000 ≤ Reg.pwrPolicy ∧ Reg.pwrPolicy < 0x7000 ∧ Reg.pwrPolicy ≠ Reg.nrgHb ∧
    Reg.pwrPolicy ≠ Reg.pwrStateReq ∧ regFields Reg.pwrPolicy ≠ [] ∧ (State.reset.at 0).sealedWrite Reg.pwrPolicy 1 = false ∧
    State.reset.frozen = false ∧ State.reset.pw.supply = .on ∧ (regs [(Reg.stdIrqMask 63, 2), (Reg.stdIrqPend 63, 2)]).rbit (Reg.stdIrqMask 63) 1 = true ∧
    (0 : Nat).testBit 1 = false ∧ (regs [(Reg.stdIrqMask 63, 2), (Reg.stdIrqPend 63, 2)]).rbit (Reg.stdIrqPend 63) 1 = true ∧
    State.reset.rbit (Reg.stdIrqCfg 63) 0 = false := by decide
/-- A part in serving state (BOOT_STEP 11), one that may sleep, one that is frozen. -/
theorem wit_RegisterWriteCommands : State.reset.rbit Reg.pwrStatus 3 = false ∧ (State.reset.at 0).now < (regs [(Reg.rteEpoch, 5)]).reg Reg.rteEpoch ∧
    11 ≤ (State.reset.wf Reg.rootStatus 15 8 11).rf Reg.rootStatus 15 8 ∧ ((regs [(Reg.rootStatus, 0xB01)]).wf Reg.pwrStatus 18 16 0).mayStandby = true ∧
    (State.reset.wf Reg.dbgStatus 2 0 2).frozen = true ∧ (State.reset.wf Reg.dbgStatus 2 0 2).pw.supply = .on ∧ State.reset.frozen = false ∧
    (1 : Nat) % 4 = 1 ∧ (2 : Nat) % 4 = 2 ∧ (3 : Nat) % 4 = 3 ∧ (2 ^ 63 : Nat).testBit 63 = true ∧ (3 : Nat).testBit 1 = true ∧
    ((regs [(Reg.rootStatus, 0xB01)]).wf Reg.pwrStatus 18 16 0).pw.supply = .on := by decide
theorem wit_StandResetsBegin : (regs [(Reg.stdCfg 63, 2 ^ 63)]).built 63 = true ∧ (regs [(Reg.stdCfg 63, 2 ^ 63)]).stdState 63 ≠ 3 ∧
    State.reset.frozen = false ∧ (regs [(Reg.lnkCfg 16, 4)]).role (16 + 0) = 4 ∧ ((State.reset.modRes 63 (fun r => { r with resetStep := 5 })).res 63).resetStep = 5 ∧
    (State.reset.modRes 63 (fun r => { r with resetStep := 5 })).standPins 63 = [] ∧ State.reset.sv.admins = [] ∧ (State.reset.res 63).resetStep ≠ 5 := by decide
/-- No stand, averages of the last second, a hundred passes of known energy, and the average at and above the cap. -/
theorem wit_LedgerAndAverages : (srv img0 [] [passOf 1 true true]).stands = [] ∧ (srv img0 [] [passOf 1 true true]).passOn 0 = some (passOf 1 true true) ∧
    (srv img0 [] [passOf 1 true true]).pass 5 = some (passOf 1 true true) ∧ State.reset.stands = [] ∧ State.reset.reg Reg.nrgLedger * 1000 + State.reset.pw.ledgerNj + 999 < 2 ^ 64 * 1000 ∧
    ((pow (fun p => { p with overAvgs := [(0, 70000)] })).pw.overAvgs.filter (fun a => decide (0 < a.1 + 1000000000))) ≠ [] ∧
    100 ≤ ((pow (fun p => { p with passesDone := List.replicate 100 (0, 3, 4) })).pw.passesDone.filter (fun p => decide (0 < p.1 + 1000000000))).length ∧
    (∃ p ∈ List.replicate 100 ((0, 3, 4) : Nat × Nat × Nat), p.2.2 ≠ 0) ∧
    State.reset.capW ≤ State.reset.capW ∧ State.reset.capW < State.reset.capW + 1 ∧ State.reset.committed 0 ≤ State.reset.capW * 1000 ∧
    (State.reset.capW + 1) * 100 ≤ State.reset.capW * 105 := by decide
/-- An orphaned part in a sag, and the limits 45,000 and 46,000 mV from both sides. -/
theorem wit_CapsSagsAndHeartbeats : (pow (fun p => { p with sag := true })).pw.sag = true ∧ (State.reset.wbit Reg.pwrStatus 3 true).rbit Reg.pwrStatus 3 = true ∧
    (regs [(Reg.nrgCap, 2000 * 65536)]).rf Reg.nrgCap 31 16 ≠ 0 ∧ (regs [(Reg.nrgHb, 2)]).hbPeriod ≠ 0 ∧
    State.reset.pw.lastBeat + 3 * (regs [(Reg.nrgHb, 2)]).hbPeriod ≤ (State.reset.at (2 ^ 40)).now ∧ State.reset.pw.sag = false ∧
    44999 < 45000 ∧ 45000 < 46000 ∧ (State.reset.at 0).cLine 0 ≤ (State.reset.modPw (fun p => { p with sag := false })).capW := by decide
theorem wit_FloorAndLevels : 127 < State.reset.nBranches ∧ State.reset.nBranches ≤ 128 ∧ (pow (fun p => { p with floorStep := some 0 })).pw.floorStep = some 0 ∧
    (State.reset.at 19999).now < 0 + 20000 ∧ 0 + 20000 ≤ (State.reset.at 20000).now ∧ State.reset.pw.floorSeen = false ∧
    State.reset.pw.floorStep = none ∧ State.reset.rf Reg.pwrStatus 10 8 < 7 ∧
    (State.reset.at 999999).now < State.reset.pw.lastRelease + 1000000 ∧ State.reset.rf Reg.pwrStatus 10 8 ≤ State.reset.pw.floorCool := by decide
theorem breaks_reset (s : State) (h : s.sv.passes = []) : s.powerBreaks = [s.now] := by
  simp [State.powerBreaks, h, List.eraseDups_cons]
/-- FIXED_W of 9,000 W exceeds the line of a 7,500 W part; that of a part after reset does not. -/
theorem wit_FloorSteps : (State.reset.wf Reg.nrgModel 63 48 9000).firstOver = some 0 ∧ State.reset.firstOver = none := by
  unfold State.firstOver; rw [breaks_reset _ (by decide), breaks_reset _ (by decide)]; decide
/-- A release of FLOOR 1 after 1 s. -/
theorem wit_FloorReleases : (State.reset.wf Reg.pwrStatus 10 8 1).rf Reg.pwrStatus 10 8 = 1 ∧ State.reset.pw.floor = 0 ∧
    ((State.reset.wf Reg.pwrStatus 10 8 1).at (10 ^ 9)).stepPower ≤
      ((State.reset.wf Reg.pwrStatus 10 8 1).at (10 ^ 9)).rampUp * (10 ^ 9 - State.reset.pw.lastRelease) / 1000 ∧
    (State.reset.wf Reg.pwrStatus 10 8 1).rf Reg.pwrPolicy 2 0 = 0 := by decide
theorem wit_BallastAndSleep : State.reset.rf Reg.pwrPolicy 23 8 ≠ 0 ∧ (State.reset.branch 127).sleep = .awake ∧ State.reset.passOn 127 = none ∧
    tget 0 State.reset.pw.ballastW 127 = 0 ∧ (∀ c ∈ State.reset.sv.cfgLoads, c.branch ≠ 127) ∧
    (State.reset.branch 127).idleSince + State.reset.rf Reg.pwrPolicy 23 8 * 1000 ≤ (State.reset.at (10 ^ 9)).now ∧ State.reset.noSleep 127 = false ∧
    (State.reset.branch 127).frozen = false ∧ State.reset.rf Reg.pwrPolicy 31 24 ≠ 0 ∧
    ((State.reset.modBranch 127 (fun x => { x with sleep := .s1 })).branch 127).sleep = .s1 ∧
    (regs [(Reg.pwrPolicy, 1)]).rf Reg.pwrPolicy 23 8 = 0 := by decide
/-- Every supply state, and each voltage limit from both sides. -/
theorem wit_SupplyAndResetEvents : State.reset.pw.supply = .on ∧ State.reset.pw.supply ≠ .off ∧ (pow (fun p => { p with supply := .off })).pw.supply = .off ∧
    (pow (fun p => { p with supply := .stopped, stopCause := 1 })).pw.stopCause = 1 ∧ (pow (fun p => { p with supply := .stopped, stopCause := 4 })).pw.stopCause = 4 ∧
    37999 < 38000 ∧ 39999 < 40000 ∧ 61000 < 61001 ∧ (42000 ≤ 58000) ∧ State.reset.rf Reg.rootStatus 15 8 < 6 ∧
    ((regs [(Reg.rstWdog, 7)]).wf Reg.rootStatus 15 8 6).rf Reg.rstWdog 31 0 ≠ 0 ∧
    6 ≤ ((regs [(Reg.rstWdog, 7)]).wf Reg.rootStatus 15 8 6).rf Reg.rootStatus 15 8 ∧
    ((regs [(Reg.rstWdog, 7)]).wf Reg.rootStatus 15 8 6).frozen = false := by decide
theorem wit_ClocksAndStandby : (pow (fun p => { p with supply := .stopped, stopCause := 6 })).pw.supply = .stopped ∧
    (pow (fun p => { p with supply := .standby, brownout := true })).pw.supply = .standby ∧ (State.reset.at 0).clockFeeds 7 = [] ∧
    (regs [(Reg.pwrWakeCfg, 2 ^ 7 + 2 ^ 27)]).rbit Reg.pwrWakeCfg (4 + 3) = true ∧ (regs [(Reg.pwrWakeCfg, 2 ^ 7 + 2 ^ 27)]).rbit Reg.pwrWakeCfg (8 + 19) = true ∧
    (regs [(Reg.pwrWakeCfg, 0)]).rbit Reg.pwrWakeCfg 4 = false := by decide
/-- A reading of 105 degrees, the limit, and one of 106 on a sensor. -/
theorem wit_ThermalResponses : State.reset.sv.insts = [] ∧ State.reset.sv.passes = [] ∧ State.reset.pw.floorCap ≤ 7 ∧ State.reset.pw.floorHot ≤ 7 ∧ (State.reset.wbit Reg.thmStatus 0 true).rbit Reg.thmStatus 0 = true ∧ State.reset.rbit Reg.thmStatus 0 = false ∧
    State.reset.level = 0 ∧ State.reset.allBelow State.reset.alertC = true ∧ State.reset.allBelow 100 = true ∧ State.reset.hasSensor 0 = true ∧
    840 < 2 ^ 16 ∧ (∀ j ∈ State.reset.limitSensors, j ≠ 0 → State.reset.temp j ≤ 840) ∧ State.reset.hasSensor 999 = false ∧
    (regs [(Reg.thmT 0, 848)]).allBelow 100 = false ∧ (regs [(Reg.thmT 0, 848)]).allBelow State.reset.alertC = false := by decide

/-- Registers with link n in a state, with a role. -/
def linkIn (n st role : Nat) : State := regs [(Reg.lnkStatus n, st), (Reg.lnkCfg n, role)]
/-- A transaction of part 9 for this part. -/
def txOf (op addr : Nat) (data : List Byte) : Tx := ⟨op, 0, data.length, 9, 0, addr, 6, 0, 0, 0, 4, 0, 0, data, 0⟩
/-- Widths 8, 4 and 0, and an identity that the link map expects and one that it does not. -/
theorem wit_LinkTrainingResults : (linkIn 11 1 1).linkState 11 = 1 ∧ (linkIn 11 1 1).role 11 = 1 ∧
    Nat.min (widthOf (255 &&& (255 - 0))) (widthOf 255) = 8 ∧ Nat.min (widthOf (0xF0 &&& 255)) (widthOf 255) = 4 ∧ Nat.min (widthOf 0) (widthOf 255) = 0 ∧
    (linkIn 11 1 1).mismatched 11 1 5 3 = false ∧ (regs [(Reg.lnkCfg 11, 1 + 2 ^ 40)]).mismatched 11 1 5 3 = true ∧
    ((linkIn 11 1 1).link 11).restore = none ∧ (linkIn 0 2 1).linkState 0 = 2 ∧ (linkIn 0 3 1).linkState 0 = 3 ∧ (linkIn 0 0 1).linkState 0 ≠ 1 ∧
    2 ≤ ((((linkIn 11 1 1).modLink 11 (fun l => { l with attempts := [0, 1] })).link 11).attempts.filter (fun a => decide (2 < a + 1000000000))).length := by
  decide
/-- A flit of zeros has a wrong CRC; one with its own CRC is a DATA flit with sequence number 0. -/
def goodFlit : List Byte := 1 :: List.replicate 251 0
theorem wit_FlitsOfALink : (linkIn 11 2 1).linkState 11 = 2 ∧ (goodFlit ++ le 4 (crc32c goodFlit)).length = 256 ∧
    fieldLE (goodFlit ++ le 4 0) 0 1 % 4 = 1 ∧ fieldLE (goodFlit ++ le 4 0) 2 2 = ((linkIn 11 2 1).link 11).rxSeq ∧ (linkIn 11 2 1).role 11 ≠ 4 ∧
    ((linkIn 11 2 1).link 11).nakSent = false ∧ ((linkIn 11 2 1).link 11).nakDue = false ∧ ((linkIn 11 2 1).link 11).resend = 0 ∧
    ((linkIn 11 2 1).link 11).txq = [] ∧ ((linkIn 11 2 1).link 11).nakOf = none ∧
    (((linkIn 11 2 1).modLink 11 (fun l => { l with nakOf := some 1, nakCount := 7, nakSeq := 1, replay := [⟨1, 0, [], true, 0, 0⟩] })).link 11).nakOf = some 1 ∧
    (let f : RFlit := ⟨9, 2, [1], true, 0, 0⟩
     let lk := ((linkIn 11 2 1).modLink 11 (fun l => { l with replay := [⟨8, 2, [1], true, 0, 0⟩, f], resend := 1 })).link 11
     lk.resend ≠ 0 ∧ lk.nakDue = false ∧ lk.replay[lk.replay.length - lk.resend]? = some f) ∧
    (let lk := ((linkIn 11 2 1).modLink 11 (fun l => { l with txq := [⟨txOf 2 0 [1], 0⟩], used := [(0, 127)] })).link 11
     lk.nakDue = false ∧ lk.resend = 0 ∧ lk.txq = [⟨txOf 2 0 [1], 0⟩] ∧ (txOf 2 0 [1]).vc < 8 ∧ tget 0 lk.used 0 < vcCredits 0 ∧ lk.replay.length < 256) ∧
    1 ≤ (linkIn 11 2 1).rf (Reg.lnkThresh 11) 47 40 ∧ (linkIn 11 2 1).rf (Reg.lnkThresh 11) 47 40 ≤ 254 + 1 := by decide
set_option maxRecDepth 100000 in
theorem crc_of_a_flit : crc32c ((goodFlit ++ le 4 (crc32c goodFlit)).take 252) = fieldLE (goodFlit ++ le 4 (crc32c goodFlit)) 252 4 ∧
    crc32c ((goodFlit ++ le 4 0).take 252) ≠ fieldLE (goodFlit ++ le 4 0) 252 4 := by decide
/-- Near memory of stack 0 up, 2 MiB of it stand 0's, and part 9 allowed to load and store. -/
def remState : State := (((linkIn 0 2 1).wf (Reg.ntcStatus 0) 2 0 2).putReg (Reg.stdCfg 0) (2 ^ 63)).putReg (Reg.stdNearRegion 0) (2 ^ 24) |>.modUr (fun u => { u with active := [(18, 2 ^ 34)] })
theorem wit_RemoteAccessesAreCheckedFirst : remState.role 0 ≠ 3 ∧ (txOf 2 0 [1, 2]).dst = remState.ownPid ∧ remState.frozen = false ∧
    remState.pw.supply = .on ∧ remState.remoteStatus (txOf 2 0 [1, 2]) 2 = 0 ∧ txPoison (txOf 2 0 [1, 2]) = 0 ∧
    remState.remoteStatus (txOf 3 4 []) 4 = 0 ∧ remState.remoteStatus (txOf 2 4094 [1, 2, 3]) 3 ≠ 0 ∧ remState.remoteStatus (txOf 3 (2 ^ 47) []) 4 ≠ 0 ∧
    fld (3 * 2 ^ 45) 47 45 = 3 ∧ 4 < fld (5 * 2 ^ 45) 47 45 ∧ State.reset.allowLs 9 = false := by decide
/-- A port in Urren host mode. -/
theorem wit_HostModeAccesses : (regs [(Reg.lnkCfg 16, 3)]).role 16 = 3 ∧ (regs [(Reg.lnkCfg 16, 3)]).pw.supply = .on ∧ (1 : Nat) = ({ txOf 1 0 [] with vc := 1 }).vc := by
  decide
/-- A sequence of stand 0 that the part may ship, its page, and what is outstanding towards part 9, to which port 0 leads. -/
def seqOf (st : SeqState) (sp : Nat) : Seq := ⟨0, 3, [7], 5, sp, [], st, true, none⟩
def arrState : State := (remState.modUr (fun u => { u with active := [(18, 2 ^ 34 + 2 * 2 ^ 24 + 1)], outst := [⟨6, 9, 0, .none, 0⟩, ⟨8, 9, 0, .ship 10, 0⟩] })).modSv
  (fun v => { v with seqs := [seqOf .ready 0], requests := [reqOf (descOf 5 1) .running] })
/-- Held with room, and without it: 2,049 flits wait. -/
theorem wit_HeldTransactions : (State.reset.wf Reg.dbgStatus 2 0 2).frozen = true ∧ (State.reset.wf Reg.dbgStatus 2 0 2).role 0 ≠ 3 ∧
    State.reset.holdRoom (txOf 1 0 []) = true ∧
    (State.reset.modDb (fun d => { d with heldTx := List.replicate 2048 (0, txOf 1 0 []) })).holdRoom (txOf 1 0 []) = false := by decide
/-- A message for another part of the grove, one for this part behind it, one for a part alone. -/
theorem wit_GatewayMessages : (2 ^ 48 * 5 + 1) % 2 = 1 ∧ (2 ^ 48 * 5 + 1) / 2 ^ 48 ≠ State.reset.ownPid ∧ 1 / 2 ^ 48 = State.reset.ownPid ∧ 0 % 2 = 0 := by decide
theorem wit_TransactionArrivals : remState.seq (fld 0 45 40) 0 = none ∧ (∀ o ∈ remState.ur.outst, o.tag ≠ 6) ∧
    arrState.seq 0 (3 % 2 ^ 32) = some (seqOf .ready 0) ∧ shipSourceOk (seqOf .ready 0) 5 [7] = true ∧ shipSourceOk (seqOf .lost 0) 5 [7] = false ∧
    shipSourceOk (seqOf .ready 1) 5 [7] = false ∧ shipSourceOk (seqOf .ready 0) 6 [7] = false ∧
    arrState.ur.outst.find? (fun o => o.tag == 8 * 2 ^ 32 / 2 ^ 32 && o.dst == 9) = some ⟨8, 9, 0, .ship 10, 0⟩ ∧
    (arrState.req 10).isSome = true ∧
    arrState.ur.outst.find? (fun o => o.tag == (txOf 0x10 0 []).tag && o.dst == (txOf 0x10 0 []).src) = some ⟨6, 9, 0, .none, 0⟩ ∧
    (arrState.at 999).now < 0 + 1000 * Nat.max 1 (arrState.rf Reg.rteCfg 47 32) ∧
    0 + 1000 * Nat.max 1 (arrState.rf Reg.rteCfg 47 32) ≤ (arrState.at (2 ^ 40)).now := by decide
/-- Whatever goes to part 9 with LEG 0 has a port. -/
theorem wit_route_to_part_9 : ∀ x : Tx, x.dst = 9 → x.leg = 0 → ∃ p, arrState.routeTx x = .ok p := by
  intro x hx hl
  have hu : arrState.upPorts x (fld (arrState.route64 x.dst) 19 0) = [0] := by
    simp only [State.upPorts, State.eligible, hx, hl]; decide
  have h1 : (arrState.route64 9).testBit 33 = false := by decide
  have h2 : fld (arrState.route64 9) 26 24 = 2 := by decide
  rw [hx] at hu
  exact ⟨_, by simp [State.routeTx, hx, h1, h2, hu]; rfl⟩
/-- A route to part 7 by port 0, none to part 8; a tree that enters by port 3. -/
def fwdState : State := remState.modUr (fun u => { u with active := [(14, 2 * 2 ^ 24 + 1)], mcActive := [(0, 2 ^ 63 + 3 * 2 ^ 16 + 5), (1, 5), (2, 2 ^ 63 + 2 ^ 21 + 3 * 2 ^ 16 + 4), (3, 5)] })
theorem wit_ForwardingAndTrees : fwdState.role 15 = 0 ∧ txKnown 0x0F = false ∧ txKnown 2 = true ∧ (txOf 2 0 [1]).ttl ≠ 0 ∧ { txOf 2 0 [1] with ttl := 0 }.ttl = 0 ∧
    txNonPosted (txOf 2 0 [1]) = false ∧ txNonPosted (txOf 1 0 []) = true ∧ (regs [(Reg.lnkCfg 12, 2)]).role 12 = 2 ∧
    (fwdState.treeOf 4).map (fun e => (treeIn e, treeLocal e)) = some (3, true) ∧ (5 : Nat).testBit 2 = true ∧ (5 : Nat).testBit 1 = false ∧ fwdState.portUp 2 = false ∧
    (fwdState.wf Reg.dbgStatus 2 0 2).frozen = true ∧ (fwdState.wf Reg.dbgStatus 2 0 2).holdRoom (txOf 5 0 [1]) = true ∧
    { txOf 2 0 [1] with dst := 7 }.dst ≠ fwdState.ownPid ∧ fwdState.role 0 = 1 ∧ txNonPosted { txOf 5 0 [1] with dst := 7 } = false ∧
    (match fwdState.routeTx { txOf 2 0 [1] with dst := 7, ttl := 3 } with | .ok n => n == 0 | _ => false) = true ∧
    (match fwdState.routeTx { txOf 2 0 [1] with dst := 8, ttl := 3 } with | .error e => e == 1 | _ => false) = true ∧
    fwdState.treeOf 6 = none ∧ (fwdState.treeOf 5).map treeIn = some 3 ∧ (fwdState.treeOf 5).map treeLocal = some false := by decide
theorem wit_RoutingEpochsAndDrains : (State.reset.wbit Reg.rteStatus 1 true).rbit Reg.rteStatus 1 = true ∧
    State.reset.reg Reg.rteEpoch ≤ State.reset.now ∧ State.reset.copying = false ∧ State.reset.ur.routeWaits = [] ∧ State.reset.ur.outst = [] ∧
    (State.reset.wbit Reg.rteStatus 2 true).copying = true ∧
    (let f : Flow := ⟨7, 0, 1, 0, [txOf 2 0 [1]]⟩
     let s := fwdState.modUr (fun u => { u with flows := [f] })
     s.ur.flows.find? (fun f => f.dst == 7 && f.vc == 0) = some f ∧ s.flowBusy 7 0 = false ∧ f.last + s.quiesceNs ≤ (s.at (2 ^ 20)).now ∧
       f.waiting = [txOf 2 0 [1]] ∧ (match s.routeTx { txOf 2 0 [1] with dst := 7 } with | .ok n => n == 0 | _ => false) = true ∧
       (s.modLink 0 (fun l => { l with txq := [⟨{ txOf 2 0 [1] with dst := 7 }, 0⟩] })).flowBusy 7 0 = true) ∧
    State.reset.ur.draining = [] ∧ (State.reset.modUr (fun u => { u with draining := [4] })).ur.draining = [4] ∧ State.reset.drained = true := by decide
/-- A child of the part at port 0, and an exchange whose delay is an outlier. -/
theorem wit_RingTimeExchanges : State.reset.ur.clock.parent = none ∧
    (let s := (linkIn 0 2 1).modUr (fun u => { u with clock := { u.clock with parent := some 0 } })
     s.ur.clock.parent = some 0 ∧ s.rbit Reg.timeCfg 1 = false ∧ s.portUp 0 = true ∧ s.ur.clock.t1 ≠ some (0, 6)) ∧
    (let s := (linkIn 0 2 1).modUr (fun u => { u with clock := { u.clock with t1 := some (0, 6), delays := [0] } })
     let d := (tsDiff ((s.at 1000).stamp 0) (fieldLE (List.replicate 28 0) 0 8) - tsDiff (fieldLE (List.replicate 28 0) 16 8) (fieldLE (List.replicate 28 0) 8 8) -
        signed32 (fieldLE (List.replicate 28 0) 24 4)) / 2
     s.ur.clock.t1 = some (0, 6) ∧ s.ur.clock.delays.any (fun x => decide (x + 32 < d.toNat)) = true) ∧
    (let s := (linkIn 0 2 1).modUr (fun u => { u with clock := { u.clock with t1 := some (0, 6) } })
     s.ur.clock.t1 = some (0, 6) ∧ s.ur.clock.delays.any (fun x => decide (x + 32 < 16000)) = false ∧ s.now < 2 ^ 64) ∧
    (regs [(Reg.timeCfg, 3)]).rbit Reg.timeCfg 1 = true ∧ (regs [(Reg.timeCfg, 3)]).rbit Reg.timeCfg 0 = true ∧
    (regs [(Reg.timeCfg, 3)]).rf Reg.timeStatus 2 0 ≠ 4 ∧ (regs [(Reg.timeCfg, 3)]).rbit Reg.rootStatus 2 = false ∧
    State.reset.rbit Reg.timeCfg 1 = false ∧ (State.reset.at 1000000000).now % 1000000000 = 0 ∧ (regs [(Reg.rstPinopt, 4)]).rbit Reg.rstPinopt 2 = true := by decide

/-! ### Hypotheses that are met: loads, tiers, movers, copies -/

/-- A fill of a seed-bank slot, or a load of context 0 that has begun or not, on branch 0. -/
def fillOf (fill begun : Bool) : CfgLoad := ⟨0, 1, 0, 0, 0, fill, false, begun, 100⟩
def loadsState (l : Load) (cs : List CfgLoad) : State :=
  (State.reset.modSv (fun v => { v with loads := [l], insts := [inst0], cfgLoads := cs })).modBranch 0 (fun x => { x with seeds := [(2, ⟨true, 1, 0, 0, 0, 0, 0⟩)] })
/-- The near copy of the image of load 1. -/
def imgObj (st : CopyState) : PoolObj := ⟨7, 0, 3, 1, 0, 64, [(0, 0)], st, false, 0, [], 0, 0⟩
def withObjs (s : State) (os : List PoolObj) : State := s.modSv (fun v => { v with objs := os })
theorem wit_SeedBanks : (State.reset.wf Reg.dbgStatus 2 0 2).frozen = true ∧ (loadsState (loadOf img0) [fillOf true false]).frozen = false ∧
    (loadsState (loadOf img0) [fillOf true false]).sv.cfgLoads.find? (fun c => c.branch == 0 && c.fill) = some (fillOf true false) ∧
    (∀ st ∈ [CopyState.verified, .unverified], (withObjs (loadsState (loadOf img0) [fillOf true false]) [imgObj st]).imageObj 1 = some (imgObj st)) ∧
    (loadsState (loadOf img0) [fillOf true false]).sv.fetches = [] ∧ 8 ≤ { fillOf true false with ctx := 8 }.ctx ∧ (fillOf true false).ctx < 8 ∧
    (loadsState (loadOf img0) [fillOf true false]).pickSeed 0 = some 0 ∧
    (let s := (loadsState (loadOf img0) [fillOf false true]).beginLoads [0]
     s.sv.cfgLoads.filter (fun c => c.branch == 0 && !c.fill) = [fillOf false true] ∧ s.seedOf 0 1 0 0 = some 2) ∧
    (loadsState (loadOf img0) [fillOf false false]).sv.cfgLoads.find? (fun c => c.branch == 0 && !c.fill) = some (fillOf false false) ∧
    (loadsState (loadOf img0) [fillOf false false]).seedOf 0 1 0 0 = some 2 ∧ (loadsState (loadOf img0) [fillOf false false]).sv.passes = [] ∧
    ((loadsState (loadOf img0) [fillOf false false]).branch 0).active = (fillOf false false).ctx ∧
    ((loadsState (loadOf img0) [fillOf false false]).branch 0).active ≠ { fillOf false false with ctx := 3 }.ctx ∧
    (branchLeaves 0).any (fun l => ((onLeaf id).leaf l).mode == .run || ((onLeaf id).leaf l).mode == .stall) = true := by decide
/-- A seed slot of no bytes whose CRC is right, and one whose CRC is not. -/
theorem wit_SeedCrc : crc32c [] = 0 ∧ crc32c [] ≠ 1 := by decide
/-- A bank whose every slot a live request needs. -/
theorem wit_FullSeedBank :
    (srv img0 [reqOf (descOf 1 1) .waiting] [] |>.modBranch 0 (fun x => { x with seeds := (List.range 12).map (fun n => (n, ⟨true, 1, 0, 0, 0, 0, 0⟩)) })).pickSeed 0 = none := by
  decide
/-- Stand 0's volume 0 of one block, and an FTL that answers. -/
def volState (s : State) : State := (s.each [(Reg.ftlVolA 0, 2 ^ 63), (Reg.ftlVolB 0, 1)] (fun s r => s.putReg r.1 r.2)).wf Reg.ftlStatus 2 0 2
theorem wit_LoadManifests :
    (∀ role ∈ [0, 2], (loadsState { loadOf img0 with phase := .manifest, role := role } []).load 1 = some { loadOf img0 with phase := .manifest, role := role }) ∧
    imgManifestId img0 = 0 ∧ img0 ≠ [] ∧ fieldLE (loadOf img0).rxManifest 16 4 = 0 ∧
    (let m := List.replicate 16 (0 : Byte) ++ le 4 24 ++ le 4 0
     fieldLE m 16 4 ≠ 0 ∧ fieldLE m 16 4 ≤ m.length ∧ (m.take 20).length < fieldLE m 16 4) ∧
    (loadOf img0).phase ≠ .manifest ∧ manifestOk [] img0 [] = false := by decide
theorem wit_LoadsAndSeedBanks : pinEntries (imgOf (entOf 1) (declOf 3 64) cfgPlain) ≠ [] ∧
    (∀ pre ∈ [false, true],
      (let l := { loadOf (imgOf (entOf 1) (declOf 3 64) cfgPlain) with phase := .loading, bound := false, preloaded := pre }
       let s := (loadsState l []).modBranch 0 (fun x => { x with ctxs := [(0, ⟨true, true, 0, 0, 1, 0, 0, 0, false⟩)] })
       s.load 1 = some l ∧ s.serving = true ∧ l.manifest = [] ∧ s.pinReady l = true ∧ s.preloadsDone l = true)) ∧
    (let l := { loadOf (imgOf (entOf 1) (declOf 3 64) cfgPlain) with phase := .loading, preloaded := true }
     let s := ((loadsState l []).modBranch 0 (fun x => { x with ctxs := [(0, ⟨true, true, 0, 0, 1, 0, 0, 0, false⟩)] })).modMover 0 0 (fun m => m.place
       [ringPlain 0 (le 1 2 ++ List.replicate 31 0)])
     s.pinReady l = true ∧ s.preloadsDone l = false) ∧
    (loadsState { loadOf img0 with phase := .evicting } []).sv.requests = [] ∧ (loadOf img0).phase ≠ .evicting ∧
    (loadsState { loadOf img0 with phase := .evicting } []).sv.loads = [{ loadOf img0 with phase := .evicting }] := by decide
/-- A queue of a tier with an access of the part, of each kind and at the last stack or channel, at its limit and before it. -/
def nearAcc (kind space k : Nat) (e : Option Nat) : Access := { accOf kind space with src := .bark 0, cls := 0, off := k * 2 ^ 37, entered := e, addr := 0, hit := false }
def tierState (a : Access) : State := State.reset.modTiers (fun x => { x with stripe := [23], pGib := 1, accesses := [a] })
theorem wit_TierQueues : 15 < State.reset.nStacks ∧ State.reset.nStacks ≤ 16 ∧ State.reset.nextAccess true 15 = none ∧ State.reset.nextAccess false 23 = none ∧
    (∀ kind ∈ [0, 1, 2], (tierState (nearAcc kind 0 15 (some 0))).nextAccess true 15 = some (nearAcc kind 0 15 (some 0)) ∧
      (tierState (nearAcc kind 1 0 (some 0))).nextAccess false 23 = some (nearAcc kind 1 0 (some 0))) ∧
    { nearAcc 0 0 15 (some 0) with bypass := true }.cacheOf = none ∧ (nearAcc 0 0 15 (some 0)).cacheOf = some 0 ∧
    ({ nearAcc 2 0 15 none with fn := 5, rc := 7 }).fn = 5 ∧ (7 : Word) ≠ 0 ∧ (tierState (nearAcc 0 0 15 (some 0))).frozen = false := by decide
theorem wit_LateAccesses : (tierState (nearAcc 0 0 15 (some 0))).tiers.accesses.find? (fun a => a.id == 7 && a.pid == 0 && decide (a.space < 2) && !a.hit) =
      some (nearAcc 0 0 15 (some 0)) ∧
    ((tierState (nearAcc 0 0 15 (some 0))).at 1999).now < 0 + (nearAcc 0 0 15 (some 0)).limit ∧ 0 + (nearAcc 0 0 15 (some 0)).limit ≤ (State.reset.at (2 ^ 40)).now ∧
    (tierState (nearAcc 0 1 0 (some 0))).warmPlace 0 = some (23, 0) ∧ (nearAcc 0 1 0 (some 0)).space ≠ 0 := by decide
theorem wit_NearAndWarmTiers : 0xFDFFFFFFF / 64 * 64 < 0xFE0000000 ∧ (State.reset.nearSector 15 0 [] none false).1.nextAccess true 15 = none ∧
    (State.reset.warmSector 23 0 [] false).1.nextAccess false 23 = none ∧
    (State.reset.wf (Reg.ntcStatus 15) 2 0 2).rf (Reg.ntcStatus 15) 2 0 = 2 ∧ (State.reset.wf (Reg.wtcStatus 23) 2 0 3).rf (Reg.wtcStatus 23) 2 0 = 3 ∧
    State.reset.rf (Reg.ntcStatus 0) 2 0 ≠ 4 ∧ State.reset.rf (Reg.wtcStatus 23) 2 0 ≠ 4 ∧ State.reset.tiers.accesses = [] ∧ State.reset.sv.objs = [] ∧
    State.reset.sv.insts = [] ∧ State.reset.sv.loads = [] ∧ State.reset.sv.jobs = [] := by decide
/-- The three outcomes of the near code: zeros decode, one wrong symbol is corrected, more than the code finds are not. -/
theorem wit_NearDecoding : nearDecode 0 none (nearWord (List.replicate 64 0)) = .clean ∧
    (match nearDecode 0 none (addErrors (nearWord (List.replicate 64 0)) [(3, 5)]) with | .corrected _ => true | _ => false) = true ∧
    nearDecode 1 none (addErrors (nearWord (List.replicate 64 0)) [(3, 5), (4, 9)]) = .detected ∧
    warmDecode none (warmWord (List.replicate 64 0)) = .clean := by decide
/-- A superblock on channels 0 and 1 with logical block 4 in its first data page. -/
def sb0 : SuperBlock := ⟨0, 2, [0, 1], [], 0, [], [some 4]⟩
def ftlIn (st : Nat) : State := (((State.reset.wf Reg.ftlStatus 2 0 st).putReg Reg.ftlCap 6).wf (Reg.wtcStatus 23) 2 0 2).modTiers (fun x => { x with
  stripe := [23], pGib := 1, warmCap := [(23, 2)], lGib := 1, units := [(23, 2 ^ 30, 512)], ftlRanges := [(0, 1)]
  ftl := { x.ftl with channels := [0, 1], pagesPerBlock := 8, goodPages := 64, blocks := [sb0], map := [(4, some (0, 0))], openBlk := some 0, openSince := some 0 } })
/-- An image that names a manifest; its header's block, never written, reads as zeros, and then no further byte is read. -/
def imgM : List Byte := List.replicate 20 0 ++ le 2 1 ++ le 2 1 ++ le 2 1 ++ le 2 0 ++ le 4 64 ++ List.replicate 32 0 ++
  (le 2 8 ++ le 2 0 ++ le 4 0 ++ le 4 80 ++ le 4 64) ++ le 8 1 ++ List.replicate 56 0
theorem wit_ManifestReads : imgManifestId imgM = 1 ∧ (match (volState (ftlIn 2)).volGet 0 0 0 64 with
    | .bytes h => (match ((volState (ftlIn 2)).rootRead 0 0 0 (fieldLE h 16 4) []).2 with | .bytes _ => true | _ => false)
    | _ => false) = true := by decide
/-- The same with a manifest of 64 bytes in a page whose first codeword no stage of decoding gives. -/
def volLost : State := (volState (ftlIn 2)).modFtl (fun f => { f with blocks := [{ sb0 with pages := [some 0] }], map := [(0, some (0, 0))] })
theorem wit_LostManifest : (match (volLost.memWrite (volKey 0 0) (List.replicate 16 0 ++ le 4 64)).volGet 0 0 0 64 with
    | .bytes h => fieldLE h 16 4 == 64 | _ => false) = true ∧
    (match (volLost.rootRead 0 0 0 64 [3]).2 with | .lost => true | _ => false) = true := by decide
/-- An access of the deep tier to a logical block. -/
def volAcc (kind block : Nat) : Access := { nearAcc kind 8 0 (some 0) with off := block * 16384 + 64 }
def volWith (s : State) (a : Access) : State := s.modTiers (fun x => { x with accesses := [a] })
theorem wit_DeepReads : ((ftlIn 1).deepAt 5).ftlReady = false ∧ ((ftlIn 2).deepAt 5).ftlReady = true ∧ ((ftlIn 2).deepAt 5).frozen = false ∧
    tget none ((ftlIn 2).deepAt 5).tiers.ftl.map 5 = none ∧ tget none ((ftlIn 2).deepAt 5).tiers.ftl.map 4 = some (0, 0) ∧ ((ftlIn 2).deepAt 5).sb 0 = some sb0 ∧
    sb0.chanOf 0 < 32 ∧ ((ftlIn 2).deepAt 5).tiers.ftl.lostPos.contains (0, sb0.chanOf 0) = false ∧ (∀ k, k < 4 → ([] : List Nat).getD k 0 = 0) ∧
    ((ftlIn 2).deepAt 5).nextVol = none ∧
    (∀ k ∈ [0, 1], ((volWith (ftlIn 2) (volAcc k 4)).deepAt 5).nextVol = some (volAcc k 4)) ∧ (volAcc 0 4).off / 16384 = 4 := by decide
theorem wit_DeepWrites : ((ftlIn 4).deepAt 5).ftlWrites = false ∧ ((ftlIn 2).deepAt 5).ftlWrites = true ∧ 5 < ((ftlIn 2).deepAt 5).rf Reg.ftlCap 47 0 ∧
    ((ftlIn 2).deepAt 5).rf Reg.ftlCap 47 0 ≤ 6 ∧ ((ftlIn 2).deepAt 5).mapReadable 5 = true ∧ ((ftlIn 2).deepAt 5).openSb = some sb0 ∧
    ((ftlIn 2).deepAt 5).ftlState ≠ 1 ∧ (ftlIn 1).ftlState = 1 ∧ ((volWith (ftlIn 2) (volAcc 1 5)).deepAt 5).volWrite 5 64 [] =
      ((((volWith (ftlIn 2) (volAcc 1 5)).deepAt 5).volWrite 5 64 []).1, true) := by
  refine ⟨by decide, by decide, by decide, by decide, by decide, by decide, by decide, by decide, ?_⟩
  rfl
theorem wit_DeepTier : (ftlIn 2).tiers.ftl.openSince = some 0 ∧ (ftlIn 2).tiers.ftl.openBlk = some 0 ∧ State.reset.tiers.ftl.openSince = none ∧
    minBy (fun b => b.pe) (ftlIn 2).tiers.ftl.blocks = some sb0 ∧ (∀ c ∈ sb0.chans, tget 0 sb0.reads c < (ftlIn 2).rf Reg.ftlCfg 63 40) ∧
    (ftlIn 2).sb 9 = none ∧ sb0.pages[0]? = some (some 4) ∧ sb0.bad.contains 1 = false ∧ ({ sb0 with bad := [1] }).bad.contains 1 = true ∧
    (ftlIn 2).tiers.ftl.channels.contains 5 = false ∧ (ftlIn 2).tiers.ftl.channels.contains 1 = true ∧ (ftlIn 2).tiers.ftl.rebuilding = false ∧
    (1 : Nat) ∈ sb0.chans ∧ sb0.pages ≠ [] ∧ sb0.ce = 2 ∧ sb0.ce < 8 ∧ ((ftlIn 2).modFtl (fun f => { f with rebuilding := true, lostPos := [] })).tiers.ftl.rebuilding = true ∧
    ((ftlIn 2).each ([] : List Nat) State.moveSb).tiers.ftl.lostPos = [] := by decide
/-- A descriptor of a kind (0 NOP, 1 MOVE, 2 WAIT) with fetched and started bits, on mover 3 of branch 0. -/
def ringOf (kind : Nat) (f st : Bool) : RingDesc :=
  ⟨0, le 1 kind ++ [0, 0x10] ++ List.replicate 29 0, none, 0, 0, 0, f, st, false, false, false, false, false, none, [], 0, false, 0, 0, [], 0, 0⟩
def movState (ds : List RingDesc) (tk : List Tok) : State :=
  State.reset.modBranch 0 (fun x => { x with movers := [(3, { Mover.empty with ring := ds, inTokens := tk })] })
theorem wit_MoverCommands : State.reset.nBranches ≤ 128 ∧ State.reset.moverRuns 0 4 = false ∧ (movState [] []).moverRuns 0 3 = true ∧
    ((movState [ringOf 0 false false] []).branch 0 |>.mover 3).firstUnfetched = 0 ∧ ((movState [] []).branch 0 |>.mover 3).ring.filter RingDesc.ready = [] ∧
    8 ≤ (((movState (List.replicate 8 (ringOf 0 true false)) []).branch 0 |>.mover 3).ring.filter RingDesc.ready).length ∧
    (∀ k ∈ [0, 1, 2], ((movState [ringOf k true false] []).branch 0 |>.mover 3).nextStart = some (0, ringOf k true false) ∧ (ringOf k true false).kind = k ∧
      (∀ e ∈ [ringOf k true false], (e.running && e.kind == 1) = false ∧ (e.running && e.kind == 2) = false)) ∧
    (ringOf 1 true true).running = true ∧ (ringOf 1 true true).kind = 1 ∧
    findIdx (fun d => d.running && d.kind == 2) ((movState [ringOf 2 true true] [⟨1, 0⟩]).branch 0 |>.mover 3).ring 0 = some (0, ringOf 2 true true) ∧
    ((movState [ringOf 2 true true] [⟨1, 0⟩]).branch 0 |>.mover 3).inTokens = [⟨1, 0⟩] ∧
    [ringOf 1 true true][0]? = some (ringOf 1 true true) ∧ (let d := { ringOf 1 true true with moved := true }
      d.running = true ∧ d.kind = 1 ∧ d.moved = true ∧ d.acks = 0 ∧ d.upto ≤ Mover.empty.outLeft) := by decide
/-- A MOVE that waits for beats of the slot plane, with nothing behind it that may start. -/
theorem wit_MovesThatWait : (let d := { ringOf 1 true true with bytes := [1, 0, 1] ++ List.replicate 29 0 }
    ((movState [d] []).branch 0 |>.mover 3).ring = [d] ∧ d.running = true ∧ d.kind = 1 ∧
      ((((movState [d] []).goOn 0 3 0).branch 0).mover 3).nextStart = none) := by decide
/-- Copies of each kind and state; a graft whose digest is right, and one whose digest is of other bytes. -/
def objOf (kind : Nat) (st : CopyState) : PoolObj := ⟨4, 0, kind, 0, 0, 64, [(0, 0)], st, false, 0, [], 0, 0⟩
def warmOf (st : CopyState) (tries : Nat) : WarmCopy := ⟨4, 0, [], 0, 64, [], st, tries, 0, [(0, 64)]⟩
def graftOf (st : GraftState) (commit : Nat) : Graft := ⟨0, 4, 1, 0, 1, [], commit, [(0, 1)], st, none, 5, [], true, 0, .unverified, 0⟩
def cpy (o : List PoolObj) (w : List WarmCopy) (g : List Graft) (ls : List Load) : State :=
  State.reset.modSv (fun v => { v with objs := o, warm := w, grafts := g, loads := ls })
/-- A manifest of one shard (index 0) of member 0. -/
def man0 : List Byte := List.replicate 22 0 ++ le 2 0 ++ le 4 1 ++ List.replicate 36 0 ++ List.replicate 64 0
def man1 : List Byte := man0.set 30 1
/-- A load with a manifest. -/
def loadMan (m : List Byte) : Load := { loadOf img0 with manifest := m }
theorem wit_ShardArrivals : (cpy [objOf 0 .unverified] [] [] []).obj 4 = some (objOf 0 .unverified) ∧
    (cpy [] [] [] [loadMan man0]).objLoad (objOf 0 .unverified) = some (loadMan man0) ∧ manLyorn man0 = false ∧ manLyorn man1 = true ∧
    (let j : CopyJob := ⟨0, 1, 0, 0, some 0, [0], [0]⟩
     let s := (cpy [objOf 0 .unverified] [] [] [loadMan man0]).modSv (fun v => { v with jobs := [j] })
     s.sv.jobs.find? (fun j => j.started.isSome) = some j ∧ j.shards.find? (s.jobOpen j) = some (objOf 0 .unverified).index ∧ s.draining = false ∧
     (s.modUr (fun u => { u with draining := [4] })).draining = true) ∧
    (cpy [] [warmOf .unverified 0] [] []).warmCopy 4 = some (warmOf .unverified 0) ∧ (cpy [] [warmOf .unverified 0] [] []).readerOf 0 [] = none := by decide
/-- A shard of no bytes can be read from the volume. -/
theorem bytes_of {x : State × VolGot} (h : (match x.2 with | .bytes _ => true | _ => false) = true) : ∃ s2 bs, x = (s2, .bytes bs) := by
  rcases x with ⟨a, b⟩
  cases b with
  | bytes bs => exact ⟨a, bs, rfl⟩
  | _ => cases h
theorem wit_VolumeShards : ∃ s2 bs, (volState (cpy [] [] [] [loadMan man1])).volShard (loadMan man1) 0 = (s2, .bytes bs) := bytes_of (by decide)
/-- The reader of a warm copy, by the digest of its manifest. -/
theorem wit_Readers : ∃ l, (cpy [] [] [] [loadMan man0]).readerOf 0 (Crypto.sha256 man0) = some l := by
  refine ⟨loadMan man0, ?_⟩
  have h : ([loadMan man0] : List Load).find? (fun l => !l.manifest.isEmpty && manId l.manifest == 0 && Crypto.sha256 l.manifest == Crypto.sha256 man0 &&
      l.role != 2) = some (loadMan man0) := by
    have h1 : (loadMan man0).manifest = man0 := rfl
    have h2 : man0.isEmpty = false := by decide
    have h3 : manId man0 = 0 := by decide
    simp [List.find?, h1, h2, h3]; decide
  exact h
/-- What a copier finds in warm residency: verified bytes, of a graft version and of a shard. -/
theorem wit_LowerBytes : (match (cpy [] [] [{ graftOf .current 0 with copy := .verified }] []).lower { objOf 1 .unverified with manifest := 4, index := 1 } with
    | .bytes _ => true | _ => false) = true := by decide
theorem wit_Scrubs : chunkDigest ((cpy [objOf 0 .verified] [] [] []).objRead (objOf 0 .verified) 0 0) ≠ [] ∧ (objOf 0 .verified).kind < 2 ∧
    (cpy [] [] [graftOf .current 0] []).warmCopy 5 = none ∧ (cpy [] [] [graftOf .current 0] []).graftNum 5 = some (graftOf .current 0) := by decide
theorem wit_Refetches : (objOf 0 .quarantined).tries = 0 ∧ (objOf 0 .quarantined).kind < 2 ∧ ¬ (objOf 2 .quarantined).kind < 2 ∧
    0 < (warmOf .quarantined 1).tries ∧ (warmOf .quarantined 2).tries < 3 ∧ 3 ≤ (warmOf .quarantined 3).tries ∧ (warmOf .quarantined 0).state = .quarantined := by decide
/-- The first source of a re-fetch of a LYORN shard is the volume again. -/
theorem wit_FirstSources : ∃ s2 bs, (volState (cpy [] [] [] [loadMan man1])).nearAgain (objOf 0 .quarantined) = (s2, .bytes bs) := bytes_of (by decide)
theorem wit_CopyJobs : (let j : CopyJob := ⟨0, 1, 0, 0, none, [0], [0]⟩
     let s := (cpy [objOf 0 .unverified] [] [] [loadMan man0]).modSv (fun v => { v with jobs := [j] })
     s.sv.jobs = j :: [] ∧ s.jobLoad j = some (loadMan man0) ∧ s.draining = false ∧ ({ j with started := some 3 }).started.isSome = true) := by decide
theorem wit_CopiesAndGrafts : (State.reset.wf Reg.dbgStatus 2 0 2).frozen = true ∧
    (cpy [] [] [] [{ loadMan man0 with role := 1, trees := [5] }]).load 1 = some { loadMan man0 with role := 1, trees := [5] } ∧ man0 ≠ [] ∧ manShards man0 = 1 ∧
    (loadOf img0).role ≠ 1 ∧ (State.reset.at 6).now < (loadOf img0).deadline ∧ (5 : Nat) ≤ (State.reset.at 6).now ∧
    ({ loadMan man0 with role := 2, deadline := 5, phase := .loading }).deadline ≠ 0 ∧ (cpy [] [] [] []).warmMissing (loadMan man0) ≠ [] ∧
    (∀ st ∈ [GraftState.staging, .ready], (cpy [] [] [graftOf st 5] []).graft 0 4 1 = some (graftOf st 5)) ∧ (graftOf .staging 0).commit = 0 ∧
    (State.reset.at 4).now < 5 ∧ (graftOf .staging 5).taken = true ∧ (graftOf .staging 5).waits = 0 ∧ (graftOf .staging 5).copy = .unverified ∧
    (let a : Admin := ⟨3, .root, 0, 0x32, 0, .row, []⟩
     let g := { graftOf .staging 5 with taken := false, msg := some 3 }
     ((cpy [] [] [g] []).modSv (fun v => { v with admins := [a] })).graftMsg g = some a) ∧
    State.reset.sv.fetches = [] ∧ (cpy [objOf 1 .quarantined] [] [] []).obj (⟨4, 0⟩ : Fetch).obj = some (objOf 1 .quarantined) ∧
    (cpy [] [] [] [loadMan man0]).standManifest 0 0 = some man0 ∧ (cpy [imgObj .unverified] [] [] [loadOf img0]).load (imgObj .unverified).manifest = some (loadOf img0) := by
  decide
theorem wit_GraftDigests : chunkDigest [0] = ({ graftOf .staging 5 with digest := chunkDigest [0] }).digest := rfl

/-! ### Hypotheses that are met: forks, host ports, debug, admin messages, bring-up -/

/-- A configuration of a branch whose routing block has one fork step (K = 1, E = 1, its MODE and flags, LIST 0x400, IDX 0x500, DB 64), one group step (NSRC 1, one entry, one
trigger, TABLE 0x1000, DB 128) and the expert entry that leads from one to the other. -/
def cfgForkOf (eager flags fed peer : Byte) : List Byte := cfgPlain ++ (le 4 0x42524B57 ++ [1, 1] ++ le 2 1 ++ List.replicate 56 0) ++
  ([0, eager, 1, flags] ++ le 2 1 ++ le 2 256 ++ le 2 32 ++ [0, 0] ++ le 2 32 ++ le 2 32 ++ le 4 0x400 ++ le 4 0x2000 ++ le 4 0x500 ++ le 4 0x3000 ++ le 4 0x4000 ++
    le 4 0x600 ++ le 4 64 ++ List.replicate 20 0) ++
  ([0, 0, fed, 1] ++ le 2 1 ++ [1, 0] ++ le 4 0x1000 ++ le 4 128 ++ le 4 132 ++ List.replicate 44 0) ++ (peer :: List.replicate 15 0)
def imgF (eager flags fed peer : Byte) : List Byte := imgOf (entOf 0) (declOf 3 64) (cfgForkOf eager flags fed peer)
def rtF : List Byte := routing (imgF 1 2 1 0) 0
def forkRun0 (dec : Bool) (n : Nat) : ForkRun := ⟨20, 5, 2, 0, 0, n, false, [0, 2 ^ 63 + 9], [0], 0, dec, [], [], [], [], false⟩
def groupRun0 (act run ret : Bool) : GroupRun := ⟨5, 2, 0, 0, 0, act, 0, run, ret, 0⟩
def frkOf (img : List Byte) (fs : List ForkRun) (gs : List GroupRun) (ws : List (Nat × Nat)) : State :=
  ((srv img [reqOf (descOf 1 1) .running] [passOf 1 true true]).modSv (fun v => { v with forks := fs, groups := gs })).each ws
    (fun s w => s.scratchWrite 0 w.1 (leBytes 4 w.2))
def frk : List ForkRun → List GroupRun → List (Nat × Nat) → State := frkOf (imgF 1 2 1 0)
theorem wit_RunningRoutingBlock : (frk [] [] []).instOn 0 = some (inst0, 0) ∧ ((frk [] [] []).runningCfg inst0).isSome = true ∧ State.reset.instOn 0 = none ∧
    nForks rtF = 1 ∧ nGroups rtF = 1 ∧ fkRel (forkStep rtF 0) = 0 ∧ gsRel (groupStep rtF 0) = 0 := by decide
theorem wit_ForkSteps : (forkRun0 false 3).final = false ∧ leNat ((frk [] [] [(64, 2)]).scratchRead 0 (fkDb (forkStep rtF 0)) 4) % 65536 < 3 ∧
    (fkHier (forkStep rtF 0) || fkCapf (forkStep rtF 0)) = true ∧
    (leNat ((frk [] [] [(64, 2 ^ 31 + 4)]).scratchRead 0 (fkDb (forkStep rtF 0)) 4)).testBit 31 = true ∧
    (frk [forkRun0 true 0] [] []).forkRun 5 0 = some (forkRun0 true 0) ∧ (forkRun0 false 0).decided = false ∧
    (frk [forkRun0 true 0] [] []).releaseTarget (passOf 1 true true) inst0 (forkRun0 true 0) rtF (forkStep rtF 0) 0 = some (0, 0, 0) ∧
    ((frk [] [] []).joinWant 0 (forkStep rtF 0) 1) = [(0, 0)] ∧ ((frk [] [] []).joinWant 0 (forkStep rtF 0) 0) = [] := by decide
/-- An EAGER step with an absolute capacity, which has announced two records; and a step whose expert lies on peer 1, valid or not. -/
theorem wit_EagerAndPeers : (let f := forkStep (routing (imgF 1 0 1 0) 0) 0
     (fkHier f || fkCapf f) = false ∧ leNat ((frkOf (imgF 1 0 1 0) [] [] [(64, 2)]).scratchRead 0 (fkDb f) 4) = 2 ∧ (2 : Nat).testBit 31 = false) ∧
    (let rt := routing (imgF 1 2 1 1) 0
     (frkOf (imgF 1 2 1 1) [forkRun0 true 0] [] []).releaseTarget (passOf 1 true true) inst0 (forkRun0 true 0) rt (forkStep rt 0) 0 = some (1, 0, 0)) ∧
    ((forkRun0 true 0).peers.getD 1 0).testBit 63 = true ∧ (({ forkRun0 true 0 with peers := [] }).peers.getD 1 0).testBit 63 = false := by decide
/-- A posted release to a part that port 0 leads to. -/
theorem wit_PeerReleases : (let rt := routing (imgF 1 2 1 1) 0
    let s := { frkOf (imgF 1 2 1 1) [forkRun0 true 0] [] [] with csr := (linkIn 0 2 1).csr, ur := arrState.ur }
    (s.launch (s.forkTx (passOf 0 true true) (forkRun0 true 0) (forkStep rt 0) (1, 0, 0, 0) 1 [] 0) (.fork 20 65536)).2 = none) := by decide
/-- A trigger of a running instance. -/
theorem wit_ForkTriggers : (frk [] [] []).instByOrder (0 % 64) (fld 1 55 48) = some inst0 ∧ fld 1 7 0 = 1 ∧
    fld 1 23 16 < nGroups rtF ∧ gsRel (groupStep rtF (fld 1 23 16)) = fld 1 15 8 := by decide
theorem wit_ForksAndGroups : (groupRun0 false false false).done < gsTrigs (groupStep rtF 0) ∧
    gsNsrc (groupStep rtF 0) ≤ leNat ((frk [] [] [(128, 1)]).scratchRead 0 (gsDb (groupStep rtF 0)) 4) ∧
    leNat ((frk [] [] []).scratchRead 0 (gsDb (groupStep rtF 0)) 4) < gsNsrc (groupStep rtF 0) ∧
    (∀ r ∈ [false, true], ∀ q ∈ [false, true], (frk [] [groupRun0 true r q] []).groupRun 5 0 = some (groupRun0 true r q)) ∧
    (frk [] [groupRun0 true false false] []).branchIdle 0 = true ∧
    (frk [] [groupRun0 true false false] [(0x1004, 3)]).nextEntry 0 (groupStep rtF 0) 0 0 = some 0 ∧
    (frk [] [groupRun0 true true false] [(0x1004, 3)]).nextEntry 0 (groupStep rtF 0) 0 1 = none ∧
    (frk [] [groupRun0 true false false] []).nextEntry 0 (groupStep rtF 0) 0 0 = none ∧
    gsForkFed (groupStep rtF 0) = false ∧ (frk [] [groupRun0 true false false] []).returnsQueued 0 = false ∧
    (let rt := routing (imgF 1 2 0 0) 0
     let s2 := (frkOf (imgF 1 2 0 0) [] [groupRun0 true false false] []).returnRows 0 0 (passOf 1 true true) inst0 rt (groupStep rt 0) 0
     gsForkFed (groupStep rt 0) = true ∧ ((s2.groupRun 5 0).map (fun x => x.waits)).getD 0 = 0 ∧ s2.returnsQueued 0 = false) ∧
    (∀ r ∈ State.reset.sv.rows, r.kind ≠ 2) ∧
    findIdx (fun r => r.kind == 2) [(⟨2, 2, 0, 0, 0, [], [], 0⟩ : ForkRow)] 0 = some (0, ⟨2, 2, 0, 0, 0, [], [], 0⟩) := by decide
/-- Port 16 in PCIe mode with an admin message of the PF, VF 1 for stand 0, and inlet 63 of that stand. -/
def pcie : State := (regs [(Reg.lnkCfg 16, 4), (Reg.hptAqBase 0 0, 1), (Reg.hptAqPtr 0 0, 256), (Reg.lnkHostStands 16, 1), (Reg.stdCfg 0, 2 ^ 63)]).modSv
  (fun v => { v with inlets := [⟨63, 0, 2, 0, 0, 16, 0⟩] })
theorem wit_HostPorts : pcie.fnEnabled 0 0 = true ∧ pcie.fnEnabled 0 1 = true ∧ pcie.sv.inlets.any (fun i => i.num == 63 && i.stand == 0) = true ∧
    pcie.sv.inlets.any (fun i => i.num == 0 && i.stand == 0) = false ∧ (pcie.wf Reg.dbgStatus 2 0 2).frozen = true ∧
    0x3F * 0x1000 + 0xFFF < 0x40000 ∧ 0xFFFFFFFF + 1 ≤ 2 ^ 32 ∧ (List.replicate 32 (0 : Byte)).length = 32 + fieldLE (List.replicate 32 0) 4 2 ∧ pcie.serving = true ∧ pcie.fnEnabled 0 9 = false ∧ pcie.rbit (Reg.hptAqBase 0 0) 0 = true ∧
    pcie.rf (Reg.hptAqPtr 0 0) 5 0 ≠ pcie.rf (Reg.hptAqPtr 0 0) 13 8 ∧ pcie.fnEnabled 4 0 = false ∧ State.reset.rbit (Reg.hptAqBase 0 0) 0 = false := by decide
/-- The management path with power, without it, with only standby power, and with its buffer full or overflowed. -/
def mgt (f : Mgmt → Mgmt) : State := { State.reset with mg := f State.reset.mg }
theorem wit_HostPortsAndSmbus : (pow (fun p => { p with supply := .off })).pw.supply = .off ∧ (pow (fun p => { p with supply := .standby })).pw.supply ≠ .off ∧
    (pow (fun p => { p with supply := .standby })).smbFull = false ∧ State.reset.smbFull = true ∧ smbAlways 0x3000 = false ∧ smbAlways 0 = true ∧ ((State.reset.at 0).csrRead .smbus 0xC000 8).2 = none ∧
    ((State.reset.at 0).csrRead .smbus 0 8).2.isSome = true ∧ (mgt (fun m => { m with buf := List.replicate 1023 0 })).mg.buf.length + 1 ≤ 1024 ∧
    1024 < (mgt (fun m => { m with buf := List.replicate 1023 0 })).mg.buf.length + 2 ∧ (mgt (fun m => { m with state := 3 })).mg.state = 3 ∧
    State.reset.smbRunning = false ∧ (State.reset.modSv (fun v => { v with admins := [⟨1, .smbus, 0, 0x30, 0, .smbus, []⟩] })).smbRunning = true ∧
    (mgt (fun m => { m with alerting := true })).mg.alerting = true ∧ (mgt (fun m => { m with alertAnswered := some 5 })).mg.alertAnswered = some 5 ∧
    (State.reset.at (5 + 99999999)).now < 5 + 100000000 ∧ State.reset.alertCauses = 0 ∧ (regs [(Reg.pwrEvent, 2 ^ 63)]).alertCauses ≠ 0 := by decide
theorem wit_DebugAccess : (pow (fun p => { p with supply := .standby })).jtagAlive = false ∧ State.reset.jtagAlive = true ∧ State.reset.scanOk = false ∧
    (State.reset.wf Reg.dbgStatus 2 0 2).scanOk = true ∧ (State.reset.wf Reg.rootStatus 15 8 11).frozen = false ∧
    State.reset.rf Reg.rootStatus 15 8 < 11 ∧ State.reset.db.dump = none ∧ (State.reset.modDb (fun d => { d with dump := some (127, 0, 0xFFF000) })).db.dump = some (127, 0, 0xFFF000) ∧
    State.reset.traceFits (4104 + 24) = true ∧ 0xFFE000 + 4096 < regionSize 0 ∧ regionSize 0 ≤ 0xFFF000 + 4096 ∧
    ((regs [(Reg.trcCtl, 16)]).modDb (fun d => { d with recs := [[1]] })).db.recs = [[1]] ∧ (regs [(Reg.trcCtl, 16)]).rf Reg.trcCtl 5 4 ≠ 0 ∧
    State.reset.db.lost = 0 ∧ (regs [(Reg.rstPinopt, 2)]).rbit Reg.rstPinopt 1 = true ∧ State.reset.db.shorted.contains 7 = false ∧
    (State.reset.at 1000000).now % 1000000 = 0 ∧ 10 ≤ (State.reset.wf Reg.rootStatus 15 8 10).rf Reg.rootStatus 15 8 ∧
    leNat (State.reset.pageBytes 8 8) ≠ (State.reset.at 1000000).now := by decide
/-- A message of n bytes with zeros in its body: type, LEN and the management bit of its header. -/
def msgOf (type n : Nat) (stand : Byte) : List Byte := le 2 type ++ le 2 n ++ le 4 0 ++ [stand] ++ List.replicate (n - 9) 0
theorem wit_AdminMessages : State.reset.inProgress .root < 64 ∧ (sourceStand (.stand 3)).isSome = true ∧ (sourceStand .root).isSome = false ∧
    (∀ x ∈ [(0x20, 176), (0x61, 32), (0x60, 48), (0x70, 64), (0x51, 48)], headerOk .root (msgOf x.1 x.2 0x80) = true ∧ (msgOf x.1 x.2 0x80).length = x.2 ∧
      fieldLE (msgOf x.1 x.2 0x80) 2 2 = x.2) ∧
    headerOk (.stand 3) (msgOf 0x30 64 3) = true ∧ headerOk .root (msgOf 0x30 64 3) = false ∧ runsFrozen (fieldLE (msgOf 0x61 32 0x80) 0 2) = true ∧
    runsFrozen (fieldLE (msgOf 0x30 64 0x80) 0 2) = false ∧ (linkIn 0 0 1).role 0 ≠ 0 ∧ State.reset.copying = false ∧
    64 ≤ (State.reset.modSv (fun v => { v with admins := List.replicate 64 ⟨1, .root, 0, 0x30, 0, .row, []⟩ })).inProgress .root := by decide
/-- Bodies at a limit of each type that checks one. -/
theorem wit_AdminBodies : modelLoadOk (msgOf 0x30 384 3) = true ∧ graftPutOk ((((msgOf 0x32 128 3).set 32 1).set 35 1).set 36 64) = true ∧
    routeUpdateOk ((msgOf 0x41 72 0x80).set 40 1) = true ∧ 48 + 24 * fieldLE ((msgOf 0x41 72 0x80).set 40 1) 40 2 = 72 ∧
    1 ≤ fieldLE ((msgOf 0x33 64 3).set 32 1) 32 3 ∧ (1 ≤ fieldLE ((msgOf 0x50 64 0x80).set 48 1) 48 4 ∧ fieldLE ((msgOf 0x50 64 0x80).set 48 1) 48 4 ≤ 3600000) ∧
    fieldLE (msgOf 0x60 48 0x80) 32 1 < 2 ∧ (∀ n, Source.root ≠ .remoteAdmin n) := by
  refine ⟨by decide, by decide, by decide, by decide, by decide, by decide, by decide, ?_⟩
  intro n; exact Source.noConfusion
/-- A COUNTER_SNAPSHOT that waits, and FREEZE messages of a remote administrator with each SCOPE. -/
theorem wit_SnapshotsAndScopes : (State.reset.modSv (fun v => { v with admins := [⟨1, .root, 0, 0x70, 0, .row, []⟩] })).sv.admins.filter (fun a => a.type == 0x70) ≠ [] ∧
    (∀ x ∈ [(0 : Byte), 1], headerOk (.remoteAdmin 9) ((msgOf 0x60 48 0x80).set 32 x) = true ∧ fieldLE ((msgOf 0x60 48 0x80).set 32 x) 32 1 = x.toNat ∧
      zeros ((msgOf 0x60 48 0x80).set 32 x) 33 15 = true) := by decide
theorem wit_BerTests : State.reset.ur.bers = [] ∧
    (State.reset.modUr (fun u => { u with bers := [⟨1, 1, 0, 1000000, false, 0⟩] })).ur.bers.find? (fun j => !j.running && decide (j.start ≤ 0)) =
      some ⟨1, 1, 0, 1000000, false, 0⟩ ∧
    (State.reset.modUr (fun u => { u with bers := [⟨1, 1, 0, 1000000, true, 0⟩] })).ur.bers.find? (fun j => j.running && decide (j.fin ≤ 1000000)) =
      some ⟨1, 1, 0, 1000000, true, 0⟩ := by decide
/-- Each step of bring-up at the time it may run, and step 11 of a part that has its time and of one that has not. -/
theorem wit_AdminMessagesAndBringUp : State.reset.pw.origin = some 0 ∧ State.reset.rf Reg.seedStatus 2 0 ≠ 4 ∧
    (∀ n ∈ [1, 2, 3, 4, 5, 6, 7, 8, 9, 10, 11], (State.reset.wf Reg.rootStatus 15 8 (n - 1)).rf Reg.rootStatus 15 8 + 1 = n ∧
      0 + bootMs n * 1000000 ≤ (State.reset.at (1660 * 1000000)).now) ∧ (State.reset.at 339999999).now < 0 + bootMs 5 * 1000000 ∧
    State.reset.timeReady = false ∧ (regs [(Reg.timeCfg, 2)]).timeReady = true := by decide

end Sys2Proof.Tests
end

section
/-! What no command changes: the part's variant and stepping, and the queue behind the command that runs (00 R7, 00 R9; log entry 2).

Both stand in `State.fixed`. Every update of the state is shown once to leave them as they were (`<update>_fixed`), in the model's order,
so that each proof rests on the lemmas of the updates it calls; a command's outcome then keeps them (`<command>_keeps`), whatever
decisions it takes on the way. Commands that only call one update, or issue one leaf instruction, have no lemma of their own:
`exec_keeps` reads them off their definitions. -/

namespace Sys2Proof.Machine

/-! ### The fixed fields and the ways a command's outcome is built -/

/-- The fixed fields of a state given by its fields. -/
@[simp] theorem State.fixed_mk (part now free mem leaves branches csr sv tiers pw mg db ur cnt page out poisonLog packets nextPacket pending) :
    (State.mk part now free mem leaves branches csr sv tiers pw mg db ur cnt page out poisonLog packets nextPacket pending).fixed =
      (part, pending) := Prod.ext rfl rfl
@[simp] theorem State.part_pending (s : State) : (s.part, s.pending) = s.fixed := rfl
@[simp] theorem State.fixed_ite (c : Prop) [Decidable c] (s t : State) : (if c then s else t).fixed = if c then s.fixed else t.fixed :=
  apply_ite State.fixed c s t
@[simp] theorem State.each_fixed {α : Type} (s : State) (l : List α) (f : State → α → State) (h : ∀ s a, (f s a).fixed = s.fixed) :
    (s.each l f).fixed = s.fixed := State.each_frame h l s
@[simp] theorem State.foldl_fixed {α : Type} (s : State) (l : List α) (f : State → α → State) (h : ∀ s a, (f s a).fixed = s.fixed) :
    (l.foldl f s).fixed = s.fixed := State.each_frame h l s
/-- The state a pair is taken apart into has the fixed fields of the pair's. -/
theorem State.fixed_of_fst {α : Type} {x : State × α} {t : State} {a : α} (h : x = (t, a)) : t.fixed = x.1.fixed := by rw [h]
theorem State.fixed_of_snd {α : Type} {x : α × State} {t : State} {a : α} (h : x = (a, t)) : t.fixed = x.2.fixed := by rw [h]

/-- A command that answers a next state keeps the fixed fields of s. -/
def State.keptBy (s : State) (o : Host.Outcome State Fault Refusal) : Prop := ∀ t, o = .next t → t.fixed = s.fixed
@[simp] theorem State.keptBy_next (s t : State) : s.keptBy (.next t) ↔ t.fixed = s.fixed :=
  ⟨fun h => h t rfl, fun h _ e => by cases e; exact h⟩
@[simp] theorem State.keptBy_fault (s : State) (f : Fault) : s.keptBy (.fault f) := fun _ e => by cases e
@[simp] theorem State.keptBy_refused (s : State) (r : Refusal) : s.keptBy (.refused r) := fun _ e => by cases e
@[simp] theorem State.keptBy_ite (s : State) (c : Prop) [Decidable c] (o o' : Host.Outcome State Fault Refusal) :
    s.keptBy (if c then o else o') ↔ if c then s.keptBy o else s.keptBy o' := by split <;> rfl

/-- An issue that completes keeps the fixed fields of s. -/
def State.keptByIssue (s : State) : Issue → Prop
  | .done t => t.fixed = s.fixed
  | .portWait => True
  | .queueWait => True
@[simp] theorem State.keptByIssue_done (s t : State) : s.keptByIssue (.done t) ↔ t.fixed = s.fixed := Iff.rfl
@[simp] theorem State.keptByIssue_portWait (s : State) : s.keptByIssue .portWait := trivial
@[simp] theorem State.keptByIssue_queueWait (s : State) : s.keptByIssue .queueWait := trivial
@[simp] theorem State.keptByIssue_ite (s : State) (c : Prop) [Decidable c] (i j : Issue) :
    s.keptByIssue (if c then i else j) ↔ if c then s.keptByIssue i else s.keptByIssue j := by split <;> rfl

/-- The fixed fields of the state in a decision, taken or refused. -/
def decisionFixed : Except (Nat × State) (Nat × State) → PartId × List Instr
  | .ok x => x.2.fixed
  | .error x => x.2.fixed
@[simp] theorem decisionFixed_ok (x : Nat × State) : decisionFixed (.ok x) = x.2.fixed := rfl
@[simp] theorem decisionFixed_error (x : Nat × State) : decisionFixed (.error x) = x.2.fixed := rfl
@[simp] theorem decisionFixed_ite (c : Prop) [Decidable c] (x y : Except (Nat × State) (Nat × State)) :
    decisionFixed (if c then x else y) = if c then decisionFixed x else decisionFixed y := apply_ite decisionFixed c x y
/-- A fold that carries a value beside the state. -/
@[simp] theorem State.foldl_fst_fixed {α β : Type} (f : State × β → α → State × β) (l : List α) (x : State × β)
    (h : ∀ x a, (f x a).1.fixed = x.1.fixed) : (l.foldl f x).1.fixed = x.1.fixed := by
  induction l generalizing x with
  | nil => rfl
  | cons a l ih => rw [List.foldl_cons, ih, h]
theorem State.getD_fixed {s : State} {o : Option State} (h : ∀ t, o = some t → t.fixed = s.fixed) : (o.getD s).fixed = s.fixed := by
  cases o with
  | none => rfl
  | some t => exact h t rfl

theorem State.keptBy_if {s : State} {c : Prop} [Decidable c] {o o' : Host.Outcome State Fault Refusal} (h : s.keptBy o) (h' : s.keptBy o') :
    s.keptBy (if c then o else o') := by
  split
  · exact h
  · exact h'

section
variable (s : State)

/-! ### Ring time, memory, leaves and branches -/

@[simp] theorem State.at_fixed (t) : (s.at t).fixed = s.fixed := by simp [State.at]
@[simp] theorem State.tick_fixed : s.tick.fixed = s.fixed := by simp [State.tick]
@[simp] theorem State.memSet_fixed (k v) : (s.memSet k v).fixed = s.fixed := by simp [State.memSet]
@[simp] theorem State.memWrite_fixed (k bs) : (s.memWrite k bs).fixed = s.fixed := by simp [State.memWrite]
@[simp] theorem State.putLeaf_fixed (l lf) : (s.putLeaf l lf).fixed = s.fixed := by simp [State.putLeaf]
@[simp] theorem State.modLeaf_fixed (l f) : (s.modLeaf l f).fixed = s.fixed := by simp [State.modLeaf]
@[simp] theorem State.putBranch_fixed (b x) : (s.putBranch b x).fixed = s.fixed := by simp [State.putBranch]
@[simp] theorem State.modBranch_fixed (b f) : (s.modBranch b f).fixed = s.fixed := by simp [State.modBranch]
@[simp] theorem State.modBranches_fixed (bs f) : (s.modBranches bs f).fixed = s.fixed := by simp [State.modBranches]
@[simp] theorem State.modLeavesOf_fixed (b f) : (s.modLeavesOf b f).fixed = s.fixed := by simp [State.modLeavesOf]
@[simp] theorem State.reportPoison_fixed (b mover index reason req addr) :
    (s.reportPoison b mover index reason req addr).fixed = s.fixed := by
  simp [State.reportPoison]

/-! ### Registers of the map -/

@[simp] theorem State.putReg_fixed (off v) : (s.putReg off v).fixed = s.fixed := by simp [State.putReg]
@[simp] theorem State.wf_fixed (off hi lo x) : (s.wf off hi lo x).fixed = s.fixed := by simp [State.wf]
@[simp] theorem State.wbit_fixed (off i b) : (s.wbit off i b).fixed = s.fixed := by simp [State.wbit]
@[simp] theorem State.bump_fixed (off hi lo x) : (s.bump off hi lo x).fixed = s.fixed := by simp [State.bump]
@[simp] theorem State.clearReg_fixed (off) : (s.clearReg off).fixed = s.fixed := by simp [State.clearReg]
@[simp] theorem State.clearRegs_fixed (offs) : (s.clearRegs offs).fixed = s.fixed := by simp [State.clearRegs]
@[simp] theorem State.firstEvent_fixed (log timeReg v) : (s.firstEvent log timeReg v).fixed = s.fixed := by simp [State.firstEvent]
@[simp] theorem State.count_fixed (o x) : (s.count o x).fixed = s.fixed := by simp [State.count]
@[simp] theorem State.emit_fixed (o) : (s.emit o).fixed = s.fixed := by simp [State.emit]
@[simp] theorem State.modSv_fixed (f) : (s.modSv f).fixed = s.fixed := by simp [State.modSv]

/-! ### Trace records and the fault log -/

@[simp] theorem State.modDb_fixed (f) : (s.modDb f).fixed = s.fixed := by simp [State.modDb]
@[simp] theorem State.traceFill_fixed : s.traceFill.fixed = s.fixed := by simp [State.traceFill]
@[simp] theorem State.tracePush_fixed (type time payload) : (s.tracePush type time payload).fixed = s.fixed := by
  simp [State.tracePush]
@[simp] theorem State.traceLose_fixed : s.traceLose.fixed = s.fixed := by simp [State.traceLose]
@[simp] theorem State.traceLost_fixed : s.traceLost.fixed = s.fixed := by simp [State.traceLost]
@[simp] theorem State.traceRec_fixed (type time payload) : (s.traceRec type time payload).fixed = s.fixed := by
  simp [State.traceRec]
@[simp] theorem State.traceStand_fixed (sd type payload) : (s.traceStand sd type payload).fixed = s.fixed := by
  simp [State.traceStand]
@[simp] theorem State.event_fixed (source index value addr) : (s.event source index value addr).fixed = s.fixed := by
  simp [State.event]
@[simp] theorem State.eventOf_fixed (sd source index value addr) : (s.eventOf sd source index value addr).fixed = s.fixed := by
  unfold State.eventOf
  split <;> simp
@[simp] theorem State.faultLog_fixed (kind value addr) : (s.faultLog kind value addr).fixed = s.fixed := by simp [State.faultLog]

/-! ### Sending over Urren -/

@[simp] theorem State.modUr_fixed (f) : (s.modUr f).fixed = s.fixed := by simp [State.modUr]
@[simp] theorem State.modLink_fixed (n f) : (s.modLink n f).fixed = s.fixed := by simp [State.modLink]
@[simp] theorem State.queueTx_fixed (n tx) : (s.queueTx n tx).fixed = s.fixed := by simp [State.queueTx]
@[simp] theorem State.flowSend_fixed (n tx) : (s.flowSend n tx).fixed = s.fixed := by
  unfold State.flowSend
  split <;> simp
@[simp] theorem State.sendTx_fixed (tx) : (s.sendTx tx).1.fixed = s.fixed := by
  unfold State.sendTx
  (repeat' split) <;> simp
@[simp] theorem State.launch_fixed (tx p) : (s.launch tx p).1.fixed = s.fixed := by
  unfold State.launch
  dsimp only
  (repeat' split) <;> simp

/-! ### The freeze of the part -/

@[simp] theorem State.freeze_fixed (cause drive peers) : (s.freeze cause drive peers).fixed = s.fixed := by simp [State.freeze]
@[simp] theorem State.holdTx_fixed (port tx) : (s.holdTx port tx).fixed = s.fixed := by simp [State.holdTx]
@[simp] theorem State.trigger_fixed (bit) : (s.trigger bit).fixed = s.fixed := by simp [State.trigger]

/-! ### Operands of leaf code -/

@[simp] theorem State.leafWrite_fixed (l a bs) : (s.leafWrite l a bs).fixed = s.fixed := by
  induction bs generalizing s a with
  | nil => rfl
  | cons _ _ ih => simp [State.leafWrite, ih]

/-! ### Flags and poison of a leaf -/

@[simp] theorem State.leafFault_fixed (l kind pc laddr) : (s.leafFault l kind pc laddr).fixed = s.fixed := by simp [State.leafFault]
@[simp] theorem State.consume_fixed (l why pc laddr) : (s.consume l why pc laddr).fixed = s.fixed := by
  unfold State.consume
  (repeat' split) <;> simp

/-! ### Issue of leaf code -/

@[simp] theorem State.handoverCheck_fixed (l n) : (s.handoverCheck l n).fixed = s.fixed := by simp [State.handoverCheck]
@[simp] theorem State.leafSwitch_fixed (l) : (s.leafSwitch l).fixed = s.fixed := by simp [State.leafSwitch]
@[simp] theorem State.endCheck_fixed (l) : (s.endCheck l).fixed = s.fixed := by simp [State.endCheck]
@[simp] theorem State.issueWith_keeps (l g uses body adv) (h : ∀ s : State, s.keptByIssue (body s)) :
    s.keptBy (s.issueWith l g uses body adv) := by
  unfold State.issueWith
  have hb := h s
  split
  · simp
  split
  · simp
  split
  · split <;> simp
  split
  · simp
  split
  · simp
  · simp
  next s1 e =>
  rw [e, State.keptByIssue_done] at hb
  split <;> simp [hb]
@[simp] theorem State.issue_keeps (l g uses body) (h : ∀ s : State, s.keptByIssue (body s)) : s.keptBy (s.issue l g uses body) :=
  State.issueWith_keeps s l g uses body _ h
@[simp] theorem State.issueReg_keeps (l g uses f) : s.keptBy (s.issueReg l g uses f) := by simp [State.issueReg]
@[simp] theorem State.issueUnit_keeps (l g u uses op) : s.keptBy (s.issueUnit l g u uses op) := by
  refine State.issue_keeps _ _ _ _ _ fun s => ?_
  split <;> simp
@[simp] theorem State.freeCredit_fixed (b src beat) : (s.freeCredit b src beat).fixed = s.fixed := by simp [State.freeCredit]
@[simp] theorem State.execLoopAt_keeps (l g c len eosp uses n) : s.keptBy (s.execLoopAt l g c len eosp uses n) := by
  simp [State.execLoopAt]

/-! ### Scalar and token instructions -/

@[simp] theorem State.issueAlu_keeps (l g rd ra o f) : s.keptBy (s.issueAlu l g rd ra o f) := by simp [State.issueAlu]
@[simp] theorem execTsend_keeps (l g port ra i imm) : s.keptBy (execTsend l g port ra i imm s) := by
  unfold execTsend
  split
  · simp
  refine State.issue_keeps _ _ _ _ _ fun s => ?_
  dsimp only
  split <;> simp
@[simp] theorem execTrecv_keeps (l g rd port) : s.keptBy (execTrecv l g rd port s) := by
  unfold execTrecv
  split
  · simp
  refine State.issue_keeps _ _ _ _ _ fun s => ?_
  dsimp only
  split <;> simp

/-! ### The leaf units at work -/

@[simp] theorem State.noteSeen_fixed (l u a n) : (s.noteSeen l u a n).fixed = s.fixed := by simp [State.noteSeen]
@[simp] theorem State.leafStore_fixed (l u ws) : (s.leafStore l u ws).fixed = s.fixed := by
  induction ws generalizing s with
  | nil => rfl
  | cons _ _ ih => simp [State.leafStore, ih]
@[simp] theorem State.runOp_fixed (l c bad) : (s.runOp l c bad).fixed = s.fixed := by
  unfold State.runOp
  dsimp only
  split <;> simp
@[simp] theorem State.pumpOut_fixed (l port fuel) : (s.pumpOut l port fuel).fixed = s.fixed := by
  induction fuel generalizing s with
  | zero => rfl
  | succ fuel ih =>
    unfold State.pumpOut
    dsimp only
    (repeat' split) <;> simp [ih]
@[simp] theorem State.pumpIn_fixed (l port fuel) : (s.pumpIn l port fuel).fixed = s.fixed := by
  induction fuel generalizing s with
  | zero => rfl
  | succ fuel ih =>
    unfold State.pumpIn
    dsimp only
    split <;> simp [ih]
@[simp] theorem State.pump_fixed (l) : (s.pump l).fixed = s.fixed := by simp [State.pump]
@[simp] theorem execSend_keeps (l g port aw ra rn i imm) : s.keptBy (execSend l g port aw ra rn i imm s) := by
  unfold execSend
  split
  · simp
  refine State.issue_keeps _ _ _ _ _ fun s => ?_
  simp
@[simp] theorem execRecv_keeps (l g port ra rn i imm) : s.keptBy (execRecv l g port ra rn i imm s) := by
  unfold execRecv
  split
  · simp
  refine State.issue_keeps _ _ _ _ _ fun s => ?_
  simp
@[simp] theorem State.runVectorHead_fixed (l) : (s.runVectorHead l).fixed = s.fixed := by
  unfold State.runVectorHead
  split <;> simp
@[simp] theorem State.leafAbort_fixed (l) : (s.leafAbort l).fixed = s.fixed := by simp [State.leafAbort]
@[simp] theorem State.leafSwitchReq_fixed (l) : (s.leafSwitchReq l).fixed = s.fixed := by simp [State.leafSwitchReq]
@[simp] theorem State.leafCtlWrite_fixed (l w) : (s.leafCtlWrite l w).fixed = s.fixed := by simp [State.leafCtlWrite]
@[simp] theorem execUnitCommandComplete_keeps (t l q bad) : s.keptBy (execUnitCommandComplete t l q bad s) := by
  unfold execUnitCommandComplete
  dsimp only
  (repeat' split) <;> simp

/-! ### The slot plane -/

@[simp] theorem State.modCredit_fixed (b src f) : (s.modCredit b src f).fixed = s.fixed := by simp [State.modCredit]
@[simp] theorem State.modLane_fixed (b key f) : (s.modLane b key f).fixed = s.fixed := by simp [State.modLane]
@[simp] theorem State.modWire_fixed (b key f) : (s.modWire b key f).fixed = s.fixed := by simp [State.modWire]
@[simp] theorem State.useCredit_fixed (b src tok) : (s.useCredit b src tok).fixed = s.fixed := by simp [State.useCredit]
@[simp] theorem State.dropCredit_fixed (b src tok) : (s.dropCredit b src tok).fixed = s.fixed := by simp [State.dropCredit]
@[simp] theorem State.inletPump_fixed (b key fuel) : (s.inletPump b key fuel).fixed = s.fixed := by
  induction fuel generalizing s with
  | zero => rfl
  | succ fuel ih =>
    unfold State.inletPump
    dsimp only
    (repeat' split) <;> simp [ih]
@[simp] theorem execCreditReturn_keeps (t b src) : s.keptBy (execCreditReturn t b src s) := by
  unfold execCreditReturn
  (repeat' split) <;> simp
@[simp] theorem State.modMover_fixed (b m f) : (s.modMover b m f).fixed = s.fixed := by simp [State.modMover]
@[simp] theorem State.modSteer_fixed (b node unit f) : (s.modSteer b node unit f).fixed = s.fixed := by simp [State.modSteer]
@[simp] theorem State.freeCredits_fixed (b srcs beat) : (s.freeCredits b srcs beat).fixed = s.fixed := by simp [State.freeCredits]
theorem State.takeBeat_fixed (starts b node dest slot src sport lane) {x t}
    (h : s.takeBeat starts b node dest slot src sport lane = some (x, t)) :
    t.fixed = s.fixed := by
  have key : ∀ y ∈ s.takeBeat starts b node dest slot src sport lane, y.2.fixed = s.fixed := by
    unfold State.takeBeat
    dsimp only
    (repeat' split) <;> simp
  exact key _ h
theorem State.takeTok_fixed (starts b node dest slot src sport lane) {x t}
    (h : s.takeTok starts b node dest slot src sport lane = some (x, t)) :
    t.fixed = s.fixed := by
  have key : ∀ y ∈ s.takeTok starts b node dest slot src sport lane, y.2.fixed = s.fixed := by
    unfold State.takeTok
    dsimp only
    (repeat' split) <;> simp
  exact key _ h
@[simp] theorem State.moved_fixed (b) : (s.moved b).fixed = s.fixed := by simp [State.moved]
@[simp] theorem State.deliver_fixed (b node dest slot dport lane it) :
    (s.deliver b node dest slot dport lane it).fixed = s.fixed := by
  unfold State.deliver
  (repeat' split) <;> simp
@[simp] theorem State.moveEntry_fixed (starts b node slot dest) : (s.moveEntry starts b node slot dest).fixed = s.fixed := by
  unfold State.moveEntry
  extract_lets x e s1
  split
  · rfl
  have h1 : s1.fixed = s.fixed := by
    unfold s1
    split
    · next h => simp [State.takeBeat_fixed _ _ _ _ _ _ _ _ _ h]
    · rfl
  split
  · next h => simp [State.takeTok_fixed _ _ _ _ _ _ _ _ _ h, h1]
  · exact h1
@[simp] theorem State.runSlotOf_fixed (b) : (s.runSlotOf b).fixed = s.fixed := by simp [State.runSlotOf]
@[simp] theorem State.reach_fixed (b n) : (s.reach b n).fixed = s.fixed := by simp [State.reach]
@[simp] theorem State.takeLimit_fixed (b) : (s.takeLimit b).fixed = s.fixed := by simp [State.takeLimit]
@[simp] theorem State.handOver_fixed (b n) : (s.handOver b n).fixed = s.fixed := by simp [State.handOver]
@[simp] theorem State.handoverStep_fixed (b) : (s.handoverStep b).fixed = s.fixed := by simp [State.handoverStep]
@[simp] theorem execCrossingLaneArrival_keeps (t b key) : s.keptBy (execCrossingLaneArrival t b key s) := by
  unfold execCrossingLaneArrival
  dsimp only
  (repeat' split) <;> simp

/-! ### Stands -/

@[simp] theorem State.modRes_fixed (sd f) : (s.modRes sd f).fixed = s.fixed := by simp [State.modRes]
@[simp] theorem State.pfVector_fixed (v) : (s.pfVector v).fixed = s.fixed := by simp [State.pfVector]
@[simp] theorem State.alertEdge_fixed : s.alertEdge.fixed = s.fixed := by simp [State.alertEdge]
@[simp] theorem State.vecMessage_fixed (sd v) : (s.vecMessage sd v).fixed = s.fixed := by simp [State.vecMessage]
@[simp] theorem State.setVector_fixed (sd v) : (s.setVector sd v).fixed = s.fixed := by simp [State.setVector]
@[simp] theorem State.violation_fixed (sd op rq br unit addr tag) : (s.violation sd op rq br unit addr tag).fixed = s.fixed := by
  unfold State.violation
  split <;> simp
@[simp] theorem State.noteOutside_fixed (space off n) : (s.noteOutside space off n).fixed = s.fixed := by simp [State.noteOutside]
@[simp] theorem State.store_fixed (space off bs) : (s.store space off bs).fixed = s.fixed :=
  State.noteOutside_fixed s space off bs.length
@[simp] theorem State.modReq_fixed (id f) : (s.modReq id f).fixed = s.fixed := by simp [State.modReq]
@[simp] theorem State.dropReq_fixed (id) : (s.dropReq id).fixed = s.fixed := by simp [State.dropReq]
@[simp] theorem State.modLoad_fixed (l f) : (s.modLoad l f).fixed = s.fixed := by simp [State.modLoad]
@[simp] theorem State.modPass_fixed (p f) : (s.modPass p f).fixed = s.fixed := by simp [State.modPass]
@[simp] theorem State.dropPass_fixed (p) : (s.dropPass p).fixed = s.fixed := by simp [State.dropPass]
@[simp] theorem State.fresh_fixed : s.fresh.2.fixed = s.fixed := by simp [State.fresh]
@[simp] theorem State.charge_fixed (id status addr) : (s.charge id status addr).fixed = s.fixed := by simp [State.charge]
@[simp] theorem State.chargePass_fixed (b status addr) : (s.chargePass b status addr).fixed = s.fixed := by
  unfold State.chargePass
  split <;> simp
@[simp] theorem State.addBucket_fixed (sd d) : (s.addBucket sd d).fixed = s.fixed := by simp [State.addBucket]
@[simp] theorem State.addCharged_fixed (sd uj) : (s.addCharged sd uj).fixed = s.fixed := by simp [State.addCharged]
@[simp] theorem State.sendRecord_fixed (s0 : State) (r cr result) : (s0.sendRecord r cr result).fixed = s0.fixed := by
  unfold State.sendRecord
  dsimp only
  (repeat' split) <;> simp
@[simp] theorem State.settle_fixed (r share) : (s.settle r share).fixed = s.fixed := by simp [State.settle]
@[simp] theorem State.undefine_fixed (r) : (s.undefine r).fixed = s.fixed := by simp [State.undefine]
@[simp] theorem State.finish_fixed (r st accepted share result flr) :
    (s.finish r st accepted share result flr).fixed = s.fixed := by
  simp [State.finish]
@[simp] theorem State.refuse_fixed (r status) : (s.refuse r status).fixed = s.fixed := by simp [State.refuse]

/-! ### The residency pool -/

@[simp] theorem State.objWrite_fixed (o off bs) : (s.objWrite o off bs).fixed = s.fixed := by simp [State.objWrite]
@[simp] theorem State.objPoison_fixed (o why) : (s.objPoison o why).fixed = s.fixed := by simp [State.objPoison]
@[simp] theorem State.modObj_fixed (id f) : (s.modObj id f).fixed = s.fixed := by simp [State.modObj]
@[simp] theorem State.useObjs_fixed (p) : (s.useObjs p).fixed = s.fixed := by simp [State.useObjs]
@[simp] theorem State.dropObj_fixed (id) : (s.dropObj id).fixed = s.fixed := by simp [State.dropObj]
@[simp] theorem State.moveObj_fixed (o o') : (s.moveObj o o').fixed = s.fixed := by simp [State.moveObj]
@[simp] theorem State.evict_fixed (o) : (s.evict o).fixed = s.fixed := by simp [State.evict]
@[simp] theorem State.allocFrames_fixed (sd id n keep fuel) : (s.allocFrames sd id n keep fuel).1.fixed = s.fixed := by
  induction fuel generalizing s with
  | zero => rfl
  | succ fuel ih =>
    unfold State.allocFrames
    split
    · rfl
    · split <;> simp [ih]
@[simp] theorem State.newObj_fixed (sd kind manifest index size expect keep) :
    (s.newObj sd kind manifest index size expect keep).1.fixed = s.fixed := by
  unfold State.newObj
  split
  next h0 => split <;> next h => simp [State.fixed_of_fst h, State.fixed_of_snd h0]
@[simp] theorem State.reframe_fixed (o) : (s.reframe o).1.fixed = s.fixed := by
  unfold State.reframe
  split
  · split <;> next h => simp [State.fixed_of_fst h]
  · rfl
@[simp] theorem State.placeWrite_fixed (place bs) : (s.placeWrite place bs).fixed = s.fixed :=
  State.foldl_fst_fixed _ place (s, bs) fun _ _ => State.store_fixed ..
@[simp] theorem State.wake_fixed (bs) : (s.wake bs).fixed = s.fixed := by simp [State.wake]
@[simp] theorem State.reviseJobs_fixed (p) : (s.reviseJobs p).fixed = s.fixed := by simp [State.reviseJobs]
@[simp] theorem State.allocShards_fixed (sd m ks) : (s.allocShards sd m ks).1.fixed = s.fixed := by
  induction ks generalizing s with
  | nil => rfl
  | cons k ks ih =>
    unfold State.allocShards
    split
    · exact ih s
    · split <;> next h => simp [ih, State.fixed_of_fst h]
@[simp] theorem State.queueJob_fixed (l) : (s.queueJob l).1.fixed = s.fixed := by
  unfold State.queueJob
  dsimp only
  split <;> next h => simp [State.fixed_of_fst h]
@[simp] theorem State.fillWarm_fixed (l ks) : (s.fillWarm l ks).fixed = s.fixed := by
  refine State.each_fixed _ _ _ fun s k => ?_
  dsimp only
  split <;> simp
@[simp] theorem State.shardTerm_fixed (l cls) : decisionFixed (s.shardTerm l cls) = s.fixed := by
  unfold State.shardTerm
  dsimp only
  split
  · simp
  split
  · simp
  split
  · split <;> next h => simp [State.fixed_of_fst h]
  · simp
@[simp] theorem State.queueFetch_fixed (obj n) : (s.queueFetch obj n).fixed = s.fixed := by simp [State.queueFetch]
@[simp] theorem State.fetchImage_fixed (load) : (s.fetchImage load).fixed = s.fixed := by
  unfold State.fetchImage
  split
  · simp
  · split <;> next h => simp [State.fixed_of_fst h]
  · rfl
@[simp] theorem State.beginCtxLoad_fixed (b) : (s.beginCtxLoad b).fixed = s.fixed := by
  unfold State.beginCtxLoad
  (repeat' split) <;> simp
@[simp] theorem State.beginLoads_fixed (bs) : (s.beginLoads bs).fixed = s.fixed := by simp [State.beginLoads]
@[simp] theorem State.startLoads_fixed (i e pin) : (s.startLoads i e pin).fixed = s.fixed := by
  unfold State.startLoads
  dsimp only
  rw [State.beginLoads_fixed]
  refine State.each_fixed _ _ _ fun s cfg => ?_
  split
  · split <;> simp
  split
  · rfl
  refine State.each_fixed _ _ _ fun s x => ?_
  simp

/-! ### Descriptor fetch and admission -/

@[simp] theorem State.fetched_fixed (sd r d) : (s.fetched sd r d).fixed = s.fixed := by simp [State.fetched]
@[simp] theorem execDescriptorFetch_keeps (t sd descs) : s.keptBy (execDescriptorFetch t sd descs s) := by
  unfold execDescriptorFetch
  dsimp only
  split <;> simp
@[simp] theorem State.setPlan_fixed (oldIds new) : (s.setPlan oldIds new).fixed = s.fixed := by simp [State.setPlan]
@[simp] theorem State.accept_fixed (r f) : (s.accept r f).fixed = s.fixed := by simp [State.accept]
@[simp] theorem State.decided_fixed (r) : (s.decided r).fixed = s.fixed := by simp [State.decided]
@[simp] theorem State.takeGraft_fixed (r) : (s.takeGraft r).1.fixed = s.fixed := by
  unfold State.takeGraft
  split
  · rfl
  · rfl
  · dsimp only
    split <;> next h => simp [State.fixed_of_fst h]
@[simp] theorem State.terms_fixed (r l i extra) : decisionFixed (s.terms r l i extra) = s.fixed := by
  unfold State.terms
  dsimp only
  have hsh := State.shardTerm_fixed s l r.cls
  split
  · next h => simpa [h] using hsh
  · next h =>
    rw [h] at hsh
    split <;> next hg => simpa [State.fixed_of_fst hg] using hsh
@[simp] theorem State.giveBack_fixed (s0 : State) : (s0.giveBack s).fixed = s.fixed := by simp [State.giveBack]
@[simp] theorem State.decideOn_fixed (r l i extra) : decisionFixed (s.decideOn r l i extra) = s.fixed := by
  unfold State.decideOn
  have ht := State.terms_fixed s r l i extra
  split
  · next h => simpa [h] using ht
  · next h =>
    rw [h, decisionFixed_ok] at ht
    dsimp only
    (repeat' split) <;> simpa using ht
@[simp] theorem State.refusedBy_fixed (r e) : (s.refusedBy r e).fixed = e.2.fixed := by simp [State.refusedBy]
theorem bestOf_fixed {q : PartId × List Instr} {l : List (Except (Nat × State) (Nat × State))} {b : Except (Nat × State) (Nat × State)}
    (hl : ∀ x ∈ l, decisionFixed x = q) (hb : decisionFixed b = q) : decisionFixed (bestOf l b) = q := by
  induction l generalizing b with
  | nil => exact hb
  | cons x xs ih =>
    obtain ⟨hx, hxs⟩ := List.forall_mem_cons.1 hl
    unfold bestOf
    split
    · exact ih hxs (by split <;> assumption)
    · exact ih hxs hx
    · exact ih hxs hb
theorem State.decideOn_mem_fixed {s : State} {r : Request} {l : Load} {extra : Nat} {is : List Inst} {x} {xs}
    (h : is.map (fun i => s.decideOn r l i extra) = x :: xs) : ∀ y ∈ x :: xs, decisionFixed y = s.fixed := by
  rw [← h]
  simp
@[simp] theorem State.decideBulk_fixed (r l i extra) : (s.decideBulk r l i extra).fixed = s.fixed := by
  unfold State.decideBulk
  have ht := State.terms_fixed s r l i extra
  split
  · next h => simpa [h] using ht
  · next h =>
    rw [h, decisionFixed_ok] at ht
    dsimp only
    (repeat' split) <;> simpa using ht
@[simp] theorem State.setCredits_fixed (sd c v) : (s.setCredits sd c v).fixed = s.fixed := by simp [State.setCredits]
@[simp] theorem State.decideExpress_fixed (r l i c) : (s.decideExpress r l i c).fixed = s.fixed := by simp [State.decideExpress]
@[simp] theorem State.decideRest_fixed (r l extra) : (s.decideRest r l extra).fixed = s.fixed := by
  unfold State.decideRest
  split
  · split <;> simp
  split
  · simp
  split
  · simp
  split
  · split <;> simp
  split
  · simp
  next hl =>
  obtain ⟨hx, hxs⟩ := List.forall_mem_cons.1 (State.decideOn_mem_fixed hl)
  have hb := bestOf_fixed hxs hx
  split <;> next h => simpa [h] using hb
@[simp] theorem State.failUndecided_fixed (r status addr) : (s.failUndecided r status addr).fixed = s.fixed := by
  simp [State.failUndecided]
@[simp] theorem State.decideInfer_fixed (r) : (s.decideInfer r).fixed = s.fixed := by
  unfold State.decideInfer
  (repeat' split) <;> simp
@[simp] theorem execInfer_keeps (t sd) : s.keptBy (execInfer t sd s) := by
  unfold execInfer
  dsimp only
  split <;> simp

/-! ### The packet plane -/

@[simp] theorem State.sendPacket_fixed (vc src dst isResp flits acc) :
    (s.sendPacket vc src dst isResp flits acc).fixed = s.fixed := by
  simp [State.sendPacket]
@[simp] theorem State.sendTransfer_fixed (vc src dst write n acc) : (s.sendTransfer vc src dst write n acc).fixed = s.fixed := by
  simp [State.sendTransfer]
@[simp] theorem State.modPackets_fixed (f) : (s.modPackets f).fixed = s.fixed := by simp [State.modPackets]
@[simp] theorem State.flitLeaves_fixed (a) : (s.flitLeaves a).fixed = s.fixed := by simp [State.flitLeaves]
@[simp] theorem execLinkCycleVcSelect_keeps (t leaf out full) : s.keptBy (execLinkCycleVcSelect t leaf out full s) := by
  unfold execLinkCycleVcSelect
  dsimp only
  (repeat' split) <;> simp
@[simp] theorem State.arbitrate_fixed (leaf out vc) : (s.arbitrate leaf out vc).fixed = s.fixed := by
  unfold State.arbitrate
  dsimp only
  (repeat' split) <;> simp

/-! ### Rings of the tile movers -/

@[simp] theorem State.modDesc_fixed (b m i f) : (s.modDesc b m i f).fixed = s.fixed := by simp [State.modDesc]
@[simp] theorem State.ringTokens_fixed (b m) : (s.ringTokens b m).fixed = s.fixed := by simp [State.ringTokens]
@[simp] theorem State.abandonIn_fixed (bs p) : (s.abandonIn bs p).fixed = s.fixed := by simp [State.abandonIn]

/-! ### Sequences -/

@[simp] theorem State.modSeq_fixed (sd id f) : (s.modSeq sd id f).fixed = s.fixed := by simp [State.modSeq]
@[simp] theorem State.takePages_fixed (q l) : (s.takePages q l).1.fixed = s.fixed := by
  induction l generalizing s with
  | nil => rfl
  | cons lj l ih =>
    unfold State.takePages
    split
    · exact ih s
    · split <;> next h => simp [ih, State.fixed_of_fst h]
@[simp] theorem State.allocPages_fixed (q n) : (s.allocPages q n).1.fixed = s.fixed := by simp [State.allocPages]
@[simp] theorem State.freeSeq_fixed (sd id) : (s.freeSeq sd id).fixed = s.fixed := by simp [State.freeSeq]
@[simp] theorem State.markSpare_fixed (sd id len) : (s.markSpare sd id len).fixed = s.fixed := by simp [State.markSpare]
@[simp] theorem State.reframes_fixed (l) : (s.reframes l).1.fixed = s.fixed := by
  induction l generalizing s with
  | nil => rfl
  | cons o l ih =>
    unfold State.reframes
    split <;> next h => simp [ih, State.fixed_of_fst h]
@[simp] theorem State.restorePages_fixed (sd id) : (s.restorePages sd id).1.fixed = s.fixed := by
  unfold State.restorePages
  dsimp only
  split <;> next h => simp [State.fixed_of_fst h]
@[simp] theorem State.leavePass_fixed (id) : (s.leavePass id).fixed = s.fixed := by simp [State.leavePass]
@[simp] theorem State.retireOld_fixed : s.retireOld.fixed = s.fixed := by simp [State.retireOld]
@[simp] theorem State.settleSeq_fixed (r status) : (s.settleSeq r status).fixed = s.fixed := by simp [State.settleSeq]
@[simp] theorem State.unpinned_fixed (s0 : State) : (s0.unpinned s).fixed = s.fixed := by simp [State.unpinned]
@[simp] theorem State.endOne_fixed (r0 st result flr) : (s.endOne r0 st result flr).fixed = s.fixed := by simp [State.endOne]
@[simp] theorem State.endReq_fixed (r status result flr) : (s.endReq r status result flr).fixed = s.fixed := by
  unfold State.endReq
  extract_lets s1
  split
  · exact State.endOne_fixed ..
  · exact (State.each_fixed _ _ _ fun s id => by split <;> simp).trans (State.endOne_fixed ..)
@[simp] theorem State.runReleases_fixed : s.runReleases.fixed = s.fixed := by simp [State.runReleases]
@[simp] theorem State.adminEnd_fixed (id status body) : (s.adminEnd id status body).fixed = s.fixed := by
  unfold State.adminEnd
  (repeat' split) <;> simp
@[simp] theorem State.releaseLoad_fixed (l) : (s.releaseLoad l).fixed = s.fixed := by simp [State.releaseLoad]
@[simp] theorem State.runEvictions_fixed : s.runEvictions.fixed = s.fixed := by
  refine State.each_fixed _ _ _ fun s l => ?_
  split
  · rfl
  · split <;> simp
@[simp] theorem State.afterEnds_fixed : s.afterEnds.fixed = s.fixed := by simp [State.afterEnds]
@[simp] theorem State.endLoad_fixed (l status) : (s.endLoad l status).fixed = s.fixed := by simp [State.endLoad]
theorem State.stepSeq_fixed (r g) {t q} (h : s.stepSeq r g = .ok (t, q)) : t.fixed = s.fixed := by
  unfold State.stepSeq at h
  dsimp only at h
  split at h
  · split at h
    · cases h
      rfl
    · cases h
  split at h
  · cases h
  split at h
  · cases h
  · cases h
    simp
@[simp] theorem State.undoSeq_fixed (s0 : State) (s1 : State) (r) : (s0.undoSeq s1 r).fixed = s1.fixed := by simp [State.undoSeq]
@[simp] theorem State.stepPages_fixed (q n) : (s.stepPages q n).1.fixed = s.fixed := by
  unfold State.stepPages
  split <;> next h => simp [State.fixed_of_fst h]
@[simp] theorem State.decideStep_fixed (r) : (s.decideStep r).fixed = s.fixed := by
  unfold State.decideStep
  split
  · simp
  dsimp only
  split
  · simp
  split
  · simp
  next hq =>
  have h1 := State.stepSeq_fixed _ _ _ hq
  split
  · simp [h1]
  split
  · simp [h1]
  split
  · simp [h1]
  split
  · simp [h1]
  split
  · next h => simp [State.fixed_of_fst h, h1]
  · next h => split <;> simp [State.fixed_of_fst h, h1]
@[simp] theorem State.stepDecision_fixed (sd op) : (s.stepDecision sd op).fixed = s.fixed := by
  unfold State.stepDecision
  split <;> simp
theorem State.planShip_fixed (r bound) {t} (h : s.planShip r bound = some t) : t.fixed = s.fixed := by
  revert h
  unfold State.planShip
  dsimp only
  split
  · simp
  · intro h
    cases h
    simp
@[simp] theorem State.decideShip_fixed (r) : (s.decideShip r).fixed = s.fixed := by
  unfold State.decideShip
  extract_lets src fieldsOk seg localLost
  split
  · simp
  extract_lets g q
  split
  · simp
  split
  · simp
  split
  · simp
  split
  · simp
  split
  · next h => simp [State.fixed_of_fst h]
  next h =>
  split
  · simp [State.fixed_of_fst h]
  · next hp => split <;> simp [State.planShip_fixed _ _ _ hp, State.fixed_of_fst h]
@[simp] theorem execKvShip_keeps (t sd) : s.keptBy (execKvShip t sd s) := by
  unfold execKvShip
  dsimp only
  split <;> simp
@[simp] theorem State.copyPages_fixed (ssd sid dsd did n g) : (s.copyPages ssd sid dsd did n g).fixed = s.fixed := by
  refine State.each_fixed _ _ _ fun s lj => ?_
  split <;> simp
@[simp] theorem execKvShipComplete_keeps (t sd) : s.keptBy (execKvShipComplete t sd s) := by
  unfold execKvShipComplete
  dsimp only
  (repeat' split) <;> simp
@[simp] theorem State.decideRelease_fixed (r) : (s.decideRelease r).fixed = s.fixed := by
  unfold State.decideRelease
  split <;> simp
@[simp] theorem execSeqRelease_keeps (t sd) : s.keptBy (execSeqRelease t sd s) := by
  unfold execSeqRelease
  dsimp only
  split <;> simp
@[simp] theorem State.abortBranches_fixed (bs) : (s.abortBranches bs).fixed = s.fixed := by simp [State.abortBranches]
@[simp] theorem State.abortEmpty_fixed : s.abortEmpty.fixed = s.fixed := by
  refine State.each_fixed _ _ _ fun s p => ?_
  split <;> simp
@[simp] theorem State.abandonReq_fixed (id) : (s.abandonReq id).fixed = s.fixed := by
  unfold State.abandonReq
  split <;> simp
@[simp] theorem State.decideCancel_fixed (r) : (s.decideCancel r).fixed = s.fixed := by
  unfold State.decideCancel
  extract_lets ok tag targets s1
  have h1 : s1.fixed = s.fixed := State.each_fixed _ _ _ fun s id => by split <;> simp
  split
  · simp
  split
  · simp
  split
  · simp
  · simp [h1]
@[simp] theorem execCancel_keeps (t sd) : s.keptBy (execCancel t sd s) := by
  unfold execCancel
  dsimp only
  split <;> simp

/-! ### Passes -/

@[simp] theorem State.scratchWrite_fixed (b off bs) : (s.scratchWrite b off bs).fixed = s.fixed := by simp [State.scratchWrite]
@[simp] theorem State.bindShapes_fixed (p b n x) : (s.bindShapes p b n x).fixed = s.fixed := by simp [State.bindShapes]
@[simp] theorem State.clearDoorbells_fixed (i c rt) : (s.clearDoorbells i c rt).fixed = s.fixed := by simp [State.clearDoorbells]
@[simp] theorem State.openCrossings_fixed (i n) : (s.openCrossings i n).fixed = s.fixed := by simp [State.openCrossings]
@[simp] theorem State.toContext_fixed (b n) : (s.toContext b n).fixed = s.fixed := by simp [State.toContext]
@[simp] theorem State.sendInlets_fixed (p i n) : (s.sendInlets p i n).fixed = s.fixed := by simp [State.sendInlets]
@[simp] theorem State.beginStage_fixed (p i l c n) : (s.beginStage p i l c n).fixed = s.fixed := by simp [State.beginStage]
@[simp] theorem State.runStage_fixed (pid) : (s.runStage pid).fixed = s.fixed := by
  unfold State.runStage
  dsimp only
  (repeat' split) <;> simp
@[simp] theorem State.resumeStages_fixed : s.resumeStages.fixed = s.fixed := by simp [State.resumeStages]
@[simp] theorem State.assignSlots_fixed (ids at_) : (s.assignSlots ids at_).fixed = s.fixed := by simp [State.assignSlots]
@[simp] theorem State.takeBallast_fixed (bs) : (s.takeBallast bs).fixed = s.fixed := by simp [State.takeBallast]
@[simp] theorem State.dispatch_fixed (s0 : State) (p) : (s0.dispatch p).fixed = s0.fixed := by simp [State.dispatch]
@[simp] theorem State.fetchKv_fixed (r src) : (s.fetchKv r src).fixed = s.fixed := by
  unfold State.fetchKv
  dsimp only
  split <;> next h => simp [State.fixed_of_fst h]
@[simp] theorem State.dispatchShip_fixed (sd) : (s.dispatchShip sd).fixed = s.fixed := by
  unfold State.dispatchShip
  (repeat' split) <;> simp
@[simp] theorem State.fillBulk_fixed (p i) : (s.fillBulk p i).fixed = s.fixed := by
  refine State.each_fixed _ _ _ fun s r => ?_
  split
  · rfl
  split
  · rfl
  split <;> simp
@[simp] theorem State.dispatchNext_fixed (inst) : (s.dispatchNext inst).fixed = s.fixed := by
  unfold State.dispatchNext
  dsimp only
  (repeat' split) <;> simp
@[simp] theorem execPassDispatch_keeps (t srv) : s.keptBy (execPassDispatch t srv s) := by
  unfold execPassDispatch
  dsimp only
  (repeat' split) <;> simp
@[simp] theorem execBulkPassDispatch_keeps (t inst) : s.keptBy (execBulkPassDispatch t inst s) := by
  unfold execBulkPassDispatch
  dsimp only
  (repeat' split) <;> simp
@[simp] theorem execExpressPassDispatch_keeps (t inst) : s.keptBy (execExpressPassDispatch t inst s) := by
  unfold execExpressPassDispatch
  dsimp only
  (repeat' split) <;> simp
@[simp] theorem State.inletFrame_fixed (num f) : (s.inletFrame num f).fixed = s.fixed := by
  unfold State.inletFrame
  dsimp only
  (repeat' split) <;> simp
@[simp] theorem execInletFrame_keeps (t num f) : s.keptBy (execInletFrame t num f s) := by
  unfold execInletFrame
  dsimp only
  split <;> simp
@[simp] theorem execOutletFrameSend_keeps (t inst) : s.keptBy (execOutletFrameSend t inst s) := by
  unfold execOutletFrameSend
  dsimp only
  (repeat' split) <;> simp
@[simp] theorem State.dropRouting_fixed (p) : (s.dropRouting p).fixed = s.fixed := by simp [State.dropRouting]
@[simp] theorem State.clearRings_fixed (i) : (s.clearRings i).fixed = s.fixed := by simp [State.clearRings]
@[simp] theorem State.endPass_fixed (p i) : (s.endPass p i).fixed = s.fixed := by
  unfold State.endPass
  extract_lets s1 s1' pw s2
  have h1 : s1.fixed = s.fixed := State.each_fixed _ _ _ fun s id => by split <;> simp
  simp [s2, s1', h1]
@[simp] theorem execPassComplete_keeps (t inst) : s.keptBy (execPassComplete t inst s) := by
  unfold execPassComplete
  dsimp only
  (repeat' split) <;> simp
@[simp] theorem execDeadlineGuard_keeps (t id) : s.keptBy (execDeadlineGuard t id s) := by
  unfold execDeadlineGuard
  dsimp only
  (repeat' split) <;> simp

/-! ### Repair of plans -/

@[simp] theorem State.reshift_fixed (i) : (s.reshift i).fixed = s.fixed := by simp [State.reshift]
@[simp] theorem State.repairLoop_fixed (i fuel) : (s.repairLoop i fuel).fixed = s.fixed := by
  induction fuel generalizing s with
  | zero => rfl
  | succ fuel ih =>
    unfold State.repairLoop
    dsimp only
    (repeat' split) <;> simp [ih]
@[simp] theorem State.repairServer_fixed (i) : (s.repairServer i).fixed = s.fixed := by simp [State.repairServer]
@[simp] theorem State.repairAll_fixed : s.repairAll.fixed = s.fixed := by simp [State.repairAll]
@[simp] theorem State.endTier_fixed (ids addr) : (s.endTier ids addr).fixed = s.fixed := by
  refine State.each_fixed _ _ _ fun s id => ?_
  split <;> simp
@[simp] theorem State.loseSeq_fixed (sd id) : (s.loseSeq sd id).fixed = s.fixed := by simp [State.loseSeq]
@[simp] theorem State.loseObjs_fixed (p) : (s.loseObjs p).fixed = s.fixed := by simp [State.loseObjs]

/-! ### The near and warm tiers -/

@[simp] theorem State.modTiers_fixed (f) : (s.modTiers f).fixed = s.fixed := by simp [State.modTiers]
@[simp] theorem State.poisonSector_fixed (key reason) : (s.poisonSector key reason).fixed = s.fixed := by simp [State.poisonSector]
@[simp] theorem State.poisonRange_fixed (space off n why) : (s.poisonRange space off n why).fixed = s.fixed := by
  simp [State.poisonRange]
@[simp] theorem State.ntcEvent_fixed (k kind lane group off) : (s.ntcEvent k kind lane group off).fixed = s.fixed := by
  simp [State.ntcEvent]
@[simp] theorem State.modAcc_fixed (id f) : (s.modAcc id f).fixed = s.fixed := by simp [State.modAcc]
@[simp] theorem State.failAccess_fixed (a status) : (s.failAccess a status).fixed = s.fixed := by
  unfold State.failAccess
  split <;> simp
@[simp] theorem State.answer_fixed (id) : (s.answer id).fixed = s.fixed := by
  unfold State.answer
  split <;> simp
@[simp] theorem State.errorOut_fixed (a status) : (s.errorOut a status).fixed = s.fixed := by simp [State.errorOut]
@[simp] theorem State.stackOut_fixed (k group off) : (s.stackOut k group off).fixed = s.fixed := by simp [State.stackOut]
@[simp] theorem State.markLane_fixed (k g lane off) : (s.markLane k g lane off).fixed = s.fixed := by simp [State.markLane]
@[simp] theorem State.countLanes_fixed (k g off es) : (s.countLanes k g off es).fixed = s.fixed := by
  refine State.each_fixed _ _ _ fun s e => ?_
  dsimp only
  split
  · rfl
  · split <;> simp
@[simp] theorem State.nearSector_fixed (k off errs failed scrub) : (s.nearSector k off errs failed scrub).1.fixed = s.fixed := by
  unfold State.nearSector
  dsimp only
  split <;> simp
@[simp] theorem State.nearSectors_fixed (k errs scrub) : (s.nearSectors k errs scrub).1.fixed = s.fixed := by
  refine State.foldl_fst_fixed _ errs (s, [], none) fun x e => ?_
  dsimp only
  split <;> simp
@[simp] theorem State.wtcEvent_fixed (c kind sub dev m) : (s.wtcEvent c kind sub dev m).fixed = s.fixed := by simp [State.wtcEvent]
@[simp] theorem State.formStripe_fixed : s.formStripe.fixed = s.fixed := by simp [State.formStripe]
@[simp] theorem State.warmLost_fixed : s.warmLost.fixed = s.fixed := by simp [State.warmLost]
@[simp] theorem State.channelOut_fixed (c sub m) : (s.channelOut c sub m).fixed = s.fixed := by
  unfold State.channelOut
  extract_lets s1 s2 p s3 s4 s5 lost
  split
  · rfl
  have h3 : s3.fixed = s.fixed := by simp [s3, s2, s1]
  have h4 : s4.fixed = s.fixed := by simp [s4, h3]
  simp [s5, h4]
@[simp] theorem State.markDev_fixed (c sub dev m) : (s.markDev c sub dev m).fixed = s.fixed := by
  unfold State.markDev
  split <;> simp
@[simp] theorem State.countDevs_fixed (c sub m es) : (s.countDevs c sub m es).fixed = s.fixed := by simp [State.countDevs]
@[simp] theorem State.warmSector_fixed (c m errs scrub) : (s.warmSector c m errs scrub).1.fixed = s.fixed := by
  unfold State.warmSector
  dsimp only
  split <;> simp
@[simp] theorem State.cacheFill_fixed (b off n mem) : (s.cacheFill b off n mem).fixed = s.fixed := by simp [State.cacheFill]
@[simp] theorem State.accStore_fixed (a bs) : (s.accStore a bs).fixed = s.fixed := by
  unfold State.accStore
  split <;> simp
@[simp] theorem State.spoilAcc_fixed (id bad) : (s.spoilAcc id bad).fixed = s.fixed := by simp [State.spoilAcc]
@[simp] theorem State.serveAccess_fixed (a latest) : (s.serveAccess a latest).fixed = s.fixed := by
  unfold State.serveAccess
  (repeat' split) <;> simp
@[simp] theorem execNearAccess_keeps (t k errs) : s.keptBy (execNearAccess t k errs s) := by
  unfold execNearAccess
  dsimp only
  (repeat' split) <;> simp
@[simp] theorem execWarmAccess_keeps (t c errs) : s.keptBy (execWarmAccess t c errs s) := by
  unfold execWarmAccess
  extract_lets s1 r
  split
  · exact (State.keptBy_next ..).2 (State.at_fixed s t)
  have hr : r.1.fixed = s.fixed := State.foldl_fst_fixed _ _ _ fun x e => State.warmSector_fixed ..
  split <;> simp [hr]
@[simp] theorem execNearPatrolScrub_keeps (t k errs) : s.keptBy (execNearPatrolScrub t k errs s) := by
  unfold execNearPatrolScrub
  dsimp only
  (repeat' split) <;> simp
@[simp] theorem execWarmPatrolScrub_keeps (t c errs odecc rfm) : s.keptBy (execWarmPatrolScrub t c errs odecc rfm s) := by
  unfold execWarmPatrolScrub
  dsimp only
  (repeat' split) <;> simp
@[simp] theorem execStackMapOut_keeps (t k) : s.keptBy (execStackMapOut t k s) := by
  unfold execStackMapOut
  dsimp only
  split <;> simp
@[simp] theorem execWarmChannelMapOut_keeps (t c) : s.keptBy (execWarmChannelMapOut t c s) := by
  unfold execWarmChannelMapOut
  dsimp only
  split <;> simp
@[simp] theorem execTierAccessLate_keeps (t id) : s.keptBy (execTierAccessLate t id s) := by
  unfold execTierAccessLate
  dsimp only
  (repeat' split) <;> simp
@[simp] theorem State.launchAccess_fixed (a) : (s.launchAccess a).fixed = s.fixed := by simp [State.launchAccess]
@[simp] theorem State.startAccess_fixed (l kind ladr rd fn rb rc addr len data) :
    (s.startAccess l kind ladr rd fn rb rc addr len data).fixed = s.fixed := by
  unfold State.startAccess
  dsimp only
  split <;> simp
@[simp] theorem State.finishLeaf_fixed (a l ladr rd) : (s.finishLeaf a l ladr rd).fixed = s.fixed := by
  unfold State.finishLeaf
  dsimp only
  split <;> simp
@[simp] theorem execGet_keeps (l g rl ra len) : s.keptBy (execGet l g rl ra len s) := by
  unfold execGet
  split
  · simp
  refine State.issue_keeps _ _ _ _ _ fun s => ?_
  simp
@[simp] theorem execPut_keeps (l g rl ra len) : s.keptBy (execPut l g rl ra len s) := by
  unfold execPut
  split
  · simp
  refine State.issue_keeps _ _ _ _ _ fun s => ?_
  simp
@[simp] theorem execAtom_keeps (l g rd ra rb rc fn) : s.keptBy (execAtom l g rd ra rb rc fn s) := by
  unfold execAtom
  split
  · simp
  refine State.issue_keeps _ _ _ _ _ fun s => ?_
  simp
@[simp] theorem State.accessArrived_fixed (a) : (s.accessArrived a).fixed = s.fixed := by
  unfold State.accessArrived
  dsimp only
  split
  · simp
  split
  · split <;> next h => simp [State.fixed_of_fst h]
  (repeat' split) <;> simp
@[simp] theorem State.bmGrant_fixed (b atomic bad) : (s.bmGrant b atomic bad).fixed = s.fixed := by
  unfold State.bmGrant
  dsimp only
  (repeat' split) <;> simp
@[simp] theorem execPacketArbitration_keeps (t leaf port bad) : s.keptBy (execPacketArbitration t leaf port bad s) := by
  unfold execPacketArbitration
  dsimp only
  (repeat' split) <;> simp

/-! ### The deep tier -/

@[simp] theorem State.modFtl_fixed (f) : (s.modFtl f).fixed = s.fixed := by simp [State.modFtl]
@[simp] theorem State.modSb_fixed (id f) : (s.modSb id f).fixed = s.fixed := by simp [State.modSb]
@[simp] theorem State.ftlRegs_fixed : s.ftlRegs.fixed = s.fixed := by simp [State.ftlRegs]
@[simp] theorem State.nandWr_fixed (n) : (s.nandWr n).fixed = s.fixed := by simp [State.nandWr]
@[simp] theorem State.journalAdd_fixed : s.journalAdd.fixed = s.fixed := by simp [State.journalAdd]
@[simp] theorem State.setMap_fixed (block sb page) : (s.setMap block sb page).fixed = s.fixed := by
  unfold State.setMap
  split <;> simp
theorem State.program_fixed (block) {t} (h : s.program block = some t) : t.fixed = s.fixed := by
  revert h
  unfold State.program
  split
  · simp
  · dsimp only
    intro h
    cases h
    split <;> simp
@[simp] theorem State.closeStripe_fixed : s.closeStripe.fixed = s.fixed := by
  unfold State.closeStripe
  split <;> simp
@[simp] theorem State.deepAt_fixed (t) : (s.deepAt t).fixed = s.fixed := by
  unfold State.deepAt
  dsimp only
  split <;> simp
@[simp] theorem State.loseCw_fixed (block cw) : (s.loseCw block cw).fixed = s.fixed := by simp [State.loseCw]
@[simp] theorem State.decodeCw_fixed (ch block cw out) : (s.decodeCw ch block cw out).fixed = s.fixed := by
  unfold State.decodeCw
  split <;> simp
@[simp] theorem State.readPage_fixed (b i block fails) : (s.readPage b i block fails).fixed = s.fixed := by simp [State.readPage]
@[simp] theorem State.readBlock_fixed (block fails) : (s.readBlock block fails).fixed = s.fixed := by
  unfold State.readBlock
  (repeat' split) <;> simp
@[simp] theorem State.moveSb_fixed (id) : (s.moveSb id).fixed = s.fixed := by
  unfold State.moveSb
  split
  · rfl
  next b _ =>
  extract_lets s0 s1 kept
  have h1 : s1.fixed = s.fixed := by
    unfold s1
    refine (State.each_fixed _ _ _ fun s p => ?_).trans (State.modFtl_fixed ..)
    split
    · split
      · exact State.getD_fixed fun t h => (State.program_fixed _ _ h).trans (State.readPage_fixed ..)
      · rfl
    · rfl
  split <;> simp [h1]
@[simp] theorem State.volWrite_fixed (block off bs) : (s.volWrite block off bs).1.fixed = s.fixed := by
  unfold State.volWrite
  split
  · rfl
  split
  · rfl
  · next h => simp [State.program_fixed _ _ h]
@[simp] theorem execVolumeRead_keeps (t block fails) : s.keptBy (execVolumeRead t block fails s) := by
  unfold execVolumeRead
  dsimp only
  (repeat' split) <;> simp
@[simp] theorem execVolumeWrite_keeps (t block data) : s.keptBy (execVolumeWrite t block data s) := by
  unfold execVolumeWrite
  extract_lets s1 root
  have h1 : s1.fixed = s.fixed := by simp [s1]
  split
  · simp [h1]
  have hroot : root.fixed = s.fixed := by
    unfold root
    split
    · exact h1
    · exact (State.volWrite_fixed ..).trans h1
  split
  · split
    · split
      · simp [h1]
      · split <;> next h => simp [State.fixed_of_fst h, h1]
    · simp [hroot]
  · simp [hroot]
@[simp] theorem State.loadMap_fixed : s.loadMap.fixed = s.fixed := by
  refine State.each_fixed _ _ _ fun s e => ?_
  split <;> simp
@[simp] theorem execFtlReplayEnd_keeps (t) : s.keptBy (execFtlReplayEnd t s) := by
  unfold execFtlReplayEnd
  dsimp only
  split <;> simp
@[simp] theorem execStripeClose_keeps (t) : s.keptBy (execStripeClose t s) := by
  unfold execStripeClose
  dsimp only
  split <;> simp
@[simp] theorem execStaticWearLevelMove_keeps (t) : s.keptBy (execStaticWearLevelMove t s) := by
  unfold execStaticWearLevelMove
  dsimp only
  split <;> simp
@[simp] theorem execReadLimitRelocate_keeps (t id) : s.keptBy (execReadLimitRelocate t id s) := by
  unfold execReadLimitRelocate
  dsimp only
  split <;> simp
@[simp] theorem execFtlPatrolRead_keeps (t id page fails) : s.keptBy (execFtlPatrolRead t id page fails s) := by
  unfold execFtlPatrolRead
  dsimp only
  (repeat' split) <;> simp
@[simp] theorem State.dropPages_fixed (ch ids) : (s.dropPages ch ids).fixed = s.fixed := by simp [State.dropPages]
@[simp] theorem execNandProgramFail_keeps (t id ch) : s.keptBy (execNandProgramFail t id ch s) := by
  unfold execNandProgramFail
  dsimp only
  split <;> simp
@[simp] theorem State.loseStripes_fixed : s.loseStripes.fixed = s.fixed := by
  refine State.each_fixed _ _ _ fun s b => State.each_fixed _ _ _ fun s p => ?_
  split
  · split
    · split <;> simp
    · rfl
  · rfl

/-! ### Admin messages -/

@[simp] theorem Admin.stop_fixed (a status) : (Admin.stop a s status).fixed = s.fixed := by simp [Admin.stop]
@[simp] theorem State.leaveS2_fixed (cause source) : (s.leaveS2 cause source).fixed = s.fixed := by simp [State.leaveS2]
@[simp] theorem State.takeMsg_fixed (src route m who size bodyOk work) (h : ∀ s a, (work s a).fixed = s.fixed) :
    (s.takeMsg src route m who size bodyOk work).fixed = s.fixed := by
  unfold State.takeMsg
  dsimp only
  split
  · simp
  split
  · simp [h]
  · simp
@[simp] theorem State.receive_fixed (src route m who size bodyOk work) (h : ∀ s a, (work s a).fixed = s.fixed) :
    (s.receive src route m who size bodyOk work).fixed = s.fixed := by
  simp [State.receive, h]
@[simp] theorem State.adminViolation_fixed (a addr) : (s.adminViolation a addr).fixed = s.fixed := by simp [State.adminViolation]
@[simp] theorem State.countVol_fixed (sd v block n fails) : (s.countVol sd v block n fails).fixed = s.fixed := by
  simp [State.countVol]
@[simp] theorem State.rootRead_fixed (sd v block n fails) : (s.rootRead sd v block n fails).1.fixed = s.fixed := by
  unfold State.rootRead
  split <;> simp

/-! ### Loading of images -/

theorem State.placeAll_fixed (l) {t} (h : s.placeAll l = some t) : t.fixed = s.fixed := by
  suffices key : ∀ t : State, s.placeAll l = some t → t.fixed = s.fixed from key t h
  unfold State.placeAll
  refine List.foldlRecOn (motive := fun o => ∀ t : State, o = some t → t.fixed = s.fixed) _ _ (by simp) fun o ih e _ t h => ?_
  cases o with
  | none => cases h
  | some s1 =>
    simp only [Option.map_eq_some_iff] at h
    obtain ⟨bs, -, rfl⟩ := h
    simp [ih s1 rfl]
@[simp] theorem State.bindExpress_fixed (l) : (s.bindExpress l).fixed = s.fixed := by
  unfold State.bindExpress
  rw [State.modLoad_fixed]
  refine State.each_fixed _ _ _ fun s b => ?_
  extract_lets e i
  split
  · split <;> simp
  · split <;> simp
@[simp] theorem State.noteFailure_fixed (id status) : (s.noteFailure id status).fixed = s.fixed := by simp [State.noteFailure]
@[simp] theorem State.takeImage_fixed (l img) : (s.takeImage l img).fixed = s.fixed := by
  unfold State.takeImage
  extract_lets n m recs l' s1
  split
  · simp
  split
  · simp [s1]
  next hp =>
  have h2 := (State.placeAll_fixed _ _ hp).trans (State.modLoad_fixed ..)
  split
  · simp [h2]
  split
  · next h => simp [State.fixed_of_fst h, h2]
  · next h => split <;> simp [State.fixed_of_fst h, h2]
@[simp] theorem State.loadViolation_fixed (l block) : (s.loadViolation l block).fixed = s.fixed := by
  unfold State.loadViolation
  split <;> simp
@[simp] theorem State.readImage_fixed (l fails) : (s.readImage l fails).fixed = s.fixed := by
  unfold State.readImage
  split
  · rfl
  dsimp only
  split <;> next h => simp [State.fixed_of_fst h]
@[simp] theorem State.beginLoad_fixed (a) : (s.beginLoad a).fixed = s.fixed := by simp [State.beginLoad]
@[simp] theorem State.msgModelLoad_fixed (src route m) : (s.msgModelLoad src route m).fixed = s.fixed := by
  simp [State.msgModelLoad]
@[simp] theorem State.fillSeeds_fixed (l) : (s.fillSeeds l).fixed = s.fixed := by
  refine State.each_fixed _ _ _ fun s i => State.each_fixed _ _ _ fun s c => State.each_fixed _ _ _ fun s b => ?_
  split <;> simp
@[simp] theorem State.nextCfg_fixed (b p f) : (s.nextCfg b p f).fixed = s.fixed := by
  unfold State.nextCfg
  split <;> simp
@[simp] theorem execSeedBankFill_keeps (t b) : s.keptBy (execSeedBankFill t b s) := by
  unfold execSeedBankFill
  dsimp only
  (repeat' split) <;> simp
@[simp] theorem execContextLoad_keeps (t b flips) : s.keptBy (execContextLoad t b flips s) := by
  unfold execContextLoad
  extract_lets s1 again y
  have h1 : s1.fixed = s.fixed := by simp [s1]
  have hagain : ∀ s : State, (again s).fixed = s.fixed := fun s => State.nextCfg_fixed ..
  split
  · simp [h1]
  split
  · simp [h1]
  extract_lets n img none8
  split
  · simp [hagain, h1]
  split
  · simp [h1]
  extract_lets sl x ok s2 s3 split s4 s4'
  have h3 : s3.fixed = s.fixed := by simp [s3, s2, h1]
  have h4 : s4'.fixed = s.fixed := (State.modBranch_fixed ..).trans h3
  clear_value s3 s4' again
  split
  · simp [s4, h3]
  · rw [State.keptBy_next, hagain, State.memSet_fixed, h4]
theorem State.warmRoom_fixed (sizes fuel) {t} (h : s.warmRoom sizes fuel = some t) : t.fixed = s.fixed := by
  induction fuel generalizing s with
  | zero => simp [State.warmRoom] at h
  | succ fuel ih =>
    unfold State.warmRoom at h
    dsimp only at h
    split at h
    · cases h; rfl
    · split at h
      · cases h
      · simpa using ih _ h
theorem State.pinLoads_fixed (l) {t} (h : s.pinLoads l = some t) : t.fixed = s.fixed := by
  suffices key : ∀ t : State, s.pinLoads l = some t → t.fixed = s.fixed from key t h
  unfold State.pinLoads
  refine List.foldlRecOn (motive := fun o => ∀ t : State, o = some t → t.fixed = s.fixed) _ _ (by simp) fun o ih i _ t h => ?_
  cases o with
  | none => cases h
  | some s1 =>
    dsimp only at h
    split at h
    · cases h
      exact (State.startLoads_fixed ..).trans (ih s1 rfl)
    · cases h
theorem State.warmRoom_alloc_fixed {s t : State} {sizes : List Nat} {fuel n : Nat} {p : List (Nat × Nat)}
    (h : (s.warmRoom sizes fuel).bind (fun s1 => (s1.warmAlloc n).map (fun p => (s1, p))) = some (t, p)) : t.fixed = s.fixed := by
  simp only [Option.bind_eq_some_iff, Option.map_eq_some_iff, Prod.mk.injEq] at h
  obtain ⟨s1, h1, _, _, rfl, _⟩ := h
  exact State.warmRoom_fixed _ _ _ h1
@[simp] theorem State.bindLoad_fixed (l) : (s.bindLoad l).fixed = s.fixed := by
  unfold State.bindLoad
  split
  · simp
  split
  · simp
  · next h => exact State.pinLoads_fixed _ _ h
@[simp] theorem State.settleLoad_fixed (id) : (s.settleLoad id).fixed = s.fixed := by
  unfold State.settleLoad
  dsimp only
  (repeat' split) <;> simp
@[simp] theorem State.bulkJobs_fixed : s.bulkJobs.fixed = s.fixed := by simp [State.bulkJobs]
@[simp] theorem State.settleLoads_fixed : s.settleLoads.fixed = s.fixed := by simp [State.settleLoads]
@[simp] theorem State.startLoading_fixed (l) : (s.startLoading l).fixed = s.fixed := by
  unfold State.startLoading
  dsimp only
  split
  · simp
  split
  · split <;> next h => simp [State.fixed_of_fst h]
  split
  · simp
  next hw =>
  have h1 := State.warmRoom_fixed _ _ _ hw
  split
  · simp [h1]
  split
  · simp [h1]
  split <;> next h => simp [State.fixed_of_fst h, h1]
@[simp] theorem State.takeManifest_fixed (l m) : (s.takeManifest l m).fixed = s.fixed := by simp [State.takeManifest]
@[simp] theorem execManifestVerified_keeps (t id img man) : s.keptBy (execManifestVerified t id img man s) := by
  unfold execManifestVerified
  extract_lets s1
  have h1 : s1.fixed = s.fixed := State.at_fixed s t
  split
  · simp [h1]
  split
  · simp [h1]
  split
  · simp [h1]
  split
  · simp [h1]
  extract_lets s2
  have h2 : s2.fixed = s.fixed := by
    unfold s2
    split
    · split <;> simp [h1]
    · exact h1
  split
  · simp [h2]
  split
  · simp [h2]
  split
  · simp [h2]
  split
  · simp [h2]
  split
  · split <;> next h => simp [State.fixed_of_fst h, h2]
  all_goals simp [h2]
@[simp] theorem State.placePreloads_fixed (l i) : (s.placePreloads l i).fixed = s.fixed := by
  refine State.each_fixed _ _ _ fun s c => ?_
  extract_lets sb
  refine State.each_fixed _ _ _ fun s r => ?_
  simp
@[simp] theorem execPreloadRun_keeps (t id) : s.keptBy (execPreloadRun t id s) := by
  unfold execPreloadRun
  dsimp only
  (repeat' split) <;> simp
@[simp] theorem State.beginEvict_fixed (a) : (s.beginEvict a).fixed = s.fixed := by
  unfold State.beginEvict
  split <;> simp
@[simp] theorem State.msgModelEvict_fixed (src route m) : (s.msgModelEvict src route m).fixed = s.fixed := by
  simp [State.msgModelEvict]
@[simp] theorem execImageRelease_keeps (t id) : s.keptBy (execImageRelease t id s) := by
  unfold execImageRelease
  dsimp only
  (repeat' split) <;> simp

/-! ### Copies and grafts -/

@[simp] theorem State.modWarm_fixed (id f) : (s.modWarm id f).fixed = s.fixed := by simp [State.modWarm]
@[simp] theorem State.noteFailures_fixed (man status) : (s.noteFailures man status).fixed = s.fixed := by simp [State.noteFailures]
@[simp] theorem State.volShard_fixed (l k) : (s.volShard l k).1.fixed = s.fixed := by
  unfold State.volShard
  dsimp only
  split <;> simp
@[simp] theorem State.warmArrive_fixed (w bs) : (s.warmArrive w bs).fixed = s.fixed := by
  unfold State.warmArrive
  split <;> simp
@[simp] theorem State.nearArrive_fixed (o bs) : (s.nearArrive o bs).fixed = s.fixed := by
  unfold State.nearArrive
  split <;> simp
@[simp] theorem State.useWarm_fixed (o) : (s.useWarm o).fixed = s.fixed := by
  unfold State.useWarm
  split <;> simp
@[simp] theorem State.endJobs_fixed : s.endJobs.fixed = s.fixed := by simp [State.endJobs]
@[simp] theorem State.stopJob_fixed : s.stopJob.fixed = s.fixed := by simp [State.stopJob]
@[simp] theorem execShardArrivalVerify_keeps (t near id) : s.keptBy (execShardArrivalVerify t near id s) := by
  unfold execShardArrivalVerify
  dsimp only
  (repeat' split) <;> simp
@[simp] theorem State.modGraftNum_fixed (num f) : (s.modGraftNum num f).fixed = s.fixed := by simp [State.modGraftNum]
@[simp] theorem execDigestScrub_keeps (t near id) : s.keptBy (execDigestScrub t near id s) := by
  unfold execDigestScrub
  dsimp only
  (repeat' split) <;> simp
@[simp] theorem State.noAnswer_fixed (man n rx) : (s.noAnswer man n rx).fixed = s.fixed := by simp [State.noAnswer]
@[simp] theorem State.nearAgain_fixed (o) : (s.nearAgain o).1.fixed = s.fixed := by
  unfold State.nearAgain
  (repeat' split) <;> simp
@[simp] theorem State.warmAgain_fixed (w) : (s.warmAgain w).1.fixed = s.fixed := by
  unfold State.warmAgain
  split <;> simp
@[simp] theorem execCopyJobStart_keeps (t) : s.keptBy (execCopyJobStart t s) := by
  unfold execCopyJobStart
  dsimp only
  (repeat' split) <;> simp
@[simp] theorem execLoadDeadlineExpiry_keeps (t id) : s.keptBy (execLoadDeadlineExpiry t id s) := by
  unfold execLoadDeadlineExpiry
  dsimp only
  (repeat' split) <;> simp
@[simp] theorem State.modGraft_fixed (sd id ver f) : (s.modGraft sd id ver f).fixed = s.fixed := by simp [State.modGraft]
@[simp] theorem State.dropGraft_fixed (g) : (s.dropGraft g).fixed = s.fixed := by simp [State.dropGraft]
@[simp] theorem State.discardGraft_fixed (g status) : (s.discardGraft g status).fixed = s.fixed := by
  unfold State.discardGraft
  split <;> simp
@[simp] theorem State.readPiece_fixed (g a at_ pos n) : (s.readPiece g a at_ pos n).fixed = s.fixed := by
  unfold State.readPiece
  dsimp only
  split
  · rfl
  split
  · simp
  split
  · split <;> simp
  · split <;> next h => simp [State.fixed_of_fst h]
@[simp] theorem State.readGraft_fixed (g0 a) : (s.readGraft g0 a).fixed = s.fixed := by
  unfold State.readGraft
  split
  · simp
  next s1 place hr =>
  have h1 : s1.fixed = s.fixed := by
    split at hr
    · exact State.warmRoom_alloc_fixed hr
    · cases hr
      rfl
  extract_lets g s2 at_
  split
  · split <;> simp [s2, h1]
  · simp [s2, h1]
@[simp] theorem State.graftGot_fixed (num pos status data) : (s.graftGot num pos status data).fixed = s.fixed := by
  unfold State.graftGot
  (repeat' split) <;> simp
@[simp] theorem State.beginGraft_fixed (a) : (s.beginGraft a).fixed = s.fixed := by
  unfold State.beginGraft
  dsimp only
  (repeat' split) <;> simp
@[simp] theorem State.msgGraftPut_fixed (src route m) : (s.msgGraftPut src route m).fixed = s.fixed := by simp [State.msgGraftPut]
@[simp] theorem State.commitGraft_fixed (g) : (s.commitGraft g).fixed = s.fixed := by
  unfold State.commitGraft
  split <;> simp
@[simp] theorem execGraftReady_keeps (t sd id ver) : s.keptBy (execGraftReady t sd id ver s) := by
  unfold execGraftReady
  dsimp only
  (repeat' split) <;> simp
@[simp] theorem execGraftCommit_keeps (t sd id ver) : s.keptBy (execGraftCommit t sd id ver s) := by
  unfold execGraftCommit
  dsimp only
  (repeat' split) <;> simp
@[simp] theorem State.beginRetire_fixed (a) : (s.beginRetire a).fixed = s.fixed := by simp [State.beginRetire]
@[simp] theorem State.msgGraftRetire_fixed (src route m) : (s.msgGraftRetire src route m).fixed = s.fixed := by
  simp [State.msgGraftRetire]
@[simp] theorem State.refillGraft_fixed (g) : (s.refillGraft g).fixed = s.fixed := by
  unfold State.refillGraft
  split
  · rfl
  split
  · rfl
  next hr =>
  have h1 := State.warmRoom_alloc_fixed hr
  split <;> simp [h1]
@[simp] theorem State.graftAgain_fixed (g) : (s.graftAgain g).1.fixed = s.fixed := by
  unfold State.graftAgain
  dsimp only
  (repeat' split) <;> simp
@[simp] theorem State.graftTry_fixed (g bs) : (s.graftTry g bs).fixed = s.fixed := by
  unfold State.graftTry
  split <;> simp
@[simp] theorem execRefetchComplete_keeps (t near id rx) : s.keptBy (execRefetchComplete t near id rx s) := by
  unfold execRefetchComplete
  dsimp only
  (repeat' split) <;> simp
@[simp] theorem execGraftFetch_keeps (t) : s.keptBy (execGraftFetch t s) := by
  unfold execGraftFetch
  dsimp only
  (repeat' split) <;> simp

/-! ### Forks, group steps and joins -/

@[simp] theorem State.modFork_fixed (id f) : (s.modFork id f).fixed = s.fixed := by simp [State.modFork]
@[simp] theorem State.modGroup_fixed (pass gstep f) : (s.modGroup pass gstep f).fixed = s.fixed := by simp [State.modGroup]
@[simp] theorem State.forkStatus_fixed : s.forkStatus.fixed = s.fixed := by simp [State.forkStatus]
@[simp] theorem State.forkFault_fixed (kind sd step peer token) : (s.forkFault kind sd step peer token).fixed = s.fixed := by
  simp [State.forkFault]
@[simp] theorem State.putRelWord_fixed (i rel off v) : (s.putRelWord i rel off v).fixed = s.fixed := by simp [State.putRelWord]
@[simp] theorem State.writeRow_fixed (b base fmt cols j bytes) : (s.writeRow b base fmt cols j bytes).fixed = s.fixed := by
  simp [State.writeRow]
@[simp] theorem State.chargeSlot_fixed (p slot status) : (s.chargeSlot p slot status).fixed = s.fixed := by
  unfold State.chargeSlot
  split <;> simp
@[simp] theorem State.failRow_fixed (p run i f token rank status) : (s.failRow p run i f token rank status).fixed = s.fixed := by
  simp [State.failRow]
theorem State.takeRow_taken_fixed {s t : State} {i : Inst} {r : ForkRow} (h : s.takeRow i r = .taken t) : t.fixed = s.fixed := by
  unfold State.takeRow at h
  dsimp only at h
  split at h
  · cases h
  split at h
  · cases h
  split at h
  · cases h
  split at h
  · cases h
  · rw [← RowFate.taken.inj h]
    simp
@[simp] theorem State.dispatchRows_fixed (p i run f x cs) : (s.dispatchRows p i run f x cs).fixed = s.fixed := by
  unfold State.dispatchRows
  dsimp only
  split
  · refine State.each_fixed _ _ _ fun s c => ?_
    split
    · next h => exact State.takeRow_taken_fixed h
    all_goals simp
  split
  · simp
  split <;> next h => simp [State.fixed_of_fst h]
@[simp] theorem State.writeIndex_fixed (p i f rs a) : (s.writeIndex p i f rs a).fixed = s.fixed := by
  unfold State.writeIndex
  dsimp only
  refine (State.each_fixed _ _ _ fun s x => by split <;> simp).trans ?_
  simp
@[simp] theorem State.startFork_fixed (p i c step) : (s.startFork p i c step).2.fixed = s.fixed := by
  unfold State.startFork
  split <;> simp
@[simp] theorem execForkDoorbell_keeps (t b step) : s.keptBy (execForkDoorbell t b step s) := by
  unfold execForkDoorbell
  dsimp only
  (repeat' split) <;> simp
@[simp] theorem State.forkAck_fixed (run target status) : (s.forkAck run target status).fixed = s.fixed := by
  unfold State.forkAck
  dsimp only
  (repeat' split) <;> simp
@[simp] theorem execForkRelease_keeps (t b step) : s.keptBy (execForkRelease t b step s) := by
  unfold execForkRelease
  dsimp only
  split
  · simp
  split
  · simp
  split
  · simp
  split
  · simp
  split
  · simp
  split
  · simp
  split
  · simp
  split
  · simp
  split <;> next h => simp [State.fixed_of_fst h]
@[simp] theorem State.startGroup_fixed (p i c gstep) : (s.startGroup p i c gstep).2.fixed = s.fixed := by
  unfold State.startGroup
  split <;> simp
@[simp] theorem execGroupTrigger_keeps (t b gstep) : s.keptBy (execGroupTrigger t b gstep s) := by
  unfold execGroupTrigger
  dsimp only
  (repeat' split) <;> simp
@[simp] theorem State.runEntry_fixed (b gstep p l c rel rt g done e) :
    (s.runEntry b gstep p l c rel rt g done e).fixed = s.fixed := by
  simp [State.runEntry]
@[simp] theorem execGroupRun_keeps (t b gstep) : s.keptBy (execGroupRun t b gstep s) := by
  unfold execGroupRun
  dsimp only
  (repeat' split) <;> simp
@[simp] theorem State.returnRow_fixed (p i rt g gstep trig e j) : (s.returnRow p i rt g gstep trig e j).fixed = s.fixed := by
  unfold State.returnRow
  dsimp only
  split
  · simp
  split <;> next h => simp [State.fixed_of_fst h]
@[simp] theorem State.retryRows_fixed : s.retryRows.fixed = s.fixed := by
  refine (State.each_fixed _ _ _ fun s r => ?_).trans (State.modSv_fixed ..)
  split
  · rfl
  split
  · next h => exact State.takeRow_taken_fixed h
  all_goals simp
@[simp] theorem State.returnRows_fixed (b gstep p i rt g done) : (s.returnRows b gstep p i rt g done).fixed = s.fixed := by
  simp [State.returnRows]
@[simp] theorem State.endTrigger_fixed (b gstep pass g done) : (s.endTrigger b gstep pass g done).fixed = s.fixed := by
  simp [State.endTrigger]
@[simp] theorem execTriggerComplete_keeps (t b gstep) : s.keptBy (execTriggerComplete t b gstep s) := by
  unfold execTriggerComplete
  dsimp only
  (repeat' split) <;> simp
@[simp] theorem State.landRow_fixed (org bytes why) : (s.landRow org bytes why).fixed = s.fixed := by
  unfold State.landRow
  (repeat' split) <;> simp
@[simp] theorem execReturnedRowArrival_keeps (t) : s.keptBy (execReturnedRowArrival t s) := by
  unfold execReturnedRowArrival
  dsimp only
  (repeat' split) <;> simp
@[simp] theorem State.joinTiles_fixed (b p f run) : (s.joinTiles b p f run).fixed = s.fixed := by
  unfold State.joinTiles
  dsimp only
  refine (State.each_fixed _ _ _ fun s tok => by split <;> simp).trans ?_
  simp
@[simp] theorem execJoin_keeps (t b step) : s.keptBy (execJoin t b step s) := by
  unfold execJoin
  dsimp only
  (repeat' split) <;> simp
@[simp] theorem State.forkArrive_fixed (tx) : (s.forkArrive tx).1.fixed = s.fixed := by
  unfold State.forkArrive
  extract_lets kind grel gstep sd
  split
  · split
    · split <;> simp
    · rfl
  split
  · rfl
  split
  · rfl
  extract_lets g
  split
  · rfl
  split
  · simp
  split
  · refine State.foldl_fst_fixed _ _ (s, 0) fun x k => ?_
    extract_lets r
    split
    · next h => exact State.takeRow_taken_fixed h
    all_goals simp
  · rfl
@[simp] theorem State.forkReturnAck_fixed (inst gstep) : (s.forkReturnAck inst gstep).fixed = s.fixed := by
  simp [State.forkReturnAck]
@[simp] theorem State.abandonForks_fixed (p) : (s.abandonForks p).fixed = s.fixed := by simp [State.abandonForks]

/-! ### Tile movers -/

@[simp] theorem State.moverFault_fixed (b m i piece kind status addr viol op) :
    (s.moverFault b m i piece kind status addr viol op).fixed = s.fixed := by
  unfold State.moverFault
  (repeat' split) <;> simp
@[simp] theorem State.moverPoison_fixed (b m d why addr logged) : (s.moverPoison b m d why addr logged).fixed = s.fixed := by
  simp [State.moverPoison]
@[simp] theorem State.chargeDesc_fixed (b d status addr) : (s.chargeDesc b d status addr).fixed = s.fixed := by
  unfold State.chargeDesc
  split <;> simp
@[simp] theorem State.moverAccess_fixed (b m d kind piece c addr data len) :
    (s.moverAccess b m d kind piece c addr data len).fixed = s.fixed := by
  simp [State.moverAccess]
@[simp] theorem State.gotNow_fixed (b m i g) : (s.gotNow b m i g).fixed = s.fixed := by simp [State.gotNow]
@[simp] theorem State.askPiece_fixed (b m i d pos len) : (s.askPiece b m i d pos len).fixed = s.fixed := by
  unfold State.askPiece
  split <;> simp
@[simp] theorem State.wroteOut_fixed (d space off len) : (s.wroteOut d space off len).fixed = s.fixed := by
  unfold State.wroteOut
  split <;> simp
@[simp] theorem State.writePiece_fixed (b m i d piece pos bs) : (s.writePiece b m i d piece pos bs).fixed = s.fixed := by
  unfold State.writePiece
  split <;> simp
@[simp] theorem State.writeRange_fixed (b m i d piece pos bs) : (s.writeRange b m i d piece pos bs).fixed = s.fixed := by
  simp [State.writeRange]
@[simp] theorem State.modChk_fixed (b m f) : (s.modChk b m f).fixed = s.fixed := by simp [State.modChk]
@[simp] theorem State.mismatch_fixed (b m i d source seq addr exp got) :
    (s.mismatch b m i d source seq addr exp got).fixed = s.fixed := by
  simp [State.mismatch]
@[simp] theorem State.compare_fixed (b m i d source seq addr exp got differ) :
    (s.compare b m i d source seq addr exp got differ).1.fixed = s.fixed := by
  unfold State.compare
  split <;> simp
@[simp] theorem State.scatter_fixed (b m i d n hdr elems) : (s.scatter b m i d n hdr elems).fixed = s.fixed := by
  simp [State.scatter]
@[simp] theorem State.sendOut_fixed (b m bs) : (s.sendOut b m bs).fixed = s.fixed := by simp [State.sendOut]
@[simp] theorem State.readFaults_fixed (b m i n d errs) : (s.readFaults b m i n d errs).fixed = s.fixed := by
  simp [State.readFaults]
@[simp] theorem State.moveTile_fixed (b m i d n) : (s.moveTile b m i d n).fixed = s.fixed := by
  unfold State.moveTile
  extract_lets g hdr errs s0 elems was why0 s1 p seq poisoned msg srcA fresh v r hdr1 why bad hdr2 told s2 s3
  have h1 : s1.fixed = s.fixed := by simp [s1, s0]
  have hr : r.1.fixed = s.fixed := by
    unfold r
    split
    · split
      · simp [h1]
      · split <;> simp [h1]
    · exact h1
  have h2 : s2.fixed = s.fixed := by
    unfold s2
    split <;> simp [hr]
  have h3 : s3.fixed = s.fixed := by
    unfold s3
    split
    · simp [h2]
    · split
      · split <;> simp [h2]
      · simp [h2]
  simp [h3]
@[simp] theorem State.movePiece_fixed (b m i d p n) : (s.movePiece b m i d p n).fixed = s.fixed := by
  unfold State.movePiece
  dsimp only
  (repeat' split) <;> simp
@[simp] theorem State.endRaw_fixed (b m i d p) : (s.endRaw b m i d p).fixed = s.fixed := by
  unfold State.endRaw
  (repeat' split) <;> simp
@[simp] theorem State.pull_fixed (b m i need fuel) : (s.pull b m i need fuel).fixed = s.fixed := by
  induction fuel generalizing s with
  | zero => rfl
  | succ fuel ih =>
    unfold State.pull
    split
    · split <;> simp [ih]
    · rfl
@[simp] theorem State.allMoved_fixed (b m i) : (s.allMoved b m i).fixed = s.fixed := by simp [State.allMoved]
@[simp] theorem State.advance_fixed (b m i fuel) : (s.advance b m i fuel).fixed = s.fixed := by
  induction fuel generalizing s with
  | zero => rfl
  | succ fuel ih =>
    unfold State.advance
    dsimp only
    (repeat' split) <;> simp [ih]
@[simp] theorem State.goOn_fixed (b m i) : (s.goOn b m i).fixed = s.fixed := by
  unfold State.goOn
  split <;> simp
@[simp] theorem State.startMove_fixed (b m i d) : (s.startMove b m i d).fixed = s.fixed := by simp [State.startMove]
@[simp] theorem State.finishMover_fixed (a b m idx piece) : (s.finishMover a b m idx piece).fixed = s.fixed := by
  unfold State.finishMover
  split <;> simp
@[simp] theorem State.descDone_fixed (b m i) : (s.descDone b m i).fixed = s.fixed := by simp [State.descDone]
@[simp] theorem execMoverNop_keeps (t b m) : s.keptBy (execMoverNop t b m s) := by
  unfold execMoverNop
  dsimp only
  (repeat' split) <;> simp
@[simp] theorem execMoverMove_keeps (t b m) : s.keptBy (execMoverMove t b m s) := by
  unfold execMoverMove
  split
  · simp
  extract_lets s1 s2
  have h2 : s2.fixed = s.fixed := by
    refine (State.each_fixed _ _ _ fun s i => ?_).trans (State.at_fixed s t)
    split
    · split <;> simp
    · rfl
  split
  · simp [s1]
  split
  · split <;> simp [h2]
  · simp [h2]
@[simp] theorem execMoverWait_keeps (t b m) : s.keptBy (execMoverWait t b m s) := by
  unfold execMoverWait
  dsimp only
  (repeat' split) <;> simp
@[simp] theorem execMoveComplete_keeps (t b m i) : s.keptBy (execMoveComplete t b m i s) := by
  unfold execMoveComplete
  dsimp only
  (repeat' split) <;> simp

/-! ### Outstanding transactions -/

@[simp] theorem State.respondVc_fixed (port tx vc status data why arg) :
    (s.respondVc port tx vc status data why arg).fixed = s.fixed := by
  simp [State.respondVc]
@[simp] theorem State.respond_fixed (port tx status data why arg) : (s.respond port tx status data why arg).fixed = s.fixed := by
  simp [State.respond]
@[simp] theorem State.endServe_fixed (k status) : (s.endServe k status).fixed = s.fixed := by simp [State.endServe]
@[simp] theorem State.hostAnswer_fixed (port tx pcie status why data) :
    (s.hostAnswer port tx pcie status why data).fixed = s.fixed := by
  simp [State.hostAnswer]
@[simp] theorem State.hostDone_fixed (id idx status why data) : (s.hostDone id idx status why data).fixed = s.fixed := by
  unfold State.hostDone
  split <;> simp
@[simp] theorem State.accessDone_fixed (acc status why data arg) : (s.accessDone acc status why data arg).fixed = s.fixed := by
  unfold State.accessDone
  (repeat' split) <;> simp
@[simp] theorem State.shipDone_fixed (id status) : (s.shipDone id status).fixed = s.fixed := by
  unfold State.shipDone
  split <;> simp
@[simp] theorem State.complete_fixed (o status why data arg) : (s.complete o status why data arg).fixed = s.fixed := by
  unfold State.complete
  dsimp only
  (repeat' split) <;> simp
@[simp] theorem State.lose_fixed (dst tag) : (s.lose dst tag).fixed = s.fixed := by
  unfold State.lose
  split <;> simp
@[simp] theorem execResponseTimeout_keeps (t dst tag) : s.keptBy (execResponseTimeout t dst tag s) := by
  unfold execResponseTimeout
  dsimp only
  split <;> simp

/-! ### Links -/

@[simp] theorem State.setLink_fixed (n state width rate) : (s.setLink n state width rate).fixed = s.fixed := by simp [State.setLink]
@[simp] theorem State.linkEvent_fixed (n kind lanes) : (s.linkEvent n kind lanes).fixed = s.fixed := by simp [State.linkEvent]
@[simp] theorem State.updateParent_fixed : s.updateParent.fixed = s.fixed := by simp [State.updateParent]
@[simp] theorem State.downLink_fixed (n state) : (s.downLink n state).fixed = s.fixed := by simp [State.downLink]
@[simp] theorem State.attemptFails_fixed (n failed) : (s.attemptFails n failed).fixed = s.fixed := by simp [State.attemptFails]
@[simp] theorem State.endRestore_fixed (n status) : (s.endRestore n status).fixed = s.fixed := by
  unfold State.endRestore
  split <;> simp
@[simp] theorem State.retrain_fixed (n) : (s.retrain n).fixed = s.fixed := by simp [State.retrain]
@[simp] theorem State.loseTag_fixed (tag) : (s.loseTag tag).fixed = s.fixed := by
  unfold State.loseTag
  split <;> simp
@[simp] theorem State.mapOut_fixed (n kind) : (s.mapOut n kind).fixed = s.fixed := by simp [State.mapOut]
@[simp] theorem execNakRetransmit_keeps (t n) : s.keptBy (execNakRetransmit t n s) := by
  unfold execNakRetransmit
  dsimp only
  split <;> simp
@[simp] theorem State.sendFlit_fixed (n kind vc seq payload) : (s.sendFlit n kind vc seq payload).fixed = s.fixed := by
  simp [State.sendFlit]
@[simp] theorem State.sendPiece_fixed (n q) : (s.sendPiece n q).fixed = s.fixed := by simp [State.sendPiece]
@[simp] theorem execFlitSlot_keeps (t n) : s.keptBy (execFlitSlot t n s) := by
  unfold execFlitSlot
  dsimp only
  (repeat' split) <;> simp
@[simp] theorem State.msgBerTest_fixed (src route m) : (s.msgBerTest src route m).fixed = s.fixed := by simp [State.msgBerTest]
@[simp] theorem execBerTestStart_keeps (t) : s.keptBy (execBerTestStart t s) := by
  unfold execBerTestStart
  dsimp only
  split <;> simp
@[simp] theorem State.berResult_fixed (n bits errs) : (s.berResult n bits errs).fixed = s.fixed := by simp [State.berResult]
@[simp] theorem execBerTestEnd_keeps (t res) : s.keptBy (execBerTestEnd t res s) := by
  unfold execBerTestEnd
  extract_lets s1
  split
  · simp [s1]
  extract_lets ns s2 s3 s4
  have h2 : s2.fixed = s.fixed :=
    (State.each_fixed _ _ _ fun s n => by split <;> simp).trans (State.at_fixed s t)
  simp [s4, s3, h2]
@[simp] theorem State.msgLinkRestore_fixed (src route m) : (s.msgLinkRestore src route m).fixed = s.fixed := by
  simp [State.msgLinkRestore]

/-! ### Multicast trees -/

@[simp] theorem State.treeSend_fixed (e tx) : (s.treeSend e tx).fixed = s.fixed := by simp [State.treeSend]
@[simp] theorem State.mcDeliver_fixed (tx) : (s.mcDeliver tx).fixed = s.fixed := by
  refine (State.each_fixed _ _ _ fun s l => State.each_fixed _ _ _ fun s k => ?_).trans (State.modSv_fixed ..)
  dsimp only
  split
  · split <;> simp
  · rfl
@[simp] theorem execMcastWrite_keeps (t n tx) : s.keptBy (execMcastWrite t n tx s) := by
  unfold execMcastWrite
  dsimp only
  (repeat' split) <;> simp
@[simp] theorem State.mcSend_fixed (tree off bs) : (s.mcSend tree off bs).fixed = s.fixed := by
  unfold State.mcSend
  split <;> simp
@[simp] theorem execMcastShardSend_keeps (t id) : s.keptBy (execMcastShardSend t id s) := by
  unfold execMcastShardSend
  dsimp only
  (repeat' split) <;> simp

/-! ### Transactions that arrive -/

@[simp] theorem State.portAccess_fixed (port sv kind fn rb rc space off addr data len cls why) :
    (s.portAccess port sv kind fn rb rc space off addr data len cls why).fixed = s.fixed := by
  simp [State.portAccess]
@[simp] theorem State.remoteAccess_fixed (port tx) : (s.remoteAccess port tx).fixed = s.fixed := by simp [State.remoteAccess]
@[simp] theorem State.finishTx_fixed (a port tx) : (s.finishTx a port tx).fixed = s.fixed := by simp [State.finishTx]
@[simp] theorem State.hostPiece_fixed (sd op addr n) : (s.hostPiece sd op addr n).1.fixed = s.fixed := by
  unfold State.hostPiece
  (repeat' split) <;> simp
@[simp] theorem State.hostAccess_fixed (port sd tx pcie) : (s.hostAccess port sd tx pcie).fixed = s.fixed := by
  unfold State.hostAccess
  extract_lets n ps cls post
  split
  next id s0 h0 =>
  extract_lets step r
  have hstep : ∀ x p, (step x p).1.fixed = x.1.fixed := by
    intro x p
    simp only [step]
    split
    · simp
    · simp
    · split
      · next h => split <;> simp [State.fixed_of_fst h]
      · next h => simp [State.fixed_of_fst h]
  have hr : r.1.fixed = s.fixed := by
    simp [r, State.foldl_fst_fixed step _ _ hstep, State.fixed_of_snd h0]
  split <;> simp [hr]
@[simp] theorem State.hostDeny_fixed (port tx) : (s.hostDeny port tx).fixed = s.fixed := by simp [State.hostDeny]
@[simp] theorem State.hostTx_fixed (port tx) : (s.hostTx port tx).fixed = s.fixed := by
  unfold State.hostTx
  (repeat' split) <;> simp
@[simp] theorem State.kvFetch_fixed (port tx) : (s.kvFetch port tx).fixed = s.fixed := by
  unfold State.kvFetch
  extract_lets sd id n serve s1
  split
  · simp
  split
  · simp
  extract_lets pages frags
  refine (State.foldl_fixed _ _ _ fun s f => ?_).trans (show s1.fixed = s.fixed by simp [s1])
  extract_lets last why k
  split
  · next h => simp [State.fixed_of_fst h]
  · next h => split <;> simp [State.fixed_of_fst h]
@[simp] theorem State.kvData_fixed (port tx) : (s.kvData port tx).fixed = s.fixed := by
  unfold State.kvData
  (repeat' split) <;> simp
@[simp] theorem State.relayFork_fixed (port tx) : (s.relayFork port tx).fixed = s.fixed := by
  unfold State.relayFork
  dsimp only
  split
  · next h => simp [State.fixed_of_fst h]
  · next h => split <;> simp [State.fixed_of_fst h]
@[simp] theorem State.performTx_fixed (port tx) : (s.performTx port tx).fixed = s.fixed := by
  unfold State.performTx
  (repeat' split) <;> simp
@[simp] theorem State.takeTx_fixed (port tx) : (s.takeTx port tx).fixed = s.fixed := by simp [State.takeTx]
@[simp] theorem State.rowTx_fixed (op port tx) : (s.rowTx op port tx).fixed = s.fixed := by simp [State.rowTx]
@[simp] theorem execTransactionForward_keeps (t port tx) : s.keptBy (execTransactionForward t port tx s) := by
  unfold execTransactionForward
  dsimp only
  (repeat' split) <;> simp

/-! ### Packets that arrive -/

@[simp] theorem State.finishAccess_fixed (a) : (s.finishAccess a).fixed = s.fixed := by
  unfold State.finishAccess
  split <;> simp
@[simp] theorem State.requestArrived_fixed (a bad) : (s.requestArrived a bad).fixed = s.fixed := by simp [State.requestArrived]
@[simp] theorem State.responseArrived_fixed (a) : (s.responseArrived a).fixed = s.fixed := by
  unfold State.responseArrived
  split <;> simp
@[simp] theorem execPacketArrival_keeps (t x) : s.keptBy (execPacketArrival t x s) := by
  unfold execPacketArrival
  dsimp only
  (repeat' split) <;> simp

/-! ### The stall sentinel -/

@[simp] theorem State.emptyBranches_fixed (bs) : (s.emptyBranches bs).fixed = s.fixed := by simp [State.emptyBranches]
@[simp] theorem State.resetInst_fixed (i) : (s.resetInst i).fixed = s.fixed := by
  unfold State.resetInst
  extract_lets s1 run s2 s3 s4
  have h2 : s2.fixed = s.fixed :=
    (State.each_fixed _ _ _ fun s id => by split <;> simp).trans (by simp [s1])
  simp [s4, s3, h2]
@[simp] theorem State.fireSentinel_fixed (i r) : (s.fireSentinel i r).fixed = s.fixed := by simp [State.fireSentinel]
@[simp] theorem State.protocolFault_fixed (before b) : (s.protocolFault before b).fixed = s.fixed := by
  unfold State.protocolFault
  split <;> simp
@[simp] theorem State.sentinelCount_fixed (b) : (s.sentinelCount b).fixed = s.fixed := by
  unfold State.sentinelCount
  split <;> simp
@[simp] theorem State.countCycle_fixed (b) : (s.countCycle b).fixed = s.fixed := by simp [State.countCycle]
@[simp] theorem execSlotTransfer_keeps (t b) : s.keptBy (execSlotTransfer t b s) := by
  unfold execSlotTransfer
  dsimp only
  (repeat' split) <;> simp
@[simp] theorem execSentinelFire_keeps (t b) : s.keptBy (execSentinelFire t b s) := by
  unfold execSentinelFire
  dsimp only
  (repeat' split) <;> simp

/-! ### Stand resets -/

@[simp] theorem State.scrub_fixed (lo n) : (s.scrub lo n).fixed = s.fixed := by simp [State.scrub]
@[simp] theorem State.scrubBranch_fixed (b) : (s.scrubBranch b).fixed = s.fixed := by simp [State.scrubBranch]
@[simp] theorem State.endMessages_fixed (sd) : (s.endMessages sd).fixed = s.fixed := by simp [State.endMessages]
@[simp] theorem State.endRequests_fixed (sd flr) : (s.endRequests sd flr).fixed = s.fixed := by
  refine State.each_fixed _ _ _ fun s id => ?_
  split <;> simp
@[simp] theorem State.emptyStand_fixed (sd) : (s.emptyStand sd).fixed = s.fixed := by simp [State.emptyStand]
@[simp] theorem State.startReset_fixed (sd cause) : (s.startReset sd cause).fixed = s.fixed := by simp [State.startReset]
@[simp] theorem State.endReset_fixed (sd) : (s.endReset sd).fixed = s.fixed := by simp [State.endReset]
@[simp] theorem State.reloadPins_fixed (sd) : (s.reloadPins sd).fixed = s.fixed := by
  unfold State.reloadPins
  split <;> simp
@[simp] theorem execPinEntryReload_keeps (t sd) : s.keptBy (execPinEntryReload t sd s) := by
  unfold execPinEntryReload
  dsimp only
  split <;> simp
@[simp] theorem State.beginStandReset_fixed (a) : (s.beginStandReset a).fixed = s.fixed := by simp [State.beginStandReset]
@[simp] theorem State.msgStandReset_fixed (src route m) : (s.msgStandReset src route m).fixed = s.fixed := by
  simp [State.msgStandReset]

/-! ### Power and energy -/

@[simp] theorem State.modPw_fixed (f) : (s.modPw f).fixed = s.fixed := by simp [State.modPw]
@[simp] theorem State.powerEvent_fixed (kind value) : (s.powerEvent kind value).fixed = s.fixed := by simp [State.powerEvent]
@[simp] theorem State.revokePass_fixed (p) : (s.revokePass p).fixed = s.fixed := by
  unfold State.revokePass
  extract_lets s1 s2
  have h1 : s1.fixed = s.fixed := State.each_fixed _ _ _ fun s id => by split <;> simp
  split <;> simp [s2, h1]
@[simp] theorem State.revokeLoop_fixed (fuel) : (s.revokeLoop fuel).fixed = s.fixed := by
  induction fuel generalizing s with
  | zero => rfl
  | succ fuel ih =>
    unfold State.revokeLoop
    split
    · rfl
    · split <;> simp [ih]
@[simp] theorem State.revokeOver_fixed : s.revokeOver.fixed = s.fixed := by simp [State.revokeOver]
@[simp] theorem State.stopBallast_fixed : s.stopBallast.fixed = s.fixed := by simp [State.stopBallast]
@[simp] theorem State.capChanged_fixed (s0 : State) (urgent) : (s0.capChanged s urgent).fixed = s.fixed := by
  simp [State.capChanged]
@[simp] theorem State.urgentNow_fixed : s.urgentNow.fixed = s.fixed := by simp [State.urgentNow]
@[simp] theorem State.rebound_fixed : s.rebound.fixed = s.fixed := by
  refine State.each_fixed _ _ _ fun s p => ?_
  split
  · rfl
  split
  · simp
  refine State.each_fixed _ _ _ fun s id => ?_
  split <;> simp
@[simp] theorem State.setFloor_fixed (f) : (s.setFloor f).fixed = s.fixed := by simp [State.setFloor]
@[simp] theorem State.raiseFloor_fixed : s.raiseFloor.fixed = s.fixed := by simp [State.raiseFloor]
@[simp] theorem State.thermalFloor_fixed : s.thermalFloor.fixed = s.fixed := by simp [State.thermalFloor]
@[simp] theorem execFloorStep_keeps (t w exceeds) : s.keptBy (execFloorStep t w exceeds s) := by
  unfold execFloorStep
  dsimp only
  (repeat' split) <;> simp
@[simp] theorem State.setFine_fixed (sd v) : (s.setFine sd v).fixed = s.fixed := by simp [State.setFine]
@[simp] theorem State.refill_fixed (sd) : (s.refill sd).fixed = s.fixed := by simp [State.refill]
@[simp] theorem State.chargeIdle_fixed (sd nj) : (s.chargeIdle sd nj).fixed = s.fixed := by simp [State.chargeIdle]
@[simp] theorem State.chargeBallast_fixed (owner nj) : (s.chargeBallast owner nj).fixed = s.fixed := by
  unfold State.chargeBallast
  split <;> simp
@[simp] theorem State.addOverhead_fixed (nj) : (s.addOverhead nj).fixed = s.fixed := by simp [State.addOverhead]
@[simp] theorem State.chargeBranch_fixed (b nj) : (s.chargeBranch b nj).fixed = s.fixed := by
  unfold State.chargeBranch
  (repeat' split) <;> simp
@[simp] theorem execFixedWUpdate_keeps (t) : s.keptBy (execFixedWUpdate t s) := by
  unfold execFixedWUpdate
  dsimp only
  split <;> simp
@[simp] theorem execAveragePowerCheck_keeps (t w) : s.keptBy (execAveragePowerCheck t w s) := by
  unfold execAveragePowerCheck
  dsimp only
  (repeat' split) <;> simp
@[simp] theorem State.heartbeat_fixed : s.heartbeat.fixed = s.fixed := by simp [State.heartbeat]
@[simp] theorem State.beginCapSet_fixed (a) : (s.beginCapSet a).fixed = s.fixed := by simp [State.beginCapSet]
@[simp] theorem State.msgCapSet_fixed (src route m) : (s.msgCapSet src route m).fixed = s.fixed := by simp [State.msgCapSet]
@[simp] theorem execInputSag_keeps (t mv) : s.keptBy (execInputSag t mv s) := by
  unfold execInputSag
  dsimp only
  split <;> simp
@[simp] theorem execSagRecovery_keeps (t mv) : s.keptBy (execSagRecovery t mv s) := by
  unfold execSagRecovery
  dsimp only
  split <;> simp

/-! ### The exchange of ring time -/

@[simp] theorem State.modClock_fixed (f) : (s.modClock f).fixed = s.fixed := by simp [State.modClock]
@[simp] theorem execTimeSyncRequest_keeps (t sub) : s.keptBy (execTimeSyncRequest t sub s) := by
  unfold execTimeSyncRequest
  dsimp only
  (repeat' split) <;> simp
@[simp] theorem State.takeOffset_fixed (off) : (s.takeOffset off).fixed = s.fixed := by simp [State.takeOffset]
@[simp] theorem execPpsInEdge_keeps (t) : s.keptBy (execPpsInEdge t s) := by
  unfold execPpsInEdge
  extract_lets s1 anchored first s2 near s3
  have h2 : s2.fixed = s.fixed := by
    unfold s2
    split <;> simp [s1]
  have h3 : s3.fixed = s.fixed := by
    unfold s3
    split <;> simp [h2]
  simp [h3]
@[simp] theorem execPpsOutPulse_keeps (t) : s.keptBy (execPpsOutPulse t s) := by
  unfold execPpsOutPulse
  dsimp only
  split <;> simp

/-! ### Resets and stops -/

@[simp] theorem State.breakFreeze_fixed : s.breakFreeze.fixed = s.fixed := by simp [State.breakFreeze]
@[simp] theorem State.revokeAll_fixed : s.revokeAll.fixed = s.fixed := by
  unfold State.revokeAll
  dsimp only
  rw [State.modSv_fixed]
  refine State.each_fixed _ _ _ fun s id => ?_
  split <;> simp
@[simp] theorem State.endAdmins_fixed : s.endAdmins.fixed = s.fixed := by
  refine State.each_fixed _ _ _ fun s a => ?_
  split <;> simp
@[simp] theorem State.stop_fixed (cause) : (s.stop cause).fixed = s.fixed := by simp [State.stop]
@[simp] theorem State.cleared_fixed (level) : (s.cleared level).fixed = s.fixed := by simp [State.cleared]
@[simp] theorem State.resetTo_fixed (level trig) : (s.resetTo level trig).fixed = s.fixed := by simp [State.resetTo]
@[simp] theorem execBrownOut_keeps (t mv) : s.keptBy (execBrownOut t mv s) := by
  unfold execBrownOut
  dsimp only
  split <;> simp
@[simp] theorem execLowInputStop_keeps (t mv) : s.keptBy (execLowInputStop t mv s) := by
  unfold execLowInputStop
  dsimp only
  split <;> simp
@[simp] theorem execOvervoltageStop_keeps (t mv) : s.keptBy (execOvervoltageStop t mv s) := by
  unfold execOvervoltageStop
  dsimp only
  split <;> simp
@[simp] theorem execInputRecovery_keeps (t mv) : s.keptBy (execInputRecovery t mv s) := by
  unfold execInputRecovery
  dsimp only
  split <;> simp
@[simp] theorem execResetNLow_keeps (t) : s.keptBy (execResetNLow t s) := by
  unfold execResetNLow
  dsimp only
  (repeat' split) <;> simp
@[simp] theorem execResetNRelease_keeps (t strap) : s.keptBy (execResetNRelease t strap s) := by
  unfold execResetNRelease
  dsimp only
  (repeat' split) <;> simp
@[simp] theorem State.rootReset_fixed (trig) : (s.rootReset trig).fixed = s.fixed := by simp [State.rootReset]
@[simp] theorem execWatchdogExpiry_keeps (t) : s.keptBy (execWatchdogExpiry t s) := by
  unfold execWatchdogExpiry
  dsimp only
  split <;> simp
@[simp] theorem execRootclkLoss_keeps (t) : s.keptBy (execRootclkLoss t s) := by
  unfold execRootclkLoss
  dsimp only
  split <;> simp
@[simp] theorem execRootclkRecovery_keeps (t) : s.keptBy (execRootclkRecovery t s) := by
  unfold execRootclkRecovery
  dsimp only
  split <;> simp
@[simp] theorem State.enterS2_fixed : s.enterS2.fixed = s.fixed := by simp [State.enterS2]
@[simp] theorem State.enterS3_fixed : s.enterS3.fixed = s.fixed := by simp [State.enterS3]
@[simp] theorem State.wakeS3_fixed (cause source) : (s.wakeS3 cause source).fixed = s.fixed := by simp [State.wakeS3]
@[simp] theorem State.wakeAny_fixed (cause source) : (s.wakeAny cause source).fixed = s.fixed := by simp [State.wakeAny]
@[simp] theorem execWakePin_keeps (t n level) : s.keptBy (execWakePin t n level s) := by
  unfold execWakePin
  dsimp only
  split <;> simp
@[simp] theorem execUrrenSignalWake_keeps (t n) : s.keptBy (execUrrenSignalWake t n s) := by
  unfold execUrrenSignalWake
  dsimp only
  split <;> simp
@[simp] theorem execStandbyBrownout_keeps (t) : s.keptBy (execStandbyBrownout t s) := by
  unfold execStandbyBrownout
  dsimp only
  split <;> simp
@[simp] theorem execCoolantFaultAssert_keeps (t) : s.keptBy (execCoolantFaultAssert t s) := by
  unfold execCoolantFaultAssert
  dsimp only
  split <;> simp
@[simp] theorem State.thermalStatus_fixed : s.thermalStatus.fixed = s.fixed := by
  unfold State.thermalStatus
  split <;> simp
@[simp] theorem execSensorUpdate_keeps (t reads) : s.keptBy (execSensorUpdate t reads s) := by
  unfold execSensorUpdate
  dsimp only
  (repeat' split) <;> simp

/-! ### Routing banks -/

@[simp] theorem State.putShadow_fixed (pid lo hi) : (s.putShadow pid lo hi).fixed = s.fixed := by simp [State.putShadow]
@[simp] theorem State.putShadowTree_fixed (i a b) : (s.putShadowTree i a b).fixed = s.fixed := by simp [State.putShadowTree]
@[simp] theorem State.putRouteWord_fixed (k w) : (s.putRouteWord k w).fixed = s.fixed := by simp [State.putRouteWord]
@[simp] theorem State.putTreeWord_fixed (k w) : (s.putTreeWord k w).fixed = s.fixed := by simp [State.putTreeWord]
@[simp] theorem State.swapBanks_fixed : s.swapBanks.fixed = s.fixed := by simp [State.swapBanks]
@[simp] theorem State.arm_fixed : s.arm.fixed = s.fixed := by simp [State.arm]
@[simp] theorem State.disarm_fixed : s.disarm.fixed = s.fixed := by simp [State.disarm]
@[simp] theorem State.routeUpdate_fixed (a) : (s.routeUpdate a).fixed = s.fixed := by simp [State.routeUpdate]
@[simp] theorem State.msgRouteUpdate_fixed (src route m) : (s.msgRouteUpdate src route m).fixed = s.fixed := by
  simp [State.msgRouteUpdate]
@[simp] theorem State.partJoin_fixed (a) : (s.partJoin a).fixed = s.fixed := by simp [State.partJoin]
@[simp] theorem State.msgPartJoin_fixed (src route m) : (s.msgPartJoin src route m).fixed = s.fixed := by simp [State.msgPartJoin]
@[simp] theorem execShadowCopyDone_keeps (t) : s.keptBy (execShadowCopyDone t s) := by
  unfold execShadowCopyDone
  extract_lets s1 waits s2
  split
  · simp [s1]
  rw [State.keptBy_next]
  refine (State.each_fixed _ _ _ fun s id => ?_).trans (by simp [s2, s1])
  split
  · split <;> simp
  · rfl
@[simp] theorem State.msgPartDrain_fixed (src route m) : (s.msgPartDrain src route m).fixed = s.fixed := by
  simp [State.msgPartDrain]
@[simp] theorem execDrainComplete_keeps (t) : s.keptBy (execDrainComplete t s) := by
  unfold execDrainComplete
  dsimp only
  split <;> simp
@[simp] theorem State.unroutable_fixed (tx status) : (s.unroutable tx status).fixed = s.fixed := by
  unfold State.unroutable
  (repeat' split) <;> simp
@[simp] theorem execQuiesceRelease_keeps (t dst vc) : s.keptBy (execQuiesceRelease t dst vc s) := by
  unfold execQuiesceRelease
  dsimp only
  split
  · simp
  split
  · simp
  split
  · simp
  rw [State.keptBy_next]
  refine (State.each_fixed _ _ _ fun s x => ?_).trans (State.modUr_fixed ..)
  split <;> next h => simp [State.fixed_of_fst h]

/-! ### Telemetry -/

@[simp] theorem State.endSnapshot_fixed (a) : (s.endSnapshot a).fixed = s.fixed := by simp [State.endSnapshot]
@[simp] theorem State.countSkipped_fixed (busy stall) : (s.countSkipped busy stall).fixed = s.fixed := by simp [State.countSkipped]
@[simp] theorem State.msgSnapshot_fixed (src route m) : (s.msgSnapshot src route m).fixed = s.fixed := by simp [State.msgSnapshot]

/-! ### Admin messages by type, and THAW -/

@[simp] theorem State.admHeld_fixed (src route m) : (s.admHeld src route m).fixed = s.fixed := by simp [State.admHeld]
@[simp] theorem State.deliverHeld_fixed (h) : (s.deliverHeld h).fixed = s.fixed := by simp [State.deliverHeld]
@[simp] theorem State.endExpired_fixed : s.endExpired.fixed = s.fixed := by
  unfold State.endExpired
  dsimp only
  rw [State.abortEmpty_fixed]
  refine State.each_fixed _ _ _ fun s id => ?_
  split <;> simp
@[simp] theorem State.thaw_fixed : s.thaw.fixed = s.fixed := by
  unfold State.thaw
  split
  · rfl
  extract_lets s1 s2 s3 d s4 s5 s6
  have h2 : s2.fixed = s.fixed := by
    unfold s2
    split <;> simp [s1]
  have h5 : s5.fixed = s.fixed := by simp [s5, s4, s3, h2]
  have h6 : s6.fixed = s.fixed :=
    (State.each_fixed _ _ _ State.deliverHeld_fixed).trans
      ((State.each_fixed _ _ _ fun s i => by split <;> simp).trans (by simp [h5]))
  simp [h6]
@[simp] theorem State.msgFreeze_fixed (src route m) : (s.msgFreeze src route m).fixed = s.fixed := by simp [State.msgFreeze]
@[simp] theorem State.msgThaw_fixed (src route m) : (s.msgThaw src route m).fixed = s.fixed := by simp [State.msgThaw]
@[simp] theorem State.admin_fixed (src route m) : (s.admin src route m).fixed = s.fixed := by simp [State.admin]

/-! ### Registers of a branch -/

@[simp] theorem State.brnReadClear_fixed (b o) : (s.brnReadClear b o).fixed = s.fixed := by simp [State.brnReadClear]
@[simp] theorem State.brnWrite_fixed (b o v isSealed) : (s.brnWrite b o v isSealed).fixed = s.fixed := by simp [State.brnWrite]

/-! ### Scan-out, dumps and the JTAG port -/

@[simp] theorem State.dumpEnd_fixed : s.dumpEnd.fixed = s.fixed := by simp [State.dumpEnd]
@[simp] theorem State.startDump_fixed : s.startDump.fixed = s.fixed := by
  unfold State.startDump
  dsimp only
  (repeat' split) <;> simp
@[simp] theorem execDumpPieceEmit_keeps (t) : s.keptBy (execDumpPieceEmit t s) := by
  unfold execDumpPieceEmit
  dsimp only
  (repeat' split) <;> simp
@[simp] theorem execTraceRecordSend_keeps (t) : s.keptBy (execTraceRecordSend t s) := by
  unfold execTraceRecordSend
  dsimp only
  (repeat' split) <;> simp
@[simp] theorem State.loadIr_fixed (ir) : (s.loadIr ir).fixed = s.fixed := by simp [State.loadIr]
@[simp] theorem State.tdo_fixed (n v) : (s.tdo n v).fixed = s.fixed := by simp [State.tdo]
@[simp] theorem State.boundaryScan_fixed (ir pins n v) : (s.boundaryScan ir pins n v).fixed = s.fixed := by
  simp [State.boundaryScan]
@[simp] theorem execFreezeNFallingEdge_keeps (t high) : s.keptBy (execFreezeNFallingEdge t high s) := by
  unfold execFreezeNFallingEdge
  dsimp only
  split <;> simp
@[simp] theorem execFreezeNStuckLow_keeps (t) : s.keptBy (execFreezeNStuckLow t s) := by
  unfold execFreezeNStuckLow
  dsimp only
  split <;> simp

/-! ### Register accesses -/

@[simp] theorem State.csrError_fixed (kind src write off) : (s.csrError kind src write off).fixed = s.fixed := by
  unfold State.csrError
  split <;> simp
@[simp] theorem State.csrReadClear_fixed (off) : (s.csrReadClear off).fixed = s.fixed := by
  unfold State.csrReadClear
  split <;> simp
@[simp] theorem State.rteWrite_fixed (o w) : (s.rteWrite o w).fixed = s.fixed := by simp [State.rteWrite]
@[simp] theorem State.csrAct_fixed (s0 : State) (off w) : (s0.csrAct s off w).fixed = s.fixed := by
  unfold State.csrAct
  split <;> simp
@[simp] theorem State.csrStore_fixed (src off w) : (s.csrStore src off w).fixed = s.fixed := by
  unfold State.csrStore
  dsimp only
  split <;> simp
@[simp] theorem State.csrRead_fixed (src off n) : (s.csrRead src off n).1.fixed = s.fixed := by
  unfold State.csrRead
  split <;> simp
@[simp] theorem State.csrWrite_fixed (src off data) : (s.csrWrite src off data).1.fixed = s.fixed := by
  unfold State.csrWrite
  split <;> simp
@[simp] theorem State.writeWord_fixed (src off w) : (s.writeWord src off w).fixed = s.fixed := by simp [State.writeWord]
@[simp] theorem State.rowWrite_fixed (src off w act) : (s.rowWrite src off w act).fixed = s.fixed := by simp [State.rowWrite]

/-! ### Bring-up -/

@[simp] theorem State.preset_fixed (p) : (s.preset p).fixed = s.fixed := by simp [State.preset]
@[simp] theorem State.applySeed_fixed (bs strap) : (s.applySeed bs strap).fixed = s.fixed := by simp [State.applySeed]
@[simp] theorem State.seedReject_fixed (err sect) : (s.seedReject err sect).fixed = s.fixed := by simp [State.seedReject]
@[simp] theorem State.stepDone_fixed (n) : (s.stepDone n).fixed = s.fixed := by simp [State.stepDone]
@[simp] theorem State.boot1_fixed : s.boot1.fixed = s.fixed := by simp [State.boot1]
@[simp] theorem State.boot2_fixed (f) : (s.boot2 f).fixed = s.fixed := by simp [State.boot2]
@[simp] theorem State.boot3_fixed (f) : (s.boot3 f).fixed = s.fixed := by simp [State.boot3]
@[simp] theorem State.boot4_fixed (f) : (s.boot4 f).fixed = s.fixed := by simp [State.boot4]
@[simp] theorem State.boot5_fixed (o) : (s.boot5 o).fixed = s.fixed := by simp [State.boot5]
@[simp] theorem State.boot6_fixed : s.boot6.fixed = s.fixed := by
  unfold State.boot6
  dsimp only
  split <;> simp
@[simp] theorem State.boot7_fixed (f) : (s.boot7 f).fixed = s.fixed := by simp [State.boot7]
@[simp] theorem State.warmTrained_fixed (f) : (s.warmTrained f).fixed = s.fixed := by
  refine State.each_fixed _ _ _ fun s c => ?_
  split
  · simp
  · dsimp only
    split
    · simp
    · simp
@[simp] theorem State.formUnits_fixed : s.formUnits.fixed = s.fixed := by simp [State.formUnits]
@[simp] theorem State.warmFormed_fixed (l) : (s.warmFormed l).fixed = s.fixed := by
  unfold State.warmFormed
  extract_lets old p s1 gone
  have h1 : s1.fixed = s.fixed := by simp [s1]
  split
  · exact h1
  · simp [h1]
@[simp] theorem State.ftlPlaced_fixed (rs) : (s.ftlPlaced rs).fixed = s.fixed := by simp [State.ftlPlaced]
@[simp] theorem State.deepTrained_fixed (f) : (s.deepTrained f).fixed = s.fixed := by
  refine State.each_fixed _ _ _ fun s c => ?_
  split
  · simp
  · split <;> simp
@[simp] theorem State.ftlStart_fixed (f) : (s.ftlStart f).fixed = s.fixed := by simp [State.ftlStart]
@[simp] theorem State.boot8_fixed (f) : (s.boot8 f).fixed = s.fixed := by simp [State.boot8]
@[simp] theorem State.volumesMade_fixed : s.volumesMade.fixed = s.fixed := by simp [State.volumesMade]
@[simp] theorem State.buildStand_fixed (bs prof sd base) : (s.buildStand bs prof sd base).fixed = s.fixed := by
  simp [State.buildStand]
@[simp] theorem State.buildStands_fixed (bs prof l base) : (s.buildStands bs prof l base).fixed = s.fixed := by
  induction l generalizing s base with
  | nil => rfl
  | cons sd l ih =>
    unfold State.buildStands
    rw [ih, State.buildStand_fixed]
@[simp] theorem State.checkSegments_fixed (sd) : (s.checkSegments sd).fixed = s.fixed := by simp [State.checkSegments]
@[simp] theorem State.boot9_fixed : s.boot9.fixed = s.fixed := by simp [State.boot9]
@[simp] theorem State.boot10_fixed : s.boot10.fixed = s.fixed := by simp [State.boot10]
@[simp] theorem State.boot11_fixed : s.boot11.fixed = s.fixed := by simp [State.boot11]
@[simp] theorem execBringUpStep_keeps (t n f) : s.keptBy (execBringUpStep t n f s) := by
  unfold execBringUpStep
  extract_lets s1
  have h1 : s1.fixed = s.fixed := State.at_fixed s t
  clear_value s1
  have done {s2 : State} {k : Nat} (h : s2.fixed = s1.fixed) : s.keptBy (.next (s2.stepDone k)) :=
    (State.keptBy_next ..).2 ((State.stepDone_fixed ..).trans (h.trans h1))
  split
  · exact (State.keptBy_next ..).2 h1
  next o _ =>
  refine State.keptBy_if ((State.keptBy_next ..).2 h1) ?_
  refine State.keptBy_if (done (State.boot1_fixed ..)) (State.keptBy_if (done (State.boot2_fixed ..)) (State.keptBy_if ?_ ?_))
  · rw [State.keptBy_next]
    split
    · exact (State.seedReject_fixed ..).trans h1
    split
    · exact (State.seedReject_fixed ..).trans h1
    · exact (State.stepDone_fixed ..).trans ((State.boot3_fixed ..).trans h1)
  refine State.keptBy_if (done (State.boot4_fixed ..)) (State.keptBy_if ?_ ?_)
  · rcases s1.seedFault s1.mg.seed s1.strap with _ | ⟨e, x⟩
    · exact done (State.boot5_fixed ..)
    · exact (State.keptBy_next ..).2 ((State.seedReject_fixed ..).trans h1)
  refine State.keptBy_if (done (State.boot6_fixed ..))
    (State.keptBy_if (done (State.boot7_fixed ..)) (State.keptBy_if (done (State.boot8_fixed ..)) ?_))
  refine State.keptBy_if ((State.keptBy_next ..).2 ((State.boot9_fixed ..).trans h1))
    (State.keptBy_if (done (State.boot10_fixed ..)) ?_)
  rw [State.keptBy_next]
  split
  · exact (State.stepDone_fixed ..).trans ((State.boot11_fixed ..).trans h1)
  · exact h1

/-! ### Host ports -/

@[simp] theorem State.hostCsr_fixed (port tx) : (s.hostCsr port tx).fixed = s.fixed := by
  unfold State.hostCsr
  dsimp only
  split
  · simp
  split
  · split <;> simp
  split
  · split <;> next h => simp [State.fixed_of_fst h]
  · split <;> simp
@[simp] theorem State.readWrite_fixed (op port tx) : (s.readWrite op port tx).fixed = s.fixed := by simp [State.readWrite]
@[simp] theorem State.pcieComplete_fixed (k tag data) : (s.pcieComplete k tag data).fixed = s.fixed := by
  unfold State.pcieComplete
  split <;> simp
@[simp] theorem State.dropWrite_fixed (k) : (s.dropWrite k).fixed = s.fixed := by simp [State.dropWrite]
@[simp] theorem State.dropInlet_fixed (k addr) : (s.dropInlet k addr).fixed = s.fixed := by simp [State.dropInlet]
@[simp] theorem State.inletWrite_fixed (k sd n off data) : (s.inletWrite k sd n off data).fixed = s.fixed := by
  simp [State.inletWrite]
@[simp] theorem State.bar0_fixed (k f off n tag wr) : (s.bar0 k f off n tag wr).fixed = s.fixed := by
  unfold State.bar0
  split <;> simp
@[simp] theorem State.bar2Admin_fixed (k f off n tag wr) : (s.bar2Admin k f off n tag wr).fixed = s.fixed := by
  unfold State.bar2Admin
  split <;> simp
@[simp] theorem State.bar2_fixed (k f off n tag wr) : (s.bar2 k f off n tag wr).fixed = s.fixed := by
  unfold State.bar2
  (repeat' split) <;> simp
@[simp] theorem State.bar4_fixed (k f off n tag wr) : (s.bar4 k f off n tag wr).fixed = s.fixed := by simp [State.bar4]
@[simp] theorem execAdminRingFetch_keeps (t k f slot) : s.keptBy (execAdminRingFetch t k f slot s) := by
  unfold execAdminRingFetch
  dsimp only
  split <;> simp

/-! ### The SMBus target -/

@[simp] theorem State.modMg_fixed (f) : (s.modMg f).fixed = s.fixed := by simp [State.modMg]
@[simp] theorem State.smbWritten_fixed (pec always f) (h : ∀ s, (f s).fixed = s.fixed) :
    (s.smbWritten pec always f).fixed = s.fixed := by
  simp [State.smbWritten, h]
@[simp] theorem State.smbRead_fixed (ok f) (h : ∀ s, (f s).fixed = s.fixed) : (s.smbRead ok f).fixed = s.fixed := by
  simp [State.smbRead, h]
@[simp] theorem State.smbStep_fixed (n) : (s.smbStep n).fixed = s.fixed := by simp [State.smbStep]
@[simp] theorem execReadCsr_keeps (t) : s.keptBy (execReadCsr t s) := by
  rw [execReadCsr, State.keptBy_next]
  refine State.smbRead_fixed _ _ _ fun s => ?_
  split <;> next h => simp [State.fixed_of_fst h]
@[simp] theorem execAlertResponse_keeps (t) : s.keptBy (execAlertResponse t s) := by
  unfold execAlertResponse
  dsimp only
  split <;> simp
@[simp] theorem execAlertNReassert_keeps (t) : s.keptBy (execAlertNReassert t s) := by
  unfold execAlertNReassert
  dsimp only
  split <;> simp

end


/-! ### A step -/

/-- Every command that answers a next state keeps the fixed fields: the arms of the dispatch, one by one. -/
theorem exec_keeps (i : Instr) (s : State) : s.keptBy (exec i s) := by
  cases i <;> simp [exec, execLoop, execBr, execMovc, execFence, execEnd, execNop, execAdd, execSub, execMul, execAnd, execOr,
    execXor, execShl, execShr, execSar, execMin, execMax, execMinu, execMaxu, execMov, execCmp, execPmask, execPlog, execPmov,
    execLd, execSt, execMma, execAccout, execAccin, execVop, execVcmp, execVsf, execVldt, execVstt, execVld, execVst, execVmov,
    execThdr, execRed, execTopk, execExpressCreditRefill, execPrefill, execDecodeStep, execVerifyStep, execDeepChannelLoss,
    execFtlRebuildEnd, execModelLoad, execModelEvict, execGraftPut, execGraftRetire, execMoverDescriptorFetch, execLinkTraining,
    execTrainingAttemptTimeout, execLinkLossOfLock, execLinkMapOut, execFecWindowCheck, execFlitReceive, execBerTest,
    execLinkRestore, execAtomic, execSignal, execFork, execKvFetch, execKvData, execResp, execSteeringDecision, execStandReset,
    execVfFlr, execPfFlr, execLevelChangeComplete, execFloorReleaseStep, execLedgerTick, execCoefUpdate, execBallastStep, execCapSet,
    execOrphanTimeout, execS1Entry, execS2Entry, execTimeSync, execPowerApplied, execReversePolarity, execRefclkLoss,
    execRefclkReturn, execRailOutOfLimits, execPllLockLoss, execCoolantFaultRelease, execOverTemperatureRecovery, execRouteEpochSwap,
    execRouteUpdate, execPartJoin, execPartDrain, execCounterSnapshotTick, execCounterSnapshot, execFreeze, execThaw, execExtest,
    execSamplePreload, execIdcode, execJtagFreeze, execJtagThaw, execScanSel, execScanData, execBypass, execOutputShortDetect,
    execCsrWrite, execLeafCtlSwitch, execLeafCtlAbort, execStdResetGo, execIrqMaskWrite, execLnkCtlRetrain, execRteCtlArm,
    execRteCtlDisarm, execNrgHbBeat, execEnterPartS2, execEnterS3, execLeavePartS2, execRstCtlRoot, execDbgCtlFreeze, execDbgCtlThaw,
    execDbgDumpStart, execRead, execWrite, execPcieInletWrite, execApertureAccess, execSetOffset, execWriteCsr, execTelem,
    execAdmPut, execAdmGo, execAdmGet, execAdmStat, execSmbusWake]

/-- On an empty queue the part idles. -/
theorem step_of_empty {s : State} (h : s.pending = []) : step s = .next s := by
  simp [step, h]
/-- A waiting command runs with the queue's rest. -/
theorem step_of_cons {s : State} {c : Instr} {rest : List Instr} (h : s.pending = c :: rest) :
    step s = exec c { s with pending := rest } := by
  simp [step, State.dequeue, h]

/-- Settles O3: the part idles, or the command taken from the queue keeps the fixed fields of the state it runs on. -/
theorem stepKeepsThePartAndTheQueue : Obligations.StepKeepsThePartAndTheQueue := by
  unfold Obligations.StepKeepsThePartAndTheQueue
  intro s t h
  cases hp : s.pending with
  | nil =>
    rw [step_of_empty hp] at h
    cases h
    simp [State.fixed, hp]
  | cons c rest =>
    rw [step_of_cons hp] at h
    exact exec_keeps c _ t h

/-- Settles O1, by the two ways a step can go. -/
theorem stepRunsTheFrontCommand : Obligations.StepRunsTheFrontCommand := by
  unfold Obligations.StepRunsTheFrontCommand
  exact ⟨fun _ _ _ h => step_of_cons h, fun _ h => step_of_empty h⟩

end Sys2Proof.Machine
end

section
/-! Every command keeps memory and the register table in canonical form (01 R26, 01 R31; log entry 1).

Memory changes by stores of bytes, and the register table by stores of registers; a reset, a scrub and a change of the stripe set drop
or move entries. The lemma of each update (`State.canonical.<update>`) says that it keeps the form, and cites the lemmas of the updates it
calls in the order in which they happen: `h.modDb.wf.traceFill` follows the state from `s` to the result. An update that touches
neither table has the form of the state before it, by definition. -/

namespace Sys2Proof.Machine

/-! ### The ways a state, a decision and a command's outcome are built -/

/-- A command that answers a next state answers one in canonical form. -/
def answersCanonical (o : Host.Outcome State Fault Refusal) : Prop := ∀ t, o = .next t → t.canonical
theorem answersCanonical.next {t : State} (h : t.canonical) : answersCanonical (.next t) := fun _ e => by cases e; exact h
theorem answersCanonical_fault {f : Fault} : answersCanonical (.fault f) := fun _ e => by cases e
theorem answersCanonical_refused {r : Refusal} : answersCanonical (.refused r) := fun _ e => by cases e
theorem answersCanonical.ite {c : Prop} {_ : Decidable c} {o o' : Host.Outcome State Fault Refusal} (h : answersCanonical o)
    (h' : answersCanonical o') : answersCanonical (if c then o else o') := by
  split
  · exact h
  · exact h'

/-- An issue that completes leaves a state in canonical form. -/
def issueCanonical : Issue → Prop
  | .done t => t.canonical
  | .portWait => True
  | .queueWait => True
theorem issueCanonical.done {t : State} (h : t.canonical) : issueCanonical (.done t) := h
theorem issueCanonical.ite {c : Prop} {_ : Decidable c} {i j : Issue} (h : issueCanonical i) (h' : issueCanonical j) :
    issueCanonical (if c then i else j) := by
  split
  · exact h
  · exact h'

/-- The state in a decision, taken or refused, is in canonical form. -/
def decisionCanonical : Except (Nat × State) (Nat × State) → Prop
  | .ok x => x.2.canonical
  | .error x => x.2.canonical
theorem decisionCanonical.ok {d : Except (Nat × State) (Nat × State)} {x : Nat × State} (h : decisionCanonical d) (e : d = .ok x) :
    x.2.canonical := by
  rw [e] at h
  exact h
theorem decisionCanonical.error {d : Except (Nat × State) (Nat × State)} {x : Nat × State} (h : decisionCanonical d)
    (e : d = .error x) : x.2.canonical := by
  rw [e] at h
  exact h

section
variable {s : State}

theorem State.canonical.ite {c : Prop} {_ : Decidable c} {t : State} (h : s.canonical) (h' : t.canonical) :
    (if c then s else t).canonical := by
  split
  · exact h
  · exact h'
theorem State.canonical.each {α : Type} {l : List α} {f : State → α → State} (h : s.canonical)
    (hf : ∀ s a, s.canonical → (f s a).canonical) : (s.each l f).canonical := State.each_keeps h fun s a _ => hf s a
theorem State.canonical.foldl {α : Type} {l : List α} {f : State → α → State} (h : s.canonical)
    (hf : ∀ s a, s.canonical → (f s a).canonical) : (l.foldl f s).canonical := h.each hf
/-- A fold that carries a value beside the state. -/
theorem State.canonical.foldlFst {α β : Type} {l : List α} {f : State × β → α → State × β} {x : State × β} (h : x.1.canonical)
    (hf : ∀ x a, x.1.canonical → (f x a).1.canonical) : (l.foldl f x).1.canonical := by
  induction l generalizing x with
  | nil => exact h
  | cons a _ ih => exact ih (hf x a h)
/-- The state a pair is taken apart into. -/
theorem State.canonical.fst {α : Type} {x : State × α} {t : State} {a : α} (h : x.1.canonical) (e : x = (t, a)) : t.canonical := by
  rw [e] at h
  exact h
theorem State.canonical.snd {α : Type} {x : α × State} {t : State} {a : α} (h : x.2.canonical) (e : x = (a, t)) : t.canonical := by
  rw [e] at h
  exact h
theorem State.canonical.getD {o : Option State} (h : s.canonical) (ho : ∀ t, o = some t → t.canonical) : (o.getD s).canonical := by
  cases o with
  | none => exact h
  | some t => exact ho t rfl

/-! ### Ring time, memory, leaves and branches -/

theorem State.canonical.at {t} (h : s.canonical) : (s.at t).canonical := h
theorem State.canonical.withNow {n} (h : s.canonical) : ({ s with now := n } : State).canonical := h
theorem State.canonical.tick (h : s.canonical) : s.tick.canonical := h
theorem State.canonical.memSet {k v} (h : s.canonical) : (s.memSet k v).canonical := ⟨memWf_set s k v h.1, h.2⟩
theorem State.canonical.memWrite {k bs} (h : s.canonical) : (s.memWrite k bs).canonical := ⟨memWf_write s k bs h.1, h.2⟩
theorem State.canonical.putLeaf {l lf} (h : s.canonical) : (s.putLeaf l lf).canonical := h
theorem State.canonical.modLeaf {l f} (h : s.canonical) : (s.modLeaf l f).canonical := h.putLeaf
theorem State.canonical.putBranch {b x} (h : s.canonical) : (s.putBranch b x).canonical := h
theorem State.canonical.modBranch {b f} (h : s.canonical) : (s.modBranch b f).canonical := h.putBranch
theorem State.canonical.modBranches {bs f} (h : s.canonical) : (s.modBranches bs f).canonical := h.foldl fun _ _ h => h.modBranch
theorem State.canonical.modLeavesOf {b f} (h : s.canonical) : (s.modLeavesOf b f).canonical := h.foldl fun _ _ h => h.modLeaf
theorem State.canonical.reportPoison {b mover index reason req addr} (h : s.canonical) :
    (s.reportPoison b mover index reason req addr).canonical := h

/-! ### Registers of the map -/

theorem State.canonical.putReg {off v} (h : s.canonical) : (s.putReg off v).canonical := ⟨h.1, csrWf_putReg s off v h.2⟩
theorem State.canonical.wf {off hi lo x} (h : s.canonical) : (s.wf off hi lo x).canonical := h.putReg
theorem State.canonical.wbit {off i b} (h : s.canonical) : (s.wbit off i b).canonical := h.wf
theorem State.canonical.bump {off hi lo x} (h : s.canonical) : (s.bump off hi lo x).canonical := h.wf
theorem State.canonical.clearReg {off} (h : s.canonical) : (s.clearReg off).canonical :=
  ⟨h.1, show tabWf none 0 (tset none s.csr off none) = true from tabWf_tset none (Nat.zero_le off) h.2⟩
theorem State.canonical.clearRegs {offs} (h : s.canonical) : (s.clearRegs offs).canonical := h.foldl fun _ _ h => h.clearReg
theorem State.canonical.firstEvent {log timeReg v} (h : s.canonical) : (s.firstEvent log timeReg v).canonical :=
  .ite h h.putReg.putReg
theorem State.canonical.count {o x} (h : s.canonical) : (s.count o x).canonical := h
theorem State.canonical.emit {o} (h : s.canonical) : (s.emit o).canonical := h
theorem State.canonical.modSv {f} (h : s.canonical) : (s.modSv f).canonical := h

/-! ### Trace records and the fault log -/

theorem State.canonical.modDb {f} (h : s.canonical) : (s.modDb f).canonical := h
theorem State.canonical.traceFill (h : s.canonical) : s.traceFill.canonical := h.wf
theorem State.canonical.tracePush {type time payload} (h : s.canonical) : (s.tracePush type time payload).canonical :=
  h.modDb.wf.traceFill
theorem State.canonical.traceLose (h : s.canonical) : s.traceLose.canonical := h.bump.modDb
theorem State.canonical.traceLost (h : s.canonical) : s.traceLost.canonical := .ite h.tracePush.modDb h
theorem State.canonical.traceRec {type time payload} (h : s.canonical) : (s.traceRec type time payload).canonical :=
  .ite h (.ite h.traceLose (.ite h.traceLost.tracePush h.traceLost.traceLose))
theorem State.canonical.traceStand {sd type payload} (h : s.canonical) : (s.traceStand sd type payload).canonical :=
  .ite h.traceRec h
theorem State.canonical.event {source index value addr} (h : s.canonical) : (s.event source index value addr).canonical :=
  h.traceRec
theorem State.canonical.eventOf {sd source index value addr} (h : s.canonical) :
    (s.eventOf sd source index value addr).canonical := by
  unfold State.eventOf
  split
  · exact .ite h.event h
  · exact h.event
theorem State.canonical.faultLog {kind value addr} (h : s.canonical) : (s.faultLog kind value addr).canonical :=
  .ite h h.modDb.traceRec

/-! ### Sending over Urren -/

theorem State.canonical.modUr {f} (h : s.canonical) : (s.modUr f).canonical := h
theorem State.canonical.modLink {n f} (h : s.canonical) : (s.modLink n f).canonical := h.modUr
theorem State.canonical.queueTx {n tx} (h : s.canonical) : (s.queueTx n tx).canonical := h.modLink
theorem State.canonical.flowSend {n tx} (h : s.canonical) : (s.flowSend n tx).canonical := by
  unfold State.flowSend
  split
  · exact h.modUr.queueTx
  · exact .ite h.modUr h.modUr.queueTx
theorem State.canonical.sendTx {tx} (h : s.canonical) : (s.sendTx tx).1.canonical := by
  unfold State.sendTx
  split
  · exact h.flowSend
  split
  · exact h
  · exact h.bump
theorem State.canonical.launch {tx p} (h : s.canonical) : (s.launch tx p).1.canonical := by
  unfold State.launch
  dsimp only
  split
  · exact h.sendTx.modUr
  split
  · exact h.sendTx.modUr.modUr
  · exact h.sendTx.modUr

/-! ### The freeze of the part -/

theorem State.canonical.freeze {cause drive peers} (h : s.canonical) : (s.freeze cause drive peers).canonical := by
  unfold State.freeze
  refine .ite h ?_
  refine .ite (h.wf.wf.putReg.putReg.tick.modBranches.modDb.traceRec.each fun _ _ h => .ite h.launch h) ?_
  exact h.wf.wf.putReg.putReg.tick.modBranches.modDb.traceRec
theorem State.canonical.holdTx {port tx} (h : s.canonical) : (s.holdTx port tx).canonical := .ite h.modDb h
theorem State.canonical.trigger {bit} (h : s.canonical) : (s.trigger bit).canonical := .ite h.freeze h

/-! ### Operands of leaf code -/

theorem State.canonical.leafWrite {l a bs} (h : s.canonical) : (s.leafWrite l a bs).canonical := by
  induction bs generalizing s a with
  | nil => exact h
  | cons _ _ ih => exact ih h.memSet

/-! ### Flags and poison of a leaf -/

theorem State.canonical.leafFault {l kind pc laddr} (h : s.canonical) : (s.leafFault l kind pc laddr).canonical :=
  h.modLeaf.eventOf
theorem State.canonical.consume {l why pc laddr} (h : s.canonical) : (s.consume l why pc laddr).canonical := by
  unfold State.consume
  split
  · exact h
  dsimp only
  split
  · exact h.leafFault
  · exact h.leafFault.modLeaf.reportPoison.trigger

/-! ### Issue of leaf code -/

theorem State.canonical.handoverCheck {l n} (h : s.canonical) : (s.handoverCheck l n).canonical :=
  .ite h.modLeaf (.ite h.modBranch h)
theorem State.canonical.leafSwitch {l} (h : s.canonical) : (s.leafSwitch l).canonical := h.modLeaf.handoverCheck
theorem State.canonical.endCheck {l} (h : s.canonical) : (s.endCheck l).canonical := .ite (.ite h.modLeaf.leafSwitch h.modLeaf) h
theorem State.canonical.issueWith {l g uses body adv} (h : s.canonical) (hb : ∀ s : State, s.canonical → issueCanonical (body s)) :
    answersCanonical (s.issueWith l g uses body adv) := by
  unfold State.issueWith
  have hs := hb s h
  refine .ite answersCanonical_fault (.ite (.next h) (.ite ?_ (.ite (.next h) ?_)))
  · split
    · exact .next h.putLeaf.endCheck
    · exact .next h.modLeaf
  split
  · exact .next h
  · exact .next h.modLeaf
  next s1 e =>
    rw [e] at hs
    have h1 : s1.canonical := hs
    split
    · exact .next h1.putLeaf.tick.endCheck
    · exact .next h.modLeaf
theorem State.canonical.issue {l g uses body} (h : s.canonical) (hb : ∀ s : State, s.canonical → issueCanonical (body s)) :
    answersCanonical (s.issue l g uses body) := h.issueWith hb
theorem State.canonical.issueReg {l g uses f} (h : s.canonical) : answersCanonical (s.issueReg l g uses f) :=
  h.issue fun _ h => .done h.modLeaf
theorem State.canonical.issueUnit {l g u uses op} (h : s.canonical) : answersCanonical (s.issueUnit l g u uses op) :=
  h.issue fun _ h => .ite (.done h.modLeaf) trivial
theorem State.canonical.freeCredit {b src beat} (h : s.canonical) : (s.freeCredit b src beat).canonical := h.modBranch
theorem State.canonical.issueDone {l g uses adv} (h : s.canonical) : answersCanonical (s.issueWith l g uses .done adv) :=
  h.issueWith fun _ h => .done h
theorem State.canonical.execLoopAt {l g c len eosp uses n} (h : s.canonical) :
    answersCanonical (s.execLoopAt l g c len eosp uses n) := by
  unfold State.execLoopAt
  exact h.issueDone

theorem execBr_canonical {l g target} (h : s.canonical) : answersCanonical (execBr l g target s) := h.issueDone
theorem execFence_canonical {l g units} (h : s.canonical) : answersCanonical (execFence l g units s) := h.issueDone
theorem execEnd_canonical {l g} (h : s.canonical) : answersCanonical (execEnd l g s) := h.issueDone

/-! ### Scalar and token instructions -/

theorem State.canonical.issueAlu {l g rd ra o f} (h : s.canonical) : answersCanonical (s.issueAlu l g rd ra o f) := h.issueReg
theorem execTsend_canonical {l g port ra i imm} (h : s.canonical) : answersCanonical (execTsend l g port ra i imm s) := by
  unfold execTsend
  refine .ite answersCanonical_refused ?_
  refine h.issue fun s h => ?_
  dsimp only
  split
  · exact trivial
  · exact .done h.putLeaf
theorem execTrecv_canonical {l g rd port} (h : s.canonical) : answersCanonical (execTrecv l g rd port s) := by
  unfold execTrecv
  refine .ite answersCanonical_refused ?_
  refine h.issue fun s h => ?_
  dsimp only
  split
  · exact trivial
  · exact .done h.putLeaf.freeCredit

/-! ### The leaf units at work -/

theorem State.canonical.noteSeen {l u a n} (h : s.canonical) : (s.noteSeen l u a n).canonical := .ite h h.modLeaf
theorem State.canonical.leafStore {l u ws} (h : s.canonical) : (s.leafStore l u ws).canonical := by
  induction ws generalizing s with
  | nil => exact h
  | cons _ _ ih => exact ih h.noteSeen.leafWrite
theorem State.canonical.runOp {l c bad} (h : s.canonical) : (s.runOp l c bad).canonical := by
  unfold State.runOp
  extract_lets r s1 s2
  have h2 : s2.canonical := by
    unfold s2
    split
    · exact h.putLeaf.leafStore.leafFault
    · exact h.putLeaf.leafStore
  exact h2.consume.tick
theorem State.canonical.pumpOut {l port fuel} (h : s.canonical) : (s.pumpOut l port fuel).canonical := by
  induction fuel generalizing s with
  | zero => exact h
  | succ fuel ih =>
    unfold State.pumpOut
    dsimp only
    split
    · exact h
    · exact .ite (ih h.putLeaf) h
theorem State.canonical.pumpIn {l port fuel} (h : s.canonical) : (s.pumpIn l port fuel).canonical := by
  induction fuel generalizing s with
  | zero => exact h
  | succ fuel ih =>
    unfold State.pumpIn
    dsimp only
    split
    · exact ih h.putLeaf.leafStore.freeCredit
    · exact h
theorem State.canonical.pump {l} (h : s.canonical) : (s.pump l).canonical :=
  (h.foldl fun _ _ h => h.pumpOut).foldl fun _ _ h => h.pumpIn
theorem execSend_canonical {l g port aw ra rn i imm} (h : s.canonical) :
    answersCanonical (execSend l g port aw ra rn i imm s) := by
  unfold execSend
  refine .ite answersCanonical_refused ?_
  exact h.issue fun _ h => .ite (.done h) (.ite (.done h.putLeaf.pump) trivial)
theorem execRecv_canonical {l g port ra rn i imm} (h : s.canonical) : answersCanonical (execRecv l g port ra rn i imm s) := by
  unfold execRecv
  refine .ite answersCanonical_refused ?_
  exact h.issue fun _ h => .ite (.done h) (.ite (.done h.putLeaf.pump) trivial)
theorem State.canonical.runVectorHead {l} (h : s.canonical) : (s.runVectorHead l).canonical := by
  unfold State.runVectorHead
  split
  · exact h.runOp
  · exact h
theorem State.canonical.leafAbort {l} (h : s.canonical) : (s.leafAbort l).canonical :=
  .ite h (.ite h.runVectorHead.modLeaf.leafSwitch h.runVectorHead.modLeaf)
theorem State.canonical.leafSwitchReq {l} (h : s.canonical) : (s.leafSwitchReq l).canonical := .ite h.modLeaf.leafSwitch h.modLeaf
theorem State.canonical.leafCtlWrite {l w} (h : s.canonical) : (s.leafCtlWrite l w).canonical := by
  unfold State.leafCtlWrite
  extract_lets s1 s2
  have h2 : s2.canonical := .ite h.modLeaf.leafAbort h.modLeaf
  exact .ite h2.leafSwitchReq h2
theorem execUnitCommandComplete_canonical {t l q bad} (h : s.canonical) :
    answersCanonical (execUnitCommandComplete t l q bad s) := by
  unfold execUnitCommandComplete
  refine .ite answersCanonical_fault ?_
  refine .ite (.next h.at) ?_
  dsimp only
  split
  · exact .next h.at
  · exact .ite (.next h.at) (.next h.at.runOp.modLeaf.pump.endCheck)

/-! ### The slot plane -/

theorem State.canonical.modCredit {b src f} (h : s.canonical) : (s.modCredit b src f).canonical := h.modBranch
theorem State.canonical.modLane {b key f} (h : s.canonical) : (s.modLane b key f).canonical := h.modBranch
theorem State.canonical.modWire {b key f} (h : s.canonical) : (s.modWire b key f).canonical := h.modBranch
theorem State.canonical.useCredit {b src tok} (h : s.canonical) : (s.useCredit b src tok).canonical := h.modCredit
theorem State.canonical.dropCredit {b src tok} (h : s.canonical) : (s.dropCredit b src tok).canonical := h.modCredit
theorem State.canonical.inletPump {b key fuel} (h : s.canonical) : (s.inletPump b key fuel).canonical := by
  induction fuel generalizing s with
  | zero => exact h
  | succ fuel ih =>
    unfold State.inletPump
    dsimp only
    split
    · exact h
    · exact .ite h (ih h.modBranch.useCredit.modLane)
theorem execCreditReturn_canonical {t b src} (h : s.canonical) : answersCanonical (execCreditReturn t b src s) := by
  unfold execCreditReturn
  refine .ite answersCanonical_fault ?_
  exact .ite (.next h.at) (.next (.ite h.at.modCredit.inletPump h.at.modCredit))
theorem State.canonical.modMover {b m f} (h : s.canonical) : (s.modMover b m f).canonical := h.modBranch
theorem State.canonical.modSteer {b node unit f} (h : s.canonical) : (s.modSteer b node unit f).canonical := h.modBranch
theorem State.canonical.freeCredits {b srcs beat} (h : s.canonical) : (s.freeCredits b srcs beat).canonical :=
  h.foldl fun _ _ h => h.freeCredit
theorem State.canonical.takeBeat {starts b node dest slot src sport lane} (h : s.canonical) {x t}
    (e : s.takeBeat starts b node dest slot src sport lane = some (x, t)) : t.canonical := by
  have key : ∀ y ∈ s.takeBeat starts b node dest slot src sport lane, y.2.canonical := by
    unfold State.takeBeat
    dsimp only
    (repeat' split) <;>
      simp [h.modWire, h.modBranch.useCredit.freeCredit, h.modLeaf.useCredit.pump, h.modMover.useCredit, h.modSteer.freeCredits.useCredit]
  exact key _ e
theorem State.canonical.takeTok {starts b node dest slot src sport lane} (h : s.canonical) {x t}
    (e : s.takeTok starts b node dest slot src sport lane = some (x, t)) : t.canonical := by
  have key : ∀ y ∈ s.takeTok starts b node dest slot src sport lane, y.2.canonical := by
    unfold State.takeTok
    dsimp only
    (repeat' split) <;>
      simp [h.modWire, h.modBranch.useCredit.freeCredit, h.modLeaf.useCredit, h.modMover.useCredit, h.modSteer.useCredit]
  exact key _ e
theorem State.canonical.moved {b} (h : s.canonical) : (s.moved b).canonical := .ite h.modBranch h
theorem State.canonical.deliver {b node dest slot dport lane it} (h : s.canonical) :
    (s.deliver b node dest slot dport lane it).canonical := by
  unfold State.deliver
  extract_lets +onlyGivenNames tok src
  split
  · split
    · exact h.modWire
    refine .ite h.modBranch.dropCredit ?_
    split
    · exact .ite h.modLane h.modLane
    · exact h.modLane
  extract_lets +onlyGivenNames s1
  have h1 : s1.canonical := .moved (.ite h h.modBranch)
  refine .ite h1.modLeaf.pump (.ite ?_ h1.modSteer)
  split
  · exact h1
  · exact h1.modMover
theorem State.canonical.moveEntry {starts b node slot dest} (h : s.canonical) :
    (s.moveEntry starts b node slot dest).canonical := by
  unfold State.moveEntry
  extract_lets +onlyGivenNames x e
  split
  · exact h
  extract_lets +onlyGivenNames s1
  have h1 : s1.canonical := by
    unfold s1
    split
    next e0 => exact (h.takeBeat e0).deliver
    · exact h
  split
  next e0 => exact (h1.takeTok e0).deliver
  · exact h1
theorem State.canonical.runSlotOf {b} (h : s.canonical) : (s.runSlotOf b).canonical := by
  unfold State.runSlotOf
  extract_lets +onlyGivenNames slot starts s2 s3
  have h3 : s3.canonical := State.canonical.foldl (s := s2) h fun _ _ h => h.foldl fun _ _ h => h.moveEntry
  exact h3.modBranch
theorem State.canonical.reach {b n} (h : s.canonical) : (s.reach b n).canonical :=
  .ite h (h.modBranch.each fun _ _ h => .ite h h.modBranch)
theorem State.canonical.takeLimit {b} (h : s.canonical) : (s.takeLimit b).canonical := h.modBranch
theorem State.canonical.handOver {b n} (h : s.canonical) : (s.handOver b n).canonical := h.modBranch.modLeavesOf.takeLimit
theorem State.canonical.handoverStep {b} (h : s.canonical) : (s.handoverStep b).canonical :=
  .ite h (.ite h (.ite h.reach.handOver h.reach))
theorem execCrossingLaneArrival_canonical {t b key} (h : s.canonical) : answersCanonical (execCrossingLaneArrival t b key s) := by
  unfold execCrossingLaneArrival
  refine .ite answersCanonical_fault ?_
  refine .ite (.next h.at) ?_
  dsimp only
  split
  · exact .next h.at
  refine .next ?_
  split
  · exact h.at.modBranch.moved.modBranch
  · exact h.at.modBranch.moved

/-! ### Stands -/

theorem State.canonical.modRes {sd f} (h : s.canonical) : (s.modRes sd f).canonical := h.modSv
theorem State.canonical.pfVector {v} (h : s.canonical) : (s.pfVector v).canonical := h.each fun _ _ h => .ite h.emit h
theorem State.canonical.alertEdge (h : s.canonical) : s.alertEdge.canonical := by
  unfold State.alertEdge
  extract_lets c mg put
  have hp : ∀ on ans, (put on ans).canonical := fun _ _ => h
  exact .ite (hp _ _) (.ite (hp _ _) (.ite (hp _ _).pfVector (hp _ _)))
theorem State.canonical.vecMessage {sd v} (h : s.canonical) : (s.vecMessage sd v).canonical := .ite h.emit h.emit
theorem State.canonical.setVector {sd v} (h : s.canonical) : (s.setVector sd v).canonical := by
  unfold State.setVector
  exact .ite h (.ite h.wbit h.wbit.vecMessage.alertEdge)
theorem State.canonical.violation {sd op rq br unit addr tag} (h : s.canonical) :
    (s.violation sd op rq br unit addr tag).canonical := by
  unfold State.violation
  extract_lets a s1
  have h1 : s1.canonical := by
    unfold s1
    split
    · exact h.putReg.putReg.putReg.putReg
    · exact h.bump
  exact h1.setVector.eventOf.trigger
theorem State.canonical.noteOutside {space off n} (h : s.canonical) : (s.noteOutside space off n).canonical := .ite h.noteSeen h
theorem State.canonical.store {space off bs} (h : s.canonical) : (s.store space off bs).canonical := h.noteOutside.memWrite
theorem State.canonical.modReq {id f} (h : s.canonical) : (s.modReq id f).canonical := h.modSv
theorem State.canonical.dropReq {id} (h : s.canonical) : (s.dropReq id).canonical := h.modSv
theorem State.canonical.modLoad {l f} (h : s.canonical) : (s.modLoad l f).canonical := h.modSv
theorem State.canonical.modPass {p f} (h : s.canonical) : (s.modPass p f).canonical := h.modSv
theorem State.canonical.dropPass {p} (h : s.canonical) : (s.dropPass p).canonical := h.modSv
theorem State.canonical.fresh (h : s.canonical) : s.fresh.2.canonical := h.modSv
theorem State.canonical.charge {id status addr} (h : s.canonical) : (s.charge id status addr).canonical := h.modReq
theorem State.canonical.chargePass {b status addr} (h : s.canonical) : (s.chargePass b status addr).canonical := by
  unfold State.chargePass
  split
  · exact h.each fun _ _ h => h.charge
  · exact h
theorem State.canonical.addBucket {sd d} (h : s.canonical) : (s.addBucket sd d).canonical := .ite h.putReg.setVector h.putReg
theorem State.canonical.addCharged {sd uj} (h : s.canonical) : (s.addCharged sd uj).canonical := h.putReg
theorem State.canonical.sendRecord {s0 : State} {r cr result} (h : s0.canonical) : (s0.sendRecord r cr result).canonical := by
  unfold State.sendRecord
  refine .ite (.ite h.traceStand.emit.wf.setVector h.traceStand.emit.wf) ?_
  split
  · exact h.traceStand.emit
  · exact h.traceStand
theorem State.canonical.settle {r share} (h : s.canonical) : (s.settle r share).canonical := h.addCharged.addBucket
theorem State.canonical.undefine {r} (h : s.canonical) : (s.undefine r).canonical := h.each fun _ _ h => h.memWrite.tick
theorem State.canonical.finish {r st accepted share result flr} (h : s.canonical) :
    (s.finish r st accepted share result flr).canonical := by
  unfold State.finish
  extract_lets status acc cr s0 s1 s2 s3 s4
  have h0 : s0.canonical := .ite h h.undefine
  have h2 : s2.canonical := .ite h0.settle.dropReq h0.settle.dropReq.sendRecord
  have h3 : s3.canonical := .ite h2.setVector h2
  have h4 : s4.canonical := .ite h3.count.modRes h3
  exact .ite h4.setVector h4
theorem State.canonical.refuse {r status} (h : s.canonical) : (s.refuse r status).canonical :=
  h.traceStand.dropReq.sendRecord.count.modRes

/-! ### The residency pool -/

theorem State.canonical.objWrite {o off bs} (h : s.canonical) : (s.objWrite o off bs).canonical := h.each fun _ _ h => h.store
theorem State.canonical.objPoison {o why} (h : s.canonical) : (s.objPoison o why).canonical := h.each fun _ _ h => .ite h h
theorem State.canonical.modObj {id f} (h : s.canonical) : (s.modObj id f).canonical := h.modSv
theorem State.canonical.useObjs {p} (h : s.canonical) : (s.useObjs p).canonical := h.modSv
theorem State.canonical.dropObj {id} (h : s.canonical) : (s.dropObj id).canonical := h.modSv
theorem State.canonical.moveObj {o o'} (h : s.canonical) : (s.moveObj o o').canonical := h.modObj.objWrite.objPoison
theorem State.canonical.evict {o} (h : s.canonical) : (s.evict o).canonical :=
  .ite h.bump.modObj (.ite h.bump.moveObj h.bump.dropObj)
theorem State.canonical.allocFrames {sd id n keep fuel} (h : s.canonical) : (s.allocFrames sd id n keep fuel).1.canonical := by
  induction fuel generalizing s with
  | zero => exact h
  | succ fuel ih =>
    unfold State.allocFrames
    split
    · exact h
    split
    · exact h
    · exact ih h.evict
theorem State.canonical.newObj {sd kind manifest index size expect keep} (h : s.canonical) :
    (s.newObj sd kind manifest index size expect keep).1.canonical := by
  unfold State.newObj
  split
  next e0 =>
  split
  next e1 => exact (h.fresh.snd e0).allocFrames.fst e1
  next e1 => exact ((h.fresh.snd e0).allocFrames.fst e1).modSv
theorem State.canonical.reframe {o} (h : s.canonical) : (s.reframe o).1.canonical := by
  unfold State.reframe
  split
  · split
    next e1 => exact h.allocFrames.fst e1
    next e1 => exact (h.allocFrames.fst e1).modObj
  · exact h
theorem State.canonical.placeWrite {place bs} (h : s.canonical) : (s.placeWrite place bs).canonical :=
  h.foldlFst fun _ _ h => h.store
theorem State.canonical.wake {bs} (h : s.canonical) : (s.wake bs).canonical := h.modBranches
theorem State.canonical.reviseJobs {p} (h : s.canonical) : (s.reviseJobs p).canonical := h.modSv
theorem State.canonical.allocShards {sd m ks} (h : s.canonical) : (s.allocShards sd m ks).1.canonical := by
  induction ks generalizing s with
  | nil => exact h
  | cons _ _ ih =>
    unfold State.allocShards
    split
    · exact ih h
    split
    next e => exact h.newObj.fst e
    next e => exact ih (h.newObj.fst e)
theorem State.canonical.queueJob {l} (h : s.canonical) : (s.queueJob l).1.canonical := by
  unfold State.queueJob
  dsimp only
  split
  next e0 => exact h.allocShards.fst e0
  next e0 => exact (h.allocShards.fst e0).modSv
theorem State.canonical.fillWarm {l ks} (h : s.canonical) : (s.fillWarm l ks).canonical := by
  unfold State.fillWarm
  refine h.each fun s k h => ?_
  split
  · split
    next e1 => exact (h.fresh.snd e1).modSv
  · exact h
theorem State.canonical.shardTerm {l cls} (h : s.canonical) : decisionCanonical (s.shardTerm l cls) := by
  unfold State.shardTerm
  dsimp only
  split
  · exact h
  split
  · exact h
  split
  · split <;> next e => exact h.queueJob.fst e
  split <;> exact h.fillWarm
theorem State.canonical.queueFetch {obj n} (h : s.canonical) : (s.queueFetch obj n).canonical := h.modSv
theorem State.canonical.fetchImage {load} (h : s.canonical) : (s.fetchImage load).canonical := by
  unfold State.fetchImage
  split
  · exact .ite h h.queueFetch
  · split
    next e1 => exact (h.newObj.fst e1).queueFetch
    next e1 => exact h.newObj.fst e1
  · exact h
theorem State.canonical.beginCtxLoad {b} (h : s.canonical) : (s.beginCtxLoad b).canonical := by
  unfold State.beginCtxLoad
  split
  · exact h
  refine .ite h ?_
  split
  · exact h
  · exact (h.each fun _ _ h => h.modLeaf).modBranch.modSv
theorem State.canonical.beginLoads {bs} (h : s.canonical) : (s.beginLoads bs).canonical := h.each fun _ _ h => h.beginCtxLoad
theorem State.canonical.startLoads {i e pin} (h : s.canonical) : (s.startLoads i e pin).canonical := by
  unfold State.startLoads
  extract_lets s9
  have h9 : s9.canonical := by
    unfold s9
    refine h.each fun s cfg h => ?_
    extract_lets mine
    refine .ite (.ite h.modSv.modBranches h) ?_
    split
    · exact h
    refine h.each fun s x h => ?_
    extract_lets fill at_ fin s0
    have h0 : s0.canonical := .ite h.fetchImage h
    exact .ite h0.modSv h0.modSv
  exact h9.beginLoads

/-! ### Descriptor fetch and admission -/

theorem State.canonical.fetched {sd r d} (h : s.canonical) : (s.fetched sd r d).canonical := by
  unfold State.fetched
  extract_lets +onlyGivenNames p idx s1
  have h1 : s1.canonical := h.wf
  split
  · extract_lets +onlyGivenNames s2
    have h2 : s2.canonical := .ite h1 h1.putReg
    exact h2.bump.setVector
  split
  next e0 => exact (h1.fresh.snd e0).modSv
theorem execDescriptorFetch_canonical {t sd descs} (h : s.canonical) : answersCanonical (execDescriptorFetch t sd descs s) := by
  unfold execDescriptorFetch
  dsimp only
  split
  · exact .next h.at
  · exact .ite (.next ((h.at.each fun _ _ h => h.fetched).modRes)) (.next h.at)
theorem State.canonical.setPlan {oldIds new} (h : s.canonical) : (s.setPlan oldIds new).canonical := h.modSv
theorem State.canonical.accept {r f} (h : s.canonical) : (s.accept r f).canonical := h.modReq.count.modRes.traceStand
theorem State.canonical.decided {r} (h : s.canonical) : (s.decided r).canonical := .ite h.wf h.wf
theorem State.canonical.takeGraft {r} (h : s.canonical) : (s.takeGraft r).1.canonical := by
  unfold State.takeGraft
  split
  · exact h
  · exact h
  dsimp only
  split
  next e1 => exact h.newObj.fst e1
  next e1 => exact (h.newObj.fst e1).queueFetch
theorem State.canonical.terms {r l i extra} (h : s.canonical) : decisionCanonical (s.terms r l i extra) := by
  unfold State.terms
  dsimp only
  split
  next e0 => exact h.shardTerm.error e0
  next e0 =>
  split
  next e1 => exact (h.shardTerm.ok e0).takeGraft.fst e1
  next e1 => split <;> exact (h.shardTerm.ok e0).takeGraft.fst e1
theorem State.canonical.giveBack {s0 : State} (h : s.canonical) : (s0.giveBack s).canonical := h.modSv
theorem State.canonical.decideOn {r l i extra} (h : s.canonical) : decisionCanonical (s.decideOn r l i extra) := by
  unfold State.decideOn
  split
  next e0 => exact h.terms.error e0
  next e0 =>
  have h0 := h.terms.ok e0
  dsimp only
  split
  · exact h0
  · exact h0
  split
  · exact h0
  split
  · exact h0
  · exact h0.fresh.modReq.modReq.setPlan.accept.addBucket.startLoads.wake
theorem State.canonical.refusedBy {r e} (h : e.2.canonical) : (s.refusedBy r e).canonical := h.giveBack.refuse
theorem decisionCanonical.bestOf {l : List (Except (Nat × State) (Nat × State))} {b : Except (Nat × State) (Nat × State)}
    (hb : decisionCanonical b) (hl : ∀ x ∈ l, decisionCanonical x) : decisionCanonical (bestOf l b) := by
  induction l generalizing b with
  | nil => exact hb
  | cons x xs ih =>
    obtain ⟨hx, hxs⟩ := List.forall_mem_cons.1 hl
    unfold Machine.bestOf
    split
    · exact ih (by split <;> assumption) hxs
    · exact ih hx hxs
    · exact ih hb hxs
theorem State.canonical.decideOn_mem {r : Request} {l : Load} {extra : Nat} {is : List Inst} {x} {xs} (h : s.canonical)
    (e : is.map (fun i => s.decideOn r l i extra) = x :: xs) : ∀ y ∈ x :: xs, decisionCanonical y := by
  rw [← e]
  intro y hy
  obtain ⟨i, -, rfl⟩ := List.mem_map.1 hy
  exact h.decideOn
theorem State.canonical.decideBulk {r l i extra} (h : s.canonical) : (s.decideBulk r l i extra).canonical := by
  unfold State.decideBulk
  split
  next e0 => exact (h.terms.error e0).refusedBy
  next rho s1 e0 =>
    have h1 : s1.canonical := h.terms.ok e0
    split
    · exact State.canonical.refusedBy h1
    extract_lets +onlyGivenNames d s2
    have h2 : s2.canonical := h1.accept.addBucket
    exact .ite (State.canonical.refusedBy h1) h2.startLoads.wake
theorem State.canonical.setCredits {sd c v} (h : s.canonical) : (s.setCredits sd c v).canonical := h.modSv
theorem State.canonical.decideExpress {r l i c} (h : s.canonical) : (s.decideExpress r l i c).canonical :=
  .ite h.refuse (.ite h.refuse (.ite h.refuse h.takeGraft.setCredits.accept.addBucket))
theorem State.canonical.decideRest {r l extra} (h : s.canonical) : (s.decideRest r l extra).canonical := by
  unfold State.decideRest
  refine .ite ?_ (.ite h.refuse (.ite h.refuse (.ite ?_ ?_)))
  · split
    · exact h.refuse
    · exact h.decideExpress
  · split
    · exact h.decideBulk
    · exact h.refuse
  split
  · exact h.refuse
  next hl =>
  obtain ⟨hx, hxs⟩ := List.forall_mem_cons.1 (h.decideOn_mem hl)
  split
  next e => exact (hx.bestOf hxs).ok e
  next e => exact ((hx.bestOf hxs).error e).refusedBy
theorem State.canonical.failUndecided {r status addr} (h : s.canonical) : (s.failUndecided r status addr).canonical :=
  h.dropReq.sendRecord
theorem State.canonical.decideInfer {r} (h : s.canonical) : (s.decideInfer r).canonical := by
  unfold State.decideInfer
  refine .ite h.refuse ?_
  split
  · exact h.refuse
  split
  · exact h.violation.failUndecided
  split
  · exact h.refuse
  · exact h.modReq.decideRest
theorem execInfer_canonical {t sd} (h : s.canonical) : answersCanonical (execInfer t sd s) := by
  unfold execInfer
  dsimp only
  split
  · exact .next h.at
  · exact .ite (.next h.at) (.next h.at.decideInfer.decided)

/-! ### The packet plane -/

theorem State.canonical.sendPacket {vc src dst isResp flits acc} (h : s.canonical) :
    (s.sendPacket vc src dst isResp flits acc).canonical := h
theorem State.canonical.sendTransfer {vc src dst write n acc} (h : s.canonical) :
    (s.sendTransfer vc src dst write n acc).canonical := h.foldl fun _ _ h => h.sendPacket
theorem State.canonical.modPackets {f} (h : s.canonical) : (s.modPackets f).canonical := h
theorem State.canonical.flitLeaves {a} (h : s.canonical) : (s.flitLeaves a).canonical := by
  unfold State.flitLeaves
  extract_lets b head s1 moved s2
  have h1 : s1.canonical := h.modPackets
  have h2 : s2.canonical := .ite (show moved.canonical from h1.modPackets) h1
  exact h2.modBranch
theorem execLinkCycleVcSelect_canonical {t leaf out full} (h : s.canonical) :
    answersCanonical (execLinkCycleVcSelect t leaf out full s) := by
  unfold execLinkCycleVcSelect
  refine .ite answersCanonical_fault ?_
  refine .ite (.next h.at) ?_
  split
  · exact .next h.at
  split
  · exact .next h.at
  · exact .next h.at.flitLeaves.modBranch
theorem State.canonical.arbitrate {leaf out vc} (h : s.canonical) : (s.arbitrate leaf out vc).canonical := by
  unfold State.arbitrate
  refine .ite h ?_
  dsimp only
  split
  · exact h
  split
  · exact h
  · exact h.modPackets

/-! ### Rings of the tile movers -/

theorem State.canonical.modDesc {b m i f} (h : s.canonical) : (s.modDesc b m i f).canonical := h.modMover
theorem State.canonical.ringTokens {b m} (h : s.canonical) : (s.ringTokens b m).canonical := .ite h.modMover h.modMover.moved
theorem State.canonical.abandonIn {bs p} (h : s.canonical) : (s.abandonIn bs p).canonical :=
  h.each fun _ _ h => h.each fun _ _ h => h.modMover.ringTokens

/-! ### Sequences -/

theorem State.canonical.modSeq {sd id f} (h : s.canonical) : (s.modSeq sd id f).canonical := h.modSv
theorem State.canonical.takePages {q l} (h : s.canonical) : (s.takePages q l).1.canonical := by
  induction l generalizing s with
  | nil => exact h
  | cons _ _ ih =>
    unfold State.takePages
    split
    · exact ih h
    split
    next e => exact h.newObj.fst e
    next e => exact ih (h.newObj.fst e).modObj.modSeq
theorem State.canonical.allocPages {q n} (h : s.canonical) : (s.allocPages q n).1.canonical := h.takePages
theorem State.canonical.freeSeq {sd id} (h : s.canonical) : (s.freeSeq sd id).canonical := h.modSv
theorem State.canonical.markSpare {sd id len} (h : s.canonical) : (s.markSpare sd id len).canonical := h.modSv
theorem State.canonical.reframes {l} (h : s.canonical) : (s.reframes l).1.canonical := by
  induction l generalizing s with
  | nil => exact h
  | cons _ _ ih =>
    unfold State.reframes
    split
    next e => exact h.reframe.fst e
    next e => exact ih (h.reframe.fst e)
theorem State.canonical.restorePages {sd id} (h : s.canonical) : (s.restorePages sd id).1.canonical := by
  unfold State.restorePages
  extract_lets sp
  split
  next e0 => exact h.reframes.fst e0
  next e0 =>
  extract_lets s2
  have h2 : s2.canonical := (h.reframes.fst e0).each fun _ _ h => .ite h h.queueFetch
  exact h2
theorem State.canonical.leavePass {id} (h : s.canonical) : (s.leavePass id).canonical := h.modSv
theorem State.canonical.retireOld (h : s.canonical) : s.retireOld.canonical := h.modSv
theorem State.canonical.settleSeq {r status} (h : s.canonical) : (s.settleSeq r status).canonical := by
  unfold State.settleSeq
  refine .ite h.modSeq.markSpare ?_
  refine .ite ?_ (.ite h.modSeq h)
  extract_lets src s1
  have h1 : s1.canonical := .ite h.modSeq h
  exact .ite (.ite h1.modSeq.freeSeq h1.modSeq) h1.freeSeq
theorem State.canonical.unpinned {s0 : State} (h : s.canonical) : (s0.unpinned s).canonical := h.useObjs
theorem State.canonical.endOne {r0 st result flr} (h : s.canonical) : (s.endOne r0 st result flr).canonical :=
  h.finish.leavePass.settleSeq.retireOld.unpinned
theorem State.canonical.endReq {r status result flr} (h : s.canonical) : (s.endReq r status result flr).canonical := by
  unfold State.endReq
  refine .ite h.endOne ?_
  refine h.endOne.each fun s id h => ?_
  split
  · exact h.endOne
  · exact h
theorem State.canonical.runReleases (h : s.canonical) : s.runReleases.canonical := h.each fun _ _ h => .ite h h.freeSeq.endReq
theorem State.canonical.adminEnd {id status body} (h : s.canonical) : (s.adminEnd id status body).canonical := by
  unfold State.adminEnd
  split
  · exact h
  extract_lets +onlyGivenNames s1 bs told
  have h1 : s1.canonical := h.modSv
  have hr : ∀ {s : State}, s.canonical → (told s).canonical := fun h => by
    unfold told
    split
    · exact h.setVector
    · exact h
  split
  · exact .ite h1.emit.emit.emit h1.emit.emit.setVector
  · exact h1
  · exact h1.sendTx
  · exact hr h1.queueTx
  · exact hr h1.emit
theorem State.canonical.releaseLoad {l} (h : s.canonical) : (s.releaseLoad l).canonical :=
  ((h.each fun _ _ h => h.modBranch).each fun _ _ h => h.modLeavesOf).modSv
theorem State.canonical.runEvictions (h : s.canonical) : s.runEvictions.canonical := by
  unfold State.runEvictions
  refine h.each fun s l h => ?_
  refine .ite h ?_
  split
  · exact h.releaseLoad.adminEnd
  · exact h.releaseLoad
theorem State.canonical.afterEnds (h : s.canonical) : s.afterEnds.canonical := h.runReleases.runEvictions
theorem State.canonical.endLoad {l status} (h : s.canonical) : (s.endLoad l status).canonical := by
  unfold State.endLoad
  extract_lets s1 s2
  have h2 : s2.canonical := .ite h.adminEnd.modLoad (.ite h.adminEnd.modLoad h.adminEnd.releaseLoad)
  exact h2.unpinned
theorem State.canonical.stepSeq {r g} (h : s.canonical) {t q} (e : s.stepSeq r g = .ok (t, q)) : t.canonical := by
  unfold State.stepSeq at e
  dsimp only at e
  split at e
  · split at e
    · cases e
      exact h
    · cases e
  split at e
  · cases e
  split at e
  · cases e
  · cases e
    exact h.modSv
theorem State.canonical.undoSeq {s0 : State} {s1 : State} {r} (h : s1.canonical) : (s0.undoSeq s1 r).canonical := .ite h h.freeSeq
theorem State.canonical.stepPages {q n} (h : s.canonical) : (s.stepPages q n).1.canonical := by
  unfold State.stepPages
  split
  next e0 => exact h.allocPages.fst e0
  next e0 => exact (h.allocPages.fst e0).restorePages
theorem State.canonical.decideStep {r} (h : s.canonical) : (s.decideStep r).canonical := by
  unfold State.decideStep
  split
  · exact h.refuse
  refine .ite h.refuse ?_
  split
  · exact h.refuse
  next s1 q e1 =>
    have h1 : s1.canonical := h.stepSeq e1
    split
    refine .ite h1.undoSeq.refuse ?_
    split
    · exact h1.undoSeq.violation.failUndecided
    refine .ite h1.undoSeq.refuse ?_
    split
    · exact h1.undoSeq.refuse
    split
    next s2 e2 =>
      have h2 : s2.canonical := h1.stepPages.fst e2
      exact h2.undoSeq.giveBack.refuse
    next s2 term e2 =>
      have h2 : s2.canonical := h1.stepPages.fst e2
      have h3 {q : Request} {l} : (State.decideRest (s2.modReq r.id fun _ => q) q l term).canonical := h2.modReq.decideRest
      exact .ite (.ite h3.modSeq h3) h3.undoSeq.giveBack
theorem State.canonical.stepDecision {sd op} (h : s.canonical) : (s.stepDecision sd op).canonical := by
  unfold State.stepDecision
  split
  · exact h
  · exact .ite h h.decideStep.decided
theorem State.canonical.planShip {r bound} (h : s.canonical) {t} (e : s.planShip r bound = some t) : t.canonical := by
  unfold State.planShip at e
  dsimp only at e
  split at e
  · cases e
  · cases e
    exact h.fresh.modSv
theorem State.canonical.decideShip {r} (h : s.canonical) : (s.decideShip r).canonical := by
  unfold State.decideShip
  dsimp only
  split
  · exact h.refuse
  refine .ite h.refuse ?_
  refine .ite h.refuse ?_
  refine .ite h.refuse ?_
  refine .ite h.refuse ?_
  split
  next e1 => exact (h.modSv.allocPages.fst e1).freeSeq.refuse
  next e1 =>
  split
  · exact (h.modSv.allocPages.fst e1).freeSeq.refuse
  next e2 => exact .ite ((h.modSv.allocPages.fst e1).freeSeq.refuse) (((h.modSv.allocPages.fst e1).planShip e2).accept)
theorem execKvShip_canonical {t sd} (h : s.canonical) : answersCanonical (execKvShip t sd s) := by
  unfold execKvShip
  dsimp only
  split
  · exact .next h.at
  · exact .ite (.next h.at) (.next h.at.decideShip.decided)
theorem State.canonical.copyPages {ssd sid dsd did n g} (h : s.canonical) : (s.copyPages ssd sid dsd did n g).canonical := by
  unfold State.copyPages
  refine h.each fun s lj h => ?_
  split
  · exact h.objWrite
  · exact h
theorem execKvShipComplete_canonical {t sd} (h : s.canonical) : answersCanonical (execKvShipComplete t sd s) := by
  unfold execKvShipComplete
  refine .ite (.next h.at) ?_
  dsimp only
  split
  · exact .next h.at
  refine .ite (.next h.at.endReq.afterEnds) ?_
  refine .ite ?_ (.ite (.next h.at.endReq.afterEnds) (.next h.at))
  split
  · exact .ite (.next h.at.copyPages.endReq.afterEnds) (.next h.at.violation.endReq.afterEnds)
  · exact .next h.at.violation.endReq.afterEnds
theorem State.canonical.decideRelease {r} (h : s.canonical) : (s.decideRelease r).canonical := by
  unfold State.decideRelease
  dsimp only
  split
  · exact h.refuse
  · exact .ite h.refuse (.ite h.refuse (.ite h.refuse h.accept.modSeq.runReleases))
theorem execSeqRelease_canonical {t sd} (h : s.canonical) : answersCanonical (execSeqRelease t sd s) := by
  unfold execSeqRelease
  dsimp only
  split
  · exact .next h.at
  · exact .ite (.next h.at) (.next h.at.decideRelease.decided)
theorem State.canonical.abortBranches {bs} (h : s.canonical) : (s.abortBranches bs).canonical :=
  (h.each fun _ _ h => h.foldl fun _ _ h => h.leafAbort).abandonIn
theorem State.canonical.abortEmpty (h : s.canonical) : s.abortEmpty.canonical := by
  unfold State.abortEmpty
  refine h.each fun s p h => ?_
  split
  · exact h.abortBranches.dropPass
  · exact h.dropPass
theorem State.canonical.abandonReq {id} (h : s.canonical) : (s.abandonReq id).canonical := by
  unfold State.abandonReq
  split
  · exact h.abandonIn
  · exact h
theorem State.canonical.decideCancel {r} (h : s.canonical) : (s.decideCancel r).canonical := by
  unfold State.decideCancel
  extract_lets +onlyGivenNames ok tag targets
  refine .ite h.refuse (.ite h.refuse (.ite h.refuse ?_))
  refine .afterEnds (.endReq (.accept (.abortEmpty (h.each fun s id h => ?_))))
  split
  · exact h.abandonReq.endReq
  · exact h
theorem execCancel_canonical {t sd} (h : s.canonical) : answersCanonical (execCancel t sd s) := by
  unfold execCancel
  dsimp only
  split
  · exact .next h.at
  · exact .ite (.next h.at) (.next h.at.decideCancel.decided)

/-! ### Passes -/

theorem State.canonical.scratchWrite {b off bs} (h : s.canonical) : (s.scratchWrite b off bs).canonical := h.store
theorem State.canonical.bindShapes {p b n x} (h : s.canonical) : (s.bindShapes p b n x).canonical := h.each fun _ _ h => h.modLeaf
theorem State.canonical.clearDoorbells {i c rt} (h : s.canonical) : (s.clearDoorbells i c rt).canonical :=
  (h.each fun _ _ h => h.scratchWrite.scratchWrite).each fun _ _ h => h.scratchWrite.scratchWrite
theorem State.canonical.openCrossings {i n} (h : s.canonical) : (s.openCrossings i n).canonical := h.each fun _ _ h => h.modBranch
theorem State.canonical.toContext {b n} (h : s.canonical) : (s.toContext b n).canonical :=
  .ite (.ite h h.takeLimit) (h.each fun _ _ h => .ite h.modLeaf.leafSwitchReq h)
theorem State.canonical.sendInlets {p i n} (h : s.canonical) : (s.sendInlets p i n).canonical :=
  h.each fun _ _ h => h.modBranch.inletPump
theorem State.canonical.beginStage {p i l c n} (h : s.canonical) : (s.beginStage p i l c n).canonical := by
  unfold State.beginStage
  extract_lets sb s1 s2 s5 s6 s7
  have h6 : s6.canonical := by
    unfold s6
    refine .ite ((h.modPass.useObjs.each fun _ _ h => h.modBranch.bindShapes.each fun _ _ h => h.modMover).clearDoorbells) ?_
    exact (h.modPass.useObjs.each fun _ _ h => h.modBranch.bindShapes.each fun _ _ h => h.modMover).clearDoorbells.scratchWrite
  have h7 : s7.canonical := .ite h6.scratchWrite h6
  exact .ite ((h7.each fun _ _ h => h.modLeavesOf).sendInlets) (h7.each fun _ _ h => h.modLeavesOf)
theorem State.canonical.runStage {pid} (h : s.canonical) : (s.runStage pid).canonical := by
  unfold State.runStage
  split
  · exact h
  split
  · exact h
  split
  · exact h
  dsimp only
  split
  · exact h
  refine .ite h ?_
  refine .ite (((h.wake.each fun _ _ h => h.modBranch).openCrossings.each fun _ _ h => h.toContext).beginStage) ?_
  exact (h.wake.each fun _ _ h => h.modBranch).openCrossings.each fun _ _ h => h.toContext
theorem State.canonical.resumeStages (h : s.canonical) : s.resumeStages.canonical := h.each fun _ _ h => h.runStage
theorem State.canonical.assignSlots {ids at_} (h : s.canonical) : (s.assignSlots ids at_).canonical :=
  h.each fun _ _ h => h.modReq
theorem State.canonical.takeBallast {bs} (h : s.canonical) : (s.takeBallast bs).canonical := h.wbit
theorem State.canonical.dispatch {s0 : State} {p} (h : s0.canonical) : (s0.dispatch p).canonical :=
  h.traceStand.takeBallast.modPass.assignSlots.runStage
theorem State.canonical.fetchKv {r src} (h : s.canonical) : (s.fetchKv r src).canonical := by
  unfold State.fetchKv
  dsimp only
  split
  next e0 => exact h.launch.fst e0
  next e0 => exact (h.launch.fst e0).charge
theorem State.canonical.dispatchShip {sd} (h : s.canonical) : (s.dispatchShip sd).canonical := by
  unfold State.dispatchShip
  split
  · dsimp only
    split
    · exact .ite h.modPass.assignSlots.modSeq h.modPass.assignSlots.fetchKv
    · exact h.modPass.assignSlots
  · exact h
theorem State.canonical.fillBulk {p i} (h : s.canonical) : (s.fillBulk p i).canonical := by
  unfold State.fillBulk
  refine h.each fun s r h => ?_
  split
  · exact h
  split
  · exact h
  · exact .ite h.modPass.modReq h
theorem State.canonical.dispatchNext {inst} (h : s.canonical) : (s.dispatchNext inst).canonical := by
  unfold State.dispatchNext
  split
  · refine .ite ?_ h
    extract_lets s1
    have h1 : s1.canonical := by
      unfold s1
      split
      · exact .ite h.fillBulk h
      · exact h
    split
    · exact h1.dispatch
    · exact h1
  · exact h
theorem execPassDispatch_canonical {t srv} (h : s.canonical) : answersCanonical (execPassDispatch t srv s) := by
  unfold execPassDispatch
  refine .ite (.next h.at) ?_
  split
  · exact .next (.ite h.at.dispatchShip h.at)
  · exact .next h.at.dispatchNext
theorem execBulkPassDispatch_canonical {t inst} (h : s.canonical) : answersCanonical (execBulkPassDispatch t inst s) := by
  unfold execBulkPassDispatch
  refine .ite (.next h.at) ?_
  split
  · exact .next h.at
  split
  · exact .ite (.next (h.at.fresh.modSv.each fun _ _ h => h.modReq).dispatch) (.next h.at)
  · exact .next h.at
  · exact .next h.at.dispatchNext
theorem execExpressPassDispatch_canonical {t inst} (h : s.canonical) : answersCanonical (execExpressPassDispatch t inst s) := by
  unfold execExpressPassDispatch
  refine .ite (.next h.at) ?_
  split
  · split
    · exact .next h.at
    · exact .ite (.next h.at.fresh.modSv.dispatch) (.next h.at)
  · exact .next h.at
theorem State.canonical.inletFrame {num f} (h : s.canonical) : (s.inletFrame num f).canonical := by
  unfold State.inletFrame
  split
  · exact h
  split
  · exact h
  split
  · exact h
  refine .ite h ?_
  refine .ite h.bump.setVector ?_
  split
  next e3 =>
  refine .ite ((h.fresh.snd e3).modSv.refuse) ?_
  refine .ite ((h.fresh.snd e3).modSv.refuse) ?_
  dsimp only
  split
  · exact (h.fresh.snd e3).modSv.refuse
  · exact (h.fresh.snd e3).modSv.modReq.decideExpress.decided
theorem execInletFrame_canonical {t num f} (h : s.canonical) : answersCanonical (execInletFrame t num f s) :=
  .ite (.next h.at.holdTx) (.ite (.next h.at.inletFrame) (.next h.at))
theorem execOutletFrameSend_canonical {t inst} (h : s.canonical) : answersCanonical (execOutletFrameSend t inst s) := by
  unfold execOutletFrameSend
  refine .ite (.next h.at) ?_
  dsimp only
  split
  · exact .next h.at
  split
  · exact .next h.at
  refine .ite (.next h.at.modLane.freeCredits.freeCredit) ?_
  split
  · exact .next h.at.modLane.freeCredits.freeCredit
  refine .ite (.next h.at.modLane.freeCredits.freeCredit.endReq.afterEnds) ?_
  exact .next h.at.modLane.freeCredits.freeCredit.endReq.afterEnds
theorem State.canonical.dropRouting {p} (h : s.canonical) : (s.dropRouting p).canonical := h.modSv
theorem State.canonical.clearRings {i} (h : s.canonical) : (s.clearRings i).canonical := h.modBranches
theorem State.canonical.endPass {p i} (h : s.canonical) : (s.endPass p i).canonical := by
  unfold State.endPass
  extract_lets s0 s1 pw s2
  have h0 : s0.canonical := by
    refine h.each fun s id h => ?_
    split
    · exact h.endReq
    · exact h
  have h2 : s2.canonical := h0
  exact h2.clearRings.dropRouting.dropPass.modBranches.afterEnds
theorem execPassComplete_canonical {t inst} (h : s.canonical) : answersCanonical (execPassComplete t inst s) := by
  unfold execPassComplete
  refine .ite (.next h.at) ?_
  split
  · exact .next h.at
  split
  · exact .next h.at
  refine .ite (.next h.at.runStage) ?_
  exact .ite (.ite (.next h.at.clearRings.dropRouting.modPass.runStage) (.next h.at.endPass)) (.next h.at)
theorem execDeadlineGuard_canonical {t id} (h : s.canonical) : answersCanonical (execDeadlineGuard t id s) := by
  unfold execDeadlineGuard
  refine .ite (.next h.at) ?_
  split
  · exact .next h.at
  · exact .ite (.next h.at.endReq.afterEnds) (.next h.at)

/-! ### Repair of plans -/

theorem State.canonical.reshift {i} (h : s.canonical) : (s.reshift i).canonical := h.setPlan
theorem State.canonical.repairLoop {i fuel} (h : s.canonical) : (s.repairLoop i fuel).canonical := by
  induction fuel generalizing s with
  | zero => exact h
  | succ fuel ih =>
    unfold State.repairLoop
    refine .ite h.reshift ?_
    split
    · exact h.reshift
    · exact ih h.reshift.endReq
theorem State.canonical.repairServer {i} (h : s.canonical) : (s.repairServer i).canonical := h.repairLoop.afterEnds
theorem State.canonical.repairAll (h : s.canonical) : s.repairAll.canonical := h.each fun _ _ h => h.repairServer
theorem State.canonical.endTier {ids addr} (h : s.canonical) : (s.endTier ids addr).canonical := by
  unfold State.endTier
  refine h.each fun s id h => ?_
  split
  · exact h.endReq
  · exact h
theorem State.canonical.loseSeq {sd id} (h : s.canonical) : (s.loseSeq sd id).canonical := h.modSeq.endTier.afterEnds
theorem State.canonical.loseObjs {p} (h : s.canonical) : (s.loseObjs p).canonical :=
  (h.each fun _ _ h => h.dropObj).each fun _ _ h => h.loseSeq

/-! ### The near and warm tiers -/

theorem State.canonical.modTiers {f} (h : s.canonical) : (s.modTiers f).canonical := h
theorem State.canonical.poisonSector {key reason} (h : s.canonical) : (s.poisonSector key reason).canonical := h.modTiers
theorem State.canonical.poisonRange {space off n why} (h : s.canonical) : (s.poisonRange space off n why).canonical :=
  .ite h (h.each fun _ _ h => h.poisonSector)
theorem State.canonical.ntcEvent {k kind lane group off} (h : s.canonical) : (s.ntcEvent k kind lane group off).canonical :=
  h.firstEvent.event
theorem State.canonical.modAcc {id f} (h : s.canonical) : (s.modAcc id f).canonical := h.modTiers
theorem State.canonical.failAccess {a status} (h : s.canonical) : (s.failAccess a status).canonical := by
  unfold State.failAccess
  refine .modAcc ?_
  split
  · exact h.chargePass
  · exact h
theorem State.canonical.answer {id} (h : s.canonical) : (s.answer id).canonical := by
  unfold State.answer
  split
  · exact h
  · exact h.modAcc.each fun _ _ h => h.sendPacket
theorem State.canonical.errorOut {a status} (h : s.canonical) : (s.errorOut a status).canonical := h.failAccess.answer
theorem State.canonical.stackOut {k group off} (h : s.canonical) : (s.stackOut k group off).canonical :=
  .ite h ((h.wf.wf.ntcEvent.each fun _ _ h => h.errorOut).loseObjs.repairAll)
theorem State.canonical.markLane {k g lane off} (h : s.canonical) : (s.markLane k g lane off).canonical :=
  .ite h (.ite h.stackOut h.wbit.bump.wf.ntcEvent)
theorem State.canonical.countLanes {k g off es} (h : s.canonical) : (s.countLanes k g off es).canonical :=
  h.each fun _ _ h => .ite h (.ite h.modTiers.markLane h.modTiers)
theorem State.canonical.nearSector {k off errs failed scrub} (h : s.canonical) :
    (s.nearSector k off errs failed scrub).1.canonical := by
  unfold State.nearSector
  dsimp only
  split
  · exact h
  · exact .countLanes (.ite h.bump.count.memWrite h.bump.count)
  · exact h.memWrite.bump.count.poisonSector.ntcEvent
theorem State.canonical.nearSectors {k errs scrub} (h : s.canonical) : (s.nearSectors k errs scrub).1.canonical := by
  unfold State.nearSectors
  extract_lets r
  have hr : r.1.canonical := by
    unfold r
    refine h.foldlFst fun x e h => ?_
    dsimp only
    split
    · exact h
    · exact h.nearSector
  exact hr
theorem State.canonical.wtcEvent {c kind sub dev m} (h : s.canonical) : (s.wtcEvent c kind sub dev m).canonical :=
  h.firstEvent.event
theorem State.canonical.formStripe (h : s.canonical) : s.formStripe.canonical := h.modTiers.each fun _ _ h => h.wbit.putReg
theorem State.canonical.warmLost (h : s.canonical) : s.warmLost.canonical :=
  ((h.modSv.each fun _ _ h => h.endLoad).each fun _ _ h => h.fillWarm).reviseJobs
theorem State.canonical.channelOut {c sub m} (h : s.canonical) : (s.channelOut c sub m).canonical := by
  unfold State.channelOut
  refine .ite h ?_
  extract_lets s1 s2 p s3 s4
  have h3 : s3.canonical := (h.wf.wtcEvent.each fun _ _ h => h.errorOut).formStripe
  have h4 : s4.canonical := ⟨memWf_rekeyWarm .., h3.2⟩
  exact h4.modTiers.warmLost.loseObjs.repairAll
theorem State.canonical.markDev {c sub dev m} (h : s.canonical) : (s.markDev c sub dev m).canonical := by
  unfold State.markDev
  split
  · exact .ite h h.channelOut
  · exact .wtcEvent (.wf (.ite h.wf h.wf))
theorem State.canonical.countDevs {c sub m es} (h : s.canonical) : (s.countDevs c sub m es).canonical :=
  h.each fun _ _ h => .ite h (.ite h.modTiers.markDev h.modTiers)
theorem State.canonical.warmSector {c m errs scrub} (h : s.canonical) : (s.warmSector c m errs scrub).1.canonical := by
  unfold State.warmSector
  dsimp only
  split
  · exact h
  · exact .countDevs (.ite h.bump.count.memWrite h.bump.count)
  · exact h.memWrite.bump.count.poisonSector.wtcEvent
theorem State.canonical.cacheFill {b off n mem} (h : s.canonical) : (s.cacheFill b off n mem).canonical :=
  h.each fun _ _ h => h.modBranch
theorem State.canonical.accStore {a bs} (h : s.canonical) : (s.accStore a bs).canonical := by
  unfold State.accStore
  dsimp only
  split
  · exact h.store.modBranch
  · exact h.store
theorem State.canonical.spoilAcc {id bad} (h : s.canonical) : (s.spoilAcc id bad).canonical := .ite h.modAcc h
theorem State.canonical.serveAccess {a latest} (h : s.canonical) : (s.serveAccess a latest).canonical := by
  unfold State.serveAccess
  extract_lets +onlyGivenNames mem
  refine .ite h.answer (.ite ?_ (.ite h.accStore.poisonRange.answer ?_))
  · split
    · exact h.modAcc.cacheFill.answer
    · exact h.modAcc.answer
  · exact .answer (.modAcc (.ite h h.accStore))
theorem execNearAccess_canonical {t k errs} (h : s.canonical) : answersCanonical (execNearAccess t k errs s) := by
  unfold execNearAccess
  refine .ite answersCanonical_fault ?_
  refine .ite (.next h.at) ?_
  dsimp only
  split
  · exact .next h.at.nearSectors
  · exact .next h.at.nearSectors.serveAccess
theorem execWarmAccess_canonical {t c errs} (h : s.canonical) : answersCanonical (execWarmAccess t c errs s) := by
  unfold execWarmAccess
  extract_lets +onlyGivenNames s1
  split
  · exact .next h.at
  extract_lets +onlyGivenNames r
  have hr : r.1.canonical := State.canonical.foldlFst h.at fun _ _ h => State.canonical.warmSector h
  split
  · exact .next hr
  · exact .next hr.serveAccess
theorem execNearPatrolScrub_canonical {t k errs} (h : s.canonical) : answersCanonical (execNearPatrolScrub t k errs s) := by
  unfold execNearPatrolScrub
  refine .ite answersCanonical_fault ?_
  exact .ite (.next h.at) (.ite (.next h.at.nearSectors.wf) (.next h.at.nearSectors.wf.bump.modTiers))
theorem execWarmPatrolScrub_canonical {t c errs odecc rfm} (h : s.canonical) :
    answersCanonical (execWarmPatrolScrub t c errs odecc rfm s) := by
  unfold execWarmPatrolScrub
  refine .ite (.next h.at) ?_
  exact .ite (.next h.at.warmSector.bump.modTiers) (.next h.at.warmSector.bump.putReg.modTiers)
theorem execStackMapOut_canonical {t k} (h : s.canonical) : answersCanonical (execStackMapOut t k s) :=
  .ite answersCanonical_fault (.next h.at.stackOut)
theorem execWarmChannelMapOut_canonical {t c} (h : s.canonical) : answersCanonical (execWarmChannelMapOut t c s) :=
  .ite (.next h.at) (.next h.at.channelOut)
theorem execTierAccessLate_canonical {t id} (h : s.canonical) : answersCanonical (execTierAccessLate t id s) := by
  unfold execTierAccessLate
  extract_lets s1
  refine .ite (.next h.at) ?_
  split
  · exact .next h.at
  split
  · exact .next h.at
  refine .ite (.next h.at) ?_
  extract_lets s2
  have h2 : s2.canonical := by
    unfold s2
    refine .ite h.at.ntcEvent ?_
    split
    · exact h.at.wtcEvent
    · exact h.at
  exact .next h2.errorOut
theorem State.canonical.launchAccess {a} (h : s.canonical) : (s.launchAccess a).canonical := by
  unfold State.launchAccess
  extract_lets hit b a1 s1 s2
  have h2 : s2.canonical := .ite h.modTiers.cacheFill h.modTiers
  exact h2.sendTransfer
theorem State.canonical.startAccess {l kind ladr rd fn rb rc addr len data} (h : s.canonical) :
    (s.startAccess l kind ladr rd fn rb rc addr len data).canonical := by
  unfold State.startAccess
  extract_lets b sd op dst
  split
  next id s1 e1 =>
    have h1 : s1.canonical := h.fresh.snd e1
    extract_lets queue refused
    have hr : (refused s1).canonical :=
      .modLeaf (.ite h1.violation.chargePass.leafFault.modLeaf h1.violation.chargePass.leafFault)
    split
    · exact hr
    · exact .ite hr (.launchAccess (.modLeaf h1))
theorem State.canonical.finishLeaf {a l ladr rd} (h : s.canonical) : (s.finishLeaf a l ladr rd).canonical := by
  unfold State.finishLeaf
  extract_lets +onlyGivenNames s1
  have h1 : s1.canonical := h.moved
  split
  · exact h1
  extract_lets +onlyGivenNames s2
  have h2 : s2.canonical := h1.modLeaf
  split
  · exact .ite h2.leafFault.modLeaf h2.leafFault
  extract_lets +onlyGivenNames s3
  have h3 : s3.canonical := .ite h2.leafStore (.ite h2.modLeaf h2)
  exact .ite h3.consume h3
theorem execGet_canonical {l g rl ra len} (h : s.canonical) : answersCanonical (execGet l g rl ra len s) :=
  .ite answersCanonical_refused (h.issue fun _ h => .ite (.done h.startAccess) trivial)
theorem execPut_canonical {l g rl ra len} (h : s.canonical) : answersCanonical (execPut l g rl ra len s) :=
  .ite answersCanonical_refused (h.issue fun _ h => .ite (.done h.startAccess) trivial)
theorem execAtom_canonical {l g rd ra rb rc fn} (h : s.canonical) : answersCanonical (execAtom l g rd ra rb rc fn s) :=
  .ite answersCanonical_refused (h.issue fun _ h => .ite (.done h.startAccess) trivial)
theorem State.canonical.accessArrived {a} (h : s.canonical) : (s.accessArrived a).canonical := by
  unfold State.accessArrived
  refine .ite h.modAcc ?_
  refine .ite ?_ (.ite (.ite h.serveAccess h.modAcc) (.ite (.ite h.errorOut h.modAcc) (.ite h.errorOut h.modAcc)))
  dsimp only
  split
  next e0 => exact h.launch.fst e0
  next e0 => exact (h.launch.fst e0).errorOut
theorem State.canonical.bmGrant {b atomic bad} (h : s.canonical) : (s.bmGrant b atomic bad).canonical := by
  unfold State.bmGrant
  dsimp only
  split
  · exact h
  split
  · exact h.serveAccess.spoilAcc
  · exact h
theorem execPacketArbitration_canonical {t leaf port bad} (h : s.canonical) :
    answersCanonical (execPacketArbitration t leaf port bad s) := by
  unfold execPacketArbitration
  refine .ite answersCanonical_fault ?_
  exact .ite (.next h.at) (.ite (.next h.at.bmGrant) (.ite (.next h.at.bmGrant) (.next h.at.arbitrate)))

/-! ### The deep tier -/

theorem State.canonical.modFtl {f} (h : s.canonical) : (s.modFtl f).canonical := h.modTiers
theorem State.canonical.modSb {id f} (h : s.canonical) : (s.modSb id f).canonical := h.modFtl
theorem State.canonical.ftlRegs (h : s.canonical) : s.ftlRegs.canonical := by
  unfold State.ftlRegs
  extract_lets f free pes s1 s2 left s3
  have h3 : s3.canonical := .ite h.putReg.putReg.wf.wf h.putReg.putReg.wf
  exact .ite h3.wf h3
theorem State.canonical.nandWr {n} (h : s.canonical) : (s.nandWr n).canonical := h.bump
theorem State.canonical.journalAdd (h : s.canonical) : s.journalAdd.canonical :=
  .ite h.tick.nandWr.nandWr.modFtl h.tick.nandWr.modFtl
theorem State.canonical.setMap {block sb page} (h : s.canonical) : (s.setMap block sb page).canonical := by
  unfold State.setMap
  dsimp only
  split
  · exact .ite h.modFtl.store h.modFtl
  · exact h.modFtl
theorem State.canonical.program {block} (h : s.canonical) {t} (e : s.program block = some t) : t.canonical := by
  unfold State.program at e
  dsimp only at e
  split at e
  · cases e
  · cases e
    refine .ftlRegs (.journalAdd (.nandWr (.setMap (.modFtl (.modSb ?_)))))
    split
    · exact h.modSb
    · exact h
theorem State.canonical.closeStripe (h : s.canonical) : s.closeStripe.canonical := by
  unfold State.closeStripe
  split
  · exact h.modSb.modFtl.nandWr
  · exact h
theorem State.canonical.deepAt {t} (h : s.canonical) : (s.deepAt t).canonical := by
  unfold State.deepAt
  dsimp only
  split
  · exact .ite h.at.closeStripe h.at
  · exact h.at
theorem State.canonical.loseCw {block cw} (h : s.canonical) : (s.loseCw block cw).canonical := h.each fun _ _ h => h.poisonSector
theorem State.canonical.decodeCw {ch block cw out} (h : s.canonical) : (s.decodeCw ch block cw out).canonical := by
  unfold State.decodeCw
  dsimp only
  split
  · exact h.bump
  · exact .count (.ite h.bump.bump h.bump)
  · exact .count (.bump (.ite h.bump.bump h.bump))
  · exact .loseCw (.count (.bump (.ite h.bump.bump h.bump)))
theorem State.canonical.readPage {b i block fails} (h : s.canonical) : (s.readPage b i block fails).canonical :=
  h.modSb.each fun _ _ h => h.decodeCw
theorem State.canonical.readBlock {block fails} (h : s.canonical) : (s.readBlock block fails).canonical := by
  unfold State.readBlock
  dsimp only
  split
  · exact h.bump
  split
  · exact h.bump
  · exact h.bump.readPage
theorem State.canonical.moveSb {id} (h : s.canonical) : (s.moveSb id).canonical := by
  unfold State.moveSb
  split
  · exact h
  extract_lets s0 s1
  have h1 : s1.canonical := by
    unfold s1
    refine h.modFtl.each fun s p h => ?_
    split
    · exact .ite (h.getD fun t e => h.readPage.program e) h
    · exact h
  exact .ite h1.ftlRegs h1.modSb.modFtl.bump.ftlRegs
theorem State.canonical.volWrite {block off bs} (h : s.canonical) : (s.volWrite block off bs).1.canonical := by
  unfold State.volWrite
  split
  · exact h
  split
  · exact h
  next e1 => exact (h.program e1).store.bump
theorem execVolumeRead_canonical {t block fails} (h : s.canonical) : answersCanonical (execVolumeRead t block fails s) := by
  unfold execVolumeRead
  refine .ite (.next h.deepAt) ?_
  split
  · refine .ite (.ite (.next h.deepAt.readBlock.serveAccess) (.next h.deepAt.errorOut)) ?_
    exact .next h.deepAt.readBlock
  · exact .next h.deepAt.readBlock
theorem execVolumeWrite_canonical {t block data} (h : s.canonical) : answersCanonical (execVolumeWrite t block data s) := by
  unfold execVolumeWrite
  extract_lets +onlyGivenNames s1
  split
  · exact .next h.deepAt
  extract_lets +onlyGivenNames root
  have hroot : root.canonical := .ite h.deepAt h.deepAt.volWrite
  split
  · refine .ite ?_ (.next hroot)
    refine .ite (.next h.deepAt.errorOut) ?_
    split
    next e1 => exact .next ((h.deepAt.volWrite.fst e1).errorOut)
    next e1 => exact .next ((h.deepAt.volWrite.fst e1).poisonRange.answer)
  · exact .next hroot
theorem State.canonical.loadMap (h : s.canonical) : s.loadMap.canonical := by
  unfold State.loadMap
  refine h.each fun s e h => ?_
  split
  · exact h.setMap
  · exact h
theorem execFtlReplayEnd_canonical {t} (h : s.canonical) : answersCanonical (execFtlReplayEnd t s) :=
  .ite (.next h.at) (.next h.at.loadMap.wf.ftlRegs)
theorem execStripeClose_canonical {t} (h : s.canonical) : answersCanonical (execStripeClose t s) :=
  .ite (.next h.at) (.next h.at.closeStripe)
theorem execStaticWearLevelMove_canonical {t} (h : s.canonical) : answersCanonical (execStaticWearLevelMove t s) := by
  unfold execStaticWearLevelMove
  dsimp only
  split
  · exact .next h.deepAt
  · exact .ite (.next h.deepAt) (.next h.deepAt.moveSb)
theorem execReadLimitRelocate_canonical {t id} (h : s.canonical) : answersCanonical (execReadLimitRelocate t id s) := by
  unfold execReadLimitRelocate
  dsimp only
  split
  · exact .next h.deepAt
  · exact .ite (.next h.deepAt) (.next h.deepAt.moveSb)
theorem execFtlPatrolRead_canonical {t id page fails} (h : s.canonical) :
    answersCanonical (execFtlPatrolRead t id page fails s) := by
  unfold execFtlPatrolRead
  dsimp only
  split
  · exact .next h.deepAt
  split
  · exact .ite (.next h.deepAt) (.ite (.next h.deepAt.readPage.moveSb) (.next h.deepAt.readPage))
  · exact .next h.deepAt
theorem State.canonical.dropPages {ch ids} (h : s.canonical) : (s.dropPages ch ids).canonical := h.modFtl
theorem execNandProgramFail_canonical {t id ch} (h : s.canonical) : answersCanonical (execNandProgramFail t id ch s) := by
  unfold execNandProgramFail
  dsimp only
  split
  · exact .next h.deepAt
  · exact .ite (.next h.deepAt) (.next h.deepAt.bump.dropPages.modSb.moveSb.ftlRegs)
theorem State.canonical.loseStripes (h : s.canonical) : s.loseStripes.canonical := by
  unfold State.loseStripes
  refine h.each fun s b h => ?_
  refine h.each fun s p h => ?_
  split
  · refine .ite ?_ h
    split
    · exact h.each fun _ _ h => h.loseCw
    · exact h
  · exact h

/-! ### Admin messages -/

theorem State.canonical.adminStop {a : Admin} {status} (h : s.canonical) : (a.stop s status).canonical := h.adminEnd
theorem State.canonical.leaveS2 {cause source} (h : s.canonical) : (s.leaveS2 cause source).canonical := .ite h h.wf.wf.wf.wake
theorem State.canonical.takeMsg {src route m who size bodyOk work} (h : s.canonical)
    (hw : ∀ s a, s.canonical → (work s a).canonical) : (s.takeMsg src route m who size bodyOk work).canonical :=
  .ite h.fresh.modSv.adminStop (.ite (hw _ _ h.fresh.modSv) h.fresh.modSv.adminStop)
theorem State.canonical.receive {src route m who size bodyOk work} (h : s.canonical)
    (hw : ∀ s a, s.canonical → (work s a).canonical) : (s.receive src route m who size bodyOk work).canonical :=
  .ite h.modDb (.takeMsg (.ite h.leaveS2 h) hw)
theorem State.canonical.adminViolation {a addr} (h : s.canonical) : (s.adminViolation a addr).canonical := h.violation
theorem State.canonical.countVol {sd v block n fails} (h : s.canonical) : (s.countVol sd v block n fails).canonical :=
  h.each fun _ _ h => h.readBlock
theorem State.canonical.rootRead {sd v block n fails} (h : s.canonical) : (s.rootRead sd v block n fails).1.canonical := by
  unfold State.rootRead
  split
  · exact h
  · exact h
  · exact h.countVol

/-! ### Loading of images -/

theorem State.canonical.placeAll {l} (h : s.canonical) {t} (e : s.placeAll l = some t) : t.canonical := by
  suffices key : ∀ t : State, s.placeAll l = some t → t.canonical from key t e
  unfold State.placeAll
  refine List.foldlRecOn (motive := fun o => ∀ t : State, o = some t → t.canonical) _ _ (fun t e => ?_) fun o ih _ _ t e => ?_
  · cases e
    exact h
  · cases o with
    | none => cases e
    | some s1 =>
      simp only [Option.map_eq_some_iff] at e
      obtain ⟨bs, -, rfl⟩ := e
      exact (ih s1 rfl).fresh.modSv.each fun _ _ h => h.modBranch
theorem State.canonical.bindExpress {l} (h : s.canonical) : (s.bindExpress l).canonical := by
  unfold State.bindExpress
  extract_lets s1
  have h1 : s1.canonical := by
    unfold s1
    refine h.each fun s b h => ?_
    refine .ite ?_ (.ite h.modSv h)
    dsimp only
    split
    · exact h.modSv.modLoad
    · exact h
  exact h1.modLoad
theorem State.canonical.noteFailure {id status} (h : s.canonical) : (s.noteFailure id status).canonical := h.modLoad
theorem State.canonical.takeImage {l img} (h : s.canonical) : (s.takeImage l img).canonical := by
  unfold State.takeImage
  refine .ite h.endLoad ?_
  dsimp only
  split
  · exact h.modLoad.endLoad
  next e0 =>
  refine .ite ((h.modLoad.placeAll e0).endLoad) ?_
  split
  next e1 => exact ((h.modLoad.placeAll e0).newObj.fst e1).endLoad
  next e1 =>
  split
  · exact ((h.modLoad.placeAll e0).newObj.fst e1).objWrite.modObj
  · exact (h.modLoad.placeAll e0).newObj.fst e1
theorem State.canonical.loadViolation {l block} (h : s.canonical) : (s.loadViolation l block).canonical := by
  unfold State.loadViolation
  extract_lets s1
  have h1 : s1.canonical := by
    unfold s1
    split
    · exact h.adminViolation
    · exact h
  exact h1.endLoad
theorem State.canonical.readImage {l fails} (h : s.canonical) : (s.readImage l fails).canonical := by
  unfold State.readImage
  split
  · exact h
  dsimp only
  split
  next e1 => exact (h.rootRead.fst e1).loadViolation
  next e1 => exact (h.rootRead.fst e1).endLoad
  next e1 => exact h.rootRead.fst e1
  next e1 => exact (h.rootRead.fst e1).takeImage
theorem State.canonical.beginLoad {a} (h : s.canonical) : (s.beginLoad a).canonical := by
  unfold State.beginLoad
  refine .ite h.adminStop (.ite h.adminStop ?_)
  exact .ite h.fresh.modSv.endLoad (.ite h.fresh.modSv h.fresh.modSv.readImage)
theorem State.canonical.msgModelLoad {src route m} (h : s.canonical) : (s.msgModelLoad src route m).canonical :=
  h.receive fun _ _ h => h.beginLoad
theorem State.canonical.fillSeeds {l} (h : s.canonical) : (s.fillSeeds l).canonical :=
  h.each fun _ _ h => h.each fun _ _ h => h.each fun _ _ h => .ite h h.modSv
theorem State.canonical.nextCfg {b p f} (h : s.canonical) : (s.nextCfg b p f).canonical := by
  unfold State.nextCfg
  split
  · exact h
  · exact h.modSv.beginLoads
theorem execSeedBankFill_canonical {t b} (h : s.canonical) : answersCanonical (execSeedBankFill t b s) := by
  unfold execSeedBankFill
  refine .ite (.next h.at) ?_
  dsimp only
  split
  · exact .next h.at
  split
  · exact .next h.at.fetchImage
  refine .ite (.next h.at.fetchImage) ?_
  split
  · exact .next h.at.nextCfg
  · exact .next h.at.memWrite.memWrite.modBranch.nextCfg
theorem execContextLoad_canonical {t b flips} (h : s.canonical) : answersCanonical (execContextLoad t b flips s) := by
  unfold execContextLoad
  refine .ite (.next h.at.beginLoads) ?_
  dsimp only
  split
  · exact .next h.at.beginLoads
  split
  · exact .next h.at.beginLoads.nextCfg
  refine .ite (.next h.at.beginLoads) ?_
  refine .ite (.next ((h.at.beginLoads.each fun _ _ h => h.modLeaf).modBranch.modBranch.nextCfg.resumeStages)) ?_
  exact .next ((h.at.beginLoads.each fun _ _ h => h.modLeaf).modBranch.modBranch.memSet.nextCfg)
theorem State.canonical.warmRoom {sizes fuel} (h : s.canonical) {t} (e : s.warmRoom sizes fuel = some t) : t.canonical := by
  induction fuel generalizing s with
  | zero => cases e
  | succ fuel ih =>
    unfold State.warmRoom at e
    dsimp only at e
    split at e
    · cases e
      exact h
    split at e
    · cases e
    · exact ih h.modSv e
theorem State.canonical.pinLoads {l} (h : s.canonical) {t} (e : s.pinLoads l = some t) : t.canonical := by
  suffices key : ∀ t : State, s.pinLoads l = some t → t.canonical from key t e
  unfold State.pinLoads
  refine List.foldlRecOn (motive := fun o => ∀ t : State, o = some t → t.canonical) _ _ (fun t e => ?_) fun o ih _ _ t e => ?_
  · cases e
    exact h
  · cases o with
    | none => cases e
    | some s1 =>
      dsimp only at e
      split at e
      · cases e
        exact (ih s1 rfl).startLoads
      · cases e
/-- A place in the warm tier, with the residency that made room for it. -/
theorem State.canonical.warmRoom_alloc {t : State} {sizes : List Nat} {fuel n : Nat} {p : List (Nat × Nat)} (h : s.canonical)
    (e : (s.warmRoom sizes fuel).bind (fun s1 => (s1.warmAlloc n).map (fun p => (s1, p))) = some (t, p)) : t.canonical := by
  simp only [Option.bind_eq_some_iff, Option.map_eq_some_iff, Prod.mk.injEq] at e
  obtain ⟨s1, e1, _, _, rfl, _⟩ := e
  exact h.warmRoom e1
theorem State.canonical.bindLoad {l} (h : s.canonical) : (s.bindLoad l).canonical := by
  unfold State.bindLoad
  refine .ite h.bindExpress ?_
  split
  · exact h.endLoad
  next e0 => exact h.pinLoads e0
theorem State.canonical.settleLoad {id} (h : s.canonical) : (s.settleLoad id).canonical := by
  unfold State.settleLoad
  split
  · exact h
  refine .ite h ?_
  refine .ite h.endLoad ?_
  extract_lets near warm s1 lyornBind s2
  have h1 : s1.canonical := .ite h.modLoad h
  have h2 : s2.canonical := .ite h1.bindLoad h1
  split
  · exact h2
  · exact .ite h2.endLoad h2
theorem State.canonical.bulkJobs (h : s.canonical) : s.bulkJobs.canonical := h.each fun _ _ h => .ite h.queueJob h
theorem State.canonical.settleLoads (h : s.canonical) : s.settleLoads.canonical := (h.each fun _ _ h => h.settleLoad).bulkJobs
theorem State.canonical.startLoading {l} (h : s.canonical) : (s.startLoading l).canonical := by
  unfold State.startLoading
  refine .ite h.modLoad.fillSeeds.modLoad.bindLoad ?_
  refine .ite ?_ ?_
  · split
    next e0 => exact (h.modLoad.fillSeeds.allocShards.fst e0).endLoad
    next e0 => exact h.modLoad.fillSeeds.allocShards.fst e0
  dsimp only
  split
  · exact h.modLoad.fillSeeds.endLoad
  next e0 =>
  refine .ite ((h.modLoad.fillSeeds.warmRoom e0).fillWarm.modLoad.bindLoad) ?_
  refine .ite ((h.modLoad.fillSeeds.warmRoom e0).fillWarm.modLoad.bindLoad) ?_
  split
  next e1 => exact ((h.modLoad.fillSeeds.warmRoom e0).fillWarm.queueJob.fst e1).endLoad
  next e1 => exact ((h.modLoad.fillSeeds.warmRoom e0).fillWarm.queueJob.fst e1).modLoad.bindLoad
theorem State.canonical.takeManifest {l m} (h : s.canonical) : (s.takeManifest l m).canonical :=
  .ite (.ite h.startLoading.settleLoads h.endLoad) (.ite h.startLoading.settleLoads h.endLoad)
theorem execManifestVerified_canonical {t id img man} (h : s.canonical) :
    answersCanonical (execManifestVerified t id img man s) := by
  unfold execManifestVerified
  extract_lets s1
  split
  · exact .next h.at
  refine .ite (.next h.at) ?_
  refine .ite (.next h.at) ?_
  refine .ite (.next h.at) ?_
  extract_lets s2
  have h2 : s2.canonical := .ite (.ite h.at.takeImage h.at.readImage) h.at
  split
  · exact .next h2
  refine .ite (.next h2) ?_
  refine .ite (.next h2.takeManifest) ?_
  refine .ite (.next h2.takeManifest) ?_
  split
  · split
    next e3 => exact .next ((h2.rootRead.fst e3).takeManifest)
    next e3 => exact .next ((h2.rootRead.fst e3).loadViolation)
    next e3 => exact .next ((h2.rootRead.fst e3).endLoad)
    next e3 => exact .next (h2.rootRead.fst e3)
  · exact .next h2.loadViolation
  · exact .next h2.endLoad
  · exact .next h2
theorem State.canonical.placePreloads {l i} (h : s.canonical) : (s.placePreloads l i).canonical :=
  h.each fun _ _ h => h.each fun _ _ h => h.wake.each fun _ _ h => h.modMover
theorem execPreloadRun_canonical {t id} (h : s.canonical) : answersCanonical (execPreloadRun t id s) := by
  unfold execPreloadRun
  refine .ite (.next h.at) ?_
  dsimp only
  split
  · exact .next h.at
  refine .ite (.next h.at) ?_
  refine .ite (.next ((h.at.foldl fun _ _ h => h.placePreloads).modLoad)) ?_
  refine .ite (.next h.at) ?_
  refine .ite (.next (.ite ((h.at.foldl fun _ _ h => h.clearRings).modRes) (h.at.foldl fun _ _ h => h.clearRings))) ?_
  refine .ite (.next (h.at.foldl fun _ _ h => h.clearRings)) ?_
  refine .ite (.next ((h.at.foldl fun _ _ h => h.clearRings).endLoad.settleLoads)) ?_
  exact .next ((h.at.foldl fun _ _ h => h.clearRings).bindExpress.settleLoads)
theorem State.canonical.beginEvict {a} (h : s.canonical) : (s.beginEvict a).canonical := by
  unfold State.beginEvict
  split
  · exact h.adminStop
  refine .ite h.adminStop ?_
  extract_lets s1
  have h1 : s1.canonical := .ite h h.adminEnd
  exact h1.modLoad.runEvictions
theorem State.canonical.msgModelEvict {src route m} (h : s.canonical) : (s.msgModelEvict src route m).canonical :=
  h.receive fun _ _ h => h.beginEvict
theorem execImageRelease_canonical {t id} (h : s.canonical) : answersCanonical (execImageRelease t id s) := by
  unfold execImageRelease
  refine .ite (.next h.at) ?_
  split
  · exact .ite (.next h.at.runEvictions) (.next h.at)
  · exact .next h.at

/-! ### Copies and grafts -/

theorem State.canonical.modWarm {id f} (h : s.canonical) : (s.modWarm id f).canonical := h.modSv
theorem State.canonical.noteFailures {man status} (h : s.canonical) : (s.noteFailures man status).canonical :=
  h.each fun _ _ h => h.noteFailure
theorem State.canonical.volShard {l k} (h : s.canonical) : (s.volShard l k).1.canonical := by
  unfold State.volShard
  dsimp only
  split
  · exact h.loadViolation
  · exact h
  · exact h.countVol
theorem State.canonical.warmArrive {w bs} (h : s.canonical) : (s.warmArrive w bs).canonical := by
  unfold State.warmArrive
  extract_lets s1
  have h1 : s1.canonical := by
    unfold s1
    split
    · exact h.placeWrite
    · exact h
  exact .ite h1.modWarm h1.modWarm.noteFailures
theorem State.canonical.nearArrive {o bs} (h : s.canonical) : (s.nearArrive o bs).canonical := by
  unfold State.nearArrive
  extract_lets s1
  have h1 : s1.canonical := by
    unfold s1
    split
    · exact h.objWrite
    · exact h
  exact .ite h1.modObj (.ite h1.modObj.noteFailures.reviseJobs h1.modObj)
theorem State.canonical.useWarm {o} (h : s.canonical) : (s.useWarm o).canonical := by
  unfold State.useWarm
  split
  · exact h.modWarm
  · exact h
theorem State.canonical.endJobs (h : s.canonical) : s.endJobs.canonical := h.modSv.unpinned
theorem State.canonical.stopJob (h : s.canonical) : s.stopJob.canonical := h.modSv.unpinned
theorem execShardArrivalVerify_canonical {t near id} (h : s.canonical) :
    answersCanonical (execShardArrivalVerify t near id s) := by
  unfold execShardArrivalVerify
  refine .ite (.next h.at) ?_
  refine .ite ?_ ?_
  · dsimp only
    split
    · exact .next h.at
    split
    · exact .next h.at
    refine .ite (.next h.at) ?_
    refine .ite ?_ ?_
    · split
      · exact .next h.at
      · exact .next h.at.volShard.nearArrive.settleLoads
    split
    · exact .next h.at
    refine .ite (.next h.at) ?_
    refine .ite (.next h.at.stopJob) ?_
    split
    · exact .next h.at.stopJob
    · exact .next h.at
    · exact .next h.at.nearArrive.endJobs.settleLoads
    · exact .next h.at.useWarm.nearArrive.endJobs.settleLoads
  dsimp only
  split
  · exact .next h.at
  refine .ite (.next h.at) ?_
  split
  · exact .next h.at.warmArrive.settleLoads
  split
  · exact .next h.at
  · exact .next h.at.volShard.warmArrive.settleLoads
theorem State.canonical.modGraftNum {num f} (h : s.canonical) : (s.modGraftNum num f).canonical := h.modSv
theorem execDigestScrub_canonical {t near id} (h : s.canonical) : answersCanonical (execDigestScrub t near id s) := by
  unfold execDigestScrub
  refine .ite (.next h.at) ?_
  refine .ite ?_ ?_
  · split
    · exact .ite (.next h.at.nearArrive.modObj) (.next h.at)
    · exact .next h.at
  split
  · exact .ite (.next h.at.warmArrive.modWarm) (.next h.at)
  · exact .ite (.next h.at.modGraftNum) (.next h.at)
  · exact .next h.at
theorem State.canonical.noAnswer {man n rx} (h : s.canonical) : (s.noAnswer man n rx).canonical := .ite h.noteFailures h
theorem State.canonical.nearAgain {o} (h : s.canonical) : (s.nearAgain o).1.canonical := by
  unfold State.nearAgain
  dsimp only
  split
  · split
    · exact h.volShard
    · exact h.useWarm
  · exact h
theorem State.canonical.warmAgain {w} (h : s.canonical) : (s.warmAgain w).1.canonical := by
  unfold State.warmAgain
  split
  · exact h.volShard
  · exact h
theorem execCopyJobStart_canonical {t} (h : s.canonical) : answersCanonical (execCopyJobStart t s) := by
  unfold execCopyJobStart
  refine .ite (.next h.at) ?_
  dsimp only
  split
  · exact .next h.at
  refine .ite (.next h.at) ?_
  split
  · exact .next h.at.endJobs
  · exact .next h.at.modSv.modSv.endJobs.settleLoads
theorem execLoadDeadlineExpiry_canonical {t id} (h : s.canonical) : answersCanonical (execLoadDeadlineExpiry t id s) := by
  unfold execLoadDeadlineExpiry
  refine .ite (.next h.at) ?_
  dsimp only
  split
  · exact .next h.at
  · exact .ite (.next h.at.endLoad) (.next h.at)
theorem State.canonical.modGraft {sd id ver f} (h : s.canonical) : (s.modGraft sd id ver f).canonical := h.modSv
theorem State.canonical.dropGraft {g} (h : s.canonical) : (s.dropGraft g).canonical := h.modSv
theorem State.canonical.discardGraft {g status} (h : s.canonical) : (s.discardGraft g status).canonical := by
  unfold State.discardGraft
  split
  · exact h.dropGraft.adminEnd
  · exact h.dropGraft
theorem State.canonical.readPiece {g a at_ pos n} (h : s.canonical) : (s.readPiece g a at_ pos n).canonical := by
  unfold State.readPiece
  refine .ite h ?_
  dsimp only
  split
  · exact h.adminViolation.discardGraft
  refine .ite ?_ ?_
  · split
    · exact h.placeWrite
    · exact h.adminViolation.discardGraft
    · exact h.discardGraft
  split
  next e1 => exact (h.launch.fst e1).modGraftNum
  next e1 => exact (h.launch.fst e1).discardGraft
theorem State.canonical.readGraft {g0 a} (h : s.canonical) : (s.readGraft g0 a).canonical := by
  unfold State.readGraft
  split
  · exact h.discardGraft
  next s1 place e =>
  have h1 : s1.canonical := by
    split at e
    · exact h.warmRoom_alloc e
    · cases e
      exact h
  refine .ite ?_ (h1.modGraftNum.each fun _ _ h => h.readPiece).modGraftNum
  dsimp only
  split
  · exact h1.modGraftNum.countVol.placeWrite.modGraftNum
  · exact h1.modGraftNum.adminViolation.discardGraft
  · exact h1.modGraftNum.countVol.discardGraft
  · exact h1.modGraftNum
theorem State.canonical.graftGot {num pos status data} (h : s.canonical) : (s.graftGot num pos status data).canonical := by
  unfold State.graftGot
  split
  · exact h
  refine .ite h ?_
  refine .ite h.placeWrite.modGraftNum ?_
  dsimp only
  split
  · exact .discardGraft (.ite h.adminViolation h)
  · exact h.discardGraft
theorem State.canonical.beginGraft {a} (h : s.canonical) : (s.beginGraft a).canonical := by
  unfold State.beginGraft
  refine .ite h.adminStop (.ite h.adminStop ?_)
  split
  · exact h.adminStop
  · exact .ite h.adminStop h.fresh.modSv.readGraft
theorem State.canonical.msgGraftPut {src route m} (h : s.canonical) : (s.msgGraftPut src route m).canonical :=
  h.receive fun _ _ h => h.beginGraft
theorem State.canonical.commitGraft {g} (h : s.canonical) : (s.commitGraft g).canonical := by
  unfold State.commitGraft
  dsimp only
  split
  · exact h.modSv.modGraft.retireOld.adminEnd
  · exact h.modSv.modGraft.retireOld
theorem execGraftReady_canonical {t sd id ver} (h : s.canonical) : answersCanonical (execGraftReady t sd id ver s) := by
  unfold execGraftReady
  refine .ite (.next h.at) ?_
  dsimp only
  split
  · exact .next h.at
  refine .ite (.next h.at) ?_
  refine .ite (.next h.at.discardGraft) ?_
  refine .ite ?_ ?_
  · split
    · exact .next h.at.readGraft
    · exact .next h.at
  refine .ite (.next h.at) ?_
  refine .ite (.next h.at.modGraftNum) ?_
  split
  · exact .next h.at.discardGraft
  · exact .ite (.next h.at.discardGraft) (.ite (.next h.at.modGraft.commitGraft) (.next h.at.modGraft))
theorem execGraftCommit_canonical {t sd id ver} (h : s.canonical) : answersCanonical (execGraftCommit t sd id ver s) := by
  unfold execGraftCommit
  refine .ite (.next h.at) ?_
  split
  · exact .next h.at
  · exact .ite (.next h.at) (.ite (.next h.at.commitGraft) (.ite (.next h.at.discardGraft) (.next h.at)))
theorem State.canonical.beginRetire {a} (h : s.canonical) : (s.beginRetire a).canonical := by
  unfold State.beginRetire
  refine .ite h.adminStop (.adminEnd (.retireOld ?_))
  exact h.each fun _ _ h => .ite h.discardGraft (.ite h.modGraft h)
theorem State.canonical.msgGraftRetire {src route m} (h : s.canonical) : (s.msgGraftRetire src route m).canonical :=
  h.receive fun _ _ h => h.beginRetire
theorem State.canonical.refillGraft {g} (h : s.canonical) : (s.refillGraft g).canonical := by
  unfold State.refillGraft
  refine .ite h ?_
  split
  · exact h
  next e =>
  split
  · exact (h.warmRoom_alloc e).modGraftNum.placeWrite.modGraftNum
  · exact h.warmRoom_alloc e
theorem State.canonical.graftAgain {g} (h : s.canonical) : (s.graftAgain g).1.canonical := by
  unfold State.graftAgain
  dsimp only
  split
  · exact h
  split
  · exact h
  · exact h.countVol
theorem State.canonical.graftTry {g bs} (h : s.canonical) : (s.graftTry g bs).canonical := by
  unfold State.graftTry
  extract_lets s1
  have h1 : s1.canonical := by
    unfold s1
    split
    · exact h.placeWrite
    · exact h
  exact .ite h1.modGraftNum.discardGraft h1.modGraftNum
theorem execRefetchComplete_canonical {t near id rx} (h : s.canonical) :
    answersCanonical (execRefetchComplete t near id rx s) := by
  unfold execRefetchComplete
  extract_lets s1
  refine .ite (.next h.at) ?_
  refine .ite ?_ ?_
  · split
    · exact .next h.at
    refine .ite (.next h.at) ?_
    extract_lets r
    have hr : r.1.canonical := by
      unfold r
      split
      · exact h.at.nearAgain
      · exact h.at.noAnswer
    split
    · exact .next h.at
    · exact .next hr.nearArrive.modObj.reviseJobs.endJobs.settleLoads
  split
  · refine .ite (.next h.at) ?_
    extract_lets r
    have hr : r.1.canonical := by
      unfold r
      split
      · exact h.at.warmAgain
      · exact h.at.noAnswer
    split
    · exact .next h.at
    · exact .next hr.warmArrive.modWarm.settleLoads
  · refine .ite (.next h.at) ?_
    extract_lets r
    have hr : r.1.canonical := by
      unfold r
      split
      · exact h.at.graftAgain
      · exact h.at
    split
    · exact .next h.at
    · exact .next hr.graftTry
  · exact .next h.at
theorem execGraftFetch_canonical {t} (h : s.canonical) : answersCanonical (execGraftFetch t s) := by
  unfold execGraftFetch
  extract_lets s1
  refine .ite (.next h.at) ?_
  split
  · exact .next h.at
  extract_lets s2
  split
  · exact .next h.at.modSv
  refine .ite ?_ ?_
  · extract_lets s3
    have h3 : s3.canonical := by
      unfold s3
      split
      · exact h.at.modSv.refillGraft
      · exact h.at.modSv
    exact .next h3.nearArrive
  refine .ite ?_ ?_
  · split
    · exact .next h.at.modSv.objWrite.modObj
    · exact .next h.at.modSv
  refine .ite ?_ (.next h.at.modSv)
  dsimp only
  split
  · exact .ite (.next h.at.modSv.reframe.moveObj) (.next h.at.modSv.reframe.modSv)
  · exact .next h.at.modSv.reframe

/-! ### Forks, group steps and joins -/

theorem State.canonical.modFork {id f} (h : s.canonical) : (s.modFork id f).canonical := h.modSv
theorem State.canonical.modGroup {pass gstep f} (h : s.canonical) : (s.modGroup pass gstep f).canonical := h.modSv
theorem State.canonical.forkStatus (h : s.canonical) : s.forkStatus.canonical := h.wf.wf
theorem State.canonical.forkFault {kind sd step peer token} (h : s.canonical) : (s.forkFault kind sd step peer token).canonical :=
  h.firstEvent.eventOf
theorem State.canonical.putRelWord {i rel off v} (h : s.canonical) : (s.putRelWord i rel off v).canonical := h.scratchWrite
theorem State.canonical.writeRow {b base fmt cols j bytes} (h : s.canonical) : (s.writeRow b base fmt cols j bytes).canonical :=
  h.each fun _ _ h => h.scratchWrite.scratchWrite
theorem State.canonical.chargeSlot {p slot status} (h : s.canonical) : (s.chargeSlot p slot status).canonical := by
  unfold State.chargeSlot
  split
  · exact h.charge
  · exact h
theorem State.canonical.failRow {p run i f token rank status} (h : s.canonical) :
    (s.failRow p run i f token rank status).canonical := h.modFork.chargeSlot
theorem State.canonical.takeRow {t : State} {i : Inst} {r : ForkRow} (h : s.canonical) (e : s.takeRow i r = .taken t) : t.canonical := by
  unfold State.takeRow at e
  dsimp only at e
  split at e
  · cases e
  split at e
  · cases e
  split at e
  · cases e
  split at e
  · cases e
  · rw [← RowFate.taken.inj e]
    exact h.scratchWrite.writeRow.scratchWrite
theorem State.canonical.dispatchRows {p i run f x cs} (h : s.canonical) : (s.dispatchRows p i run f x cs).canonical := by
  unfold State.dispatchRows
  refine .ite (h.each fun s c h => ?_) (.ite (h.foldl fun _ _ h => h.forkFault.failRow) ?_)
  · dsimp only
    split
    next e => exact h.takeRow e
    · exact h.modSv
    · exact h.forkFault.failRow
    · exact h.forkFault.failRow
  dsimp only
  split
  next e => exact (h.launch.fst e).bump.modFork
  next e => exact (h.launch.fst e).foldl fun _ _ h => h.forkFault.failRow
theorem State.canonical.writeIndex {p i f rs a} (h : s.canonical) : (s.writeIndex p i f rs a).canonical := by
  unfold State.writeIndex
  refine (h.each fun _ _ h => h.each fun _ _ h => h.scratchWrite).bump.bump.bump.each fun s x h => ?_
  split
  · exact h.modReq
  · exact h
theorem State.canonical.startFork {p i c step} (h : s.canonical) : (s.startFork p i c step).2.canonical := by
  unfold State.startFork
  split
  · exact h
  split
  next e1 => exact (h.fresh.snd e1).modSv
theorem execForkDoorbell_canonical {t b step} (h : s.canonical) : answersCanonical (execForkDoorbell t b step s) := by
  unfold execForkDoorbell
  extract_lets +onlyGivenNames s1
  refine .ite (.next h.at) ?_
  split
  · exact .next h.at
  split
  · exact .next h.at
  extract_lets +onlyGivenNames f
  split
  · exact .next h.at
  split
  next run s2 e2 =>
    have h2 : s2.canonical := h.at.startFork.snd e2
    extract_lets +onlyGivenNames w
    refine .ite (.next h2.forkFault.forkStatus) ?_
    extract_lets +onlyGivenNames fin s3 rs bad ok target send accepted
    have h3 : s3.canonical := h2.modFork
    have hs : ∀ {s : State} {acc}, s.canonical → (send s acc).canonical := fun h => h.each fun _ _ h => h.dispatchRows
    refine .ite ?_ (.ite (.next h3.forkStatus) (.next (hs h3).modFork.forkStatus))
    refine .next (.forkStatus (.modFork (hs (.writeIndex (.each ?_ fun _ _ h => h.forkFault)))))
    exact h3.each fun _ _ h => .ite h h.forkFault
theorem State.canonical.forkAck {run target status} (h : s.canonical) : (s.forkAck run target status).canonical := by
  unfold State.forkAck
  split
  · exact h
  refine .ite h.modFork ?_
  dsimp only
  split
  · split
    · exact h.modFork.forkFault
    · exact h.modFork.forkFault.each fun _ _ h => h.failRow
  · exact h.modFork
theorem execForkRelease_canonical {t b step} (h : s.canonical) : answersCanonical (execForkRelease t b step s) := by
  unfold execForkRelease
  refine .ite (.next h.at) ?_
  dsimp only
  split
  · exact .next h.at
  split
  · exact .next h.at
  split
  · exact .next h.at
  split
  · exact .next h.at
  refine .ite (.next h.at) ?_
  refine .ite (.next h.at.modFork.putRelWord) ?_
  refine .ite (.next h.at.modFork.forkFault) ?_
  split
  next e4 => exact .next (h.at.modFork.launch.fst e4)
  next e4 => exact .next ((h.at.modFork.launch.fst e4).forkAck)
theorem State.canonical.startGroup {p i c gstep} (h : s.canonical) : (s.startGroup p i c gstep).2.canonical := by
  unfold State.startGroup
  split
  · exact h
  · exact h.modSv
theorem execGroupTrigger_canonical {t b gstep} (h : s.canonical) : answersCanonical (execGroupTrigger t b gstep s) := by
  unfold execGroupTrigger
  refine .ite (.next h.at) ?_
  split
  · exact .next h.at
  split
  · exact .next h.at
  refine .ite (.next h.at) (.ite (.next h.at.startGroup) ?_)
  exact .next h.at.startGroup.scratchWrite.modGroup.forkStatus
theorem State.canonical.runEntry {b gstep p l c rel rt g done e} (h : s.canonical) :
    (s.runEntry b gstep p l c rel rt g done e).canonical :=
  ((h.each fun _ _ h => h.modLeaf).each fun _ _ h => h.modMover).modLeavesOf.bump.modGroup
theorem execGroupRun_canonical {t b gstep} (h : s.canonical) : answersCanonical (execGroupRun t b gstep s) := by
  unfold execGroupRun
  extract_lets +onlyGivenNames s1
  refine .ite (.next h.at) ?_
  split
  · exact .next h.at
  split
  · exact .next h.at
  split
  · exact .next h.at
  extract_lets +onlyGivenNames g
  split
  · exact .next h.at
  extract_lets +onlyGivenNames first s2
  have h2 : s2.canonical := .ite h.at.modBranch h.at
  split
  · exact .next h2.modGroup
  · exact .next h2.runEntry
theorem State.canonical.returnRow {p i rt g gstep trig e j} (h : s.canonical) :
    (s.returnRow p i rt g gstep trig e j).canonical := by
  unfold State.returnRow
  refine .ite h.modSv.modGroup ?_
  dsimp only
  split
  next e0 => exact .ite (h.launch.fst e0) ((h.launch.fst e0).modGroup)
  next e0 => exact (h.launch.fst e0).forkFault
theorem State.canonical.retryRows (h : s.canonical) : s.retryRows.canonical := by
  unfold State.retryRows
  refine h.modSv.each fun s r h => ?_
  split
  · exact h
  split
  next e => exact h.takeRow e
  · exact h.modSv
  · exact h
theorem State.canonical.returnRows {b gstep p i rt g done} (h : s.canonical) : (s.returnRows b gstep p i rt g done).canonical :=
  (h.each fun _ _ h => h.each fun _ _ h => h.returnRow).modGroup
theorem State.canonical.endTrigger {b gstep pass g done} (h : s.canonical) : (s.endTrigger b gstep pass g done).canonical :=
  (h.each fun _ _ h => h.scratchWrite).modBranch.modGroup.scratchWrite.retryRows.forkStatus
theorem execTriggerComplete_canonical {t b gstep} (h : s.canonical) : answersCanonical (execTriggerComplete t b gstep s) := by
  unfold execTriggerComplete
  refine .ite (.next h.at) ?_
  split
  · exact .next h.at
  split
  · exact .next h.at
  split
  · exact .next h.at
  have h2 {c : Prop} {_ : Decidable c} {p i rt n} :
      (if c then s.at t else (s.at t).returnRows b gstep p i rt (groupStep rt gstep) n).canonical := .ite h.at h.at.returnRows
  exact .ite (.next h.at) (.ite (.next h2) (.next h2.endTrigger))
theorem State.canonical.landRow {org bytes why} (h : s.canonical) : (s.landRow org bytes why).canonical := by
  unfold State.landRow
  split
  · exact h
  split
  · exact h
  dsimp only
  split
  · exact h
  · exact h.scratchWrite.modFork
theorem execReturnedRowArrival_canonical {t} (h : s.canonical) : answersCanonical (execReturnedRowArrival t s) := by
  unfold execReturnedRowArrival
  refine .ite (.next h.at) ?_
  dsimp only
  split
  · exact .next h.at
  · exact .next h.at.modSv.landRow.modSv
theorem State.canonical.joinTiles {b p f run} (h : s.canonical) : (s.joinTiles b p f run).canonical := by
  unfold State.joinTiles
  refine (h.each fun _ _ h => h.each fun _ _ h => h.scratchWrite).each fun s tok h => ?_
  dsimp only
  split
  · exact h.reportPoison
  · exact h
theorem execJoin_canonical {t b step} (h : s.canonical) : answersCanonical (execJoin t b step s) := by
  unfold execJoin
  refine .ite (.next h.at) ?_
  dsimp only
  split
  · exact .next h.at
  split
  · exact .next h.at
  split
  · exact .next h.at
  · exact .ite (.next h.at) (.next h.at.joinTiles.scratchWrite.bump.modFork.forkStatus)
theorem State.canonical.forkArrive {tx} (h : s.canonical) : (s.forkArrive tx).1.canonical := by
  unfold State.forkArrive
  dsimp only
  split
  · split
    · split
      · exact h.landRow
      · exact h
    · exact h
  split
  · exact h
  split
  · exact h
  split
  · exact h
  split
  · exact h.putRelWord
  split
  · refine State.canonical.foldlFst h fun x k h => ?_
    split
    next e => exact h.takeRow e
    · exact h.modSv
    · exact h.forkFault
    · exact h
  · exact h
theorem State.canonical.forkReturnAck {inst gstep} (h : s.canonical) : (s.forkReturnAck inst gstep).canonical := h.modSv
theorem State.canonical.abandonForks {p} (h : s.canonical) : (s.abandonForks p).canonical := h.modSv.forkStatus

/-! ### Tile movers -/

theorem State.canonical.moverFault {b m i piece kind status addr viol op} (h : s.canonical) :
    (s.moverFault b m i piece kind status addr viol op).canonical := by
  unfold State.moverFault
  split
  · exact h
  extract_lets sd fl s1 tag s2
  have h2 : s2.canonical := .ite h.modMover.eventOf.violation h.modMover.eventOf
  refine .ite h2 ?_
  split
  · exact h2.charge
  · exact h2.chargePass
theorem State.canonical.moverPoison {b m d why addr logged} (h : s.canonical) : (s.moverPoison b m d why addr logged).canonical :=
  h.reportPoison
theorem State.canonical.chargeDesc {b d status addr} (h : s.canonical) : (s.chargeDesc b d status addr).canonical := by
  unfold State.chargeDesc
  split
  · exact h.charge
  · exact h.chargePass
theorem State.canonical.moverAccess {b m d kind piece c addr data len} (h : s.canonical) :
    (s.moverAccess b m d kind piece c addr data len).canonical := by
  unfold State.moverAccess
  split
  next e0 =>
  split
  · exact (h.fresh.snd e0).launchAccess
theorem State.canonical.gotNow {b m i g} (h : s.canonical) : (s.gotNow b m i g).canonical := h.modDesc
theorem State.canonical.askPiece {b m i d pos len} (h : s.canonical) : (s.askPiece b m i d pos len).canonical := by
  unfold State.askPiece
  extract_lets issue
  split
  · exact h.gotNow
  · exact h.gotNow.modDesc.moverAccess
  · extract_lets st why c s1
    have h1 : s1.canonical := .ite h h.chargeDesc
    exact .ite h1.gotNow h1.gotNow.modDesc.moverAccess
  · exact h.gotNow.modDesc.moverAccess
  · exact h.gotNow.modDesc.moverAccess
  · exact h.gotNow
theorem State.canonical.wroteOut {d space off len} (h : s.canonical) : (s.wroteOut d space off len).canonical := by
  unfold State.wroteOut
  split
  · exact .ite h.modReq h
  · exact h
theorem State.canonical.writePiece {b m i d piece pos bs} (h : s.canonical) : (s.writePiece b m i d piece pos bs).canonical := by
  unfold State.writePiece
  dsimp only
  split
  · exact h
  · exact h.modDesc.moverAccess.wroteOut
  · exact .ite h.objWrite h.modDesc.moverAccess
  · exact h.modDesc.moverAccess
  · exact h.modDesc.moverAccess
  · exact h.moverFault
theorem State.canonical.writeRange {b m i d piece pos bs} (h : s.canonical) : (s.writeRange b m i d piece pos bs).canonical :=
  h.each fun _ _ h => h.writePiece
theorem State.canonical.modChk {b m f} (h : s.canonical) : (s.modChk b m f).canonical := h.modBranch
theorem State.canonical.mismatch {b m i d source seq addr exp got} (h : s.canonical) :
    (s.mismatch b m i d source seq addr exp got).canonical := h.modChk.setVector.eventOf.trigger
theorem State.canonical.compare {b m i d source seq addr exp got differ} (h : s.canonical) :
    (s.compare b m i d source seq addr exp got differ).1.canonical := by
  unfold State.compare
  dsimp only
  split
  · exact h.modChk.mismatch
  · exact h.modChk
theorem State.canonical.scatter {b m i d n hdr elems} (h : s.canonical) : (s.scatter b m i d n hdr elems).canonical := by
  unfold State.scatter
  refine .ite ((h.each fun _ _ h => h.each fun _ _ h => h.writeRange).each fun _ _ h => h.writeRange) ?_
  exact h.each fun _ _ h => h.each fun _ _ h => h.writeRange
theorem State.canonical.sendOut {b m bs} (h : s.canonical) : (s.sendOut b m bs).canonical := h.modMover
theorem State.canonical.readFaults {b m i n d errs} (h : s.canonical) : (s.readFaults b m i n d errs).canonical :=
  h.each fun _ _ h => h.moverFault
theorem State.canonical.moveTile {b m i d n} (h : s.canonical) : (s.moveTile b m i d n).canonical := by
  unfold State.moveTile
  extract_lets g hdr errs s0 elems was why0 s1 p seq poisoned msg srcA fresh v r hdr1 why bad hdr2 told s2 s3
  have h1 : s1.canonical := .readFaults (.ite h.tick.tick.tick h)
  have hr : r.1.canonical := by
    unfold r
    split
    · split
      · exact h1.modChk
      split
      · exact h1
      · exact h1.compare
    · exact h1
  have h2 : s2.canonical := .ite hr.moverPoison.modMover hr
  have h3 : s3.canonical := .ite h2.sendOut (.ite (.ite h2.moverFault.moverPoison h2.scatter) h2.writeRange)
  exact h3.modMover.modDesc
theorem State.canonical.movePiece {b m i d p n} (h : s.canonical) : (s.movePiece b m i d p n).canonical := by
  unfold State.movePiece
  extract_lets +onlyGivenNames c data g srcA s1 s' s2 buf bs s3
  have h1 : s1.canonical := h.readFaults
  have h2 : s2.canonical := by
    unfold s2
    split
    · exact h1.moverPoison
    · exact .ite h1 (.ite h1.moverPoison.chargeDesc h1.moverPoison)
  have h3 : s3.canonical := h2.modDesc
  exact .ite h3 (.ite h3.modMover.sendOut.modDesc h3.modMover.writeRange)
theorem State.canonical.endRaw {b m i d p} (h : s.canonical) : (s.endRaw b m i d p).canonical := by
  unfold State.endRaw
  extract_lets n data srcA exp force v r s2
  have hr : r.1.canonical := by
    unfold r
    split
    · exact h.compare
    · exact h
  have h2 : s2.canonical := .ite hr.moverPoison hr
  exact .ite h2.sendOut h2.writeRange
theorem State.canonical.pull {b m i need fuel} (h : s.canonical) : (s.pull b m i need fuel).canonical := by
  induction fuel generalizing s with
  | zero => exact h
  | succ fuel ih =>
    unfold State.pull
    split
    · exact .ite h (ih h.modMover.freeCredit.modDesc)
    · exact h
theorem State.canonical.allMoved {b m i} (h : s.canonical) : (s.allMoved b m i).canonical := h.modDesc
theorem State.canonical.advance {b m i fuel} (h : s.canonical) : (s.advance b m i fuel).canonical := by
  induction fuel generalizing s with
  | zero => exact h
  | succ fuel ih =>
    unfold State.advance
    split
    · exact h
    refine .ite h ?_
    refine .ite h.modDesc.ringTokens ?_
    refine .ite (.ite (.ite h h.endRaw.allMoved) h.allMoved) ?_
    refine .ite ?_ ?_
    · dsimp only
      split
      · exact h.pull
      · exact .ite h.pull (ih (.modDesc (.ite h.pull.movePiece h.pull.moveTile)))
    refine .ite (ih (h.modDesc.each fun _ _ h => h.askPiece)) ?_
    exact .ite h (ih (.modDesc (.ite h.movePiece h.moveTile)))
theorem State.canonical.goOn {b m i} (h : s.canonical) : (s.goOn b m i).canonical := by
  unfold State.goOn
  split
  · exact h.advance
  · exact h
theorem State.canonical.startMove {b m i d} (h : s.canonical) : (s.startMove b m i d).canonical :=
  h.fresh.modDesc.goOn
theorem State.canonical.finishMover {a b m idx piece} (h : s.canonical) : (s.finishMover a b m idx piece).canonical := by
  unfold State.finishMover
  split
  · exact h
  · exact .ite h.modDesc.goOn (.ite h.modDesc h.modDesc.moverFault)
theorem State.canonical.descDone {b m i} (h : s.canonical) : (s.descDone b m i).canonical := h.modDesc.ringTokens
theorem execMoverNop_canonical {t b m} (h : s.canonical) : answersCanonical (execMoverNop t b m s) := by
  unfold execMoverNop
  refine .ite answersCanonical_fault ?_
  dsimp only
  split
  · exact .ite (.next h.at.descDone) (.next h.at)
  · exact .next h.at
theorem execMoverMove_canonical {t b m} (h : s.canonical) : answersCanonical (execMoverMove t b m s) := by
  unfold execMoverMove
  refine .ite answersCanonical_fault ?_
  extract_lets +onlyGivenNames s1
  split
  · exact .next h.at
  extract_lets +onlyGivenNames s2
  have h2 : s2.canonical := by
    refine h.at.each fun s i h => ?_
    split
    · exact .ite h.goOn h
    · exact h
  split
  · exact .ite (.next h2.startMove) (.next h2)
  · exact .next h2
theorem execMoverWait_canonical {t b m} (h : s.canonical) : answersCanonical (execMoverWait t b m s) := by
  unfold execMoverWait
  refine .ite answersCanonical_fault ?_
  refine .ite (.next h.at) ?_
  dsimp only
  split
  · exact .next h.at.modMover.freeCredit.descDone
  · exact .next h.at.modDesc
  · exact .next h.at
theorem execMoveComplete_canonical {t b m i} (h : s.canonical) : answersCanonical (execMoveComplete t b m i s) := by
  unfold execMoveComplete
  refine .ite answersCanonical_fault ?_
  dsimp only
  split
  · exact .ite (.next h.at.descDone) (.next h.at)
  · exact .next h.at

/-! ### Outstanding transactions -/

theorem State.canonical.respondVc {port tx vc status data why arg} (h : s.canonical) :
    (s.respondVc port tx vc status data why arg).canonical := .ite h.queueTx h.sendTx
theorem State.canonical.respond {port tx status data why arg} (h : s.canonical) :
    (s.respond port tx status data why arg).canonical := h.respondVc
theorem State.canonical.endServe {k status} (h : s.canonical) : (s.endServe k status).canonical := by
  unfold State.endServe
  extract_lets s1 s2
  have h2 : s2.canonical := .ite h.modUr.modSeq.freeSeq h.modUr.modSeq
  exact h2.sendTx.afterEnds
theorem State.canonical.hostAnswer {port tx pcie status why data} (h : s.canonical) :
    (s.hostAnswer port tx pcie status why data).canonical := .ite (.ite h.emit (.ite h.bump h)) (.ite h.respond h)
theorem State.canonical.hostDone {id idx status why data} (h : s.canonical) : (s.hostDone id idx status why data).canonical := by
  unfold State.hostDone
  split
  · exact h
  · exact .ite h.modUr.hostAnswer h.modUr
theorem State.canonical.accessDone {acc status why data arg} (h : s.canonical) :
    (s.accessDone acc status why data arg).canonical := by
  unfold State.accessDone
  split
  · exact h
  refine .ite h.modAcc.answer ?_
  extract_lets s1
  have h1 : s1.canonical := by
    unfold s1
    split
    · exact .ite h.violation h
    · exact h
  exact h1.errorOut
theorem State.canonical.shipDone {id status} (h : s.canonical) : (s.shipDone id status).canonical := by
  unfold State.shipDone
  split
  · exact h
  refine .ite h ?_
  extract_lets src s1
  have h1 : s1.canonical := .ite h.violation h
  exact h1.endReq.afterEnds
theorem State.canonical.complete {o status why data arg} (h : s.canonical) : (s.complete o status why data arg).canonical := by
  unfold State.complete
  dsimp only
  split
  · exact h.modUr.accessDone
  · exact h.modUr.shipDone
  · exact h.modUr.forkAck
  · exact h.modUr.forkReturnAck
  · split
    · exact h.modUr.endServe
    · exact h.modUr
  · exact h.modUr.graftGot
  · exact .ite h.modUr.respond h.modUr
  · exact h.modUr.hostDone
  · exact h.modUr
theorem State.canonical.lose {dst tag} (h : s.canonical) : (s.lose dst tag).canonical := by
  unfold State.lose
  split
  · exact h.complete
  · exact h
theorem execResponseTimeout_canonical {t dst tag} (h : s.canonical) : answersCanonical (execResponseTimeout t dst tag s) := by
  unfold execResponseTimeout
  dsimp only
  split
  · exact .next h.at
  · exact .ite (.next h.at) (.next h.at.bump.complete)

/-! ### Links -/

theorem State.canonical.setLink {n state width rate} (h : s.canonical) : (s.setLink n state width rate).canonical :=
  .ite h.wf.wf h.wf.wf.wf.wf.wf
theorem State.canonical.linkEvent {n kind lanes} (h : s.canonical) : (s.linkEvent n kind lanes).canonical := h.firstEvent.event
theorem State.canonical.updateParent (h : s.canonical) : s.updateParent.canonical :=
  .ite h (.ite h.modUr.wf.wf.modUr.wf h.modUr.wf)
theorem State.canonical.downLink {n state} (h : s.canonical) : (s.downLink n state).canonical := h.setLink.updateParent
theorem State.canonical.attemptFails {n failed} (h : s.canonical) : (s.attemptFails n failed).canonical := h.wf.modLink
theorem State.canonical.endRestore {n status} (h : s.canonical) : (s.endRestore n status).canonical := by
  unfold State.endRestore
  split
  · exact h
  extract_lets s1 s2
  have h2 : s2.canonical := .ite h.modLink.linkEvent h.modLink
  exact h2.adminEnd
theorem State.canonical.retrain {n} (h : s.canonical) : (s.retrain n).canonical := .ite h.downLink h
theorem State.canonical.loseTag {tag} (h : s.canonical) : (s.loseTag tag).canonical := by
  unfold State.loseTag
  split
  · exact h.lose
  · exact h
theorem State.canonical.mapOut {n kind} (h : s.canonical) : (s.mapOut n kind).canonical := by
  unfold State.mapOut
  extract_lets l part gone rest s1 s2 s3
  have h3 : s3.canonical := h.linkEvent.setLink.modLink.updateParent.bump.each fun _ _ h => .ite h.loseTag h
  exact (h3.each fun _ _ h => h.sendTx).endRestore.trigger
theorem execNakRetransmit_canonical {t n} (h : s.canonical) : answersCanonical (execNakRetransmit t n s) := by
  unfold execNakRetransmit
  dsimp only
  split
  · exact .next h.at
  · exact .next h.at.modLink
  · exact .next h.at.bump.count.modLink
theorem State.canonical.sendFlit {n kind vc seq payload} (h : s.canonical) : (s.sendFlit n kind vc seq payload).canonical :=
  h.modLink.emit
theorem State.canonical.sendPiece {n q} (h : s.canonical) : (s.sendPiece n q).canonical :=
  .ite h.sendFlit.bump.modLink.modUr h.sendFlit.bump.modLink
theorem execFlitSlot_canonical {t n} (h : s.canonical) : answersCanonical (execFlitSlot t n s) := by
  unfold execFlitSlot
  refine .ite (.next h.at) ?_
  refine .ite (.next h.at.modLink.sendFlit.modLink) ?_
  refine .ite ?_ ?_
  · split
    · exact .next h.at.modLink.sendFlit.bump.modLink
    · exact .next h.at.modLink.modLink
  split
  · split
    · exact .next h.at.modLink.sendPiece
    · exact .next h.at.modLink
  · exact .next h.at.modLink.sendFlit
theorem State.canonical.msgBerTest {src route m} (h : s.canonical) : (s.msgBerTest src route m).canonical :=
  h.receive fun _ _ h => h.modUr
theorem execBerTestStart_canonical {t} (h : s.canonical) : answersCanonical (execBerTestStart t s) := by
  unfold execBerTestStart
  dsimp only
  split
  · exact .next h.at
  · exact .next ((h.at.each fun _ _ h => h.downLink).modUr)
theorem State.canonical.berResult {n bits errs} (h : s.canonical) : (s.berResult n bits errs).canonical :=
  (h.putReg.wf.wf.each fun _ _ h => h.putReg).modLink
theorem execBerTestEnd_canonical {t res} (h : s.canonical) : answersCanonical (execBerTestEnd t res s) := by
  unfold execBerTestEnd
  extract_lets s1
  split
  · exact .next h.at
  extract_lets ns s2 s3
  have h2 : s2.canonical := by
    unfold s2
    refine h.at.each fun s n h => ?_
    split <;> exact h.berResult
  have h3 : s3.canonical := h2.each fun _ _ h => .ite h.downLink h
  exact .next h3.modUr.adminEnd
theorem State.canonical.msgLinkRestore {src route m} (h : s.canonical) : (s.msgLinkRestore src route m).canonical :=
  h.receive fun _ _ h => .ite h.adminStop h.downLink.modLink

/-! ### Multicast trees -/

theorem State.canonical.treeSend {e tx} (h : s.canonical) : (s.treeSend e tx).canonical := h.each fun _ _ h => h.queueTx
theorem State.canonical.mcDeliver {tx} (h : s.canonical) : (s.mcDeliver tx).canonical := by
  unfold State.mcDeliver
  refine h.modSv.each fun s l h => ?_
  refine h.each fun s k h => ?_
  dsimp only
  split
  · exact .ite h.placeWrite h
  · exact h
theorem execMcastWrite_canonical {t n tx} (h : s.canonical) : answersCanonical (execMcastWrite t n tx s) := by
  unfold execMcastWrite
  dsimp only
  split
  · exact .next h.at.bump
  refine .ite (.next h.at.bump) ?_
  refine .ite (.next h.at) ?_
  exact .ite (.next h.at.treeSend) (.ite (.next h.at.treeSend.holdTx) (.next h.at.treeSend.mcDeliver))
theorem State.canonical.mcSend {tree off bs} (h : s.canonical) : (s.mcSend tree off bs).canonical := by
  unfold State.mcSend
  split
  · exact h
  · exact h.each fun _ _ h => h.modUr.treeSend
theorem execMcastShardSend_canonical {t id} (h : s.canonical) : answersCanonical (execMcastShardSend t id s) := by
  unfold execMcastShardSend
  refine .ite (.next h.at) ?_
  dsimp only
  split
  · exact .next h.at
  refine .ite (.next h.at) ?_
  refine .ite (.next h.at.mcSend.mcSend.modLoad) ?_
  split
  · exact .next h.at
  refine .ite (.next h.at) ?_
  refine .ite (.next ((h.at.each fun _ _ h => h.mcSend).modLoad)) ?_
  exact .next ((h.at.each fun _ _ h => h.mcSend).modLoad.modSv)

/-! ### Transactions that arrive -/

theorem State.canonical.portAccess {port sv kind fn rb rc space off addr data len cls why} (h : s.canonical) :
    (s.portAccess port sv kind fn rb rc space off addr data len cls why).canonical := by
  unfold State.portAccess
  split
  next e0 => exact (h.fresh.snd e0).launchAccess
theorem State.canonical.remoteAccess {port tx} (h : s.canonical) : (s.remoteAccess port tx).canonical := by
  unfold State.remoteAccess
  exact .ite (.ite (.respond (.ite h.bump h)) (.ite h.bump h)) h.portAccess
theorem State.canonical.finishTx {a port tx} (h : s.canonical) : (s.finishTx a port tx).canonical :=
  .ite (.ite h.respond h) (.ite h.respond (.ite h.respond (.ite h.respond h)))
theorem State.canonical.hostPiece {sd op addr n} (h : s.canonical) : (s.hostPiece sd op addr n).1.canonical := by
  unfold State.hostPiece
  split
  · exact h.violation
  split
  · exact h
  split
  · exact h.violation
  · exact h
  · exact h
theorem State.canonical.hostAccess {port sd tx pcie} (h : s.canonical) : (s.hostAccess port sd tx pcie).canonical := by
  unfold State.hostAccess
  extract_lets n ps cls post
  split
  next e0 =>
  extract_lets step r
  have hstep : ∀ x p, x.1.canonical → (step x p).1.canonical := by
    intro x p hx
    dsimp only [step]
    split
    · exact hx.hostPiece
    · exact hx.hostPiece.portAccess
    split
    next e1 => split <;> exact hx.hostPiece.launch.fst e1
    next e1 => exact hx.hostPiece.launch.fst e1
  have hr : r.1.canonical := State.canonical.foldlFst (h.fresh.snd e0) hstep
  exact .ite hr.hostAnswer hr.modUr
theorem State.canonical.hostDeny {port tx} (h : s.canonical) : (s.hostDeny port tx).canonical :=
  .ite (.ite h.respond.faultLog (.ite h.respond.violation h.respond)) (.ite h.bump.faultLog h.bump)
theorem State.canonical.hostTx {port tx} (h : s.canonical) : (s.hostTx port tx).canonical := by
  unfold State.hostTx
  refine .ite h ?_
  refine .ite (.ite (.ite h.inletFrame h) h.hostDeny) ?_
  refine .ite ?_ h.hostDeny
  split
  · exact h.hostAccess
  · exact h.hostDeny
theorem State.canonical.kvFetch {port tx} (h : s.canonical) : (s.kvFetch port tx).canonical := by
  unfold State.kvFetch
  dsimp only
  split
  · exact h.respond
  refine .ite h.respond ?_
  refine h.modSeq.modUr.foldl fun s f h => ?_
  split
  next e1 => exact h.launch.fst e1
  next e1 => exact .ite ((h.launch.fst e1).endServe) (h.launch.fst e1)
theorem State.canonical.kvData {port tx} (h : s.canonical) : (s.kvData port tx).canonical := by
  unfold State.kvData
  split
  · exact h
  split
  · split
    · exact h
    extract_lets s1
    have h1 : s1.canonical := by
      unfold s1
      split
      · exact h.objWrite.objPoison
      · exact h
    exact .ite h1.modSv.respondVc h1
  · exact h
theorem State.canonical.relayFork {port tx} (h : s.canonical) : (s.relayFork port tx).canonical := by
  unfold State.relayFork
  dsimp only
  split
  next e0 => exact h.launch.fst e0
  next e0 => exact .ite ((h.launch.fst e0).respond) (h.launch.fst e0)
theorem State.canonical.performTx {port tx} (h : s.canonical) : (s.performTx port tx).canonical := by
  unfold State.performTx
  refine .ite h.hostTx ?_
  refine .ite h ?_
  refine .ite h.remoteAccess ?_
  refine .ite (.ite h.relayFork (.ite h.forkArrive.respond h.forkArrive)) ?_
  refine .ite h.kvFetch ?_
  refine .ite h.kvData ?_
  refine .ite ?_ h
  split
  · exact h.complete
  · exact h
theorem State.canonical.takeTx {port tx} (h : s.canonical) : (s.takeTx port tx).canonical := .ite h.holdTx h.performTx
theorem State.canonical.rowTx {op port tx} (h : s.canonical) : (s.rowTx op port tx).canonical := .ite h.takeTx h
theorem execTransactionForward_canonical {t port tx} (h : s.canonical) :
    answersCanonical (execTransactionForward t port tx s) := by
  unfold execTransactionForward
  refine .ite (.next h.at.bump) ?_
  refine .ite (.next h.at) ?_
  refine .ite (.next (.ite h.at.bump.respond h.at.bump)) ?_
  dsimp only
  split
  · exact .next h.at.flowSend
  · exact .next (.ite h.at.respond h.at.bump)

/-! ### Packets that arrive -/

theorem State.canonical.finishAccess {a} (h : s.canonical) : (s.finishAccess a).canonical := by
  unfold State.finishAccess
  dsimp only
  split
  · exact h.modTiers.finishLeaf
  · exact h.modTiers.finishMover
  · exact h.modTiers.finishTx
  · exact h.modTiers.hostDone
theorem State.canonical.requestArrived {a bad} (h : s.canonical) : (s.requestArrived a bad).canonical :=
  .ite h.modAcc (.ite h.modAcc.accessArrived.spoilAcc h.modAcc.accessArrived)
theorem State.canonical.responseArrived {a} (h : s.canonical) : (s.responseArrived a).canonical := by
  unfold State.responseArrived
  extract_lets s1
  have h1 : s1.canonical := by
    unfold s1
    split
    · exact h.moved
    · exact h
  exact .ite h1.modAcc h1.finishAccess
theorem execPacketArrival_canonical {t x} (h : s.canonical) : answersCanonical (execPacketArrival t x s) := by
  unfold execPacketArrival
  refine .ite (.next h.at) ?_
  dsimp only
  split
  · exact .next h.at
  refine .ite (.next h.at) ?_
  split
  · exact .next h.at.modPackets
  · exact .next (.ite h.at.modPackets.responseArrived h.at.modPackets.requestArrived)

/-! ### The stall sentinel -/

theorem State.canonical.emptyBranches {bs} (h : s.canonical) : (s.emptyBranches bs).canonical :=
  h.abortBranches.each fun _ _ h => h.modBranch.modLeavesOf
theorem State.canonical.resetInst {i} (h : s.canonical) : (s.resetInst i).canonical := by
  unfold State.resetInst
  extract_lets +onlyGivenNames s1 run s2 s3 s4
  have h2 : s2.canonical := by
    refine h.emptyBranches.abandonForks.each fun s id h => ?_
    split
    · exact h.endReq
    · exact h
  have h3 : s3.canonical := h2.each fun _ _ h => h.dropPass
  have h4 : s4.canonical := h3
  exact h4.clearRings.modBranches.afterEnds
theorem State.canonical.fireSentinel {i r} (h : s.canonical) : (s.fireSentinel i r).canonical :=
  .ite h.modBranch.setVector.eventOf.trigger.modDb h.modBranch.setVector.eventOf.trigger.resetInst
theorem State.canonical.protocolFault {before b} (h : s.canonical) : (s.protocolFault before b).canonical := by
  unfold State.protocolFault
  split
  · exact h.fireSentinel
  · exact h
theorem State.canonical.sentinelCount {b} (h : s.canonical) : (s.sentinelCount b).canonical := by
  unfold State.sentinelCount
  split
  · exact .ite h (.ite h.modBranch h.modBranch)
  · exact h
theorem State.canonical.countCycle {b} (h : s.canonical) : (s.countCycle b).canonical := h.modLeavesOf.count.count
theorem execSlotTransfer_canonical {t b} (h : s.canonical) : answersCanonical (execSlotTransfer t b s) := by
  unfold execSlotTransfer
  refine .ite answersCanonical_fault ?_
  extract_lets +onlyGivenNames s1
  split
  · exact .next h.at
  extract_lets +onlyGivenNames s2 s3 s4
  have h3 : s3.canonical := h.at.modBranch.countCycle.sentinelCount.runSlotOf.handoverStep
  have h4 : s4.canonical := .ite h3.resumeStages h3
  exact .next h4.protocolFault
theorem execSentinelFire_canonical {t b} (h : s.canonical) : answersCanonical (execSentinelFire t b s) := by
  unfold execSentinelFire
  refine .ite answersCanonical_fault ?_
  dsimp only
  split
  · exact .ite (.next h.at) (.next h.at.fireSentinel)
  · exact .next h.at

/-! ### Stand resets -/

theorem State.canonical.scrub {lo n} (h : s.canonical) : (s.scrub lo n).canonical := ⟨memWf_filter _ _ h.1, h.2⟩
theorem State.canonical.scrubBranch {b} (h : s.canonical) : (s.scrubBranch b).canonical := h.scrub.scrub
theorem State.canonical.endMessages {sd} (h : s.canonical) : (s.endMessages sd).canonical :=
  (((h.each fun _ _ h => h.endLoad).each fun _ _ h => h.discardGraft).each fun _ _ h => h.adminEnd).modSv
theorem State.canonical.endRequests {sd flr} (h : s.canonical) : (s.endRequests sd flr).canonical := by
  unfold State.endRequests
  refine h.each fun s id h => ?_
  split
  · exact h.endOne
  · exact h
theorem State.canonical.emptyStand {sd} (h : s.canonical) : (s.emptyStand sd).canonical :=
  (h.each fun _ _ h => h.freeSeq).modSv.modUr
theorem State.canonical.startReset {sd cause} (h : s.canonical) : (s.startReset sd cause).canonical := by
  unfold State.startReset
  refine .ite h ?_
  refine .ite h.modDb ?_
  refine .afterEnds (.modRes (.each ?_ fun _ _ h => h.modBranch.modLeavesOf.scrubBranch))
  exact h.wf.wf.wake.emptyBranches.abandonForks.modBranches.endRequests.endMessages.emptyStand
theorem State.canonical.endReset {sd} (h : s.canonical) : (s.endReset sd).canonical :=
  h.clearRegs.setVector.bump.wf.modRes.each fun _ _ h => h.adminEnd
theorem State.canonical.reloadPins {sd} (h : s.canonical) : (s.reloadPins sd).canonical := by
  unfold State.reloadPins
  split
  · exact h
  · exact (h.each fun _ _ h => h.modLoad.each fun _ _ h => h.startLoads).modRes
theorem execPinEntryReload_canonical {t sd} (h : s.canonical) : answersCanonical (execPinEntryReload t sd s) :=
  .ite (.next h.at) (.next h.at.endReset.reloadPins)
theorem State.canonical.beginStandReset {a} (h : s.canonical) : (s.beginStandReset a).canonical := .ite h.adminStop h.startReset
theorem State.canonical.msgStandReset {src route m} (h : s.canonical) : (s.msgStandReset src route m).canonical :=
  h.receive fun _ _ h => h.beginStandReset

/-! ### Power and energy -/

theorem State.canonical.modPw {f} (h : s.canonical) : (s.modPw f).canonical := h
theorem State.canonical.powerEvent {kind value} (h : s.canonical) : (s.powerEvent kind value).canonical :=
  h.firstEvent.event.alertEdge
theorem State.canonical.revokePass {p} (h : s.canonical) : (s.revokePass p).canonical := by
  unfold State.revokePass
  extract_lets s1 s2
  have h1 : s1.canonical := by
    unfold s1
    refine h.each fun s id h => ?_
    split
    · exact h.bump.endReq
    · exact h
  split
  · exact h1.abortEmpty.reshift
  · exact h1.abortEmpty
theorem State.canonical.revokeLoop {fuel} (h : s.canonical) : (s.revokeLoop fuel).canonical := by
  induction fuel generalizing s with
  | zero => exact h
  | succ fuel ih =>
    unfold State.revokeLoop
    split
    · exact h
    split
    · exact h
    · exact ih h.revokePass
theorem State.canonical.revokeOver (h : s.canonical) : s.revokeOver.canonical := h.revokeLoop.afterEnds
theorem State.canonical.stopBallast (h : s.canonical) : s.stopBallast.canonical := h.modPw.wbit
theorem State.canonical.capChanged {s0 : State} {urgent} (h : s.canonical) : (s0.capChanged s urgent).canonical := by
  unfold State.capChanged
  exact .ite (.revokeOver (.ite h.modPw.stopBallast h.modPw)) h.modPw
theorem State.canonical.urgentNow (h : s.canonical) : s.urgentNow.canonical := h.modPw.stopBallast.revokeOver
theorem State.canonical.rebound (h : s.canonical) : s.rebound.canonical := by
  unfold State.rebound
  refine h.each fun s p h => ?_
  split
  · exact h
  split
  · exact h.modPass
  refine h.each fun s id h => ?_
  split
  · exact h.endReq
  · exact h
theorem State.canonical.setFloor {f} (h : s.canonical) : (s.setFloor f).canonical :=
  .ite h.wf (.ite h.wf.modBranches.rebound.repairAll.afterEnds h.wf.modBranches)
theorem State.canonical.raiseFloor (h : s.canonical) : s.raiseFloor.canonical := .ite h.setFloor h
theorem State.canonical.thermalFloor (h : s.canonical) : s.thermalFloor.canonical := h.wf
theorem execFloorStep_canonical {t w exceeds} (h : s.canonical) : answersCanonical (execFloorStep t w exceeds s) := by
  unfold execFloorStep
  dsimp only
  split
  · exact .next (.ite h.at.modPw.modPw.raiseFloor h.at.modPw)
  · exact .ite (.next h.at) (.ite (.next h.at.modPw.modPw.raiseFloor) (.next h.at.modPw.modPw))
theorem State.canonical.setFine {sd v} (h : s.canonical) : (s.setFine sd v).canonical := h.modPw.addBucket
theorem State.canonical.refill {sd} (h : s.canonical) : (s.refill sd).canonical := h.setFine
theorem State.canonical.chargeIdle {sd nj} (h : s.canonical) : (s.chargeIdle sd nj).canonical := h.modPw.addCharged.setFine
theorem State.canonical.chargeBallast {owner nj} (h : s.canonical) : (s.chargeBallast owner nj).canonical := by
  unfold State.chargeBallast
  refine .ite ?_ (h.bump.each fun _ _ h => h.chargeIdle)
  split
  · exact h.bump.chargeIdle
  · exact h.bump
theorem State.canonical.addOverhead {nj} (h : s.canonical) : (s.addOverhead nj).canonical := .ite h.modPw h.modPw
theorem State.canonical.chargeBranch {b nj} (h : s.canonical) : (s.chargeBranch b nj).canonical := by
  unfold State.chargeBranch
  split
  · exact h.modPass
  refine .ite h.chargeBallast ?_
  split
  · exact h.chargeIdle
  · exact h.addOverhead
theorem execFixedWUpdate_canonical {t} (h : s.canonical) : answersCanonical (execFixedWUpdate t s) := .next (.ite h.at h.at.wf)
theorem execAveragePowerCheck_canonical {t w} (h : s.canonical) : answersCanonical (execAveragePowerCheck t w s) := by
  unfold execAveragePowerCheck
  refine .ite (.next (.ite h.at.wf.wbit.wf.modPw.powerEvent.urgentNow h.at.wf.wbit.wf.modPw)) ?_
  exact .next (.modPw (.ite h.at.wf.wbit h.at.wf))
theorem State.canonical.heartbeat (h : s.canonical) : s.heartbeat.canonical := .ite h.modPw.wbit.capChanged.alertEdge h.modPw
theorem State.canonical.beginCapSet {a} (h : s.canonical) : (s.beginCapSet a).canonical := by
  unfold State.beginCapSet
  extract_lets +onlyGivenNames m share shares urgent
  split
  · exact h.adminStop
  extract_lets +onlyGivenNames s1 s2 s3 s4
  have h1 : s1.canonical := h.heartbeat
  have h2 : s2.canonical := .modPw (.ite (h1.each fun _ _ h => h.wf) h1)
  have h4 : s4.canonical := .ite h2.capChanged.powerEvent h2.capChanged
  exact h4.adminEnd
theorem State.canonical.msgCapSet {src route m} (h : s.canonical) : (s.msgCapSet src route m).canonical :=
  h.receive fun _ _ h => h.beginCapSet
theorem execInputSag_canonical {t mv} (h : s.canonical) : answersCanonical (execInputSag t mv s) :=
  .ite (.next h.at) (.next h.at.wf.modPw.capChanged.stopBallast.powerEvent)
theorem execSagRecovery_canonical {t mv} (h : s.canonical) : answersCanonical (execSagRecovery t mv s) :=
  .ite (.next h.at) (.next h.at.wf.modPw.capChanged)

/-! ### The exchange of ring time -/

theorem State.canonical.modClock {f} (h : s.canonical) : (s.modClock f).canonical := h.modUr
theorem execTimeSyncRequest_canonical {t sub} (h : s.canonical) : answersCanonical (execTimeSyncRequest t sub s) := by
  unfold execTimeSyncRequest
  dsimp only
  split
  · exact .next h.at
  · exact .ite (.next h.at) (.next h.at.modUr.queueTx.modClock)
theorem State.canonical.takeOffset {off} (h : s.canonical) : (s.takeOffset off).canonical := by
  unfold State.takeOffset
  extract_lets +onlyGivenNames st held locks s0 s1
  have h0 : s0.canonical := .ite h.wf.count h
  have h1 : s1.canonical := h0.wf.modClock
  split
  · extract_lets +onlyGivenNames step s2
    have h2 : s2.canonical := .ite (.bump h1) h1
    exact h2.modClock.wbit
  · extract_lets +onlyGivenNames fault s2
    have h2 : s2.canonical := .ite h1.bump h1
    exact h2.modClock.wbit
theorem execPpsInEdge_canonical {t} (h : s.canonical) : answersCanonical (execPpsInEdge t s) := by
  unfold execPpsInEdge
  extract_lets s1 anchored first s2 near s3
  have h1 : s1.canonical := h.at
  have h2 : s2.canonical := .ite h1.withNow h1
  have h3 : s3.canonical := .ite h2.wf.modClock h2
  exact .next h3.putReg.modClock
theorem execPpsOutPulse_canonical {t} (h : s.canonical) : answersCanonical (execPpsOutPulse t s) :=
  .ite (.next h.at.emit) (.next h.at)

/-! ### Resets and stops -/

theorem State.canonical.breakFreeze (h : s.canonical) : s.breakFreeze.canonical := by
  unfold State.breakFreeze
  extract_lets dumping s1 s2
  have h1 : s1.canonical := .ite h.wbit.wbit.tracePush h
  have h2 : s2.canonical := by
    unfold s2
    refine h1.each fun s h h => ?_
    split
    next e0 => exact (h.fresh.snd e0).modSv
  exact h2.wf.modDb.modBranches
theorem State.canonical.revokeAll (h : s.canonical) : s.revokeAll.canonical := by
  unfold State.revokeAll
  refine .modSv ?_
  refine h.each fun s id h => ?_
  split
  · exact h.endOne
  · exact h
theorem State.canonical.endAdmins (h : s.canonical) : s.endAdmins.canonical := by
  unfold State.endAdmins
  refine h.each fun s a h => ?_
  split <;> exact h.adminEnd
theorem State.canonical.stop {cause} (h : s.canonical) : (s.stop cause).canonical := by
  unfold State.stop
  extract_lets +onlyGivenNames all s1 s2 s3 s4 s5 s6
  have h3 : s3.canonical := h.breakFreeze.wbit.stopBallast.emptyBranches.abandonForks.modBranches.revokeAll.endAdmins
  have h4 : s4.canonical := h3.each fun _ _ h => h.setLink.modLink
  have h5 : s5.canonical := h4.modUr.modTiers.wf
  have h6 : s6.canonical := .ite h5.wf h5
  exact h6.modPw
theorem State.canonical.cleared {level} (h : s.canonical) : (s.cleared level).canonical := ⟨memWf_filter _ _ h.1, tabWf_filter _ h.2⟩
theorem State.canonical.resetTo {level trig} (h : s.canonical) : (s.resetTo level trig).canonical := by
  unfold State.resetTo
  extract_lets s1 keepTrip s2 s3 s4 s5 s6 s7
  have h2 : s2.canonical := .ite h.cleared.wbit h.cleared
  have h3 : s3.canonical := .thermalFloor (.raiseFloor (.ite h2.wbit h2))
  have h4 : s4.canonical := .ite h3 (.ite h3.bump (.ite h3.bump h3.bump))
  have h5 : s5.canonical := .ite h4.wbit (.ite h4.wbit.powerEvent.modPw h4)
  have h6 : s6.canonical := .ite h5.wf h5
  have h7 : s7.canonical := .ite h6.wf.wf.wf.wf h6
  exact h7.wf.modPw.alertEdge
theorem execBrownOut_canonical {t mv} (h : s.canonical) : answersCanonical (execBrownOut t mv s) :=
  .ite (.next h.at) (.next h.at.cleared.modPw)
theorem execLowInputStop_canonical {t mv} (h : s.canonical) : answersCanonical (execLowInputStop t mv s) := by
  unfold execLowInputStop
  exact .ite (.next h.at) (.next h.at.powerEvent.stop)
theorem execOvervoltageStop_canonical {t mv} (h : s.canonical) : answersCanonical (execOvervoltageStop t mv s) :=
  .ite (.next h.at) (.next h.at.powerEvent.stop)
theorem execInputRecovery_canonical {t mv} (h : s.canonical) : answersCanonical (execInputRecovery t mv s) :=
  .ite (.next h.at.resetTo) (.next h.at)
theorem execResetNLow_canonical {t} (h : s.canonical) : answersCanonical (execResetNLow t s) := by
  unfold execResetNLow
  dsimp only
  split
  · exact .next h.at.modPw
  · exact .next h.at.modPw.stop
  · exact .next h.at.modPw.modPw
  · exact .ite (.next h.at.modPw.modPw) (.next h.at.modPw)
theorem execResetNRelease_canonical {t strap} (h : s.canonical) : answersCanonical (execResetNRelease t strap s) :=
  .ite (.next h.at.modPw.resetTo) (.ite (.next h.at.modPw.modPw) (.next h.at.modPw))
theorem State.canonical.rootReset {trig} (h : s.canonical) : (s.rootReset trig).canonical := by
  unfold State.rootReset
  exact .ite h.stop.resetTo h
theorem execWatchdogExpiry_canonical {t} (h : s.canonical) : answersCanonical (execWatchdogExpiry t s) :=
  .ite (.next h.at) (.next h.at.rootReset)
theorem execRootclkLoss_canonical {t} (h : s.canonical) : answersCanonical (execRootclkLoss t s) := by
  unfold execRootclkLoss
  dsimp only
  split
  · exact .next h.at.wbit.wbit.faultLog.stop
  · exact .next h.at.wbit.wbit.modPw
  · exact .next h.at.wbit.wbit
theorem execRootclkRecovery_canonical {t} (h : s.canonical) : answersCanonical (execRootclkRecovery t s) :=
  .ite (.next h.at.wbit.wbit.resetTo.wbit) (.next h.at.wbit.wbit)
theorem State.canonical.enterS2 (h : s.canonical) : s.enterS2.canonical := .ite h.wf.stopBallast.modBranches h
theorem State.canonical.enterS3 (h : s.canonical) : s.enterS3.canonical := by
  unfold State.enterS3
  refine .ite ?_ h
  extract_lets s1
  have h1 : s1.canonical := h.breakFreeze.stopBallast.each fun _ _ h => h.setLink.modLink
  have h2 : ({ s1 with mem := s1.mem.filter (fun c => keptMem 4 c.1) } : State).canonical := ⟨memWf_filter _ _ h1.1, h1.2⟩
  exact h2.wf.modPw
theorem State.canonical.wakeS3 {cause source} (h : s.canonical) : (s.wakeS3 cause source).canonical :=
  .ite h (.ite h.putReg.resetTo h.putReg.resetTo)
theorem State.canonical.wakeAny {cause source} (h : s.canonical) : (s.wakeAny cause source).canonical := .ite h.wakeS3 h.leaveS2
theorem execWakePin_canonical {t n level} (h : s.canonical) : answersCanonical (execWakePin t n level s) :=
  .ite (.next h.at.wakeAny) (.next h.at)
theorem execUrrenSignalWake_canonical {t n} (h : s.canonical) : answersCanonical (execUrrenSignalWake t n s) :=
  .ite (.next h.at.wakeS3) (.next h.at)
theorem execStandbyBrownout_canonical {t} (h : s.canonical) : answersCanonical (execStandbyBrownout t s) :=
  .ite (.next h.at.modPw) (.next h.at)
theorem execCoolantFaultAssert_canonical {t} (h : s.canonical) : answersCanonical (execCoolantFaultAssert t s) :=
  .ite (.next h.at) (.next h.at.wbit.powerEvent.stopBallast.modPw.raiseFloor.thermalFloor)
theorem State.canonical.thermalStatus (h : s.canonical) : s.thermalStatus.canonical := by
  unfold State.thermalStatus
  split
  · exact h.wf.wbit.wbit
  · exact h.wf.wf.wbit.wbit
theorem execSensorUpdate_canonical {t reads} (h : s.canonical) : answersCanonical (execSensorUpdate t reads s) := by
  unfold execSensorUpdate
  extract_lets +onlyGivenNames s0 s1 hot trip s2
  have h1 : s1.canonical := .thermalStatus (h.at.each fun _ _ h => h.wf)
  clear_value hot trip
  have h2 : s2.canonical := by
    unfold s2
    split
    · exact h1
    · exact .ite h1 h1.powerEvent.stopBallast.modPw.raiseFloor.thermalFloor
  split
  · exact .next h2
  · exact .ite (.next h2) (.next h2.wbit.powerEvent.stop)

/-! ### Routing banks -/

theorem State.canonical.putShadow {pid lo hi} (h : s.canonical) : (s.putShadow pid lo hi).canonical := .ite h h.modUr
theorem State.canonical.putShadowTree {i a b} (h : s.canonical) : (s.putShadowTree i a b).canonical := .ite h h.modUr
theorem State.canonical.putRouteWord {k w} (h : s.canonical) : (s.putRouteWord k w).canonical := .ite h h.modUr
theorem State.canonical.putTreeWord {k w} (h : s.canonical) : (s.putTreeWord k w).canonical := .ite h h.modUr
theorem State.canonical.swapBanks (h : s.canonical) : s.swapBanks.canonical :=
  (h.modUr.wf.wbit.wbit.each fun _ _ h => h.adminEnd).each fun _ _ h => h.complete
theorem State.canonical.arm (h : s.canonical) : s.arm.canonical := .ite h.swapBanks h.wbit
theorem State.canonical.disarm (h : s.canonical) : s.disarm.canonical := h.wbit
theorem State.canonical.routeUpdate {a} (h : s.canonical) : (s.routeUpdate a).canonical := by
  unfold State.routeUpdate
  extract_lets m s1
  have h1 : s1.canonical := h.each fun _ _ h => .ite h.putShadow h.putShadowTree
  exact .ite h1.adminStop h1.modUr.putReg.arm
theorem State.canonical.msgRouteUpdate {src route m} (h : s.canonical) : (s.msgRouteUpdate src route m).canonical :=
  h.receive fun _ _ h => .ite h.adminStop (.ite h.modUr h.routeUpdate)
theorem State.canonical.partJoin {a} (h : s.canonical) : (s.partJoin a).canonical :=
  .ite (.adminStop (.ite h.wbit h)) h.putShadow.putReg.arm.adminStop
theorem State.canonical.msgPartJoin {src route m} (h : s.canonical) : (s.msgPartJoin src route m).canonical :=
  h.receive fun _ _ h => .ite h.modUr h.partJoin
theorem execShadowCopyDone_canonical {t} (h : s.canonical) : answersCanonical (execShadowCopyDone t s) := by
  unfold execShadowCopyDone
  refine .ite (.next h.at) ?_
  refine .next ?_
  refine h.at.modUr.wbit.each fun s id h => ?_
  split
  · exact .ite h.partJoin h.routeUpdate
  · exact h
theorem State.canonical.msgPartDrain {src route m} (h : s.canonical) : (s.msgPartDrain src route m).canonical :=
  h.receive fun _ _ h => h.wbit.modSv.modUr
theorem execDrainComplete_canonical {t} (h : s.canonical) : answersCanonical (execDrainComplete t s) :=
  .ite (.next h.at) (.next (h.at.modUr.each fun _ _ h => h.adminEnd))
theorem State.canonical.unroutable {tx status} (h : s.canonical) : (s.unroutable tx status).canonical := by
  unfold State.unroutable
  refine .ite h ?_
  refine .ite ?_ h.respond
  split
  · exact h.complete
  · exact h
theorem execQuiesceRelease_canonical {t dst vc} (h : s.canonical) : answersCanonical (execQuiesceRelease t dst vc s) := by
  unfold execQuiesceRelease
  dsimp only
  split
  · exact .next h.at
  split
  · exact .next h.at
  refine .ite (.next h.at) ?_
  refine .next ?_
  refine h.at.modUr.each fun s x h => ?_
  split
  next e2 => exact h.sendTx.fst e2
  next e2 => exact (h.sendTx.fst e2).unroutable

/-! ### Telemetry -/

theorem State.canonical.endSnapshot {a} (h : s.canonical) : (s.endSnapshot a).canonical := by
  unfold State.endSnapshot
  extract_lets dest s1
  have h1 : s1.canonical := .ite h h.emit
  exact h1.adminEnd
theorem State.canonical.countSkipped {busy stall} (h : s.canonical) : (s.countSkipped busy stall).canonical :=
  (h.each fun _ _ h => h.modLeaf.count).each fun _ _ h => h.modLeaf.count
theorem State.canonical.msgSnapshot {src route m} (h : s.canonical) : (s.msgSnapshot src route m).canonical :=
  h.receive fun _ _ h => h

/-! ### Admin messages by type, and THAW -/

theorem State.canonical.admHeld {src route m} (h : s.canonical) : (s.admHeld src route m).canonical := by
  unfold State.admHeld
  refine .ite h.msgModelLoad ?_
  refine .ite h.msgModelEvict ?_
  refine .ite h.msgGraftPut ?_
  refine .ite h.msgGraftRetire ?_
  refine .ite h.msgCapSet ?_
  refine .ite h.msgPartDrain ?_
  refine .ite h.msgPartJoin ?_
  refine .ite h.msgRouteUpdate ?_
  refine .ite h.msgLinkRestore ?_
  exact .ite h.msgBerTest (.ite h.msgStandReset (.ite h.msgSnapshot (h.receive fun _ _ h => h)))
theorem State.canonical.deliverHeld {x} (h : s.canonical) : (s.deliverHeld x).canonical :=
  .ite h.mcDeliver (.ite h.inletFrame (.ite h.hostAccess h.performTx))
theorem State.canonical.endExpired (h : s.canonical) : s.endExpired.canonical := by
  unfold State.endExpired
  refine .abortEmpty ?_
  refine h.each fun s id h => ?_
  split
  · exact h.endOne
  · exact h
theorem State.canonical.thaw (h : s.canonical) : s.thaw.canonical := by
  unfold State.thaw
  split
  · exact h
  extract_lets +onlyGivenNames s1 s2 s3 d s4 s5 s6
  have h2 : s2.canonical := .ite h.wf.wbit.wbit.tracePush.modDb h.wf
  have h5 : s5.canonical := h2.endExpired.modBranches.modDb.wf.count.traceRec
  have h6 : s6.canonical := by
    refine .each (h5.afterEnds.each fun s i h => ?_) fun _ _ h => h.deliverHeld
    split
    · exact h.resetInst
    · exact h
  exact (h6.each fun _ _ h => h.startReset).each fun _ _ h => h.admHeld
theorem State.canonical.msgFreeze {src route m} (h : s.canonical) : (s.msgFreeze src route m).canonical :=
  h.receive fun _ _ h => h.freeze.adminEnd
theorem State.canonical.msgThaw {src route m} (h : s.canonical) : (s.msgThaw src route m).canonical :=
  h.receive fun _ _ h => h.thaw.adminEnd
theorem State.canonical.admin {src route m} (h : s.canonical) : (s.admin src route m).canonical :=
  .ite h.msgFreeze (.ite h.msgThaw h.admHeld)

/-! ### Registers of a branch -/

theorem State.canonical.brnReadClear {b o} (h : s.canonical) : (s.brnReadClear b o).canonical := by
  unfold State.brnReadClear
  refine .ite h.modBranch ?_
  refine .ite h.modBranch ?_
  refine .ite h.modBranch ?_
  refine .ite h.modBranch ?_
  refine .ite h.modBranch ?_
  refine .ite h.modBranch ?_
  refine .ite h.modBranch ?_
  refine .ite (.ite h.modMover (.ite h.modMover (.ite h.modMover (.ite h.modMover h)))) ?_
  exact .ite h.modBranch (.ite h.modBranch (.ite h.modLeaf (.ite h.modLeaf h)))
theorem State.canonical.brnWrite {b o v isSealed} (h : s.canonical) : (s.brnWrite b o v isSealed).canonical := by
  unfold State.brnWrite
  refine .ite (.ite h h.modBranch) ?_
  refine .ite h.modBranch ?_
  refine .ite h.modBranch ?_
  refine .ite h.modBranch ?_
  refine .ite h.modBranch ?_
  refine .ite h.modMover ?_
  exact .ite h.modBranch (.ite h.modBranch (.ite h.leafCtlWrite (.ite h.modLeaf (.ite h.modLeaf h))))

/-! ### Scan-out, dumps and the JTAG port -/

theorem State.canonical.dumpEnd (h : s.canonical) : s.dumpEnd.canonical := h.wbit.tracePush.modDb
theorem State.canonical.startDump (h : s.canonical) : s.startDump.canonical := by
  unfold State.startDump
  refine .ite h ?_
  dsimp only
  split
  · exact h.wbit.wbit.dumpEnd
  · exact h.wbit.wbit.modDb
theorem execDumpPieceEmit_canonical {t} (h : s.canonical) : answersCanonical (execDumpPieceEmit t s) := by
  unfold execDumpPieceEmit
  dsimp only
  split
  · exact .next h.at
  refine .ite (.next h.at) ?_
  refine .ite (.next h.at.tracePush.tick.modDb) ?_
  split
  · exact .next h.at.tracePush.tick.modDb
  · exact .next h.at.tracePush.tick.dumpEnd
theorem execTraceRecordSend_canonical {t} (h : s.canonical) : answersCanonical (execTraceRecordSend t s) := by
  unfold execTraceRecordSend
  dsimp only
  split
  · exact .next h.at
  · exact .ite (.next h.at) (.next h.at.emit.modDb.bump.traceFill.traceLost)
theorem State.canonical.loadIr {ir} (h : s.canonical) : (s.loadIr ir).canonical := h.modDb
theorem State.canonical.tdo {n v} (h : s.canonical) : (s.tdo n v).canonical := .ite h h.emit
theorem State.canonical.boundaryScan {ir pins n v} (h : s.canonical) : (s.boundaryScan ir pins n v).canonical :=
  h.loadIr.tdo.modDb
theorem execFreezeNFallingEdge_canonical {t high} (h : s.canonical) : answersCanonical (execFreezeNFallingEdge t high s) :=
  .next (.ite h.at.freeze h.at)
theorem execFreezeNStuckLow_canonical {t} (h : s.canonical) : answersCanonical (execFreezeNStuckLow t s) :=
  .next (.ite h.at h.at.faultLog)

/-! ### Register accesses -/

theorem State.canonical.csrError {kind src write off} (h : s.canonical) : (s.csrError kind src write off).canonical := by
  unfold State.csrError
  extract_lets s1 s2
  have h2 : s2.canonical := .ite h.bump h.bump.putReg
  split
  · exact .ite h2.violation h2
  · exact h2
theorem State.canonical.csrReadClear {off} (h : s.canonical) : (s.csrReadClear off).canonical := by
  unfold State.csrReadClear
  split
  · exact h.brnReadClear
  · exact .ite h h.putReg
theorem State.canonical.rteWrite {o w} (h : s.canonical) : (s.rteWrite o w).canonical :=
  .ite (.ite h.putTreeWord h) (.ite h.putRouteWord h.putTreeWord)
theorem State.canonical.csrAct {s0 : State} {off w} (h : s.canonical) : (s0.csrAct s off w).canonical := by
  unfold State.csrAct
  split
  · exact .ite h.startReset (.ite (h.each fun _ _ h => h.vecMessage) h)
  refine .ite h.retrain ?_
  refine .ite (.ite h.disarm (.ite h.arm h)) ?_
  refine .ite (.ite h.thaw (.ite h.freeze h)) ?_
  refine .ite h.startDump ?_
  exact .ite h.heartbeat (.ite h.rootReset (.ite (.ite h.enterS2 (.ite h.enterS3 (.ite h.leaveS2 h))) h))
theorem State.canonical.csrStore {src off w} (h : s.canonical) : (s.csrStore src off w).canonical := by
  unfold State.csrStore
  extract_lets isSealed s1
  have h1 : s1.canonical := .ite h.csrError h
  split
  · exact h1.brnWrite
  · exact .ite h1.rteWrite (.alertEdge (.csrAct (.ite h1 h1.putReg)))
theorem State.canonical.csrRead {src off n} (h : s.canonical) : (s.csrRead src off n).1.canonical := by
  unfold State.csrRead
  split
  · exact h.csrError
  · exact h.csrReadClear
theorem State.canonical.csrWrite {src off data} (h : s.canonical) : (s.csrWrite src off data).1.canonical := by
  unfold State.csrWrite
  split
  · exact h.csrError
  · exact h.csrStore
theorem State.canonical.writeWord {src off w} (h : s.canonical) : (s.writeWord src off w).canonical := h.csrWrite
theorem State.canonical.rowWrite {src off w act} (h : s.canonical) : (s.rowWrite src off w act).canonical := .ite h.writeWord h

/-! ### Bring-up -/

theorem State.canonical.preset {p} (h : s.canonical) : (s.preset p).canonical := h.csrStore
theorem State.canonical.applySeed {bs strap} (h : s.canonical) : (s.applySeed bs strap).canonical :=
  (h.each fun _ _ h => h.preset).wf.each fun _ _ h => .ite h h.wf
theorem State.canonical.seedReject {err sect} (h : s.canonical) : (s.seedReject err sect).canonical :=
  (h.wf.wf.wf.each fun _ _ h => h.setLink).wf.setLink.alertEdge
theorem State.canonical.stepDone {n} (h : s.canonical) : (s.stepDone n).canonical := h.wf
theorem State.canonical.boot1 (h : s.canonical) : s.boot1.canonical := by
  unfold State.boot1
  extract_lets s1
  have h1 : s1.canonical := .ite h h.wf
  exact h1.wf.wf
theorem State.canonical.boot2 {f} (h : s.canonical) : (s.boot2 f).canonical := h.wbit.wf
theorem State.canonical.boot3 {f} (h : s.canonical) : (s.boot3 f).canonical := h.wf.putReg
theorem State.canonical.boot4 {f} (h : s.canonical) : (s.boot4 f).canonical := h
theorem State.canonical.boot5 {o} (h : s.canonical) : (s.boot5 o).canonical := (h.each fun _ _ h => h.putReg).putReg.putReg.wf.wf
theorem State.canonical.boot6 (h : s.canonical) : s.boot6.canonical := by
  unfold State.boot6
  extract_lets bs s1 s2
  have h2 : s2.canonical := .wf (.ite h.applySeed.modSv.wf h.applySeed.modSv)
  exact (((h2.modBranches.each fun _ _ h => h.wf).each fun _ _ h => h.wf).each fun _ _ h => h.wf).each fun _ _ h => h.setLink
theorem State.canonical.boot7 {f} (h : s.canonical) : (s.boot7 f).canonical := by
  unfold State.boot7
  extract_lets ks s1
  have h1 : s1.canonical := h.each fun _ _ h => .ite h.wf.wf h.stackOut
  exact h1.modSv
theorem State.canonical.warmTrained {f} (h : s.canonical) : (s.warmTrained f).canonical := by
  unfold State.warmTrained
  refine h.each fun s c h => ?_
  split
  · exact h.wf
  · exact .ite h.wf.wf.wf h.wf.wf.wf.wtcEvent
theorem State.canonical.formUnits (h : s.canonical) : s.formUnits.canonical := h.modTiers
theorem State.canonical.warmFormed {l} (h : s.canonical) : (s.warmFormed l).canonical := by
  unfold State.warmFormed
  extract_lets old p s1
  have h1 : s1.canonical := h.modTiers.formStripe.formUnits
  exact .ite h1 ⟨memWf_rekeyWarm .., h1.2⟩
theorem State.canonical.ftlPlaced {rs} (h : s.canonical) : (s.ftlPlaced rs).canonical := h.modTiers.each fun _ _ h => h.faultLog
theorem State.canonical.deepTrained {f} (h : s.canonical) : (s.deepTrained f).canonical := by
  unfold State.deepTrained
  refine h.each fun s c h => ?_
  split
  · exact h.wf
  · exact .ite h.wf.wf.wf h.wf.wf.wf.wf
theorem State.canonical.ftlStart {f} (h : s.canonical) : (s.ftlStart f).canonical := h.modFtl.putReg.wf.wf.loseStripes.ftlRegs
theorem State.canonical.boot8 {f} (h : s.canonical) : (s.boot8 f).canonical :=
  h.warmTrained.warmFormed.modTiers.ftlPlaced.deepTrained.ftlStart.each fun _ _ h => h.mapOut
theorem State.canonical.volumesMade (h : s.canonical) : s.volumesMade.canonical := h.each fun _ _ h => .ite h.wbit h.faultLog
theorem State.canonical.buildStand {bs prof sd base} (h : s.canonical) : (s.buildStand bs prof sd base).canonical :=
  h.wbit.putReg.wf.modRes
theorem State.canonical.buildStands {bs prof l base} (h : s.canonical) : (s.buildStands bs prof l base).canonical := by
  induction l generalizing s base with
  | nil => exact h
  | cons _ _ ih => exact ih h.buildStand
theorem State.canonical.checkSegments {sd} (h : s.canonical) : (s.checkSegments sd).canonical :=
  h.each fun _ _ h => h.wbit.faultLog
theorem State.canonical.boot9 (h : s.canonical) : s.boot9.canonical :=
  .ite h.seedReject ((h.volumesMade.buildStands.each fun _ _ h => h.checkSegments).wbit.stepDone)
theorem State.canonical.boot10 (h : s.canonical) : s.boot10.canonical := h.swapBanks.wbit
theorem State.canonical.boot11 (h : s.canonical) : s.boot11.canonical := h.wbit.putReg.wf.modPw
theorem execBringUpStep_canonical {t n f} (h : s.canonical) : answersCanonical (execBringUpStep t n f s) := by
  unfold execBringUpStep
  dsimp only
  split
  · exact .next h.at
  refine .ite (.next h.at) ?_
  refine .ite (.next h.at.boot1.stepDone) ?_
  refine .ite (.next h.at.boot2.stepDone) ?_
  refine .ite (.next (.ite h.at.seedReject (.ite h.at.seedReject h.at.boot3.stepDone))) ?_
  refine .ite (.next h.at.boot4.stepDone) ?_
  refine .ite ?_ ?_
  · refine .next ?_
    split
    · exact h.at.seedReject
    · exact h.at.boot5.stepDone
  refine .ite (.next h.at.boot6.stepDone) ?_
  refine .ite (.next h.at.boot7.stepDone) ?_
  refine .ite (.next h.at.boot8.stepDone) ?_
  exact .ite (.next h.at.boot9) (.ite (.next h.at.boot10.stepDone) (.next (.ite h.at.boot11.stepDone h.at)))

/-! ### Host ports -/

theorem State.canonical.hostCsr {port tx} (h : s.canonical) : (s.hostCsr port tx).canonical := by
  unfold State.hostCsr
  refine .ite h.hostDeny ?_
  split
  · exact .ite h.csrError.respond h.csrError.bump
  refine .ite ?_ (.ite h.csrWrite.respond h.csrWrite)
  dsimp only
  split <;> next e1 => exact (h.csrRead.fst e1).respond
theorem State.canonical.readWrite {op port tx} (h : s.canonical) : (s.readWrite op port tx).canonical :=
  .ite h (.ite h.hostCsr h.takeTx)
theorem State.canonical.pcieComplete {k tag data} (h : s.canonical) : (s.pcieComplete k tag data).canonical := by
  unfold State.pcieComplete
  split <;> exact h.emit
theorem State.canonical.dropWrite {k} (h : s.canonical) : (s.dropWrite k).canonical := h.bump
theorem State.canonical.dropInlet {k addr} (h : s.canonical) : (s.dropInlet k addr).canonical := h.dropWrite.faultLog
theorem State.canonical.inletWrite {k sd n off data} (h : s.canonical) : (s.inletWrite k sd n off data).canonical :=
  .ite (.ite h.holdTx (.ite h.inletFrame h)) h.dropInlet
theorem State.canonical.bar0 {k f off n tag wr} (h : s.canonical) : (s.bar0 k f off n tag wr).canonical := by
  unfold State.bar0
  split
  · exact h.csrRead.pcieComplete
  · exact .ite h.csrWrite h.csrWrite.dropWrite
theorem State.canonical.bar2Admin {k f off n tag wr} (h : s.canonical) : (s.bar2Admin k f off n tag wr).canonical := by
  unfold State.bar2Admin
  dsimp only
  split
  · exact h.pcieComplete
  · exact .ite h.csrStore h.dropWrite
theorem State.canonical.bar2 {k f off n tag wr} (h : s.canonical) : (s.bar2 k f off n tag wr).canonical := by
  unfold State.bar2
  refine .ite ?_ h.bar2Admin
  split
  · exact h.pcieComplete
  · exact h.inletWrite
theorem State.canonical.bar4 {k f off n tag wr} (h : s.canonical) : (s.bar4 k f off n tag wr).canonical :=
  .ite h.holdTx h.hostAccess
theorem execAdminRingFetch_canonical {t k f slot} (h : s.canonical) : answersCanonical (execAdminRingFetch t k f slot s) :=
  .ite (.next h.at) (.next h.at.wf.admin)

/-! ### The SMBus target -/

theorem State.canonical.modMg {f} (h : s.canonical) : (s.modMg f).canonical := h
theorem State.canonical.smbWritten {pec always f} (h : s.canonical) (hf : ∀ s : State, s.canonical → (f s).canonical) :
    (s.smbWritten pec always f).canonical := .ite h (.ite h.dropWrite (.ite (hf s h) h.emit))
theorem State.canonical.smbRead {ok f} (h : s.canonical) (hf : ∀ s : State, s.canonical → (f s).canonical) :
    (s.smbRead ok f).canonical := .ite h (.ite (hf s h) h.emit)
theorem State.canonical.smbStep {n} (h : s.canonical) : (s.smbStep n).canonical := h.modMg
theorem execReadCsr_canonical {t} (h : s.canonical) : answersCanonical (execReadCsr t s) := by
  unfold execReadCsr
  refine .next ?_
  refine h.at.smbRead fun _ h => ?_
  split <;> next e0 => exact (h.csrRead.fst e0).emit.smbStep
theorem execAlertResponse_canonical {t} (h : s.canonical) : answersCanonical (execAlertResponse t s) :=
  .next (.ite h.at.emit.modMg h.at)
theorem execAlertNReassert_canonical {t} (h : s.canonical) : answersCanonical (execAlertNReassert t s) := by
  unfold execAlertNReassert
  dsimp only
  split
  · exact .ite (.next h.at.modMg.pfVector) (.next h.at)
  · exact .next h.at

/-! ### Commands that combine a few updates -/

theorem execSteeringDecision_canonical {t b node unit} (h : s.canonical) :
    answersCanonical (execSteeringDecision t b node unit s) := by
  unfold execSteeringDecision
  refine .ite answersCanonical_fault ?_
  exact .ite (.next h.at) (.next h.at.modSteer.freeCredits.freeCredits.protocolFault)
theorem execDeepChannelLoss_canonical {t ch ce whole} (h : s.canonical) :
    answersCanonical (execDeepChannelLoss t ch ce whole s) := by
  unfold execDeepChannelLoss
  extract_lets +onlyGivenNames s1
  split
  · exact .next h.deepAt
  extract_lets +onlyGivenNames on hit s2 s3 s4
  have h2 : s2.canonical := .ite h.deepAt.wf h.deepAt.wf.wbit.faultLog
  have h3 : s3.canonical := .ite h2.wf h2
  have h4 : s4.canonical := h3.dropPages.modFtl
  exact .next h4.loseStripes.ftlRegs
theorem execFtlRebuildEnd_canonical {t} (h : s.canonical) : answersCanonical (execFtlRebuildEnd t s) := by
  unfold execFtlRebuildEnd
  refine .ite (.next h.deepAt) ?_
  refine .ite (.next (h.deepAt.each fun _ _ h => h.moveSb)) ?_
  exact .next ((h.deepAt.each fun _ _ h => h.moveSb).modFtl.putReg.wf.wf.wf.ftlRegs)
theorem execLinkTraining_canonical {t n mine peer inverted reversed kind id port rate} (h : s.canonical) :
    answersCanonical (execLinkTraining t n mine peer inverted reversed kind id port rate s) := by
  unfold execLinkTraining
  extract_lets +onlyGivenNames s1
  split
  · exact .next h.at
  extract_lets +onlyGivenNames pass failed
  split
  · exact .ite (.next h.at.attemptFails) (.next h.at.setLink.wf.wf.modLink)
  extract_lets +onlyGivenNames w
  split
  · exact .next h.at.attemptFails
  extract_lets +onlyGivenNames r s2
  have h2 : s2.canonical := h.at.wf.wf.wf.wf.wf.wf
  split
  · exact .next h2.linkEvent.downLink.modLink.endRestore
  extract_lets +onlyGivenNames s3 s4
  have h3 : s3.canonical := h2.setLink.modLink
  have h4 : s4.canonical := .ite h3 h3.linkEvent
  exact .next h4.endRestore.updateParent
theorem execFlitReceive_canonical {t n bytes cs uc} (h : s.canonical) : answersCanonical (execFlitReceive t n bytes cs uc s) := by
  unfold execFlitReceive
  refine .ite (.next h.at) ?_
  refine .ite (.next h.at.bump.bump.count.modLink.bump.modLink) ?_
  refine .ite ?_ ?_
  · refine .ite (.next h.at.bump.bump.count.modLink.modLink.bump.modLink) ?_
    exact .next h.at.bump.bump.count.modLink.modLink.modLink
  refine .ite (.next h.at.bump.bump.count.modLink.modLink.modLink) ?_
  exact .next h.at.bump.bump.count.modLink.modLink
theorem execTimeSync_canonical {t n tx sub} (h : s.canonical) : answersCanonical (execTimeSync t n tx sub s) := by
  unfold execTimeSync
  refine .ite (.next h.at) ?_
  refine .ite (.ite (.next h.at.modClock) (.next h.at.modClock.putReg.putReg.takeOffset)) ?_
  exact .next h.at.queueTx
theorem execApertureAccess_canonical {t k f bar off n tag wr} (h : s.canonical) :
    answersCanonical (execApertureAccess t k f bar off n tag wr s) := by
  unfold execApertureAccess
  refine .ite (.next h.at) ?_
  exact .ite (.next h.at.bar0) (.ite (.next h.at.bar2) (.ite (.next h.at.bar4) (.next h.at)))
theorem execCounterSnapshotTick_canonical {t busy stall} (h : s.canonical) :
    answersCanonical (execCounterSnapshotTick t busy stall s) := by
  unfold execCounterSnapshotTick
  extract_lets +onlyGivenNames s1
  split
  · exact .next h.at
  extract_lets +onlyGivenNames s2 s3 s4
  have h3 : s3.canonical := State.canonical.countSkipped (State.canonical.at h)
  have h4 : s4.canonical := h3.traceRec
  exact .ite (.next h4) (.next (h4.each fun _ _ h => h.endSnapshot))

end

/-! ### A step -/

/-- Every command keeps the canonical form: the arms of the dispatch, one by one. -/
theorem State.canonical.exec {s : State} (h : s.canonical) : ∀ i, answersCanonical (exec i s)
  | .nop .. => h.issueReg | .add .. => h.issueAlu | .sub .. => h.issueAlu | .mul .. => h.issueAlu | .and .. => h.issueAlu
  | .or .. => h.issueAlu | .xor .. => h.issueAlu | .shl .. => h.issueAlu | .shr .. => h.issueAlu | .sar .. => h.issueAlu
  | .min .. => h.issueAlu | .max .. => h.issueAlu | .minu .. => h.issueAlu | .maxu .. => h.issueAlu | .mov .. => h.issueReg
  | .cmp .. => .ite answersCanonical_refused h.issueReg | .pmask .. => h.issueReg | .plog .. => h.issueReg
  | .pmov .. => h.issueReg | .ld .. => h.issueUnit | .st .. => h.issueUnit
  | .loop .. => .ite answersCanonical_refused h.execLoopAt | .br .. => execBr_canonical h | .movc .. => h.issueReg
  | .fence .. => execFence_canonical h | .endPass .. => execEnd_canonical h
  | .unitCommandComplete .. => execUnitCommandComplete_canonical h | .red .. => .ite answersCanonical_refused h.issueUnit
  | .topk .. => .ite answersCanonical_refused h.issueUnit | .send .. => execSend_canonical h | .recv .. => execRecv_canonical h
  | .tsend .. => execTsend_canonical h | .trecv .. => execTrecv_canonical h | .mma .. => .ite answersCanonical_refused h.issueUnit
  | .accout .. => .ite answersCanonical_refused h.issueUnit | .accin .. => .ite answersCanonical_refused h.issueUnit
  | .thdr .. => .ite answersCanonical_refused h.issueUnit | .get .. => execGet_canonical h | .put .. => execPut_canonical h
  | .atom .. => execAtom_canonical h | .vop .. => .ite answersCanonical_refused h.issueUnit
  | .vcmp .. => .ite answersCanonical_refused h.issueUnit | .vsf .. => .ite answersCanonical_refused h.issueUnit
  | .vldt .. => .ite answersCanonical_refused h.issueUnit | .vstt .. => .ite answersCanonical_refused h.issueUnit
  | .vld .. => .ite answersCanonical_refused h.issueUnit | .vst .. => .ite answersCanonical_refused h.issueUnit
  | .vmov .. => h.issueUnit | .leafCtlSwitch .. => .next h.at.rowWrite | .leafCtlAbort .. => .next h.at.rowWrite
  | .passDispatch .. => execPassDispatch_canonical h | .bulkPassDispatch .. => execBulkPassDispatch_canonical h
  | .passComplete .. => execPassComplete_canonical h | .slotTransfer .. => execSlotTransfer_canonical h
  | .creditReturn .. => execCreditReturn_canonical h | .crossingLaneArrival .. => execCrossingLaneArrival_canonical h
  | .steeringDecision .. => execSteeringDecision_canonical h | .sentinelFire .. => execSentinelFire_canonical h
  | .linkCycleVcSelect .. => execLinkCycleVcSelect_canonical h | .packetArbitration .. => execPacketArbitration_canonical h
  | .packetArrival .. => execPacketArrival_canonical h | .modelLoad .. => .next h.at.msgModelLoad
  | .manifestVerified .. => execManifestVerified_canonical h | .preloadRun .. => execPreloadRun_canonical h
  | .seedBankFill .. => execSeedBankFill_canonical h | .contextLoad .. => execContextLoad_canonical h
  | .modelEvict .. => .next h.at.msgModelEvict | .imageRelease .. => execImageRelease_canonical h
  | .nearAccess .. => execNearAccess_canonical h | .nearPatrolScrub .. => execNearPatrolScrub_canonical h
  | .stackMapOut .. => execStackMapOut_canonical h | .warmAccess .. => execWarmAccess_canonical h
  | .warmPatrolScrub .. => execWarmPatrolScrub_canonical h | .warmChannelMapOut .. => execWarmChannelMapOut_canonical h
  | .volumeRead .. => execVolumeRead_canonical h | .volumeWrite .. => execVolumeWrite_canonical h
  | .ftlReplayEnd .. => execFtlReplayEnd_canonical h | .stripeClose .. => execStripeClose_canonical h
  | .staticWearLevelMove .. => execStaticWearLevelMove_canonical h | .readLimitRelocate .. => execReadLimitRelocate_canonical h
  | .ftlPatrolRead .. => execFtlPatrolRead_canonical h | .nandProgramFail .. => execNandProgramFail_canonical h
  | .deepChannelLoss .. => execDeepChannelLoss_canonical h | .ftlRebuildEnd .. => execFtlRebuildEnd_canonical h
  | .tierAccessLate .. => execTierAccessLate_canonical h
  | .moverDescriptorFetch .. => .ite answersCanonical_fault (.ite (.next h.at) (.next h.at.modMover))
  | .moverNop .. => execMoverNop_canonical h | .moverMove .. => execMoverMove_canonical h
  | .moverWait .. => execMoverWait_canonical h | .moveComplete .. => execMoveComplete_canonical h
  | .shardArrivalVerify .. => execShardArrivalVerify_canonical h | .digestScrub .. => execDigestScrub_canonical h
  | .refetchComplete .. => execRefetchComplete_canonical h | .copyJobStart .. => execCopyJobStart_canonical h
  | .mcastShardSend .. => execMcastShardSend_canonical h | .loadDeadlineExpiry .. => execLoadDeadlineExpiry_canonical h
  | .graftPut .. => .next h.at.msgGraftPut | .graftReady .. => execGraftReady_canonical h
  | .graftCommit .. => execGraftCommit_canonical h | .graftRetire .. => .next h.at.msgGraftRetire
  | .graftFetch .. => execGraftFetch_canonical h | .forkDoorbell .. => execForkDoorbell_canonical h
  | .forkRelease .. => execForkRelease_canonical h | .groupTrigger .. => execGroupTrigger_canonical h
  | .groupRun .. => execGroupRun_canonical h | .triggerComplete .. => execTriggerComplete_canonical h
  | .returnedRowArrival .. => execReturnedRowArrival_canonical h | .join .. => execJoin_canonical h
  | .descriptorFetch .. => execDescriptorFetch_canonical h | .infer .. => execInfer_canonical h
  | .prefill .. => .next h.at.stepDecision | .decodeStep .. => .next h.at.stepDecision | .verifyStep .. => .next h.at.stepDecision
  | .kvShip .. => execKvShip_canonical h | .kvShipComplete .. => execKvShipComplete_canonical h
  | .seqRelease .. => execSeqRelease_canonical h | .cancel .. => execCancel_canonical h
  | .deadlineGuard .. => execDeadlineGuard_canonical h | .expressCreditRefill .. => .next h.at.setCredits
  | .inletFrame .. => execInletFrame_canonical h | .expressPassDispatch .. => execExpressPassDispatch_canonical h
  | .outletFrameSend .. => execOutletFrameSend_canonical h | .pinEntryReload .. => execPinEntryReload_canonical h
  | .standReset .. => .next h.at.msgStandReset | .stdResetGo .. => .next h.at.rowWrite
  | .vfFlr .. => .ite (.next h.at.bump.startReset) (.next h.at) | .pfFlr .. => .ite (.next h.at.bump.wbit) (.next h.at)
  | .irqMaskWrite .. => .next h.at.rowWrite | .linkTraining .. => execLinkTraining_canonical h
  | .trainingAttemptTimeout .. => .ite (.next h.at) (.next h.at.attemptFails) | .lnkCtlRetrain .. => .next h.at.rowWrite
  | .flitReceive .. => execFlitReceive_canonical h | .flitSlot .. => execFlitSlot_canonical h
  | .nakRetransmit .. => execNakRetransmit_canonical h | .read .. => .next h.at.readWrite | .write .. => .next h.at.readWrite
  | .atomic .. => .next h.at.rowTx | .signal .. => .ite (.next h.at.hostDeny) (.next h.at)
  | .mcastWrite .. => execMcastWrite_canonical h | .timeSync .. => execTimeSync_canonical h | .fork .. => .next h.at.rowTx
  | .kvFetch .. => .next h.at.rowTx | .kvData .. => .next h.at.rowTx | .resp .. => .next h.at.rowTx
  | .transactionForward .. => execTransactionForward_canonical h | .responseTimeout .. => execResponseTimeout_canonical h
  | .routeEpochSwap .. => .ite (.next h.at.swapBanks) (.next h.at) | .shadowCopyDone .. => execShadowCopyDone_canonical h
  | .rteCtlArm .. => .next h.at.rowWrite | .rteCtlDisarm .. => .next h.at.rowWrite
  | .quiesceRelease .. => execQuiesceRelease_canonical h | .berTest .. => .next h.at.msgBerTest
  | .berTestStart .. => execBerTestStart_canonical h | .berTestEnd .. => execBerTestEnd_canonical h
  | .fecWindowCheck .. => .ite (.next h.at) (.next h.at.modLink) | .linkMapOut .. => .ite (.next h.at) (.next h.at.mapOut)
  | .linkRestore .. => .next h.at.msgLinkRestore | .partJoin .. => .next h.at.msgPartJoin
  | .partDrain .. => .next h.at.msgPartDrain | .drainComplete .. => execDrainComplete_canonical h
  | .routeUpdate .. => .next h.at.msgRouteUpdate | .timeSyncRequest .. => execTimeSyncRequest_canonical h
  | .ppsInEdge .. => execPpsInEdge_canonical h | .ppsOutPulse .. => execPpsOutPulse_canonical h
  | .pcieInletWrite .. => .next (.ite h.at.inletWrite h.at) | .apertureAccess .. => execApertureAccess_canonical h
  | .adminRingFetch .. => execAdminRingFetch_canonical h | .setOffset .. => .next (h.at.smbWritten fun _ h => h.modMg)
  | .readCsr .. => execReadCsr_canonical h | .writeCsr .. => .next (h.at.smbWritten fun _ h => h.writeWord.smbStep)
  | .telem .. => .next (h.at.smbRead fun _ h => h.emit.smbStep)
  | .admPut .. => .next (h.at.smbWritten fun _ h => .ite h (.ite h.modMg h.modMg))
  | .admGo .. => .next (h.at.smbWritten fun _ h => .ite h (.ite h.modMg h.modMg.admin))
  | .admGet .. => .next (h.at.smbRead fun _ h => h.emit.modMg) | .admStat .. => .next (h.at.smbRead fun _ h => h.emit)
  | .smbusWake .. => .next (h.at.smbWritten fun _ h => h.wakeAny) | .alertResponse .. => execAlertResponse_canonical h
  | .capSet .. => .next h.at.msgCapSet | .freeze .. => .next h.at.msgFreeze | .thaw .. => .next h.at.msgThaw
  | .counterSnapshot .. => .next h.at.msgSnapshot | .csrWrite .. => .next (.ite h.at.csrWrite h.at)
  | .ledgerTick .. => .next (((h.at.wf.putReg.modPw.each fun _ _ h => h.refill).each fun _ _ h => h.chargeBranch).addOverhead)
  | .fixedWUpdate .. => execFixedWUpdate_canonical h | .coefUpdate .. => .ite (.next h.at.modPw) (.next h.at.modPw.wf)
  | .averagePowerCheck .. => execAveragePowerCheck_canonical h | .ballastStep .. => .next h.at.modPw.wbit
  | .floorStep .. => execFloorStep_canonical h | .floorReleaseStep .. => .ite (.next h.at.modPw.setFloor.modPw) (.next h.at)
  | .levelChangeComplete .. => .ite answersCanonical_fault (.next h.at.modBranch) | .nrgHbBeat .. => .next h.at.rowWrite
  | .orphanTimeout .. => .ite (.next h.at) (.next h.at.wbit.capChanged.powerEvent) | .inputSag .. => execInputSag_canonical h
  | .sagRecovery .. => execSagRecovery_canonical h | .lowInputStop .. => execLowInputStop_canonical h
  | .brownOut .. => execBrownOut_canonical h | .overvoltageStop .. => execOvervoltageStop_canonical h
  | .inputRecovery .. => execInputRecovery_canonical h | .reversePolarity .. => .next h.at.modPw
  | .coolantFaultAssert .. => execCoolantFaultAssert_canonical h
  | .coolantFaultRelease .. => .ite (.next h.at.wbit.modPw.thermalFloor) (.next h.at.wbit)
  | .sensorUpdate .. => execSensorUpdate_canonical h
  | .overTemperatureRecovery .. => .ite (.next h.at.modPw.thermalFloor) (.next h.at)
  | .s1Entry .. => .ite answersCanonical_fault (.ite (.next h.at) (.next h.at.modBranch))
  | .s2Entry .. => .ite answersCanonical_fault (.ite (.next h.at) (.next h.at.modBranch)) | .enterPartS2 .. => .next h.at.rowWrite
  | .enterS3 .. => .next h.at.rowWrite | .leavePartS2 .. => .next h.at.rowWrite | .wakePin .. => execWakePin_canonical h
  | .urrenSignalWake .. => execUrrenSignalWake_canonical h | .standbyBrownout .. => execStandbyBrownout_canonical h
  | .powerApplied .. => .ite (.next h.at) (.next h.resetTo) | .resetNLow .. => execResetNLow_canonical h
  | .resetNRelease .. => execResetNRelease_canonical h | .rstCtlRoot .. => .next h.at.rowWrite
  | .watchdogExpiry .. => execWatchdogExpiry_canonical h | .rootclkLoss .. => execRootclkLoss_canonical h
  | .rootclkRecovery .. => execRootclkRecovery_canonical h
  | .refclkLoss .. => .ite (.next h.at) (.next (h.at.wbit.faultLog.each fun _ _ h => h.downLink))
  | .bringUpStep .. => execBringUpStep_canonical h | .dbgCtlFreeze .. => .next h.at.rowWrite
  | .dbgCtlThaw .. => .next h.at.rowWrite | .freezeNFallingEdge .. => execFreezeNFallingEdge_canonical h
  | .dbgDumpStart .. => .next h.at.rowWrite | .dumpPieceEmit .. => execDumpPieceEmit_canonical h
  | .extest .. => .next (.ite h.at.boundaryScan h.at) | .samplePreload .. => .next (.ite h.at.boundaryScan h.at)
  | .idcode .. => .next (.ite h.at.loadIr.tdo h.at) | .jtagFreeze .. => .next (.ite h.at.loadIr.freeze h.at)
  | .jtagThaw .. => .next (.ite h.at.loadIr.thaw h.at) | .scanSel .. => .next (.ite h.at.loadIr.tdo.modDb h.at)
  | .scanData .. => .ite (.next h.at) (.next (.ite h.at.loadIr.tdo.modDb.tick h.at.loadIr.tdo))
  | .bypass .. => .next (.ite h.at.loadIr.tdo h.at) | .counterSnapshotTick .. => execCounterSnapshotTick_canonical h
  | .traceRecordSend .. => execTraceRecordSend_canonical h | .freezeNStuckLow .. => execFreezeNStuckLow_canonical h
  | .outputShortDetect .. => .next (.ite h.at h.at.faultLog.modDb) | .linkLossOfLock .. => .ite (.next h.at.downLink) (.next h.at)
  | .refclkReturn .. => .ite (.next h.at) (.next (h.at.wbit.each fun _ _ h => .ite h.downLink h))
  | .alertNReassert .. => execAlertNReassert_canonical h | .railOutOfLimits .. => .next h.at.modPw
  | .pllLockLoss .. => .next h.at.bump

/-- Settles O4: the part idles, or the command taken from the queue keeps the form of the state it runs on. -/
theorem stepKeepsTheCanonicalForm : Obligations.StepKeepsTheCanonicalForm := by
  unfold Obligations.StepKeepsTheCanonicalForm
  intro s t h hstep
  cases hp : s.pending with
  | nil =>
    rw [step_of_empty hp] at hstep
    cases hstep
    exact h
  | cons c rest =>
    rw [step_of_cons hp] at hstep
    exact State.canonical.exec (s := { s with pending := rest }) h c t hstep

end Sys2Proof.Machine
end

section
/-! The bits of a register field, and what a register write leaves in each (01 R32). -/

namespace Sys2Proof.Machine

/-! ### Bits of a field -/

theorem testBit_fld (v hi lo i : Nat) : (fld v hi lo).testBit i = (decide (i < hi - lo + 1) && v.testBit (lo + i)) := by
  simp [fld]
/-- A bit of a number is the lowest bit of the field that holds this bit alone. -/
theorem testBit_fld_self (v i : Nat) : (fld v i i).testBit 0 = v.testBit i := by
  rw [testBit_fld]
  simp
theorem testBit_setFld_inside {hi lo i : Nat} (v x : Nat) (hlo : lo ≤ i) (hhi : i ≤ hi) :
    (setFld v hi lo x).testBit i = x.testBit (i - lo) := by
  have hw : i - lo < hi - lo + 1 := by omega
  have h := congrArg (Nat.testBit · (i - lo)) (fld_setFld_same v hi lo x)
  simpa [testBit_fld, hw, Nat.add_sub_cancel' hlo] using h
theorem testBit_setFld_outside {hi lo i : Nat} (v x : Nat) (h : lo ≤ hi) (hi' : i < lo ∨ hi < i) :
    (setFld v hi lo x).testBit i = v.testBit i := by
  rw [← testBit_fld_self, fld_setFld_other v hi lo x i i h le_rfl hi', testBit_fld_self]
theorem testBit_sub_and (a b i : Nat) : (a - (a &&& b)).testBit i = (a.testBit i && !b.testBit i) := by
  have hle : (a &&& b) ≤ a := Nat.and_le_left
  have hlow : (a &&& b) % 2 = 1 ↔ a % 2 = 1 ∧ b % 2 = 1 := Nat.and_mod_two_eq_one
  induction i generalizing a b with
  | zero =>
    rw [Bool.eq_iff_iff]
    simp only [Nat.testBit_zero, decide_eq_true_eq, Bool.and_eq_true, Bool.not_eq_true', decide_eq_false_iff_not]
    omega
  | succ i ih =>
    have hdiv : (a &&& b) / 2 = a / 2 &&& b / 2 := Nat.and_div_two
    have hhalf : (a - (a &&& b)) / 2 = a / 2 - (a / 2 &&& b / 2) := by omega
    rw [Nat.testBit_succ, Nat.testBit_succ a, Nat.testBit_succ b, hhalf, ih _ _ Nat.and_le_left Nat.and_mod_two_eq_one]

/-! ### One field written -/

/-- The bit that a write leaves in a field of access type acc: the bit written, the bit that was there. -/
def RegAcc.bit (acc : RegAcc) (isSealed new old : Bool) : Bool :=
  match acc with
  | .rw => new
  | .rwl => if isSealed then old else new
  | .w1c => old && !new
  | _ => old
theorem testBit_storeField_inside {f : RegField} {i : Nat} (isSealed : Bool) (w v : Nat) (hlo : f.lo ≤ i) (hhi : i ≤ f.hi) :
    (storeField isSealed w v f).testBit i = f.acc.bit isSealed (w.testBit i) (v.testBit i) := by
  have hw : i - f.lo < f.hi - f.lo + 1 := by omega
  have hfld (x : Nat) : (fld x f.hi f.lo).testBit (i - f.lo) = x.testBit i := by
    simp [testBit_fld, hw, Nat.add_sub_cancel' hlo]
  have hset (x : Nat) := testBit_setFld_inside v x hlo hhi
  unfold storeField RegAcc.bit
  cases f.acc <;> simp only [hset, hfld, testBit_sub_and]
  split
  · rfl
  · simp only [hset, hfld]
theorem testBit_storeField_outside {f : RegField} {i : Nat} (isSealed : Bool) (w v : Nat) (hf : f.lo ≤ f.hi)
    (hi : i < f.lo ∨ f.hi < i) : (storeField isSealed w v f).testBit i = v.testBit i := by
  have hset (x : Nat) := testBit_setFld_outside v x hf hi
  unfold storeField
  cases f.acc <;> simp only [hset]
  split
  · rfl
  · exact hset _

/-! ### All fields of a register written -/

theorem testBit_storeFields_outside {fs : List RegField} {i : Nat} (isSealed : Bool) (w v : Nat) (hfs : ∀ f ∈ fs, f.lo ≤ f.hi)
    (hi : ∀ f ∈ fs, i < f.lo ∨ f.hi < i) : (fs.foldl (storeField isSealed w) v).testBit i = v.testBit i := by
  induction fs generalizing v with
  | nil => rfl
  | cons g fs ih =>
    rw [List.forall_mem_cons] at hfs hi
    rw [List.foldl_cons, ih _ hfs.2 hi.2, testBit_storeField_outside isSealed w v hfs.1 hi.1]
theorem testBit_storeFields_inside {fs : List RegField} {f : RegField} {i : Nat} (isSealed : Bool) (w v : Nat)
    (hfs : ∀ f ∈ fs, f.lo ≤ f.hi) (hd : fs.Pairwise fun f g => f.hi < g.lo ∨ g.hi < f.lo) (hf : f ∈ fs) (hlo : f.lo ≤ i)
    (hhi : i ≤ f.hi) : (fs.foldl (storeField isSealed w) v).testBit i = f.acc.bit isSealed (w.testBit i) (v.testBit i) := by
  induction fs generalizing v with
  | nil => cases hf
  | cons g fs ih =>
    rw [List.forall_mem_cons] at hfs
    rw [List.pairwise_cons] at hd
    rw [List.foldl_cons]
    rcases List.mem_cons.mp hf with rfl | hf
    · have hrest : ∀ g ∈ fs, i < g.lo ∨ g.hi < i := fun g hg => by
        have := hd.1 g hg
        omega
      rw [testBit_storeFields_outside isSealed w _ hfs.2 hrest, testBit_storeField_inside isSealed w v hlo hhi]
    · have hg : i < g.lo ∨ g.hi < i := by
        have := hd.1 f hf
        omega
      rw [ih _ hfs.2 hd.2 hf, testBit_storeField_outside isSealed w v hfs.1 hg]

/-- Settles O33, by induction on the list of fields: the fields written later do not reach the bit. -/
theorem registerFieldsFollowTheirAccess : Obligations.RegisterFieldsFollowTheirAccess := by
  unfold Obligations.RegisterFieldsFollowTheirAccess
  intro fs isSealed w v _ _ hfs hd
  have hle : ∀ f ∈ fs, f.lo ≤ f.hi := fun f hf => (hfs f hf).1
  refine ⟨fun f hf i hlo hhi => ?_, fun i hi => testBit_storeFields_outside isSealed w v hle hi⟩
  rw [testBit_storeFields_inside isSealed w v hle hd hf hlo hhi]
  cases f.acc <;> rfl

end Sys2Proof.Machine
end

section
/-! Refused register accesses (01 R34, 01 R36, 01 R38; log entry 39): which refusal an access gets, and what a refusal changes. -/

namespace Sys2Proof.Machine

/-! ### The record of a refusal -/

theorem srcCode_lt (src : Source) : srcCode src < 2 ^ 60 := by
  unfold srcCode
  split
  · omega
  · cases src <;> norm_num
theorem srcCode_mod (src : Source) : srcCode src % 2 ^ 50 = 0 := by
  unfold srcCode
  split
  · omega
  · cases src <;> norm_num
/-- The value that a refusal puts into ROOT_CSR_ERR. -/
def csrErrWord (kind : Nat) (src : Source) (write : Bool) (off : Nat) : Nat :=
  2 ^ 63 + kind * 2 ^ 60 + srcCode src + bit01 write * 2 ^ 49 + off % 2 ^ 29
theorem bit01_le (b : Bool) : bit01 b ≤ 1 := by cases b <;> decide
/-- The valid bit, KIND and the offset are read back from the record. -/
theorem fld_csrErrWord {kind : Nat} (src : Source) (write : Bool) (off : Nat) (hk : kind < 8) :
    fld (csrErrWord kind src write off) 63 63 = 1 ∧ fld (csrErrWord kind src write off) 62 60 = kind ∧
    fld (csrErrWord kind src write off) 28 0 = off % 2 ^ 29 := by
  have h1 := srcCode_lt src
  have h2 := srcCode_mod src
  have h3 := bit01_le write
  unfold csrErrWord fld
  simp only [Nat.shiftRight_eq_div_pow]
  omega

/-! ### What a refusal changes -/

/-- From s to t nothing but ROOT_CSR_ERR_CNT, which counts one refusal, and ROOT_CSR_ERR, which records it if it is free, changed. -/
def State.recordsRefusal (s t : State) (kind off : Nat) : Prop :=
  (∀ o, o ≠ Reg.rootCsrErr → o ≠ Reg.rootCsrErrCnt → t.reg o = s.reg o) ∧
  t.rf Reg.rootCsrErrCnt 31 0 = Nat.min (s.rf Reg.rootCsrErrCnt 31 0 + 1) (2 ^ 32 - 1) ∧
  (s.rbit Reg.rootCsrErr 63 = true → t.reg Reg.rootCsrErr = s.reg Reg.rootCsrErr) ∧
  (s.rbit Reg.rootCsrErr 63 = false → t.rbit Reg.rootCsrErr 63 = true ∧ t.rf Reg.rootCsrErr 62 60 = kind % 8 ∧
    t.rf Reg.rootCsrErr 28 0 = off % 2 ^ 29) ∧
  t.mem = s.mem ∧ t.leaves = s.leaves ∧ t.branches = s.branches ∧ t.sv = s.sv ∧ t.tiers = s.tiers ∧ t.ur = s.ur ∧ t.out = s.out
/-- A refusal that is no violation of a stand's counts, and records itself in a free ROOT_CSR_ERR. -/
theorem State.csrError_of_noViolation (s : State) {kind : Nat} {src : Source} {write : Bool} {off : Nat}
    (h : kind = 2 ∨ sourceStand src = none) :
    s.csrError kind src write off = if s.rbit Reg.rootCsrErr 63 then s.bump Reg.rootCsrErrCnt 31 0 1
      else (s.bump Reg.rootCsrErrCnt 31 0 1).putReg Reg.rootCsrErr (csrErrWord kind src write off) := by
  have hrec : (s.bump Reg.rootCsrErrCnt 31 0 1).rbit Reg.rootCsrErr 63 = s.rbit Reg.rootCsrErr 63 := by
    unfold State.rbit State.rf
    rw [reg_bump_other _ _ _ _ _ _ (by decide)]
  unfold State.csrError
  rcases h with rfl | h
  · have hk : ¬((2 : Nat) = 0 ∨ (2 : Nat) = 1 ∨ (2 : Nat) = 4) := by decide
    simp only [hrec, hk, csrErrWord, if_false]
    split <;> rfl
  · simp only [hrec, h, csrErrWord]
/-- A counted refusal with the record v, if the record is free, where v holds KIND and the offset. -/
theorem State.recordsRefusal_putReg (s : State) {kind off v : Nat} (hvalid : fld v 63 63 = 1) (hkind : fld v 62 60 = kind % 8)
    (hoff : fld v 28 0 = off % 2 ^ 29) :
    s.recordsRefusal (if s.rbit Reg.rootCsrErr 63 then s.bump Reg.rootCsrErrCnt 31 0 1
      else (s.bump Reg.rootCsrErrCnt 31 0 1).putReg Reg.rootCsrErr v) kind off := by
  have hcnt := rf_bump_same s Reg.rootCsrErrCnt 31 0 1
  have hother (o : Nat) := reg_bump_other s Reg.rootCsrErrCnt 31 0 1 o
  by_cases hrec : s.rbit Reg.rootCsrErr 63 = true
  · rw [if_pos hrec]
    exact ⟨fun o _ ho => hother o ho, hcnt, fun _ => hother _ (by decide), by simp [hrec], rfl, rfl, rfl, rfl, rfl, rfl, rfl⟩
  · rw [if_neg hrec]
    refine ⟨fun o ho ho' => ?_, ?_, fun h => absurd h hrec, fun _ => ?_, rfl, rfl, rfl, rfl, rfl, rfl, rfl⟩
    · exact (reg_putReg_other _ _ _ _ ho).trans (hother o ho')
    · rw [State.rf, reg_putReg_other _ _ _ _ (by decide)]
      exact hcnt
    · simp only [State.rbit, State.rf, reg_putReg_same, hvalid, hkind, hoff, BEq.rfl, and_self]
theorem State.csrError_recordsRefusal (s : State) {kind : Nat} {src : Source} {write : Bool} {off : Nat} (hk : kind < 8)
    (h : kind = 2 ∨ sourceStand src = none) : s.recordsRefusal (s.csrError kind src write off) kind off := by
  obtain ⟨hvalid, hkind, hoff⟩ := fld_csrErrWord src write off hk
  rw [State.csrError_of_noViolation s h]
  exact s.recordsRefusal_putReg hvalid (by rw [hkind, Nat.mod_eq_of_lt hk]) hoff

/-! ### Which refusal an access gets -/

theorem State.csrKind_of_notWhole (s : State) (src : Source) (write : Bool) {off n : Nat} (h : n ≠ 8 ∨ off % 8 ≠ 0) :
    s.csrKind src write off n = some 2 := if_pos h
theorem State.csrKind_lt (s : State) {src : Source} {write : Bool} {off n k : Nat} (h : s.csrKind src write off n = some k) : k < 8 := by
  unfold State.csrKind at h
  repeat' split at h
  all_goals cases h
  all_goals decide
theorem State.csrKind_of_whole (s : State) (src : Source) (write : Bool) {off : Nat} (h : off % 8 = 0) :
    s.csrKind src write off 8 = if s.csrAbsent off then some 1 else if csrPopulated off = false then some 0
      else if s.csrPermitted src write off = false then some 4 else if s.csrHeld src write off then some 5 else none :=
  if_neg (by simp [h])
/-- No block of an absent stack or branch lies outside every block. -/
theorem State.csrAbsent_of_unpopulated (s : State) {off : Nat} (h : csrPopulated off = false) : s.csrAbsent off = false := by
  simp only [csrPopulated, Bool.or_eq_false_iff, decide_eq_false_iff_not] at h
  simp only [State.csrAbsent, brnOf, Bool.or_eq_false_iff, decide_eq_false_iff_not]
  refine ⟨by omega, ?_⟩
  rw [if_neg (by omega)]
/-- A stand's block is populated, and belongs to no stack and no branch. -/
theorem stdOf_some {off x : Nat} (h : stdOf off = some x) : 0x1000000 ≤ off ∧ off < 0x1400000 := by
  unfold stdOf at h
  split at h
  · assumption
  · cases h
theorem brnOf_of_low {off : Nat} (h : off < 0x10000000) : brnOf off = none := if_neg (by omega)
theorem State.csrAbsent_of_stdOf (s : State) {off x : Nat} (h : stdOf off = some x) : s.csrAbsent off = false := by
  have := stdOf_some h
  simp only [State.csrAbsent, brnOf_of_low (show off < 0x10000000 by omega), Bool.or_false, decide_eq_false_iff_not]
  omega
theorem csrPopulated_of_stdOf {off x : Nat} (h : stdOf off = some x) : csrPopulated off = true := by
  have := stdOf_some h
  simp only [csrPopulated, Bool.or_eq_true, decide_eq_true_eq]
  omega
/-- A stand may not access another stand's block. -/
theorem State.csrPermitted_of_otherStand (s : State) {src : Source} {write : Bool} {off sd x : Nat} (hsrc : sourceStand src = some sd)
    (h : stdOf off = some x) (hx : x ≠ sd) : s.csrPermitted src write off = false := by
  have := stdOf_some h
  unfold State.csrPermitted
  simp only [hsrc, h]
  rw [if_neg (by omega)]
  exact beq_false_of_ne hx

/-- Settles O34, from the refusal that each access gets and what a refusal without a violation changes. -/
theorem refusedRegisterAccesses : Obligations.RefusedRegisterAccesses := by
  unfold Obligations.RefusedRegisterAccesses
  intro s src off data k
  refine ⟨fun h => ?_, fun h => ?_, fun _ ho hp => ?_, fun sd x hsrc hx hne _ ho => ?_, fun t hon hsrc hk => ?_⟩
  · unfold State.csrWrite
    rw [State.csrKind_of_notWhole s src true h]
    exact ⟨rfl, s.csrError_recordsRefusal (by decide) (.inl rfl)⟩
  · unfold State.csrRead
    rw [State.csrKind_of_notWhole s src false h]
    exact ⟨rfl, s.csrError_recordsRefusal (by decide) (.inl rfl)⟩
  · rw [s.csrKind_of_whole src true ho, s.csrAbsent_of_unpopulated hp, hp]
    rfl
  · rw [s.csrKind_of_whole src true ho, s.csrAbsent_of_stdOf hx, csrPopulated_of_stdOf hx, s.csrPermitted_of_otherStand hsrc hx hne]
    rfl
  · have halive : (s.at t).csrAlive = true := by simp [State.csrAlive, hon]
    have hexec : exec (.csrWrite t src off data) s = .next ((s.at t).csrError k src true off) := by
      show execCsrWrite t src off data s = _
      unfold execCsrWrite State.csrWrite
      simp only [halive, if_true, hk]
    exact ⟨_, hexec, (s.at t).csrError_recordsRefusal ((s.at t).csrKind_lt hk) (.inr hsrc)⟩

end Sys2Proof.Machine
end

section
/-! Accepted register writes (01 R32, 10 R355; log entry 39): the value stored, and the messages that a write of STD_IRQ_MASK lets out. -/

namespace Sys2Proof.Machine

/-! ### Words and bytes -/

theorem length_leBytes (n w : Nat) : (leBytes n w).length = n := by
  induction n generalizing w with
  | zero => rfl
  | succ n ih => rw [leBytes, List.length_cons, ih]
theorem leNat_leBytes (n w : Nat) : leNat (leBytes n w) = w % 256 ^ n := by
  induction n generalizing w with
  | zero => rw [Nat.pow_zero, Nat.mod_one]; rfl
  | succ n ih => rw [leBytes, leNat, ih, BitVec.toNat_ofNat, show 256 ^ (n + 1) = 256 * 256 ^ n from Nat.pow_succ', Nat.mod_mul]
theorem leNat_leBytes_of_lt {w : Nat} (h : w < 2 ^ 64) : leNat (leBytes 8 w) = w := by
  rw [leNat_leBytes]
  exact Nat.mod_eq_of_lt h

/-! ### Messages -/

/-- From s to t the part sent messages and its management port changed, nothing else. -/
def State.onlySends (s t : State) : Prop := ∃ mg out, t = { s with mg := mg, out := s.out ++ out }
theorem State.onlySends.refl (s : State) : s.onlySends s := ⟨s.mg, [], by rw [List.append_nil]⟩
theorem State.onlySends.trans {s t u : State} (h : s.onlySends t) (h' : t.onlySends u) : s.onlySends u := by
  obtain ⟨_, out, rfl⟩ := h
  obtain ⟨mg, out', rfl⟩ := h'
  exact ⟨mg, out ++ out', by rw [List.append_assoc]⟩
theorem State.onlySends_emit (s : State) (o : Output) : s.onlySends (s.emit o) := ⟨s.mg, [o], rfl⟩
theorem State.onlySends_each {α : Type} {s : State} {l : List α} {f : State → α → State} (h : ∀ (s : State) a, s.onlySends (f s a)) :
    s.onlySends (s.each l f) :=
  State.each_keeps (State.onlySends.refl s) fun t a _ ht => ht.trans (h t a)
theorem State.onlySends_pfVector (s : State) (v : Nat) : s.onlySends (s.pfVector v) :=
  State.onlySends_each fun s k => by
    split
    · exact s.onlySends_emit _
    · exact .refl s
theorem State.onlySends_vecMessage (s : State) (sd v : Nat) : s.onlySends (s.vecMessage sd v) := by
  unfold State.vecMessage
  split
  · exact s.onlySends_emit _
  · exact s.onlySends_emit _
theorem State.onlySends_alertEdge (s : State) : s.onlySends s.alertEdge := by
  unfold State.alertEdge
  extract_lets c mg put
  have hput : ∀ on ans, s.onlySends (put on ans) := fun on ans => ⟨(put on ans).mg, [], by rw [List.append_nil]⟩
  split
  · exact hput _ _
  split
  · exact hput _ _
  split
  · exact (hput _ _).trans (State.onlySends_pfVector _ 1)
  · exact hput _ _
/-- A write of one register, and messages after it, leave this value in it and every other register, memory, leaf and branch. -/
theorem State.onlySends.of_putReg {s t : State} {off v : Nat} (h : (s.putReg off v).onlySends t) :
    t.reg off = v ∧ (∀ o, o ≠ off → t.reg o = s.reg o) ∧ t.mem = s.mem ∧ t.leaves = s.leaves ∧ t.branches = s.branches ∧
      t.sv = s.sv := by
  obtain ⟨mg, out, rfl⟩ := h
  exact ⟨reg_putReg_same s off v, fun o ho => reg_putReg_other s off o v ho, rfl, rfl, rfl, rfl⟩

/-! ### A write of the root processor that stores one register -/

theorem State.csrKind_root (s : State) {off : Nat} (hoff : off % 8 = 0) (habs : s.csrAbsent off = false) (hpop : csrPopulated off = true)
    (hfr : s.frozen = false) : s.csrKind .root true off 8 = none := by
  rw [s.csrKind_of_whole .root true hoff]
  simp [habs, hpop, State.csrPermitted, State.csrHeld, sourceStand, hfr]
theorem State.csrStore_of_plain (s : State) (src : Source) {off w : Nat} (hseal : s.sealedWrite off w = false) (hbrn : brnOf off = none)
    (hrte : ¬(0x60100 ≤ off ∧ off < 0x60200 ∨ 0x68000 ≤ off ∧ off < 0x70000)) (hf : regFields off ≠ []) :
    s.csrStore src off w = (s.csrAct (s.putReg off (s.stored off w)) off w).alertEdge := by
  unfold State.csrStore
  simp [hseal, hbrn, hrte, hf]
theorem State.csrWrite_root (s : State) {off w : Nat} (hw : w < 2 ^ 64) (hkind : s.csrKind .root true off 8 = none) :
    (s.csrWrite .root off (leBytes 8 w)).1 = s.csrStore .root off w := by
  unfold State.csrWrite
  rw [length_leBytes, hkind, leNat_leBytes_of_lt hw]

/-! ### Power, energy and thermal registers -/

/-- No write of a power, energy or thermal register but NRG_HB and PWR_STATE_REQ starts an action. -/
theorem State.csrAct_of_power (s0 s : State) {off w : Nat} (hlo : 0x4000 ≤ off) (hhi : off < 0x7000) (hhb : off ≠ Reg.nrgHb)
    (hreq : off ≠ Reg.pwrStateReq) : s0.csrAct s off w = s := by
  have hstd : stdOf off = none := if_neg (by omega)
  have hne {r : Nat} (h : 0x7000 ≤ r) : off ≠ r := by omega
  unfold State.csrAct
  rw [hstd]
  simp only [hhb, hreq, hne (show 0x7000 ≤ Reg.rteCtl by decide), hne (show 0x7000 ≤ Reg.dbgCtl by decide),
    hne (show 0x7000 ≤ Reg.dbgDump by decide), hne (show 0x7000 ≤ Reg.rstCtl by decide), false_and, if_false]
  exact if_neg (by omega)
theorem execCsrWrite_of_power {s : State} {t off w : Nat} (hw : w < 2 ^ 64) (hon : s.pw.supply = .on) (hfr : s.frozen = false)
    (hoff : off % 8 = 0) (hlo : 0x4000 ≤ off) (hhi : off < 0x7000) (hhb : off ≠ Reg.nrgHb) (hreq : off ≠ Reg.pwrStateReq)
    (hf : regFields off ≠ []) (hseal : (s.at t).sealedWrite off w = false) :
    exec (.csrWrite t .root off (leBytes 8 w)) s = .next ((s.at t).putReg off (s.stored off w)).alertEdge := by
  have halive : (s.at t).csrAlive = true := by simp [State.csrAlive, hon]
  have hbrn : brnOf off = none := brnOf_of_low (by omega)
  have habs : (s.at t).csrAbsent off = false := by
    simp only [State.csrAbsent, hbrn, Bool.or_false, decide_eq_false_iff_not]
    omega
  have hpop : csrPopulated off = true := by
    simp only [csrPopulated, Bool.or_eq_true, decide_eq_true_eq]
    omega
  show execCsrWrite t .root off (leBytes 8 w) s = _
  unfold execCsrWrite
  simp only [halive, if_true]
  rw [(s.at t).csrWrite_root hw ((s.at t).csrKind_root hoff habs hpop hfr), (s.at t).csrStore_of_plain .root hseal hbrn (by omega) hf,
    State.csrAct_of_power _ _ hlo hhi hhb hreq]
  rfl

/-! ### The interrupt mask of a stand -/

theorem regFields_stdIrqMask : ∀ sd < 64, regFields (Reg.stdIrqMask sd) = [⟨31, 0, .rw, 0xFFFFFFFF⟩] := by decide
theorem stdOf_stdIrqMask {sd : Nat} (h : sd < 64) : stdOf (Reg.stdIrqMask sd) = some sd := by
  unfold stdOf Reg.stdIrqMask
  rw [if_pos (by omega)]
  congr 1
  omega
/-- A vector's message leaves vecMessage as MSI-X in mode 0. -/
theorem State.mem_out_vecMessage {s : State} {sd v : Nat} (h : s.rbit (Reg.stdIrqCfg sd) 0 = false) :
    .msix s.now (s.vfPort sd) (sd + 1) v ∈ (s.vecMessage sd v).out := by
  simp [State.vecMessage, h, State.emit]
theorem State.onlySends.mem_out {s t : State} {o : Output} (h : s.onlySends t) (ho : o ∈ s.out) : o ∈ t.out := by
  obtain ⟨_, _, rfl⟩ := h
  exact List.mem_append_left _ ho
/-- The messages of the vectors in l, in order. -/
def State.sendVectors (s : State) (sd : Nat) (l : List Nat) : State := s.each l fun s v => s.vecMessage sd v
theorem State.onlySends_sendVectors (s : State) (sd : Nat) (l : List Nat) : s.onlySends (s.sendVectors sd l) :=
  State.onlySends_each fun s v => s.onlySends_vecMessage sd v
theorem State.mem_out_sendVectors {s : State} {sd v : Nat} {l : List Nat} (h : s.rbit (Reg.stdIrqCfg sd) 0 = false) (hv : v ∈ l) :
    .msix s.now (s.vfPort sd) (sd + 1) v ∈ (s.sendVectors sd l).out := by
  induction l generalizing s with
  | nil => cases hv
  | cons a l ih =>
    show _ ∈ ((s.vecMessage sd a).sendVectors sd l).out
    rcases List.mem_cons.mp hv with rfl | hv
    · exact (State.onlySends_sendVectors _ sd l).mem_out (State.mem_out_vecMessage h)
    · obtain ⟨mg, out, he⟩ := s.onlySends_vecMessage sd a
      rw [he]
      exact ih (s := { s with mg := mg, out := s.out ++ out }) h hv
/-- The port of a stand's function hangs on the host registers of the ports. -/
theorem State.vfPort_putReg {s : State} {off v : Nat} (sd : Nat) (h : ∀ n, Reg.lnkHostStands n ≠ off) :
    (s.putReg off v).vfPort sd = s.vfPort sd := by
  unfold State.vfPort
  simp only [reg_putReg_other s off _ v (h _)]
/-- The state with the 32 mask bits of a stand replaced. -/
def State.putMask (s : State) (sd w : Nat) : State :=
  s.putReg (Reg.stdIrqMask sd) (setFld (s.reg (Reg.stdIrqMask sd)) 31 0 (fld w 31 0))
theorem State.reg_putMask_other (s : State) {sd o : Nat} (w : Nat) (h : o ≠ Reg.stdIrqMask sd) : (s.putMask sd w).reg o = s.reg o :=
  reg_putReg_other _ _ _ _ h
theorem State.rbit_putMask_other (s : State) {sd o : Nat} (w i : Nat) (h : o ≠ Reg.stdIrqMask sd) :
    (s.putMask sd w).rbit o i = s.rbit o i := by
  rw [State.rbit, State.rf, s.reg_putMask_other w h]
  rfl
theorem State.putReg_stored_stdIrqMask (s : State) {sd : Nat} (w : Nat) (h : sd < 64) :
    s.putReg (Reg.stdIrqMask sd) (s.stored (Reg.stdIrqMask sd) w) = s.putMask sd w := by
  have haq : aqReg (Reg.stdIrqMask sd) = none := if_neg (by unfold Reg.stdIrqMask; omega)
  have hpeer : peerSelf (Reg.stdIrqMask sd) = none := if_neg (by unfold Reg.stdIrqMask; omega)
  unfold State.stored State.putMask
  rw [haq, hpeer, regFields_stdIrqMask sd h]
  rfl
/-- The pending vectors that a write of w unmasks. -/
def State.unmasked (s : State) (sd w : Nat) : List Nat :=
  (List.range 32).filter fun v => s.rbit (Reg.stdIrqMask sd) v && !w.testBit v && s.rbit (Reg.stdIrqPend sd) v
theorem stdIrqPend_ne_stdIrqMask (sd : Nat) : Reg.stdIrqPend sd ≠ Reg.stdIrqMask sd := by
  unfold Reg.stdIrqPend Reg.stdIrqMask
  omega
theorem State.csrAct_stdIrqMask (s : State) {sd : Nat} (w : Nat) (h : sd < 64) :
    s.csrAct (s.putMask sd w) (Reg.stdIrqMask sd) w = (s.putMask sd w).sendVectors sd (s.unmasked sd w) := by
  have hmod : Reg.stdIrqMask sd % 0x10000 = 0x708 := by unfold Reg.stdIrqMask; omega
  unfold State.csrAct State.sendVectors State.unmasked
  rw [stdOf_stdIrqMask h]
  simp only [hmod, s.rbit_putMask_other w _ (stdIrqPend_ne_stdIrqMask sd)]
  rw [if_neg (by omega), if_pos trivial]
theorem execIrqMaskWrite_root {s : State} {t sd w : Nat} (hw : w < 2 ^ 64) (hon : s.pw.supply = .on) (hfr : s.frozen = false)
    (h : sd < 64) : exec (.irqMaskWrite t .root sd w) s =
      .next (((s.at t).putMask sd w).sendVectors sd ((s.at t).unmasked sd w)).alertEdge := by
  have halive : (s.at t).csrAlive = true := by simp [State.csrAlive, hon]
  have hstd := stdOf_stdIrqMask h
  have hrange := stdOf_some hstd
  have hoff : Reg.stdIrqMask sd % 8 = 0 := by unfold Reg.stdIrqMask; omega
  have hbrn : brnOf (Reg.stdIrqMask sd) = none := brnOf_of_low (by omega)
  have hseal : (s.at t).sealedWrite (Reg.stdIrqMask sd) w = false := by
    unfold State.sealedWrite
    rw [hbrn, regFields_stdIrqMask sd h]
    simp
  have hf : regFields (Reg.stdIrqMask sd) ≠ [] := by simp [regFields_stdIrqMask sd h]
  have hkind := (s.at t).csrKind_root hoff ((s.at t).csrAbsent_of_stdOf hstd) (csrPopulated_of_stdOf hstd) hfr
  show execIrqMaskWrite t .root sd w s = _
  unfold execIrqMaskWrite State.rowWrite State.writeWord
  simp only [halive, Bool.and_self, if_true]
  rw [(s.at t).csrWrite_root hw hkind, (s.at t).csrStore_of_plain .root hseal hbrn (by omega) hf,
    (s.at t).putReg_stored_stdIrqMask w h, (s.at t).csrAct_stdIrqMask w h]

/-- Settles O35: both writes store one register and then only send messages. -/
theorem acceptedRegisterWrites : Obligations.AcceptedRegisterWrites := by
  unfold Obligations.AcceptedRegisterWrites
  intro s t w hw hon hfr
  refine ⟨fun off hoff hlo hhi hhb hreq hf hseal => ?_, fun sd hsd => ?_⟩
  · exact ⟨_, execCsrWrite_of_power hw hon hfr hoff hlo hhi hhb hreq hf hseal, (State.onlySends_alertEdge _).of_putReg⟩
  · have hedge := State.onlySends_alertEdge (((s.at t).putMask sd w).sendVectors sd ((s.at t).unmasked sd w))
    have hsends := (State.onlySends_sendVectors ((s.at t).putMask sd w) sd ((s.at t).unmasked sd w)).trans hedge
    obtain ⟨hreg, hother, hmem, hleaves, hbranches, hsv⟩ := hsends.of_putReg
    refine ⟨_, execIrqMaskWrite_root hw hon hfr hsd, ?_, hother _ (stdIrqPend_ne_stdIrqMask sd), fun v hv hmask hclear hpend hcfg => ?_,
      hmem, hleaves, hbranches, hsv⟩
    · rw [State.rf, hreg, fld_setFld_same]
      simp [fld]
    · have hlist : v ∈ (s.at t).unmasked sd w := by simp [State.unmasked, hv, hmask, hclear, hpend]
      have hport : ((s.at t).putMask sd w).vfPort sd = s.vfPort sd :=
        State.vfPort_putReg (s := s.at t) sd fun n => by unfold Reg.lnkHostStands Reg.stdIrqMask; omega
      have hcfg' : ((s.at t).putMask sd w).rbit (Reg.stdIrqCfg sd) 0 = false := by
        rw [(s.at t).rbit_putMask_other w 0 (by unfold Reg.stdIrqCfg Reg.stdIrqMask; omega)]
        exact hcfg
      have hout := State.mem_out_sendVectors hcfg' hlist
      rw [hport] at hout
      exact hedge.mem_out hout

end Sys2Proof.Machine
end

section
/-! The packet instructions GET, PUT and ATOM (03 R115, R116): what starting an access does to the leaf, and their issue. -/

namespace Sys2Proof.Machine

/-! ### Updates that leave memory, the leaves and the tiers alone -/

/-- Memory, the leaves and the tiers. -/
def State.stores (s : State) : List Host.Cell × Tab Leaf × Tiers := (s.mem, s.leaves, s.tiers)
@[simp] theorem State.stores_mk (part now free mem leaves branches csr sv tiers pw mg db ur cnt page out poisonLog packets nextPacket pending) :
    (State.mk part now free mem leaves branches csr sv tiers pw mg db ur cnt page out poisonLog packets nextPacket pending).stores =
      (mem, leaves, tiers) := rfl
@[simp] theorem State.mem_leaves_tiers (s : State) : (s.mem, s.leaves, s.tiers) = s.stores := rfl
@[simp] theorem State.stores_ite (c : Prop) [Decidable c] (s t : State) : (if c then s else t).stores = if c then s.stores else t.stores :=
  apply_ite State.stores c s t
@[simp] theorem State.each_stores {α : Type} (s : State) (l : List α) (f : State → α → State) (h : ∀ s a, (f s a).stores = s.stores) :
    (s.each l f).stores = s.stores := State.each_frame h l s
@[simp] theorem State.foldl_stores {α : Type} (s : State) (l : List α) (f : State → α → State) (h : ∀ s a, (f s a).stores = s.stores) :
    (l.foldl f s).stores = s.stores := State.each_frame h l s
/-- The three parts of equal stores. -/
theorem State.stores_eq {s t : State} (h : t.stores = s.stores) : t.mem = s.mem ∧ t.leaves = s.leaves ∧ t.tiers = s.tiers :=
  ⟨congrArg (·.1) h, congrArg (·.2.1) h, congrArg (·.2.2) h⟩

section
variable (s : State)

@[simp] theorem State.tick_stores : s.tick.stores = s.stores := by simp [State.tick]
@[simp] theorem State.modBranch_stores (b f) : (s.modBranch b f).stores = s.stores := by
  simp [State.modBranch, State.putBranch]
@[simp] theorem State.modBranches_stores (bs f) : (s.modBranches bs f).stores = s.stores := by simp [State.modBranches]
@[simp] theorem State.putReg_stores (off v) : (s.putReg off v).stores = s.stores := by simp [State.putReg]
@[simp] theorem State.wf_stores (off hi lo x) : (s.wf off hi lo x).stores = s.stores := by simp [State.wf]
@[simp] theorem State.wbit_stores (off i b) : (s.wbit off i b).stores = s.stores := by simp [State.wbit]
@[simp] theorem State.bump_stores (off hi lo x) : (s.bump off hi lo x).stores = s.stores := by simp [State.bump]
@[simp] theorem State.emit_stores (o) : (s.emit o).stores = s.stores := by simp [State.emit]
@[simp] theorem State.modSv_stores (f) : (s.modSv f).stores = s.stores := by simp [State.modSv]
@[simp] theorem State.modDb_stores (f) : (s.modDb f).stores = s.stores := by simp [State.modDb]
@[simp] theorem State.modUr_stores (f) : (s.modUr f).stores = s.stores := by simp [State.modUr]
@[simp] theorem State.traceRec_stores (type time payload) : (s.traceRec type time payload).stores = s.stores := by
  obtain ⟨_, _, h, -⟩ := s.traceRec_only type time payload
  rw [h]
  rfl
@[simp] theorem State.eventOf_stores (sd source index value addr) : (s.eventOf sd source index value addr).stores = s.stores := by
  unfold State.eventOf
  split <;> simp [State.event]
@[simp] theorem State.queueTx_stores (n tx) : (s.queueTx n tx).stores = s.stores := by simp [State.queueTx, State.modLink]
@[simp] theorem State.flowSend_stores (n tx) : (s.flowSend n tx).stores = s.stores := by
  unfold State.flowSend
  split <;> simp
@[simp] theorem State.sendTx_stores (tx) : (s.sendTx tx).1.stores = s.stores := by
  unfold State.sendTx
  (repeat' split) <;> simp
@[simp] theorem State.launch_stores (tx p) : (s.launch tx p).1.stores = s.stores := by
  unfold State.launch
  dsimp only
  (repeat' split) <;> simp
@[simp] theorem State.freeze_stores (cause drive peers) : (s.freeze cause drive peers).stores = s.stores := by simp [State.freeze]
@[simp] theorem State.trigger_stores (bit) : (s.trigger bit).stores = s.stores := by simp [State.trigger]
@[simp] theorem State.pfVector_stores (v) : (s.pfVector v).stores = s.stores := by simp [State.pfVector]
@[simp] theorem State.alertEdge_stores : s.alertEdge.stores = s.stores := by simp [State.alertEdge]
@[simp] theorem State.vecMessage_stores (sd v) : (s.vecMessage sd v).stores = s.stores := by simp [State.vecMessage]
@[simp] theorem State.setVector_stores (sd v) : (s.setVector sd v).stores = s.stores := by simp [State.setVector]
@[simp] theorem State.violation_stores (sd op rq br unit addr tag) : (s.violation sd op rq br unit addr tag).stores = s.stores := by
  unfold State.violation
  extract_lets a s1
  clear_value a
  have h1 : s1.stores = s.stores := by
    unfold s1
    split <;> simp
  simp [h1]
@[simp] theorem State.chargePass_stores (b status addr) : (s.chargePass b status addr).stores = s.stores := by
  unfold State.chargePass
  split <;> simp [State.charge, State.modReq]
@[simp] theorem State.cacheFill_stores (b off n mem) : (s.cacheFill b off n mem).stores = s.stores := by simp [State.cacheFill]
@[simp] theorem State.sendTransfer_stores (vc src dst write n acc) : (s.sendTransfer vc src dst write n acc).stores = s.stores := by
  unfold State.sendTransfer
  exact State.foldl_stores s _ _ fun _ _ => rfl
end

/-! ### A leaf before its PC advances -/

/-- What the effect of an instruction that writes no register but rd leaves of a leaf, before the PC advances. -/
structure Leaf.Effect (rd : Option (BitVec 5)) (a b : Leaf) : Prop where
  active : b.active = a.active
  others : ∀ c, c ≠ a.active → b.ctxAt c = a.ctxAt c
  regs : ∀ r, some r ≠ rd → b.reg r = a.reg r
  preds : b.ctx.preds = a.ctx.preds
  flags : b.ctx.flags = a.ctx.flags
  pc : b.ctx.pc = a.ctx.pc
  loops : b.ctx.loops = a.ctx.loops
  outPorts : b.outPorts = a.outPorts
  tags : b.tags = a.tags

/-- A change that leaves the contexts and the ports alone. -/
theorem Leaf.Effect.of_ctxs {rd : Option (BitVec 5)} {a b c : Leaf} (h : Leaf.Effect rd a b) (hctxs : c.ctxs = b.ctxs)
    (hactive : c.active = b.active) (hout : c.outPorts = b.outPorts) (htags : c.tags = b.tags) : Leaf.Effect rd a c := by
  have hctx : c.ctx = b.ctx := by simp only [Leaf.ctx, hctxs, hactive]
  have hat (n : Nat) : c.ctxAt n = b.ctxAt n := by simp only [Leaf.ctxAt, hctxs]
  exact ⟨hactive.trans h.active, fun n hn => (hat n).trans (h.others n hn), fun r hr => by simpa only [Leaf.reg, hctx] using h.regs r hr,
    hctx ▸ h.preds, hctx ▸ h.flags, hctx ▸ h.pc, hctx ▸ h.loops, hout.trans h.outPorts, htags.trans h.tags⟩
theorem Leaf.Effect.refl (rd : Option (BitVec 5)) (a : Leaf) : Leaf.Effect rd a a :=
  ⟨rfl, fun _ _ => rfl, fun _ _ => rfl, rfl, rfl, rfl, rfl, rfl, rfl⟩
theorem Leaf.reg_setReg_other (lf : Leaf) {r rd : BitVec 5} (v : Word) (h : r ≠ rd) : (lf.setReg rd v).reg r = lf.reg r := by
  unfold Leaf.reg Leaf.setReg
  rw [Leaf.ctx_modCtx]
  exact tget_tset_other _ fun e => h (BitVec.eq_of_toNat_eq e)
theorem Leaf.reg_setReg_same (lf : Leaf) (rd : BitVec 5) (v : Word) : (lf.setReg rd v).reg rd = v := by
  unfold Leaf.reg Leaf.setReg
  rw [Leaf.ctx_modCtx]
  exact tget_tset_same _ _ _
theorem Leaf.Effect.setReg {a b : Leaf} {rd : BitVec 5} (h : Leaf.Effect (some rd) a b) (v : Word) :
    Leaf.Effect (some rd) a (b.setReg rd v) := by
  have hctx : (b.setReg rd v).ctx = { b.ctx with regs := tset 0 b.ctx.regs rd.toNat v } := Leaf.ctx_modCtx b _
  refine ⟨h.active, fun c hc => (Leaf.ctxAt_modCtx_other b _ (by rwa [h.active])).trans (h.others c hc), fun r hr => ?_, ?_, ?_, ?_, ?_,
    h.outPorts, h.tags⟩
  · exact (b.reg_setReg_other v fun e => hr (by rw [e])).trans (h.regs r hr)
  · rw [hctx]; exact h.preds
  · rw [hctx]; exact h.flags
  · rw [hctx]; exact h.pc
  · rw [hctx]; exact h.loops

/-- The leaf with one command more in its queue. -/
def Leaf.waits (lf : Leaf) (c : UnitCmd) : Leaf := { lf with queue := lf.queue ++ [c] }
theorem Leaf.Effect.waits {rd : Option (BitVec 5)} {a b : Leaf} (h : Leaf.Effect rd a b) (c : UnitCmd) : Leaf.Effect rd a (b.waits c) :=
  h.of_ctxs rfl rfl rfl rfl
theorem Leaf.queue_waits_ne_nil (lf : Leaf) (c : UnitCmd) : (lf.waits c).queue ≠ [] := by simp [Leaf.waits]
theorem Leaf.pendingOf_waits (lf : Leaf) (c : UnitCmd) : (lf.waits c).pendingOf c.unit c.port = lf.pendingOf c.unit c.port + 1 := by
  simp [Leaf.pendingOf, Leaf.waits]
/-- The leaf with a fault recorded, where it holds none. -/
def Leaf.noteFault (lf : Leaf) (f : LeafFault) : Leaf :=
  match lf.fault with
  | some _ => lf
  | none => { lf with fault := some f }
theorem Leaf.Effect.noteFault {rd : Option (BitVec 5)} {a b : Leaf} (h : Leaf.Effect rd a b) (f : LeafFault) :
    Leaf.Effect rd a (b.noteFault f) := by
  unfold Leaf.noteFault
  split
  · exact h
  · exact h.of_ctxs rfl rfl rfl rfl
theorem Leaf.fault_noteFault {lf : Leaf} (f : LeafFault) (h : lf.fault = none) : (lf.noteFault f).fault = some f := by
  simp [Leaf.noteFault, h]

/-! ### The issue of an instruction that leaves a command in the queue -/

theorem Leaf.sendEnds_isSome_congr {ps : List Nat} {x y : Leaf} (ho : x.outPorts = y.outPorts) (ht : x.tags = y.tags) :
    (x.sendEnds ps).isSome = (y.sendEnds ps).isSome := by
  induction ps generalizing x y with
  | nil => rfl
  | cons p ps ih =>
    have hword : x.tokenWord p 0xFFFF = y.tokenWord p 0xFFFF := by unfold Leaf.tokenWord; rw [ht]
    have hport : x.outPort p = y.outPort p := by unfold Leaf.outPort; rw [ho]
    unfold Leaf.sendEnds Leaf.sendToken
    rw [hword, hport]
    cases (y.outPort p).pushToken (y.tokenWord p 0xFFFF) with
    | none => rfl
    | some q => exact ih (by unfold Leaf.setOut; rw [ho]) ht
/-- A leaf's PC can go on where the END tokens of the loops that finish find room. -/
theorem Leaf.advance_isSome (lf : Leaf) : lf.advance.isSome = (lf.sendEnds (loopBack lf.ctx.pc lf.ctx.loops).2.2).isSome := by
  unfold Leaf.advance Leaf.advanceFrom
  dsimp only
  cases lf.sendEnds (loopBack lf.ctx.pc lf.ctx.loops).2.2 with
  | none => rfl
  | some lf1 =>
    dsimp only
    split
    · rfl
    · split <;> rfl
theorem Leaf.Effect.advance_isSome {rd : Option (BitVec 5)} {a b : Leaf} (h : Leaf.Effect rd a b) : b.advance.isSome = a.advance.isSome := by
  rw [Leaf.advance_isSome, Leaf.advance_isSome, h.pc, h.loops, Leaf.sendEnds_isSome_congr h.outPorts h.tags]
/-- A leaf whose queue holds a command is not at the end of its pass. -/
theorem State.endCheck_of_queue {s : State} {l : Nat} (h : (s.leaf l).queue ≠ []) : s.endCheck l = s := by
  unfold State.endCheck
  exact if_neg fun hend => h hend.2

/-- From s to t leaf l became x; other leaves and memory stayed. -/
def State.changesLeaf (s t : State) (l : Nat) (x : Leaf) : Prop := t.leaf l = x ∧ (∀ l', l' ≠ l → t.leaf l' = s.leaf l') ∧ t.mem = s.mem
theorem State.changesLeaf.modLeaf {s t : State} {l : Nat} {x : Leaf} (h : s.changesLeaf t l x) (f : Leaf → Leaf) :
    s.changesLeaf (t.modLeaf l f) l (f x) := by
  obtain ⟨hl, ho, hm⟩ := h
  exact ⟨by rw [State.leaf_modLeaf_same, hl], fun l' h' => (State.leaf_modLeaf_other t l l' f h').trans (ho l' h'), hm⟩
theorem State.changesLeaf.of_eq {s t u : State} {l : Nat} {x : Leaf} (h : s.changesLeaf t l x) (hmem : u.mem = t.mem)
    (hleaves : u.leaves = t.leaves) : s.changesLeaf u l x := by
  have hleaf (n : Nat) : u.leaf n = t.leaf n := by unfold State.leaf; rw [hleaves]
  obtain ⟨hl, ho, hm⟩ := h
  exact ⟨(hleaf l).trans hl, fun l' h' => (hleaf l').trans (ho l' h'), hmem.trans hm⟩
theorem State.changesLeaf_fresh (s : State) (l : Nat) : s.changesLeaf s.fresh.2 l (s.leaf l) := ⟨rfl, fun _ _ => rfl, rfl⟩

/-- The frame of an instruction whose effect wrote rd at most, once its PC has advanced. -/
theorem State.changesLeaf.ctxFrame {s s1 : State} {l : Nat} {x lf : Leaf} {rd : Option (BitVec 5)} (h : s.changesLeaf s1 l x)
    (he : Leaf.Effect rd (s.leaf l) x) (hk : Leaf.Kept x lf) : s.ctxFrame (s1.putLeaf l lf).tick l rd noPred false := by
  have hleaf : (s1.putLeaf l lf).tick.leaf l = lf := tget_tset_same _ _ _
  have hother : ∀ l', l' ≠ l → (s1.putLeaf l lf).tick.leaf l' = s.leaf l' := fun l' h' => (tget_tset_other _ h').trans (h.2.1 l' h')
  have hactive : lf.active = (s.leaf l).active := hk.active.trans he.active
  have hctx : (s.leaf l).ctxAt (s.leaf l).active = (s.leaf l).ctx := rfl
  have hctx' : lf.ctxAt (s.leaf l).active = lf.ctx := by rw [← hactive]; rfl
  refine ⟨fun l' h' => by rw [hother l' h'], fun c hc => ?_, fun r hr => ?_, fun p _ => ?_, fun _ => ?_⟩
  · rw [hleaf, hk.others c (by rwa [he.active]), he.others c hc]
  · unfold State.gpr
    rw [hleaf, hctx, hctx', hk.regs]
    exact he.regs r hr
  · unfold State.prd
    rw [hleaf, hctx, hctx', hk.preds, he.preds]
  · rw [hleaf, hctx, hctx', hk.flags, he.flags]

/-- An instruction whose effect leaves a command in the queue issues: its effect stands, and the PC has advanced. -/
theorem exec_of_effect {s s1 : State} {i : Instr} {l : Nat} {g : Guard} {body : State → Issue} {x : Leaf} {rd : Option (BitVec 5)}
    (hi : leafGuard i = some (l, g)) (hexec : exec i s = s.issue l g (leafUses i) body) (h : s.executes i) (hbody : body s = .done s1)
    (hs1 : s.changesLeaf s1 l x) (he : Leaf.Effect rd (s.leaf l) x) (hq : x.queue ≠ []) :
    ∃ t, exec i s = .next t ∧ Leaf.Kept x (t.leaf l) ∧ t.tiers = s1.tiers ∧ s.memSame t ∧ s.ctxFrame t l rd noPred false := by
  obtain ⟨⟨l1, g1, e1, hl, hc, hg, hk, hu⟩, l2, g2, e2, hadv⟩ := h
  rw [hi] at e1 e2
  cases e1
  cases e2
  obtain ⟨lf, hlf⟩ := Option.isSome_iff_exists.1 (he.advance_isSome.trans hadv)
  obtain ⟨hkept, -, -⟩ := Leaf.advanceFrom_kept hlf
  have hleaf : (s1.putLeaf l lf).tick.leaf l = lf := tget_tset_same _ _ _
  have hend : (s1.putLeaf l lf).tick.endCheck l = (s1.putLeaf l lf).tick :=
    State.endCheck_of_queue (by rw [hleaf, hkept.queue]; exact hq)
  have hnext := State.issueWith_done (adv := Leaf.advance) hl hc hg hk hu hbody (by rw [hs1.1]; exact hlf)
  rw [hend] at hnext
  refine ⟨_, hexec.trans hnext, by rw [hleaf]; exact hkept, rfl, fun k => ?_, hs1.ctxFrame he hkept⟩
  show tget 0 s1.mem k = tget 0 s.mem k
  rw [hs1.2.2]

/-! ### Starting an access (03 R115, R116) -/

/-- The operation that translation checks for a kind of access. -/
def memOpOf (kind : Nat) : MemOp := if kind = 0 then .read else if kind = 1 then .write else .atomic
/-- The command that waits in the packet unit for access id: with left = 1 for a response, with left = 0 for nothing. -/
def packetCmd (lf : Leaf) (kind ladr rd id left : Nat) : UnitCmd :=
  ⟨.packet, 0, ladr, left, id, 0, 0, 0,
    .access id (if left = 0 then none else if kind = 2 then some (BitVec.ofNat 5 rd) else none), lf.ctx.pc, []⟩
/-- A stand address of leaf l translates to c, and an access of n bytes there is inside its unit. -/
def State.admits (s : State) (l : Nat) (op : MemOp) (addr n : Nat) (c : Canopy) : Prop :=
  s.translate (s.branch (l / 64)).stand addr op = some c ∧ crosses4k c.off n = false ∧
    (c.pid = s.ownPid → s.localOk c.space c.off n ≠ some .violation)
/-- What an access of a leaf carries; the data are PUT's. -/
structure Access.Carries (a : Access) (id l k ladr rd fn : Nat) (rb rc : Word) (c : Canopy) (len : Nat) (data : List Byte) : Prop where
  id : a.id = id
  serves : a.serves = .leaf l ladr rd
  kind : a.kind = k
  fn : a.fn = fn
  rb : a.rb = rb
  rc : a.rc = rc
  pid : a.pid = c.pid
  space : a.space = c.space
  off : a.off = c.off
  len : a.len = len
  data : k = 1 → a.data = data

/-- A launched access is the last one under way: a read that hits in the cache has its data, a write its own. -/
theorem State.launchAccess_carries {s : State} {a : Access} {id l k ladr rd fn : Nat} {rb rc : Word} {c : Canopy} {len : Nat}
    {data : List Byte} (h : a.Carries id l k ladr rd fn rb rc c len data) :
    ∃ a1, a1.Carries id l k ladr rd fn rb rc c len data ∧ (s.launchAccess a).tiers.accesses = s.tiers.accesses ++ [a1] ∧
      (s.launchAccess a).mem = s.mem ∧ (s.launchAccess a).leaves = s.leaves := by
  unfold State.launchAccess
  extract_lets hit b a1 s1 s2
  have hstores : (s2.sendTransfer a.vc a.src (s2.accPlace a1) (a.kind == 1 || a.kind == 2) a.len a.id).stores = s1.stores := by
    unfold s2
    split <;> simp
  obtain ⟨hmem, hleaves, htiers⟩ := State.stores_eq hstores
  refine ⟨a1, ?_, by rw [htiers]; rfl, hmem, hleaves⟩
  unfold a1
  split
  next hhit =>
    have hread : k ≠ 1 := by
      rintro rfl
      simp [hit, h.kind] at hhit
    exact ⟨h.id, h.serves, h.kind, h.fn, h.rb, h.rc, h.pid, h.space, h.off, h.len, fun hk => absurd hk hread⟩
  · exact h
/-- An access that is admitted: it is under way, and its command waits in the leaf's queue. -/
theorem State.startAccess_admitted {s : State} {l k ladr rd fn : Nat} {rb rc : Word} {addr len : Nat} {data : List Byte} {c : Canopy}
    (h : s.admits l (memOpOf k) addr len c) :
    ∃ a, a.Carries s.sv.nextId l k ladr rd fn rb rc c len data ∧
      (s.startAccess l k ladr rd fn rb rc addr len data).tiers.accesses = s.tiers.accesses ++ [a] ∧
      s.changesLeaf (s.startAccess l k ladr rd fn rb rc addr len data) l
        ((s.leaf l).waits (packetCmd (s.leaf l) k ladr rd s.sv.nextId 1)) := by
  obtain ⟨htr, hcross, hlocal⟩ := h
  have hstart : s.startAccess l k ladr rd fn rb rc addr len data =
      (s.fresh.2.modLeaf l fun lf => lf.waits (packetCmd lf k ladr rd s.sv.nextId 1)).launchAccess
        (newAccess s.sv.nextId (.leaf l ladr rd) (.router l 4) k fn rb rc c addr data len false (s.accClass (l / 64)).1
          (s.accClass (l / 64)).2 (Nat.min (s.accClass (l / 64)).1 2)) := by
    have htr' : s.fresh.2.translate (s.branch (l / 64)).stand addr (memOpOf k) = some c := htr
    have hok : ¬(crosses4k c.off len ∨ (c.pid = s.fresh.2.ownPid ∧ s.fresh.2.localOk c.space c.off len = some .violation)) := by
      rintro (hc | ⟨hp, hv⟩)
      · simp [hcross] at hc
      · exact hlocal hp hv
    unfold State.startAccess
    unfold memOpOf at htr'
    dsimp only
    rw [htr']
    dsimp only
    rw [if_neg hok]
    rfl
  have hcarries : Access.Carries (newAccess s.sv.nextId (.leaf l ladr rd) (.router l 4) k fn rb rc c addr data len false
      (s.accClass (l / 64)).1 (s.accClass (l / 64)).2 (Nat.min (s.accClass (l / 64)).1 2)) s.sv.nextId l k ladr rd fn rb rc c len data :=
    ⟨rfl, rfl, rfl, rfl, rfl, rfl, rfl, rfl, rfl, rfl, fun _ => rfl⟩
  obtain ⟨a, ha, hacc, hmem, hleaves⟩ := State.launchAccess_carries (s := s.fresh.2.modLeaf l fun lf =>
    lf.waits (packetCmd lf k ladr rd s.sv.nextId 1)) hcarries
  rw [hstart]
  exact ⟨a, ha, hacc, ((State.changesLeaf_fresh s l).modLeaf _).of_eq hmem hleaves⟩

/-- What an address that does not translate starts: the violation, the charge to the requests of the pass, and the leaf's fault. -/
def State.turnAway (s : State) (l k ladr addr : Nat) : State :=
  ((s.violation (s.branch (l / 64)).stand k 0 (l / 64) (l % 64) addr (s.passTag (l / 64))).chargePass (l / 64) 0x40 addr).leafFault l 1
    (s.leaf l).ctx.pc ladr
theorem State.changesLeaf.leafFault {s t : State} {l : Nat} {x : Leaf} (h : s.changesLeaf t l x) (kind pc a : Nat) :
    ∃ f, f.kind = kind ∧ s.changesLeaf (t.leafFault l kind pc a) l (x.noteFault f) ∧ (t.leafFault l kind pc a).tiers = t.tiers := by
  obtain ⟨hmem, hleaves, htiers⟩ := State.stores_eq (s := t.modLeaf l fun x => x.noteFault ⟨kind, (t.leaf l).active, pc, a % 0x40000⟩)
    (t := t.leafFault l kind pc a) (State.eventOf_stores ..)
  exact ⟨_, rfl, (h.modLeaf _).of_eq hmem hleaves, htiers⟩
theorem State.turnAway_changesLeaf {s t : State} {l : Nat} {x : Leaf} (h : s.changesLeaf t l x) (k ladr addr : Nat) :
    ∃ f, f.kind = 1 ∧ s.changesLeaf (t.turnAway l k ladr addr) l (x.noteFault f) ∧ (t.turnAway l k ladr addr).tiers = t.tiers := by
  obtain ⟨hmem, hleaves, htiers⟩ := State.stores_eq (s := t)
    (t := (t.violation (t.branch (l / 64)).stand k 0 (l / 64) (l % 64) addr (t.passTag (l / 64))).chargePass (l / 64) 0x40 addr) (by simp)
  obtain ⟨f, hf, hleaf, ht⟩ := (h.of_eq hmem hleaves).leafFault 1 (t.leaf l).ctx.pc ladr
  exact ⟨f, hf, hleaf, ht.trans htiers⟩
/-- The leaf that an access turned away leaves: it notes the fault, and ATOM reads 0. -/
def Leaf.turned (lf : Leaf) (k rd : Nat) (f : LeafFault) : Leaf :=
  if k = 2 then (lf.noteFault f).setReg (BitVec.ofNat 5 rd) 0 else lf.noteFault f
/-- An access whose address does not translate is turned away; its command waits for nothing. -/
theorem State.startAccess_turned {s : State} {l k ladr rd fn : Nat} {rb rc : Word} {addr len : Nat} {data : List Byte}
    (h : s.translate (s.branch (l / 64)).stand addr (memOpOf k) = none) :
    ∃ f c, f.kind = 1 ∧ (s.startAccess l k ladr rd fn rb rc addr len data).tiers = s.tiers ∧
      s.changesLeaf (s.startAccess l k ladr rd fn rb rc addr len data) l (((s.leaf l).turned k rd f).waits c) := by
  have hstart : s.startAccess l k ladr rd fn rb rc addr len data =
      (if k = 2 then (s.fresh.2.turnAway l k ladr addr).modLeaf l (fun lf => lf.setReg (BitVec.ofNat 5 rd) 0)
        else s.fresh.2.turnAway l k ladr addr).modLeaf l (fun lf => lf.waits (packetCmd lf k ladr rd s.sv.nextId 0)) := by
    have h' : s.fresh.2.translate (s.branch (l / 64)).stand addr (memOpOf k) = none := h
    unfold State.startAccess
    unfold memOpOf at h'
    dsimp only
    rw [h']
    rfl
  obtain ⟨f, hf, hleaf, htiers⟩ := State.turnAway_changesLeaf (State.changesLeaf_fresh s l) k ladr addr
  rw [hstart]
  refine ⟨f, _, hf, ?_, State.changesLeaf.modLeaf (x := (s.leaf l).turned k rd f) ?_ _⟩
  · split
    · exact htiers
    · exact htiers
  · unfold Leaf.turned
    split
    · exact hleaf.modLeaf _
    · exact hleaf
theorem Leaf.Effect.turned {lf : Leaf} {k rd : Nat} {w : Option (BitVec 5)} (f : LeafFault) (h : k = 2 → w = some (BitVec.ofNat 5 rd)) :
    Leaf.Effect w lf (lf.turned k rd f) := by
  unfold Leaf.turned
  split
  next hk =>
    rw [h hk]
    exact ((Leaf.Effect.refl _ lf).noteFault f).setReg 0
  · exact (Leaf.Effect.refl w lf).noteFault f
theorem Leaf.fault_turned {lf : Leaf} (k rd : Nat) (f : LeafFault) (h : lf.fault = none) : (lf.turned k rd f).fault = some f := by
  unfold Leaf.turned
  split
  · exact Leaf.fault_noteFault f h
  · exact Leaf.fault_noteFault f h

/-! ### The issue of GET, PUT and ATOM -/

section
variable {s : State} {i : Instr} {l : Nat} {g : Guard} {body : State → Issue} {k ladr rd fn : Nat} {rb rc : Word} {addr len : Nat}
  {data : List Byte}

/-- A packet instruction whose address is admitted: its access is under way, and its command waits. -/
theorem exec_of_admitted {c : Canopy} (hi : leafGuard i = some (l, g)) (hexec : exec i s = s.issue l g (leafUses i) body)
    (he : s.executes i) (hbody : body s = .done (s.startAccess l k ladr rd fn rb rc addr len data))
    (h : s.admits l (memOpOf k) addr len c) :
    ∃ t a, exec i s = .next t ∧ t.tiers.accesses = s.tiers.accesses ++ [a] ∧
      a.Carries s.sv.nextId l k ladr rd fn rb rc c len data ∧
      (t.leaf l).pendingOf .packet 0 = (s.leaf l).pendingOf .packet 0 + 1 ∧ s.memSame t ∧ s.ctxFrame t l none noPred false := by
  obtain ⟨a, ha, hacc, hleaf⟩ := State.startAccess_admitted (rd := rd) (fn := fn) (rb := rb) (rc := rc) (ladr := ladr) (data := data) h
  obtain ⟨t, hnext, hkept, htiers, hmem, hframe⟩ := exec_of_effect hi hexec he hbody hleaf ((Leaf.Effect.refl none _).waits _)
    (Leaf.queue_waits_ne_nil _ _)
  refine ⟨t, a, hnext, by rw [htiers, hacc], ha, ?_, hmem, hframe⟩
  have hqueue : (t.leaf l).pendingOf .packet 0 =
      ((s.leaf l).waits (packetCmd (s.leaf l) k ladr rd s.sv.nextId 1)).pendingOf .packet 0 := by
    unfold Leaf.pendingOf
    rw [hkept.queue]
  exact hqueue.trans (Leaf.pendingOf_waits ..)
/-- A packet instruction whose address does not translate: no access, the fault recorded, 0 in the RD of ATOM. -/
theorem exec_of_turned {w : Option (BitVec 5)} (hi : leafGuard i = some (l, g)) (hexec : exec i s = s.issue l g (leafUses i) body)
    (he : s.executes i) (hbody : body s = .done (s.startAccess l k ladr rd fn rb rc addr len data))
    (h : s.translate (s.branch (l / 64)).stand addr (memOpOf k) = none) (hw : k = 2 → w = some (BitVec.ofNat 5 rd)) :
    ∃ t, exec i s = .next t ∧ t.tiers.accesses = s.tiers.accesses ∧
      ((s.leaf l).fault = none → (t.leaf l).fault.map (·.kind) = some 1) ∧
      (k = 2 → t.gpr l (s.leaf l).active (BitVec.ofNat 5 rd) = 0) ∧ s.memSame t ∧ s.ctxFrame t l w noPred false := by
  obtain ⟨f, c, hf, haccs, hleaf⟩ := State.startAccess_turned (rd := rd) (fn := fn) (rb := rb) (rc := rc) (ladr := ladr) (len := len)
    (data := data) h
  have heffect : Leaf.Effect w (s.leaf l) (((s.leaf l).turned k rd f).waits c) := (Leaf.Effect.turned f hw).waits c
  obtain ⟨t, hnext, hkept, htiers, hmem, hframe⟩ := exec_of_effect hi hexec he hbody hleaf heffect (Leaf.queue_waits_ne_nil _ _)
  refine ⟨t, hnext, by rw [htiers, haccs], fun hfault => ?_, fun hk => ?_, hmem, hframe⟩
  · rw [hkept.fault]
    show ((s.leaf l).turned k rd f).fault.map (·.kind) = some 1
    rw [Leaf.fault_turned k rd f hfault, Option.map_some, hf]
  · have hactive : (t.leaf l).active = (s.leaf l).active := hkept.active.trans heffect.active
    have hreg : ((s.leaf l).turned k rd f).reg (BitVec.ofNat 5 rd) = 0 := by
      unfold Leaf.turned
      rw [if_pos hk, Leaf.reg_setReg_same]
    unfold State.gpr
    rw [← hactive, Leaf.ctxAt_active, hkept.regs]
    exact hreg
end

/-- With an empty queue no command under way races with a read of leaf memory. -/
theorem State.leafRead_of_empty {s : State} {l : Nat} (u : LeafUnit) (a n : Nat) (h : (s.leaf l).queue = []) :
    s.leafRead l u a n = s.leafPlain l a n := by
  have hraces : s.raceBytes l u = [] := by simp [State.raceBytes, h, headCmds]
  unfold State.leafRead State.leafPlain
  simp [hraces, leafKey]

/-- The effect of a packet instruction: it starts its access where the packet unit has room. -/
def packetBody (l : Nat) (start : State → State) (s : State) : Issue :=
  if (s.leaf l).hasRoom .packet 0 then .done (start s) else .queueWait
theorem packetBody_of_executesOn {s : State} {i : Instr} {l : Nat} {g : Guard} {start : State → State}
    (hi : leafGuard i = some (l, g)) (h : s.executesOn i .packet 0) : packetBody l start s = .done (start s) := by
  obtain ⟨-, l', g', e, hroom⟩ := h
  rw [hi] at e
  cases e
  exact if_pos hroom

section
variable {s : State} {l : Nat} {g : Guard} {rl rd ra rb rc : BitVec 5} {len : BitVec 12} {fn : BitVec 3}

theorem exec_get (h : ra.toNat % 2 = 0) : exec (.get l g rl ra len) s = s.issue l g (leafUses (.get l g rl ra len))
    (packetBody l fun s => s.startAccess l 0 (lineOf ((s.leaf l).reg rl).toNat) 0 0 0 0 ((s.leaf l).address ra) (len.toNat + 1) []) :=
  if_neg (by omega)
theorem exec_put (h : ra.toNat % 2 = 0) : exec (.put l g rl ra len) s = s.issue l g (leafUses (.put l g rl ra len))
    (packetBody l fun s => s.startAccess l 1 (lineOf ((s.leaf l).reg rl).toNat) 0 0 0 0 ((s.leaf l).address ra) (len.toNat + 1)
      (s.leafRead l .packet (lineOf ((s.leaf l).reg rl).toNat) (len.toNat + 1))) :=
  if_neg (by omega)
theorem exec_atom (h : ra.toNat % 2 = 0) (hfn : fn.toNat ≤ 5) :
    exec (.atom l g rd ra rb rc fn) s = s.issue l g (leafUses (.atom l g rd ra rb rc fn))
      (packetBody l fun s => s.startAccess l 2 0 rd.toNat fn.toNat ((s.leaf l).reg rb) ((s.leaf l).reg rc) ((s.leaf l).address ra) 4 []) :=
  if_neg (by omega)
end

/-- Settles O19, from the issue of an access that is admitted and of one that is turned away. -/
theorem packetAccesses : Obligations.PacketAccesses := by
  unfold Obligations.PacketAccesses
  intro s l g rl rd ra rb rc len fn
  refine ⟨fun heven => ⟨fun he => ?_, fun he => ?_, fun hfn he => ?_⟩, fun hodd => ?_, fun hfn => ?_⟩
  · refine ⟨fun c hc => ?_, fun htr => ?_⟩
    · obtain ⟨t, a, hnext, hacc, ha, hpend, hmem, hframe⟩ :=
        exec_of_admitted (k := 0) rfl (exec_get heven) he.1 (packetBody_of_executesOn rfl he) hc
      exact ⟨t, a, hnext, hacc, ha.len, ha.pid, ha.space, ha.off, ha.id, ⟨ha.kind, ha.serves⟩, hpend, hmem, hframe⟩
    · obtain ⟨t, hnext, hacc, hfault, -, hmem, hframe⟩ :=
        exec_of_turned (k := 0) (w := none) rfl (exec_get heven) he.1 (packetBody_of_executesOn rfl he) htr nofun
      exact ⟨t, hnext, hacc, hfault, hframe, hmem⟩
  · refine ⟨fun c hc => ?_, fun htr => ?_⟩
    · obtain ⟨t, a, hnext, hacc, ha, hpend, hmem, hframe⟩ :=
        exec_of_admitted (k := 1) rfl (exec_put heven) he.1 (packetBody_of_executesOn rfl he) hc
      have hdata (hq : (s.leaf l).queue = []) := (ha.data rfl).trans (s.leafRead_of_empty .packet _ _ hq)
      exact ⟨t, a, hnext, hacc, ha.len, ha.pid, ha.space, ha.off, ha.id, ⟨ha.kind, ha.serves, hdata⟩, hpend, hmem, hframe⟩
    · obtain ⟨t, hnext, hacc, hfault, -, hmem, hframe⟩ :=
        exec_of_turned (k := 1) (w := none) rfl (exec_put heven) he.1 (packetBody_of_executesOn rfl he) htr nofun
      exact ⟨t, hnext, hacc, hfault, hframe, hmem⟩
  · refine ⟨fun c hc => ?_, fun htr => ?_⟩
    · obtain ⟨t, a, hnext, hacc, ha, hpend, hmem, hframe⟩ :=
        exec_of_admitted (k := 2) rfl (exec_atom heven hfn) he.1 (packetBody_of_executesOn rfl he) hc
      exact ⟨t, a, hnext, hacc, ha.len, ha.pid, ha.space, ha.off, ha.id, ⟨ha.kind, ha.serves, ha.fn, ha.rb, ha.rc⟩, hpend, hmem, hframe⟩
    · obtain ⟨t, hnext, hacc, hfault, hzero, hmem, hframe⟩ :=
        exec_of_turned (k := 2) (w := some rd) rfl (exec_atom heven hfn) he.1 (packetBody_of_executesOn rfl he) htr
          (fun _ => by rw [BitVec.ofNat_toNat, BitVec.setWidth_eq])
      rw [BitVec.ofNat_toNat, BitVec.setWidth_eq] at hzero
      exact ⟨t, hnext, hacc, hfault, ⟨hzero rfl, hframe⟩, hmem⟩
  · exact ⟨if_pos hodd, if_pos hodd, if_pos (.inl hodd)⟩
  · exact if_pos (.inr hfn)

end Sys2Proof.Machine
end

section
/-! What a command of the matrix, vector or reduction unit reads and writes of its leaf (03 R103-R113): leaves alike in that, and the frame
of what a command may write. -/

namespace Sys2Proof.Machine

/-! ### Leaves that are alike to a command -/

/-- A context without its program counter and its loops. -/
def Ctx.setup (c : Ctx) : Ctx := { c with pc := 0, loops := [] }

/-- Two leaves alike in all that a unit's command reads and writes, and in their pending switch. -/
structure Leaf.Alike (a b : Leaf) : Prop where
  active : b.active = a.active
  swReq : b.swReq = a.swReq
  others : ∀ c, c ≠ a.active → b.ctxAt c = a.ctxAt c
  setup : b.ctx.setup = a.ctx.setup
  vregs : b.vregs = a.vregs
  accs : b.accs = a.accs

section
variable {a b c : Leaf}

theorem Leaf.Alike.refl (a : Leaf) : Leaf.Alike a a := ⟨rfl, rfl, fun _ _ => rfl, rfl, rfl, rfl⟩
theorem Leaf.Alike.trans (h : Leaf.Alike a b) (g : Leaf.Alike b c) : Leaf.Alike a c :=
  ⟨g.active.trans h.active, g.swReq.trans h.swReq, fun k hk => (g.others k (by rwa [h.active])).trans (h.others k hk),
    g.setup.trans h.setup, g.vregs.trans h.vregs, g.accs.trans h.accs⟩
/-- Leaves with the same contexts, vector registers and accumulators. -/
theorem Leaf.Alike.of_eq (hactive : b.active = a.active) (hsw : b.swReq = a.swReq) (hctxs : b.ctxs = a.ctxs) (hv : b.vregs = a.vregs)
    (ha : b.accs = a.accs) : Leaf.Alike a b :=
  ⟨hactive, hsw, fun c _ => by simp only [Leaf.ctxAt, hctxs], by simp only [Leaf.ctx, hctxs, hactive], hv, ha⟩
theorem Leaf.Alike.regs (h : Leaf.Alike a b) : b.ctx.regs = a.ctx.regs :=
  (congrArg Ctx.regs h.setup : b.ctx.setup.regs = a.ctx.setup.regs)
theorem Leaf.Alike.preds (h : Leaf.Alike a b) : b.ctx.preds = a.ctx.preds :=
  (congrArg Ctx.preds h.setup : b.ctx.setup.preds = a.ctx.setup.preds)
theorem Leaf.Alike.flags (h : Leaf.Alike a b) : b.ctx.flags = a.ctx.flags :=
  (congrArg Ctx.flags h.setup : b.ctx.setup.flags = a.ctx.setup.flags)
theorem Leaf.Alike.reg (h : Leaf.Alike a b) (r : BitVec 5) : b.reg r = a.reg r := by unfold Leaf.reg; rw [h.regs]
theorem Leaf.Alike.pred (h : Leaf.Alike a b) (p : BitVec 3) : b.pred p = a.pred p := by unfold Leaf.pred; rw [h.preds]
theorem Leaf.Alike.vw (h : Leaf.Alike a b) : b.vw = a.vw := by
  have hvw : b.ctx.setup.vw = a.ctx.setup.vw := congrArg Ctx.vw h.setup
  exact congrArg (fun n => 16 * (n + 1)) hvw
theorem Leaf.Alike.mw (h : Leaf.Alike a b) : b.mw = a.mw := by
  have hmw : b.ctx.setup.mw = a.ctx.setup.mw := congrArg Ctx.mw h.setup
  exact congrArg (fun n => 8 * (n + 1)) hmw
theorem Leaf.Alike.vreg (h : Leaf.Alike a b) (v : BitVec 4) : b.vreg v = a.vreg v := by unfold Leaf.vreg; rw [h.vregs]
theorem Leaf.Alike.acc (h : Leaf.Alike a b) (x : BitVec 2) : b.acc x = a.acc x := by unfold Leaf.acc; rw [h.accs]
/-- A change of the active context that does not look at the control flow. -/
theorem Leaf.Alike.modCtx (h : Leaf.Alike a b) {f : Ctx → Ctx} (hf : ∀ c, (f c).setup = (f c.setup).setup) :
    Leaf.Alike (a.modCtx f) (b.modCtx f) := by
  refine ⟨h.active, h.swReq, fun c hc => ?_, ?_, h.vregs, h.accs⟩
  · have hc : c ≠ a.active := hc
    rw [Leaf.ctxAt_modCtx_other b f (by rwa [h.active]), Leaf.ctxAt_modCtx_other a f hc, h.others c hc]
  · rw [Leaf.ctx_modCtx, Leaf.ctx_modCtx, hf, h.setup, ← hf]
theorem Leaf.Alike.setReg (h : Leaf.Alike a b) (r : BitVec 5) (v : Word) : Leaf.Alike (a.setReg r v) (b.setReg r v) :=
  h.modCtx fun _ => rfl
theorem Leaf.Alike.setPred (h : Leaf.Alike a b) (p : BitVec 3) (v : Word) : Leaf.Alike (a.setPred p v) (b.setPred p v) :=
  h.modCtx fun _ => rfl
theorem Leaf.Alike.addFlags (h : Leaf.Alike a b) (f : FFlags) : Leaf.Alike (a.addFlags f) (b.addFlags f) := h.modCtx fun _ => rfl
theorem Leaf.Alike.setVreg (h : Leaf.Alike a b) (v : BitVec 4) (f : Nat → Word) (why : Option Byte) :
    Leaf.Alike (a.setVreg v f why) (b.setVreg v f why) :=
  ⟨h.active, h.swReq, h.others, h.setup, by simp only [Leaf.setVreg, h.vregs, h.vw], h.accs⟩
theorem Leaf.Alike.setAcc (h : Leaf.Alike a b) (ac : BitVec 2) (x : Acc) : Leaf.Alike (a.setAcc ac x) (b.setAcc ac x) :=
  ⟨h.active, h.swReq, h.others, h.setup, h.vregs, by simp only [Leaf.setAcc, h.accs]⟩
end

/-- A change of the control flow alone. -/
theorem Leaf.Alike.flow {a b : Leaf} (h : Leaf.Alike a b) {f : Ctx → Ctx} (hf : ∀ c, (f c).setup = c.setup) :
    Leaf.Alike a (b.modCtx f) :=
  h.trans ⟨rfl, rfl, fun _ hc => Leaf.ctxAt_modCtx_other b f hc, by rw [Leaf.ctx_modCtx, hf], rfl, rfl⟩
theorem Leaf.alike_advance {lf lf' : Leaf} (h : lf.advance = some lf') : Leaf.Alike lf lf' := by
  unfold Leaf.advance Leaf.advanceFrom at h
  dsimp only at h
  split at h
  · cases h
  next lf1 h1 =>
    obtain ⟨hk, -, -, hctxs⟩ := Leaf.sendEnds_kept h1
    have hends : Leaf.Alike lf lf1 := .of_eq hk.active hk.swReq hctxs hk.vregs hk.accs
    have hloop (loops pc) : Leaf.Alike lf (lf1.modCtx fun c => { c with loops := loops, pc := pc }) := hends.flow fun _ => rfl
    split at h
    · cases h
      exact (hloop _ _).trans (.of_eq rfl rfl rfl rfl rfl)
    split at h
    · cases h
      have hloops (loops) : Leaf.Alike lf (lf1.modCtx fun c => { c with loops := loops }) := hends.flow fun _ => rfl
      exact ((hloops _).flow (f := fun c => { c with loops := [] }) fun _ => rfl).trans (.of_eq rfl rfl rfl rfl rfl)
    · cases h
      exact (hloop _ _).trans (.of_eq rfl rfl rfl rfl rfl)

/-! ### What a command may write -/

/-- From a to b a leaf's registers stayed, but for general register rd, the predicates pd, the sticky flags where fl says so (all of the
active context), vector register vd and accumulator ac. -/
structure Leaf.Frame (rd : Option (BitVec 5)) (pd : BitVec 3 → Bool) (fl : Bool) (vd : Option (BitVec 4)) (ac : Option (BitVec 2))
    (a b : Leaf) : Prop where
  active : b.active = a.active
  others : ∀ c, c ≠ a.active → b.ctxAt c = a.ctxAt c
  regs : ∀ r, some r ≠ rd → b.reg r = a.reg r
  preds : ∀ p, pd p = false → b.pred p = a.pred p
  flags : fl = false → b.ctx.flags = a.ctx.flags
  vregs : ∀ v, some v ≠ vd → b.vreg v = a.vreg v
  accs : ∀ x, some x ≠ ac → b.acc x = a.acc x

section
variable {rd : Option (BitVec 5)} {pd : BitVec 3 → Bool} {fl : Bool} {vd : Option (BitVec 4)} {ac : Option (BitVec 2)} {a b c : Leaf}

theorem Leaf.Alike.frame (h : Leaf.Alike a b) : Leaf.Frame rd pd fl vd ac a b :=
  ⟨h.active, h.others, fun r _ => h.reg r, fun p _ => h.pred p, fun _ => h.flags, fun v _ => h.vreg v, fun x _ => h.acc x⟩
theorem Leaf.Frame.refl (a : Leaf) : Leaf.Frame rd pd fl vd ac a a := (Leaf.Alike.refl a).frame
theorem Leaf.Frame.trans (h : Leaf.Frame rd pd fl vd ac a b) (g : Leaf.Frame rd pd fl vd ac b c) : Leaf.Frame rd pd fl vd ac a c :=
  ⟨g.active.trans h.active, fun k hk => (g.others k (by rwa [h.active])).trans (h.others k hk),
    fun r hr => (g.regs r hr).trans (h.regs r hr), fun p hp => (g.preds p hp).trans (h.preds p hp),
    fun hf => (g.flags hf).trans (h.flags hf), fun v hv => (g.vregs v hv).trans (h.vregs v hv),
    fun x hx => (g.accs x hx).trans (h.accs x hx)⟩
end

/-! ### Registers read after a write -/

section
variable (lf : Leaf)

@[simp] theorem Leaf.reg_addFlags (f : FFlags) (r : BitVec 5) : (lf.addFlags f).reg r = lf.reg r := by
  unfold Leaf.reg Leaf.addFlags; rw [Leaf.ctx_modCtx]
@[simp] theorem Leaf.pred_addFlags (f : FFlags) (p : BitVec 3) : (lf.addFlags f).pred p = lf.pred p := by
  unfold Leaf.pred Leaf.addFlags; rw [Leaf.ctx_modCtx]
@[simp] theorem Leaf.flags_addFlags (f : FFlags) : (lf.addFlags f).ctx.flags = lf.ctx.flags ||| f := by
  unfold Leaf.addFlags; rw [Leaf.ctx_modCtx]
@[simp] theorem Leaf.pred_setReg (r : BitVec 5) (v : Word) (p : BitVec 3) : (lf.setReg r v).pred p = lf.pred p := by
  unfold Leaf.pred Leaf.setReg; rw [Leaf.ctx_modCtx]
@[simp] theorem Leaf.flags_setReg (r : BitVec 5) (v : Word) : (lf.setReg r v).ctx.flags = lf.ctx.flags := by
  unfold Leaf.setReg; rw [Leaf.ctx_modCtx]
@[simp] theorem Leaf.reg_setPred (p : BitVec 3) (v : Word) (r : BitVec 5) : (lf.setPred p v).reg r = lf.reg r := by
  unfold Leaf.reg Leaf.setPred; rw [Leaf.ctx_modCtx]
@[simp] theorem Leaf.flags_setPred (p : BitVec 3) (v : Word) : (lf.setPred p v).ctx.flags = lf.ctx.flags := by
  unfold Leaf.setPred; rw [Leaf.ctx_modCtx]
@[simp] theorem Leaf.pred_setPred_same (p : BitVec 3) (v : Word) : (lf.setPred p v).pred p = v := by
  unfold Leaf.pred Leaf.setPred; rw [Leaf.ctx_modCtx]; exact tget_tset_same _ _ _
theorem Leaf.pred_setPred_other {p q : BitVec 3} (v : Word) (h : q ≠ p) : (lf.setPred p v).pred q = lf.pred q := by
  unfold Leaf.pred Leaf.setPred; rw [Leaf.ctx_modCtx]; exact tget_tset_other _ fun e => h (BitVec.eq_of_toNat_eq e)
@[simp] theorem Leaf.acc_setAcc_same (ac : BitVec 2) (x : Acc) : (lf.setAcc ac x).acc ac = x := tget_tset_same _ _ _
@[simp] theorem Leaf.vreg_setVreg_same (v : BitVec 4) (f : Nat → Word) (why : Option Byte) :
    (lf.setVreg v f why).vreg v = ⟨tabOf 0 64 (fun i => if i < lf.vw then f i else 0), why⟩ := tget_tset_same _ _ _
end

section
variable {rd : Option (BitVec 5)} {pd : BitVec 3 → Bool} {fl : Bool} {vd : Option (BitVec 4)} {ac : Option (BitVec 2)} {a b : Leaf}

/-- A frame that allows the change allows it on top of others. -/
theorem Leaf.Frame.addFlags (h : Leaf.Frame rd pd true vd ac a b) (f : FFlags) : Leaf.Frame rd pd true vd ac a (b.addFlags f) :=
  h.trans ⟨rfl, fun _ hc => Leaf.ctxAt_modCtx_other b _ hc, fun r _ => b.reg_addFlags f r, fun p _ => b.pred_addFlags f p, nofun,
    fun _ _ => rfl, fun _ _ => rfl⟩
theorem Leaf.Frame.setReg {r : BitVec 5} (h : Leaf.Frame (some r) pd fl vd ac a b) (v : Word) :
    Leaf.Frame (some r) pd fl vd ac a (b.setReg r v) :=
  h.trans ⟨rfl, fun _ hc => Leaf.ctxAt_modCtx_other b _ hc, fun _ hr => b.reg_setReg_other v fun e => hr (by rw [e]),
    fun p _ => b.pred_setReg r v p, fun _ => b.flags_setReg r v, fun _ _ => rfl, fun _ _ => rfl⟩
theorem Leaf.Frame.setPred {p : BitVec 3} (h : Leaf.Frame rd pd fl vd ac a b) (v : Word) (hp : pd p = true) :
    Leaf.Frame rd pd fl vd ac a (b.setPred p v) :=
  h.trans ⟨rfl, fun _ hc => Leaf.ctxAt_modCtx_other b _ hc, fun r _ => b.reg_setPred p v r,
    fun q hq => b.pred_setPred_other v fun e => absurd hq (by simp [e, hp]), fun _ => b.flags_setPred p v, fun _ _ => rfl,
    fun _ _ => rfl⟩
theorem Leaf.Frame.setVreg {v : BitVec 4} (h : Leaf.Frame rd pd fl (some v) ac a b) (f : Nat → Word) (why : Option Byte) :
    Leaf.Frame rd pd fl (some v) ac a (b.setVreg v f why) :=
  h.trans ⟨rfl, fun _ _ => rfl, fun _ _ => rfl, fun _ _ => rfl, fun _ => rfl,
    fun _ hv => tget_tset_other _ fun e => hv (by rw [BitVec.eq_of_toNat_eq e]), fun _ _ => rfl⟩
theorem Leaf.Frame.setAcc {x : BitVec 2} (h : Leaf.Frame rd pd fl vd (some x) a b) (y : Acc) :
    Leaf.Frame rd pd fl vd (some x) a (b.setAcc x y) :=
  h.trans ⟨rfl, fun _ _ => rfl, fun _ _ => rfl, fun _ _ => rfl, fun _ => rfl, fun _ _ => rfl,
    fun _ hx => tget_tset_other _ fun e => hx (by rw [BitVec.eq_of_toNat_eq e])⟩

/-- The frames of the contexts and of the units' registers, from the frame of the leaf. -/
theorem Leaf.Frame.ctxFrame {s t : State} {l : Nat} (h : Leaf.Frame rd pd fl vd ac (s.leaf l) (t.leaf l))
    (ho : ∀ l', l' ≠ l → (t.leaf l').ctxs = (s.leaf l').ctxs) : s.ctxFrame t l rd pd fl := by
  have hctx : (t.leaf l).ctxAt (s.leaf l).active = (t.leaf l).ctx := by rw [← h.active]; rfl
  refine ⟨ho, h.others, fun r hr => ?_, fun p hp => ?_, fun hf => ?_⟩
  · unfold State.gpr
    rw [hctx]
    exact h.regs r hr
  · unfold State.prd
    rw [hctx]
    exact h.preds p hp
  · rw [hctx]
    exact h.flags hf
theorem Leaf.Frame.unitRegsFrame {s t : State} {l : Nat} (h : Leaf.Frame rd pd fl vd ac (s.leaf l) (t.leaf l)) :
    s.unitRegsFrame t l vd ac := fun _ => ⟨h.vregs, h.accs⟩
end

/-! ### What a command does to alike leaves -/

/-- Two results that differ at most in leaves that are alike. -/
structure OpResult.Alike (x y : OpResult) : Prop where
  lf : Leaf.Alike x.lf y.lf
  writes : y.writes = x.writes
  fault : y.fault = x.fault
  why : y.why = x.why

/-- From a to b a leaf changed in contexts, vector registers and accumulators alone. -/
def Leaf.onlyRegs (a b : Leaf) : Prop := ∃ ctxs vregs accs, b = { a with ctxs := ctxs, vregs := vregs, accs := accs }
theorem Leaf.onlyRegs_mk {lf : Leaf} (ctxs vregs accs) : lf.onlyRegs { lf with ctxs := ctxs, vregs := vregs, accs := accs } :=
  ⟨_, _, _, rfl⟩

/-- A command reads its leaf's registers and writes registers; what else of the leaf there is neither decides nor changes. -/
theorem opResult_alike {a b : Leaf} (h : Leaf.Alike a b) (rd : LeafReader) (op : UnitOp) :
    OpResult.Alike (opResult a rd op) (opResult b rd op) := by
  cases op with
  | mma ac ra rb fa fb init w fl masks =>
    simp only [opResult, runMma, h.acc, h.mw]
    split <;> exact ⟨(h.setAcc _ _).addFlags _, rfl, rfl, rfl⟩
  | accout ac x fo sat seq =>
    simp only [opResult, runAccout, h.acc]
    exact ⟨h.addFlags _, rfl, rfl, rfl⟩
  | accin ac x fi add =>
    simp only [opResult, runAccin, h.acc, h.mw]
    split
    · exact ⟨h.setAcc _ _, rfl, rfl, rfl⟩
    · exact ⟨(h.setAcc _ _).addFlags _, rfl, rfl, rfl⟩
  | vector vd lanes why fl => exact ⟨(h.setVreg _ _ _).addFlags _, rfl, rfl, rfl⟩
  | compare pd lo hi why fl => exact ⟨((h.setPred _ _).setPred _ _).addFlags _, rfl, rfl, rfl⟩
  | scalar r v why fl => exact ⟨(h.setReg _ _).addFlags _, rfl, rfl, rfl⟩
  | loadWord r x => exact ⟨h.setReg _ _, rfl, rfl, rfl⟩
  | store ws mark x why fl => exact ⟨h.addFlags _, rfl, rfl, rfl⟩
  | loadTile vd x fi q =>
    simp only [opResult, runLoadTile, vecResult, h.vw]
    split
    · exact ⟨h.setVreg _ _ _, rfl, rfl, rfl⟩
    · exact ⟨(h.setVreg _ _ _).addFlags _, rfl, rfl, rfl⟩
  | loadFlat vd x f =>
    simp only [opResult, runLoadFlat, vecResult, h.vw]
    exact ⟨(h.setVreg _ _ _).addFlags _, rfl, rfl, rfl⟩
  | reduce vd x fi fn =>
    simp only [opResult, runReduce, vecResult, h.vw]
    split
    · exact ⟨h.setVreg _ _ _, rfl, rfl, rfl⟩
    · exact ⟨(h.setVreg _ _ _).addFlags _, rfl, rfl, rfl⟩
  | rank r x fi k n out tile =>
    have hrank (cands why y) : OpResult.Alike (rankResult a r k out cands why y) (rankResult b r k out cands why y) :=
      ⟨(h.setReg _ _).addFlags _, rfl, rfl, rfl⟩
    simp only [opResult, runRank]
    split
    · split
      · exact ⟨h.setReg _ _, rfl, rfl, rfl⟩
      · exact hrank _ _ _
    · exact hrank _ _ _
  | send => exact ⟨h, rfl, rfl, rfl⟩
  | recv => exact ⟨h, rfl, rfl, rfl⟩
  | access id rd' => exact ⟨h, rfl, rfl, rfl⟩
theorem opResult_onlyRegs (lf : Leaf) (rd : LeafReader) (op : UnitOp) : lf.onlyRegs (opResult lf rd op).lf := by
  cases op with
  | mma ac ra rb fa fb init w fl masks =>
    simp only [opResult, runMma]
    split <;> exact Leaf.onlyRegs_mk _ _ _
  | accin ac x fi add =>
    simp only [opResult, runAccin]
    split <;> exact Leaf.onlyRegs_mk _ _ _
  | loadTile vd x fi q =>
    simp only [opResult, runLoadTile]
    split <;> exact Leaf.onlyRegs_mk _ _ _
  | reduce vd x fi fn =>
    simp only [opResult, runReduce]
    split <;> exact Leaf.onlyRegs_mk _ _ _
  | rank r x fi k n out tile =>
    simp only [opResult, runRank]
    split
    · split <;> exact Leaf.onlyRegs_mk _ _ _
    · exact Leaf.onlyRegs_mk _ _ _
  | accout | vector | compare | scalar | loadWord | store | loadFlat | send | recv | access => exact Leaf.onlyRegs_mk _ _ _

end Sys2Proof.Machine
end

section
/-! The issue of a unit's command, and its completion on a leaf with no other command (03 R91-R94). -/

namespace Sys2Proof.Machine

/-! ### The issue of a command -/

/-- A command of a unit without ports. -/
def unitCmd (u : LeafUnit) (op : UnitOp) (pc : Nat) : UnitCmd := ⟨u, 0, 0, 0, 0, 0, 0, 0, op, pc, []⟩
theorem Leaf.effect_enqueue (lf : Leaf) (u : LeafUnit) (op : UnitOp) : Leaf.Effect none lf (lf.enqueue u op) := by
  cases u <;> exact (Leaf.Effect.refl none lf).of_ctxs rfl rfl rfl rfl
theorem Leaf.alike_enqueue (lf : Leaf) (u : LeafUnit) (op : UnitOp) : Leaf.Alike lf (lf.enqueue u op) := by
  cases u <;> exact .of_eq rfl rfl rfl rfl rfl
theorem Leaf.enqueue_kept (lf : Leaf) (u : LeafUnit) (op : UnitOp) :
    (lf.enqueue u op).queue = lf.queue ++ [unitCmd u op lf.ctx.pc] ∧ (lf.enqueue u op).block = lf.block ∧
      (lf.enqueue u op).poison = lf.poison ∧ (lf.enqueue u op).fault = lf.fault := by
  cases u <;> exact ⟨rfl, rfl, rfl, rfl⟩

/-- From s to t leaf l issued a command: it is the last of the queue, and the leaf's control flow went on; no register, byte of memory or
other leaf changed. -/
structure State.Issued (s t : State) (l : Nat) (c : UnitCmd) : Prop where
  alike : Leaf.Alike (s.leaf l) (t.leaf l)
  queue : (t.leaf l).queue = (s.leaf l).queue ++ [c]
  block : (t.leaf l).block = .none ∨ (t.leaf l).block = .ending
  poison : (t.leaf l).poison = (s.leaf l).poison
  fault : (t.leaf l).fault = (s.leaf l).fault
  others : ∀ l', l' ≠ l → t.leaf l' = s.leaf l'
  mem : t.mem = s.mem
  csr : t.csr = s.csr
  part : t.part = s.part
  branches : t.branches = s.branches

theorem State.Issued.scalarFrame {s t : State} {l : Nat} {c : UnitCmd} (h : s.Issued t l c) : s.scalarFrame t l none noPred := by
  have hframe : Leaf.Frame none noPred false none none (s.leaf l) (t.leaf l) := h.alike.frame
  refine ⟨hframe.ctxFrame fun l' h' => by rw [h.others l' h'], hframe.unitRegsFrame, fun k => ?_, h.csr⟩
  unfold State.memByte
  rw [h.mem]

section
variable {s : State} {i : Instr} {l : Nat} {g : Guard} {u : LeafUnit} {op : Leaf → UnitOp}

/-- An instruction of a unit that is executed, with room in the unit's queue, issues its command. -/
theorem exec_issued (hi : leafGuard i = some (l, g)) (hexec : exec i s = s.issueUnit l g u (leafUses i) op) (h : s.executesOn i u 0) :
    ∃ t, exec i s = .next t ∧ s.Issued t l (unitCmd u (op (s.leaf l)) (s.leaf l).ctx.pc) := by
  obtain ⟨⟨⟨l1, g1, e1, hl, hc, hg, hk, hu⟩, l2, g2, e2, hadv⟩, l3, g3, e3, hroom⟩ := h
  rw [hi] at e1 e2 e3
  cases e1
  cases e2
  cases e3
  obtain ⟨hqueue, hblock, hpoison, hfault⟩ := (s.leaf l).enqueue_kept u (op (s.leaf l))
  obtain ⟨lf, hlf⟩ := Option.isSome_iff_exists.1 (((s.leaf l).effect_enqueue u (op (s.leaf l))).advance_isSome.trans hadv)
  obtain ⟨hkept, -, hblock'⟩ := Leaf.advanceFrom_kept hlf
  have hmod : (s.modLeaf l fun lf => lf.enqueue u (op lf)).leaf l = (s.leaf l).enqueue u (op (s.leaf l)) := s.leaf_modLeaf_same _ _
  have hnext := State.issueWith_done (adv := Leaf.advance) (s1 := s.modLeaf l fun lf => lf.enqueue u (op lf))
    (body := fun s => if (s.leaf l).hasRoom u 0 then .done (s.modLeaf l fun lf => lf.enqueue u (op lf)) else .queueWait)
    hl hc hg hk hu (if_pos hroom) (by rw [hmod]; exact hlf)
  have hleaf : (((s.modLeaf l fun lf => lf.enqueue u (op lf)).putLeaf l lf).tick).leaf l = lf := tget_tset_same _ _ _
  have hne : lf.queue ≠ [] := by
    rw [hkept.queue, hqueue]
    simp
  rw [State.endCheck_of_queue (by rwa [hleaf])] at hnext
  have hnone : (s.leaf l).block = .none := by
    simp only [State.canIssue, Bool.and_eq_true, beq_iff_eq] at hc
    exact hc.2
  refine ⟨_, hexec.trans hnext, ?_⟩
  exact
    { alike := by rw [hleaf]; exact ((s.leaf l).alike_enqueue u _).trans (Leaf.alike_advance hlf)
      queue := by rw [hleaf, hkept.queue, hqueue]
      block := by rw [hleaf, ← hnone, ← hblock]; exact hblock'
      poison := by rw [hleaf, hkept.poison, hpoison]
      fault := by rw [hleaf, hkept.fault, hfault]
      others := fun l' h' => (tget_tset_other _ h').trans (s.leaf_modLeaf_other l l' _ h')
      mem := rfl
      csr := rfl
      part := rfl
      branches := rfl }
theorem State.issues_of_exec (hi : leafGuard i = some (l, g)) (hexec : exec i s = s.issueUnit l g u (leafUses i) op)
    (h : s.executesOn i u 0) : s.issues l u (op (s.leaf l)) (exec i s) := by
  obtain ⟨t, hnext, ht⟩ := exec_issued hi hexec h
  exact ⟨t, hnext, ht.queue, ht.scalarFrame⟩
end

/-! ### A command run by its unit, alone on its leaf -/

/-- The state with the bytes of a command's writes in leaf memory. -/
def State.leafWrites (s : State) (l : Nat) : List (Nat × List Byte) → State
  | [] => s
  | w :: ws => (s.leafWrite l w.1 w.2).leafWrites l ws

theorem State.leafWrite_leaves (s : State) (l a : Nat) (bs : List Byte) : (s.leafWrite l a bs).leaves = s.leaves := by
  induction bs generalizing s a with
  | nil => rfl
  | cons b bs ih => exact ih _ _
theorem State.leafWrite_mem_congr {s t : State} (h : t.mem = s.mem) (l a : Nat) (bs : List Byte) :
    (t.leafWrite l a bs).mem = (s.leafWrite l a bs).mem := by
  induction bs generalizing s t a with
  | nil => exact h
  | cons b bs ih => exact ih (by rw [State.memSet_mem, State.memSet_mem, h]) _
theorem State.leafWrites_leaves (s : State) (l : Nat) (ws : List (Nat × List Byte)) : (s.leafWrites l ws).leaves = s.leaves := by
  induction ws generalizing s with
  | nil => rfl
  | cons w ws ih => exact (ih _).trans (s.leafWrite_leaves l w.1 w.2)
theorem State.leafWrites_mem_congr {s t : State} (h : t.mem = s.mem) (l : Nat) (ws : List (Nat × List Byte)) :
    (t.leafWrites l ws).mem = (s.leafWrites l ws).mem := by
  induction ws generalizing s t with
  | nil => exact h
  | cons w ws ih => exact ih (State.leafWrite_mem_congr h l w.1 w.2)
theorem State.leafPlain_congr {s t : State} (h : t.mem = s.mem) (l : Nat) : t.leafPlain l = s.leafPlain l := by
  funext a n
  simp only [State.leafPlain, State.memByte, h]

/-- With no other command in progress nothing races with a command's reads. -/
theorem State.leafRead_of_alone {s : State} {l : Nat} {c : UnitCmd} (hq : (s.leaf l).queue = [c]) (hseen : c.seen = []) :
    s.leafRead l c.unit = s.leafPlain l := by
  have hraces : s.raceBytes l c.unit = [] := by simp [State.raceBytes, hq, headCmds, hseen]
  funext a n
  simp [State.leafRead, State.leafPlain, hraces, leafKey]
/-- A command's own writes are not noted by itself. -/
theorem State.noteSeen_of_alone {s : State} {l : Nat} {c : UnitCmd} (hq : (s.leaf l).queue = [c]) (a n : Nat) :
    (∀ l', (s.noteSeen l (some c.unit) a n).leaf l' = s.leaf l') ∧ (s.noteSeen l (some c.unit) a n).mem = s.mem := by
  unfold State.noteSeen
  rw [hq, if_neg (List.cons_ne_nil c [])]
  refine ⟨fun l' => ?_, rfl⟩
  by_cases h : l' = l
  · rw [h, State.leaf_modLeaf_same, hq]
    simp only [modHeads, List.contains_nil, Bool.false_eq_true, true_or, if_true, if_false]
    rw [← hq]
  · exact s.leaf_modLeaf_other l l' _ h
theorem State.leafStore_of_alone {s : State} {l : Nat} {c : UnitCmd} (hq : (s.leaf l).queue = [c]) (ws : List (Nat × List Byte)) :
    (∀ l', (s.leafStore l c.unit ws).leaf l' = s.leaf l') ∧ (s.leafStore l c.unit ws).mem = (s.leafWrites l ws).mem := by
  induction ws generalizing s with
  | nil => exact ⟨fun _ => rfl, rfl⟩
  | cons w ws ih =>
    obtain ⟨hleaf, hmem⟩ := s.noteSeen_of_alone hq w.1 w.2.length
    have hleaf' (l' : Nat) : ((s.noteSeen l (some c.unit) w.1 w.2.length).leafWrite l w.1 w.2).leaf l' = s.leaf l' := by
      rw [← hleaf l']
      unfold State.leaf
      rw [State.leafWrite_leaves]
    obtain ⟨hl, hm⟩ := ih (s := (s.noteSeen l (some c.unit) w.1 w.2.length).leafWrite l w.1 w.2) (by rw [hleaf', hq])
    exact ⟨fun l' => (hl l').trans (hleaf' l'),
      hm.trans (State.leafWrites_mem_congr (State.leafWrite_mem_congr hmem l w.1 w.2) l ws)⟩

@[simp] theorem State.reportPoison_stores (s : State) (b m i : Nat) (r : Byte) (q : Option Nat) (a : Nat) :
    (s.reportPoison b m i r q a).stores = s.stores := rfl
/-- A leaf that notes a fault differs in its fault alone. -/
theorem Leaf.noteFault_eq (lf : Leaf) (f : LeafFault) : lf.noteFault f = { lf with fault := lf.fault.or (some f) } := by
  unfold Leaf.noteFault
  split
  next g h =>
    show lf = { lf with fault := lf.fault.or (some f) }
    rw [h, Option.some_or, ← h]
  next h => rw [h, Option.none_or]

/-- A leaf with the poison and the fault that a command leaves. -/
def Leaf.marked (lf : Leaf) (poison : Option Byte) (fault : Option LeafFault) : Leaf := { lf with poison := poison, fault := fault }
theorem Leaf.marked_self (lf : Leaf) : lf.marked lf.poison lf.fault = lf := rfl

/-- Consuming poison records a reason and a fault, each where there was none. -/
theorem State.changesLeaf.consume {s t : State} {l : Nat} {x : Leaf} (h : s.changesLeaf t l x) (why : Option Byte) (pc a : Nat) :
    ∃ f, s.changesLeaf (t.consume l why pc a) l (x.marked (x.poison.or why) (x.fault.or f)) := by
  cases why with
  | none =>
    refine ⟨none, ?_⟩
    rw [Option.or_none, Option.or_none, Leaf.marked_self]
    exact h
  | some r =>
    obtain ⟨f, -, hfault, -⟩ := h.leafFault 4 pc a
    rw [Leaf.noteFault_eq] at hfault
    refine ⟨some f, ?_⟩
    unfold State.consume
    dsimp only
    rw [h.1]
    split
    next p hp =>
      rw [hp, Option.some_or, ← hp]
      exact hfault
    next hp =>
      rw [hp, Option.none_or]
      obtain ⟨hmem, hleaves, -⟩ := State.stores_eq
        (s := (t.leafFault l 4 pc a).modLeaf l fun lf => { lf with poison := some r })
        (t := (((t.leafFault l 4 pc a).modLeaf l fun lf => { lf with poison := some r }).reportPoison (l / 64) 0 (l % 64) r none 0).trigger
          3)
        (by simp)
      exact (hfault.modLeaf fun lf => { lf with poison := some r }).of_eq hmem hleaves

/-- From s to v leaf l completed its only command, with the result r. -/
structure State.Ran (s v : State) (l : Nat) (r : OpResult) : Prop where
  alike : Leaf.Alike r.lf (v.leaf l)
  queue : (v.leaf l).queue = []
  poison : (v.leaf l).poison = (s.leaf l).poison.or r.why
  fault : ∀ k a, r.fault = some (k, a) → (s.leaf l).fault = none → (v.leaf l).fault.map (·.kind) = some k
  others : ∀ l', l' ≠ l → v.leaf l' = s.leaf l'
  mem : v.mem = (s.leafWrites l r.writes).mem

/-- A command that runs alone on its leaf. -/
theorem State.runOp_of_alone {s : State} {l : Nat} {c : UnitCmd} {r : OpResult} (hq : (s.leaf l).queue = [c]) (hseen : c.seen = [])
    (hr : opResult (s.leaf l) (s.leafPlain l) c.op = r) :
    ∃ f, (s.leafWrites l r.writes).changesLeaf (s.runOp l c none) l
        (r.lf.marked ((s.leaf l).poison.or r.why) f) ∧
      ∀ k a, r.fault = some (k, a) → (s.leaf l).fault = none → f.map (·.kind) = some k := by
  obtain ⟨ctxs, vregs, accs, hlf⟩ := opResult_onlyRegs (s.leaf l) (s.leafPlain l) c.op
  rw [hr] at hlf
  have hput : (s.putLeaf l r.lf).leaf l = r.lf := tget_tset_same _ _ _
  have hq' : ((s.putLeaf l r.lf).leaf l).queue = [c] := by rw [hput, hlf, hq]
  obtain ⟨hleaf, hmem⟩ := (s.putLeaf l r.lf).leafStore_of_alone hq' r.writes
  have hbase (l' : Nat) : (s.leafWrites l r.writes).leaf l' = s.leaf l' := by
    unfold State.leaf
    rw [State.leafWrites_leaves]
  have hstore : (s.leafWrites l r.writes).changesLeaf ((s.putLeaf l r.lf).leafStore l c.unit r.writes) l r.lf :=
    ⟨(hleaf l).trans hput, fun l' h' => (hleaf l').trans ((tget_tset_other _ h').trans (hbase l').symm),
      hmem.trans (State.leafWrites_mem_congr (s.putLeaf_mem l r.lf) l r.writes)⟩
  have hpoison : r.lf.poison = (s.leaf l).poison := by rw [hlf]
  have hfault : r.lf.fault = (s.leaf l).fault := by rw [hlf]
  rw [← hpoison, ← hfault]
  unfold State.runOp opResultBad
  cases hrf : r.fault with
  | none =>
    obtain ⟨f, hc⟩ := hstore.consume r.why c.pc r.whyAt
    simp only [Option.map_none, s.leafRead_of_alone hq hseen, hr, hrf]
    exact ⟨_, hc, nofun⟩
  | some ka =>
    obtain ⟨k, a⟩ := ka
    obtain ⟨f, hk, hf, -⟩ := hstore.leafFault k c.pc a
    rw [Leaf.noteFault_eq] at hf
    obtain ⟨f', hc⟩ := hf.consume r.why c.pc r.whyAt
    simp only [Option.map_none, s.leafRead_of_alone hq hseen, hr, hrf]
    refine ⟨_, hc, fun k' a' e hnone => ?_⟩
    cases e
    simp [hnone, hk]

/-! ### Completion -/

theorem State.pump_of_empty {s : State} {l : Nat} (h : (s.leaf l).queue = []) : s.pump l = s := by
  have hout (p n : Nat) : s.pumpOut l p n = s := by
    cases n with
    | zero => rfl
    | succ n => simp [State.pumpOut, streamHead, h, findIdx]
  have hin (p n : Nat) : s.pumpIn l p n = s := by
    cases n with
    | zero => rfl
    | succ n => simp [State.pumpIn, streamHead, h, findIdx]
  have hfold {f : State → Nat → State} (hf : ∀ p, f s p = s) (ps : List Nat) : ps.foldl f s = s := by
    induction ps with
    | nil => rfl
    | cons p ps ih => rw [List.foldl_cons, hf, ih]
  unfold State.pump
  rw [hfold (fun p => hout p 16), hfold (fun p => hin p 16)]

/-- The leaf once its oldest command, of unit u, has completed. -/
def Leaf.completes (lf : Leaf) (u : LeafUnit) : Leaf := ({ lf.countDone u with queue := lf.queue.eraseIdx 0 } : Leaf).fenceCheck
/-- The last command of a leaf leaves its queue: no FENCE holds the leaf. -/
theorem Leaf.completes_eq {lf : Leaf} {c : UnitCmd} (u : LeafUnit) (hq : lf.queue = [c])
    (hb : lf.block = .none ∨ lf.block = .ending) : ∃ m v, lf.completes u = { lf with queue := [], doneM := m, doneV := v } := by
  have hcount : ∃ m v, lf.countDone u = { lf with doneM := m, doneV := v } := by
    cases u <;> exact ⟨_, _, rfl⟩
  obtain ⟨m, v, hcount⟩ := hcount
  refine ⟨m, v, ?_⟩
  unfold Leaf.completes
  rw [hcount, hq]
  unfold Leaf.fenceCheck
  rcases hb with hb | hb <;> simp [hb]

section
variable {s : State} {τ l u pc : Nat} {op : UnitOp}

theorem execUnitCommandComplete_of_alone (hu : u ≤ 2) (hl : l < s.nLeaves) (hrun : s.branchRuns (l / 64) = true)
    (hq : (s.leaf l).queue = [unitCmd (unitOf u) op pc]) :
    exec (.unitCommandComplete τ l (u, 0) none) s =
      .next (((((s.at τ).runOp l (unitCmd (unitOf u) op pc) none).modLeaf l (·.completes (unitOf u))).pump l).endCheck l) := by
  have hready : (s.leaf l).cmdReady (unitCmd (unitOf u) op pc) = true := by
    unfold Leaf.cmdReady unitCmd unitOf
    interval_cases u <;> rfl
  have hrun' : (s.at τ).branchRuns (l / 64) = true := hrun
  have hfind : findIdx (fun c => decide (c.unit = unitOf u ∧ c.port = 0)) [unitCmd (unitOf u) op pc] 0 =
      some (0, unitCmd (unitOf u) op pc) := by simp [findIdx, unitCmd]
  show execUnitCommandComplete τ l (u, 0) none s = _
  unfold execUnitCommandComplete
  rw [if_neg (by omega)]
  simp only [hrun', State.at_leaf, hq, hfind, hready, Bool.true_eq_false, if_false]
  rfl
/-- The unit runs the only command of a leaf and completes it. -/
theorem exec_unitCommandComplete (hu : u ≤ 2) (hl : l < s.nLeaves) (hrun : s.branchRuns (l / 64) = true)
    (hq : (s.leaf l).queue = [unitCmd (unitOf u) op pc]) (hsw : (s.leaf l).swReq = false)
    (hb : (s.leaf l).block = .none ∨ (s.leaf l).block = .ending) :
    ∃ v, exec (.unitCommandComplete τ l (u, 0) none) s = .next v ∧ s.Ran v l (opResult (s.leaf l) (s.leafPlain l) op) := by
  generalize hr : opResult (s.leaf l) (s.leafPlain l) op = r
  obtain ⟨f, hran, hfault⟩ := State.runOp_of_alone (s := s.at τ) (c := unitCmd (unitOf u) op pc) hq rfl hr
  obtain ⟨ctxs, vregs, accs, hlf⟩ := opResult_onlyRegs (s.leaf l) (s.leafPlain l) op
  rw [hr] at hlf
  obtain ⟨m, n, hdone⟩ := Leaf.completes_eq (lf := r.lf.marked ((s.leaf l).poison.or r.why) f) (unitOf u)
    (by rw [hlf]; exact hq) (by rw [hlf]; exact hb)
  have hmod := hran.modLeaf (·.completes (unitOf u))
  have hexec := execUnitCommandComplete_of_alone (τ := τ) hu hl hrun hq
  generalize ((s.at τ).runOp l (unitCmd (unitOf u) op pc) none).modLeaf l (·.completes (unitOf u)) = s2 at hmod hexec
  rw [State.at_leaf, hdone] at hmod
  rw [State.pump_of_empty (by rw [hmod.1])] at hexec
  have hend : ∃ mode block, ((s.at τ).leafWrites l r.writes).changesLeaf (s2.endCheck l) l
      { r.lf.marked ((s.leaf l).poison.or r.why) f with queue := [], doneM := m, doneV := n, mode := mode, block := block } := by
    rcases s2.endCheck_quiet l (by rw [hmod.1, hlf]; exact hsw) with h | h
    · rw [h]
      exact ⟨_, _, hmod⟩
    · rw [h]
      exact ⟨_, _, hmod.modLeaf fun lf => { lf with mode := .waitPass, block := .none }⟩
  obtain ⟨mode, block, hleaf, hother, hmem⟩ := hend
  have hbase (l' : Nat) : ((s.at τ).leafWrites l r.writes).leaf l' = s.leaf l' := by
    unfold State.leaf
    rw [State.leafWrites_leaves]
    rfl
  refine ⟨_, hexec, ?_⟩
  exact
    { alike := by rw [hleaf]; exact .of_eq rfl rfl rfl rfl rfl
      queue := by rw [hleaf]
      poison := by rw [hleaf]; rfl
      fault := fun k a e hnone => by rw [hleaf]; exact hfault k a e hnone
      others := fun l' h' => (hother l' h').trans (hbase l')
      mem := hmem.trans (State.leafWrites_mem_congr (s.at_mem τ) l r.writes) }
end

section
variable {s v : State} {τ l u : Nat} {i : Instr} {g : Guard} {op : Leaf → UnitOp} {P : State → Prop}

/-- An instruction executed on a quiet leaf, and its command run by its unit: whatever holds of every state with the command's result
holds of the state they leave. -/
theorem State.runsOn_of_ran (hi : leafGuard i = some (l, g)) (hexec : exec i s = s.issueUnit l g (unitOf u) (leafUses i) op) (hu : u ≤ 2)
    (he : s.executes i) (hq : (s.leaf l).quiet)
    (hP : ∀ v, s.Ran v l (opResult (s.leaf l) (s.leafPlain l) (op (s.leaf l))) → P v) : s.runsOn τ l u i P := by
  obtain ⟨hempty, hsw⟩ := hq
  have hroom : (s.leaf l).hasRoom (unitOf u) 0 = true := by
    unfold Leaf.hasRoom Leaf.pendingOf unitOf
    rw [hempty]
    interval_cases u <;> rfl
  obtain ⟨t, hnext, ht⟩ := exec_issued hi hexec ⟨he, l, g, hi, hroom⟩
  have hqueue := ht.queue
  rw [hempty, List.nil_append] at hqueue
  obtain ⟨⟨l', g', e, hl, hc, -⟩, -⟩ := he
  rw [hi] at e
  cases e
  have hruns : s.branchRuns (l / 64) = true := by
    simp only [State.canIssue, Bool.and_eq_true] at hc
    exact hc.1.1
  have hruns' : t.branchRuns (l / 64) = true := by
    unfold State.branchRuns State.branch
    rw [ht.branches]
    exact hruns
  have hl' : l < t.nLeaves := by
    unfold State.nLeaves State.nBranches
    rw [ht.part]
    exact hl
  obtain ⟨v, hcomplete, hv⟩ := exec_unitCommandComplete (τ := τ) hu hl' hruns' hqueue (ht.alike.swReq.trans hsw) ht.block
  have halike := opResult_alike ht.alike (s.leafPlain l) (op (s.leaf l))
  rw [State.leafPlain_congr ht.mem] at hv
  refine ⟨t, v, _, hnext, hqueue, rfl, ht.scalarFrame, hcomplete, hv.queue, hP v ?_⟩
  exact
    { alike := halike.lf.trans hv.alike
      queue := hv.queue
      poison := by rw [hv.poison, ht.poison, halike.why]
      fault := fun k a e hnone => hv.fault k a (halike.fault.trans e) (ht.fault.trans hnone)
      others := fun l' h' => (hv.others l' h').trans (ht.others l' h')
      mem := by rw [hv.mem, halike.writes]; exact State.leafWrites_mem_congr ht.mem l _ }

variable {r : OpResult} {rd : Option (BitVec 5)} {pd : BitVec 3 → Bool} {fl : Bool} {vd : Option (BitVec 4)} {ac : Option (BitVec 2)}

theorem State.Ran.frame (h : s.Ran v l r) (hf : Leaf.Frame rd pd fl vd ac (s.leaf l) r.lf) :
    s.ctxFrame v l rd pd fl ∧ s.unitRegsFrame v l vd ac := by
  have hframe := hf.trans h.alike.frame
  exact ⟨hframe.ctxFrame fun l' h' => by rw [h.others l' h'], hframe.unitRegsFrame⟩
theorem State.Ran.memSame (h : s.Ran v l r) (hw : r.writes = []) : s.memSame v := by
  intro k
  unfold State.memByte
  rw [h.mem, hw]
  rfl
end

end Sys2Proof.Machine
end

section
/-! Vector arithmetic (03 R109, R111, R118): VOP, VSF and VCMP. -/

namespace Sys2Proof.Machine

/-! ### Lanes of a vector register -/

theorem tget_filterMap {α : Type} [DecidableEq α] (d : α) (f : Nat → α) (is : List Nat) (i : Nat) :
    tget d (is.filterMap fun i => if f i = d then none else some (i, f i)) i = if i ∈ is then f i else d := by
  induction is with
  | nil => rfl
  | cons j is ih =>
    rw [List.filterMap_cons]
    by_cases hj : f j = d
    · rw [if_pos hj]
      by_cases hij : i = j
      · subst hij
        simp only [ih, List.mem_cons_self, hj, ite_self]
      · simp only [ih, List.mem_cons, hij, false_or]
    · rw [if_neg hj]
      by_cases hij : i = j
      · simp [tget, hij]
      · simp only [tget, hij, if_false, ih, List.mem_cons, false_or]
/-- A table of a function holds the function's values. -/
theorem tget_tabOf {α : Type} [DecidableEq α] (d : α) (n : Nat) (f : Nat → α) (i : Nat) :
    tget d (tabOf d n f) i = if i < n then f i else d := by
  unfold tabOf
  rw [tget_filterMap]
  simp only [List.mem_range]
theorem tabOf_congr {α : Type} [DecidableEq α] {d : α} {n : Nat} {f g : Nat → α} (h : ∀ i, i < n → f i = g i) :
    tabOf d n f = tabOf d n g :=
  List.filterMap_congr fun i hi => by rw [h i (List.mem_range.1 hi)]

/-- A vector command computed from registers at its issue leaves what the same lanes leave when its unit runs it. -/
theorem opResult_vecOp (lf : Leaf) (rd : LeafReader) (vd : BitVec 4) (f : Nat → Word × FFlags) (why : Option Byte) :
    opResult lf rd (lf.vecOp vd f why) = vecResult lf vd f why 0 := by
  have hlanes : tabOf (0 : Word) 64 (fun i => if i < lf.vw then tget 0 (tabOf 0 64 fun i => if i < lf.vw then (f i).1 else 0) i else 0) =
      tabOf 0 64 fun i => if i < lf.vw then (f i).1 else 0 := by
    refine tabOf_congr fun i hi => ?_
    rw [tget_tabOf, if_pos hi]
    split <;> rfl
  simp only [opResult, Leaf.vecOp, vecResult, Leaf.setVreg, hlanes]

/-! ### What a command of the vector unit leaves -/

section
variable {s v : State} {l : Nat} {r : OpResult} {vd : BitVec 4}

theorem State.Ran.flags (h : s.Ran v l r) (hactive : r.lf.active = (s.leaf l).active) :
    ((v.leaf l).ctxAt (s.leaf l).active).flags = r.lf.ctx.flags := by
  rw [← hactive, ← h.alike.active]
  exact h.alike.flags
theorem State.Ran.prd (h : s.Ran v l r) (hactive : r.lf.active = (s.leaf l).active) (p : BitVec 3) :
    v.prd l (s.leaf l).active p = r.lf.pred p := by
  rw [← hactive, ← h.alike.active]
  exact h.alike.pred p
theorem State.Ran.gpr (h : s.Ran v l r) (hactive : r.lf.active = (s.leaf l).active) (x : BitVec 5) :
    v.gpr l (s.leaf l).active x = r.lf.reg x := by
  rw [← hactive, ← h.alike.active]
  exact h.alike.reg x
/-- A register written below the vector width. -/
theorem State.Ran.lanes (h : s.Ran v l r) {f : Nat → Word} {why : Option Byte}
    (hv : r.lf.vreg vd = ((s.leaf l).setVreg vd f why).vreg vd) :
    (∀ i, i < 64 → ((v.leaf l).vreg vd).lane i = if i < (s.leaf l).vw then f i else 0) ∧ ((v.leaf l).vreg vd).poison = why := by
  rw [h.alike.vreg, hv, Leaf.vreg_setVreg_same]
  refine ⟨fun i hi => ?_, rfl⟩
  unfold VecReg.lane
  rw [tget_tabOf, if_pos hi]

/-- A result in a vector register: its lanes and poison, the poison consumed and the flags raised, and nothing else. -/
theorem State.Ran.of_vecResult {f : Nat → Word × FFlags} {why : Option Byte} {at0 : Nat}
    (h : s.Ran v l (vecResult (s.leaf l) vd f why at0)) :
    (∀ i, i < 64 → ((v.leaf l).vreg vd).lane i = if i < (s.leaf l).vw then (f i).1 else 0) ∧ ((v.leaf l).vreg vd).poison = why ∧
      (v.leaf l).poison = (s.leaf l).poison.or why ∧
      ((v.leaf l).ctxAt (s.leaf l).active).flags = (s.leaf l).ctx.flags ||| laneFlags (s.leaf l).vw f ∧
      s.memSame v ∧ s.ctxFrame v l none noPred true ∧ s.unitRegsFrame v l (some vd) none := by
  obtain ⟨hlanes, hpoison⟩ := h.lanes (vd := vd) (f := fun i => (f i).1) (why := why) rfl
  exact ⟨hlanes, hpoison, h.poison, (h.flags rfl).trans (Leaf.flags_addFlags _ _), h.memSame rfl,
    h.frame (((Leaf.Frame.refl _).setVreg _ _).addFlags _)⟩
/-- A result in two predicate registers. -/
theorem State.Ran.of_compare {pd : BitVec 3} {lo hi : Word} {why : Option Byte} {fl : FFlags} {at0 : Nat}
    (h : s.Ran v l ⟨[], (((s.leaf l).setPred pd lo).setPred (pd + 1) hi).addFlags fl, none, why, at0⟩) :
    v.prd l (s.leaf l).active pd = lo ∧ v.prd l (s.leaf l).active (pd + 1) = hi ∧ (v.leaf l).poison = (s.leaf l).poison.or why ∧
      ((v.leaf l).ctxAt (s.leaf l).active).flags = (s.leaf l).ctx.flags ||| fl ∧ s.memSame v ∧
      s.ctxFrame v l none (fun p => p == pd || p == pd + 1) true ∧ s.unitRegsFrame v l none none := by
  have hne : pd ≠ pd + 1 := by bv_omega
  refine ⟨?_, ?_, h.poison, ?_, h.memSame rfl,
    h.frame ((((Leaf.Frame.refl _).setPred lo (by simp)).setPred hi (by simp)).addFlags fl)⟩
  · rw [h.prd rfl, Leaf.pred_addFlags, Leaf.pred_setPred_other _ _ hne, Leaf.pred_setPred_same]
  · rw [h.prd rfl, Leaf.pred_addFlags, Leaf.pred_setPred_same]
  · rw [h.flags rfl, Leaf.flags_addFlags, Leaf.flags_setPred, Leaf.flags_setPred]
end

/-! ### The instructions -/

section
variable {s : State} {l : Nat} {g : Guard} {vd va vb vc fn : BitVec 4} {ps pd cond : BitVec 3}

@[simp] theorem firstWhy_nil : firstWhy [] = none := rfl
@[simp] theorem firstWhy_cons (o : Option Byte) (l : List (Option Byte)) : firstWhy (o :: l) = o.or (firstWhy l) := by
  cases o <;> rfl
/-- The poison that VOP consumes: the first of the sources its function reads. -/
def Leaf.vopWhy (lf : Leaf) (va vb vc fn : BitVec 4) : Option Byte :=
  firstWhy ([(lf.vreg va).poison] ++ (if fn = 7 then [] else [(lf.vreg vb).poison]) ++ (if fn = 3 then [(lf.vreg vc).poison] else []))
theorem Leaf.vopWhy_eq (lf : Leaf) (va vb vc fn : BitVec 4) :
    lf.vopWhy va vb vc fn = firstWhy [(lf.vreg va).poison, if fn = 7 then none else (lf.vreg vb).poison,
      if fn = 3 then (lf.vreg vc).poison else none] := by
  unfold Leaf.vopWhy
  split_ifs <;> simp only [List.cons_append, List.nil_append, List.append_nil, firstWhy_cons, firstWhy_nil, Option.none_or, Option.or_none]
/-- Lane i of VOP's result. -/
def Leaf.vopAt (lf : Leaf) (va vb vc fn : BitVec 4) (ps : BitVec 3) (i : Nat) : Word × FFlags :=
  vopLane fn.toNat (lf.selBit ps i) ((lf.vreg va).lane i) ((lf.vreg vb).lane i) ((lf.vreg vc).lane i)
/-- The lanes of VCMP that meet its condition. -/
def Leaf.vcmpAt (lf : Leaf) (va vb : BitVec 4) (cond : BitVec 3) (i : Nat) : Bool :=
  decide (i < lf.vw) && fp32Cond cond.toNat ((lf.vreg va).lane i) ((lf.vreg vb).lane i)
/-- The flag that lane i of VCMP raises: a NaN consumed (02 R59). -/
def Leaf.vcmpFlag (lf : Leaf) (va vb : BitVec 4) (i : Nat) : Word × FFlags :=
  (0, if isNanV (ofFp32 ((lf.vreg va).lane i)) || isNanV (ofFp32 ((lf.vreg vb).lane i)) then flNanIn else 0)

theorem exec_vop (hfn : fn.toNat ≤ 7) (hps : fn = 6 → ps.toNat % 2 = 0) :
    exec (.vop l g vd va vb vc fn ps) s = s.issueUnit l g .vector (leafUses (.vop l g vd va vb vc fn ps))
      (fun lf => lf.vecOp vd (lf.vopAt va vb vc fn ps) (lf.vopWhy va vb vc fn)) :=
  if_neg (by
    rintro (h | ⟨h6, h⟩)
    · omega
    · have := hps h6
      omega)
theorem exec_vsf (hfn : fn.toNat ≤ 5) :
    exec (.vsf l g vd va fn) s = s.issueUnit l g .vector (leafUses (.vsf l g vd va fn))
      (fun lf => lf.vecOp vd (fun i => special fn.toNat ((lf.vreg va).lane i)) (lf.vreg va).poison) :=
  if_neg (by omega)
theorem exec_vcmp (hcond : cond.toNat ≤ 6) (hpd : pd.toNat % 2 = 0) :
    exec (.vcmp l g pd va vb cond) s = s.issueUnit l g .vector (leafUses (.vcmp l g pd va vb cond))
      (fun lf => .compare pd (predWord 0 (lf.vcmpAt va vb cond)) (predWord 32 (lf.vcmpAt va vb cond))
        (firstWhy [(lf.vreg va).poison, (lf.vreg vb).poison]) (laneFlags lf.vw (lf.vcmpFlag va vb))) :=
  if_neg (by omega)
/-- The lane function that FN names (03 R109). -/
theorem Leaf.vopAt_eq (lf : Leaf) (va vb vc fn : BitVec 4) (ps : BitVec 3) (i : Nat) :
    lf.vopAt va vb vc fn ps i =
      if fn = 0 then fp32Add ((lf.vreg va).lane i) ((lf.vreg vb).lane i)
      else if fn = 1 then fp32Sub ((lf.vreg va).lane i) ((lf.vreg vb).lane i)
      else if fn = 2 then fp32Mul ((lf.vreg va).lane i) ((lf.vreg vb).lane i)
      else if fn = 3 then fp32Fma ((lf.vreg va).lane i) ((lf.vreg vb).lane i) ((lf.vreg vc).lane i)
      else if fn = 4 then fp32Min ((lf.vreg va).lane i) ((lf.vreg vb).lane i)
      else if fn = 5 then fp32Max ((lf.vreg va).lane i) ((lf.vreg vb).lane i)
      else if fn = 6 then (if (lf.pred (if i < 32 then ps else ps + 1)).toNat.testBit (i % 32) then (lf.vreg va).lane i
        else (lf.vreg vb).lane i, 0)
      else ((lf.vreg va).lane i, 0) := by
  have hsel : lf.selBit ps i = (lf.pred (if i < 32 then ps else ps + 1)).toNat.testBit (i % 32) := by
    unfold Leaf.selBit maskBit
    split <;> rfl
  unfold Leaf.vopAt vopLane
  simp only [hsel, BitVec.toNat_eq]
  rfl
end

/-! ### Predicate words -/

/-- Bit i of a word of 32 conditions is the condition of its lane. -/
theorem testBit_sumBits (p : Nat → Bool) (n : Nat) :
    (∀ i, ((List.range n).foldl (fun x i => if p i then x + 2 ^ i else x) 0).testBit i = (decide (i < n) && p i)) ∧
      (List.range n).foldl (fun x i => if p i then x + 2 ^ i else x) 0 < 2 ^ n := by
  induction n with
  | zero => simp
  | succ n ih =>
    rw [List.range_succ, List.foldl_append]
    generalize (List.range n).foldl (fun x i => if p i then x + 2 ^ i else x) 0 = x at ih
    obtain ⟨hbits, hlt⟩ := ih
    have hpow : 2 ^ (n + 1) = 2 ^ n + 2 ^ n := by omega
    simp only [List.foldl_cons, List.foldl_nil]
    cases hp : p n with
    | false =>
      refine ⟨fun i => ?_, by simp only [Bool.false_eq_true, if_false]; omega⟩
      simp only [Bool.false_eq_true, if_false, hbits]
      by_cases hi : i = n
      · simp [hi, hp]
      · rw [show decide (i < n + 1) = decide (i < n) by simp only [decide_eq_decide]; omega]
    | true =>
      refine ⟨fun i => ?_, by simp only [if_true]; omega⟩
      simp only [if_true]
      by_cases hi : i = n
      · rw [hi, Nat.add_comm, Nat.testBit_two_pow_add_eq, hbits]
        simp [hp]
      · by_cases hlt' : i < n
        · rw [Nat.add_comm, Nat.testBit_two_pow_add_gt hlt', hbits]
          simp only [hlt', Nat.lt_succ_of_lt hlt']
        · rw [Nat.testBit_lt_two_pow (lt_of_lt_of_le (show x + 2 ^ n < 2 ^ (n + 1) by omega)
            (Nat.pow_le_pow_right (by omega) (by omega)))]
          simp only [show ¬ i < n + 1 by omega, decide_false, Bool.false_and]
theorem testBit_predWord (lo : Nat) (f : Nat → Bool) {i : Nat} (hi : i < 32) : (predWord lo f).toNat.testBit i = f (lo + i) := by
  obtain ⟨hbits, hlt⟩ := testBit_sumBits (fun i => f (lo + i)) 32
  unfold predWord
  rw [BitVec.toNat_ofNat, Nat.mod_eq_of_lt hlt, hbits]
  simp [hi]

/-- Settles O13: the command's result is that of its lanes, or the two predicate words. -/
theorem vectorArithmetic : Obligations.VectorArithmetic := by
  unfold Obligations.VectorArithmetic
  intro s τ l g vd va vb vc fn ps pd cond
  refine ⟨fun he hq hfn hps => ?_, fun he hq hfn => ?_, fun he hq hcond hpd => ?_, fun i hi hwf he => ?_⟩
  · refine State.runsOn_of_ran rfl (exec_vop hfn hps) (by decide) he hq fun v hv => ?_
    rw [opResult_vecOp, Leaf.vopWhy_eq, funext ((s.leaf l).vopAt_eq va vb vc fn ps)] at hv
    exact hv.of_vecResult
  · refine State.runsOn_of_ran rfl (exec_vsf hfn) (by decide) he hq fun v hv => ?_
    rw [opResult_vecOp] at hv
    exact hv.of_vecResult
  · refine State.runsOn_of_ran rfl (exec_vcmp hcond hpd) (by decide) he hq fun v hv => ?_
    obtain ⟨hlo, hhi, hrest⟩ := hv.of_compare
    refine ⟨fun i hi => ⟨?_, ?_⟩, hrest⟩
    · rw [hlo, testBit_predWord 0 _ hi, Nat.zero_add]
      rfl
    · rw [hhi, testBit_predWord 32 _ hi]
      rfl
  · rcases hi with rfl | rfl | rfl
    · have hwf' : fn.toNat ≤ 7 ∧ (fn = 6 → ps.toNat % 2 = 0) := by
        simp [Instr.wf] at hwf
        exact ⟨hwf.1, fun h => hwf.2.resolve_left (by simp [h])⟩
      exact ⟨_, State.issues_of_exec rfl (exec_vop hwf'.1 hwf'.2) he⟩
    · exact ⟨_, State.issues_of_exec rfl (exec_vsf (by simpa [Instr.wf] using hwf)) he⟩
    · have hwf' : cond.toNat ≤ 6 ∧ pd.toNat % 2 = 0 := by simpa [Instr.wf] using hwf
      exact ⟨_, State.issues_of_exec rfl (exec_vcmp hwf'.1 hwf'.2) he⟩

end Sys2Proof.Machine
end

section
/-! Vector moves (03 R88, R109, R110, R111): VMOV, VLD, VST, VLDT and VSTT, and what a unit's command stores in leaf memory. -/

namespace Sys2Proof.Machine

/-! ### Bytes of leaf memory -/

/-- Two bytes of a leaf's memory within its size of one another. -/
theorem leafKey_add_inj {l a x y : Nat} (hx : x < 0x40000) (hy : y < 0x40000) (h : leafKey l (a + x) = leafKey l (a + y)) : x = y := by
  unfold leafKey at h
  omega
theorem State.memByte_leafWrite_outside (s : State) {l a k : Nat} {bs : List Byte} (h : ∀ i, i < bs.length → k ≠ leafKey l (a + i)) :
    (s.leafWrite l a bs).memByte k = s.memByte k := by
  induction bs generalizing s a with
  | nil => rfl
  | cons b bs ih =>
    have hrest : ∀ i, i < bs.length → k ≠ leafKey l (a + 1 + i) := fun i hi => by
      rw [show a + 1 + i = a + (i + 1) by omega]
      exact h (i + 1) (by simpa using hi)
    rw [State.leafWrite, ih _ hrest, memByte_set_other _ _ _ _ (by simpa using h 0 (by simp))]
theorem State.memByte_leafWrite_inside (s : State) {l a i : Nat} {bs : List Byte} (hlen : bs.length ≤ 0x40000) (hi : i < bs.length) :
    (s.leafWrite l a bs).memByte (leafKey l (a + i)) = bs.getD i 0 := by
  induction bs generalizing s a i with
  | nil => cases hi
  | cons b bs ih =>
    rw [List.length_cons] at hlen hi
    rw [State.leafWrite]
    cases i with
    | zero =>
      have hnext : ∀ j, j < bs.length → leafKey l (a + 0) ≠ leafKey l (a + 1 + j) := fun j hj e => by
        have := leafKey_add_inj (show 0 < 0x40000 by omega) (show 1 + j < 0x40000 by omega) (e.trans (by rw [Nat.add_assoc]))
        omega
      rw [State.memByte_leafWrite_outside _ hnext]
      exact memByte_set_same s (leafKey l a) b
    | succ i =>
      rw [show a + (i + 1) = a + 1 + i by omega]
      exact ih _ (by omega) (by omega)

/-- The bytes of two writes are different bytes of leaf memory. -/
def writesApart (w w' : Nat × List Byte) : Prop :=
  ∀ i, i < w.2.length → ∀ j, j < w'.2.length → ∀ l, leafKey l (w.1 + i) ≠ leafKey l (w'.1 + j)
theorem State.memByte_leafWrites_outside (s : State) {l k : Nat} {ws : List (Nat × List Byte)}
    (h : ∀ w ∈ ws, ∀ i, i < w.2.length → k ≠ leafKey l (w.1 + i)) : (s.leafWrites l ws).memByte k = s.memByte k := by
  induction ws generalizing s with
  | nil => rfl
  | cons w ws ih =>
    rw [List.forall_mem_cons] at h
    rw [State.leafWrites, ih _ h.2, State.memByte_leafWrite_outside s h.1]
/-- Of writes that are apart each one stands in leaf memory. -/
theorem State.memByte_leafWrites_inside (s : State) {l i : Nat} {w : Nat × List Byte} {ws : List (Nat × List Byte)}
    (hd : ws.Pairwise writesApart) (hw : w ∈ ws) (hlen : w.2.length ≤ 0x40000) (hi : i < w.2.length) :
    (s.leafWrites l ws).memByte (leafKey l (w.1 + i)) = w.2.getD i 0 := by
  induction ws generalizing s with
  | nil => cases hw
  | cons w' ws ih =>
    rw [List.pairwise_cons] at hd
    rw [State.leafWrites]
    rcases List.mem_cons.1 hw with rfl | hw
    · rw [State.memByte_leafWrites_outside _ fun x hx j hj => hd.1 x hx i hi j hj l, State.memByte_leafWrite_inside s hlen hi]
    · exact ih _ hd.2 hw

section
variable {s v : State} {l : Nat} {r : OpResult}

theorem State.Ran.memByte (h : s.Ran v l r) (k : Nat) : v.memByte k = (s.leafWrites l r.writes).memByte k := by
  unfold State.memByte
  rw [h.mem]
/-- One write of a command stands in leaf memory. -/
theorem State.Ran.leafStored (h : s.Ran v l r) {a : Nat} {bs : List Byte} (hw : r.writes = [(a, bs)]) (hlen : bs.length ≤ 0x40000) :
    s.leafStored v l a bs := by
  have hmem (k : Nat) : v.memByte k = (s.leafWrite l a bs).memByte k := by rw [h.memByte, hw]; rfl
  exact ⟨fun i hi => by rw [hmem, s.memByte_leafWrite_inside hlen hi], fun k hk => by rw [hmem, s.memByte_leafWrite_outside hk]⟩
theorem State.leafStored_nil (h : s.memSame v) (a : Nat) : s.leafStored v l a [] := ⟨nofun, fun k _ => h k⟩

/-- A store changes memory, consumes the poison of what it stores, and raises flags. -/
theorem State.Ran.of_store {ws : List (Nat × List Byte)} {why : Option Byte} {fl : FFlags} {at0 : Nat}
    (h : s.Ran v l ⟨ws, (s.leaf l).addFlags fl, none, why, at0⟩) :
    (v.leaf l).poison = (s.leaf l).poison.or why ∧ s.ctxFrame v l none noPred true ∧ s.unitRegsFrame v l none none :=
  ⟨h.poison, h.frame ((Leaf.Frame.refl _).addFlags fl)⟩
/-- A result in a general register. -/
theorem State.Ran.of_scalar {rd : BitVec 5} {x : Word} {why : Option Byte} {fl : FFlags} {at0 : Nat}
    (h : s.Ran v l ⟨[], ((s.leaf l).setReg rd x).addFlags fl, none, why, at0⟩) :
    v.gpr l (s.leaf l).active rd = x ∧ (v.leaf l).poison = (s.leaf l).poison.or why ∧ s.memSame v ∧
      s.ctxFrame v l (some rd) noPred true ∧ s.unitRegsFrame v l none none := by
  refine ⟨?_, h.poison, h.memSame rfl, h.frame (((Leaf.Frame.refl _).setReg x).addFlags fl)⟩
  rw [h.gpr rfl, Leaf.reg_addFlags, Leaf.reg_setReg_same]
end

/-! ### Operands of another format -/

/-- What an operand of another format carries: its own reason, or a format error. -/
theorem TileHdr.whyAs_of_ne {h : TileHdr} {code : Nat} (hne : h.fmt ≠ code) : h.whyAs code = some (h.why.getD 0x01) := by
  unfold TileHdr.whyAs
  cases h.why with
  | some r => rfl
  | none => exact if_neg hne
/-- The result in a vector register of a tile of another format: +0 lanes, poison and a KIND 2 fault. -/
def mismatchVec (lf : Leaf) (vd : BitVec 4) (h : TileHdr) (code a : Nat) : OpResult :=
  ⟨[], lf.setVreg vd (fun _ => 0) (h.whyAs code), some (2, a), h.whyAs code, a⟩
theorem State.Ran.of_mismatchVec {s v : State} {l : Nat} {vd : BitVec 4} {h : TileHdr} {code a : Nat}
    (hv : s.Ran v l (mismatchVec (s.leaf l) vd h code a)) (hne : h.fmt ≠ code) :
    (∀ i, i < 64 → ((v.leaf l).vreg vd).lane i = 0) ∧ ((v.leaf l).vreg vd).poison = some (h.why.getD 0x01) ∧
      (v.leaf l).poison = (s.leaf l).poison.or (some (h.why.getD 0x01)) ∧ (s.leaf l).formatFault (v.leaf l) ∧
      s.memSame v ∧ s.ctxFrame v l none noPred true ∧ s.unitRegsFrame v l (some vd) none := by
  rw [← TileHdr.whyAs_of_ne hne]
  obtain ⟨hlanes, hpoison⟩ := hv.lanes (vd := vd) (f := fun _ => 0) (why := h.whyAs code) rfl
  simp only [ite_self] at hlanes
  exact ⟨hlanes, hpoison, hv.poison, hv.fault 2 a rfl, hv.memSame rfl, hv.frame ((Leaf.Frame.refl _).setVreg _ _)⟩

/-! ### Stored rows -/

theorem length_packRow (bits : Nat) (raws : List Nat) : (packRow bits raws).length = bits * raws.length / 8 := length_leBytes _ _
theorem length_encBlock (e : Elem) (vs : List Val) : (encBlock e vs).2.1.length = vs.length := by
  unfold encBlock
  split
  · exact List.length_map _
  split
  · exact List.length_map _
  split
  · exact List.length_map _
  · exact List.length_map _
/-- A format of the vector unit has elements of its own. -/
theorem formatOf_of_okVector {code : Nat} (h : okVector code = true) : ∃ e sc, formatOf code = .plain e sc := by
  simp only [okVector, isReservedCode, Bool.and_eq_true, Bool.not_eq_true', bne_iff_ne, beq_eq_false_iff_ne] at h
  obtain ⟨hres, h30⟩ := h
  cases hf : formatOf code with
  | plain e sc => exact ⟨e, sc, rfl⟩
  | reserved => exact absurd hf hres
  | acc96 =>
    unfold formatOf at hf
    split_ifs at hf
theorem length_storeRow {code : Nat} (sat : Bool) (ws : List Word) (h : okVector code = true) :
    (storeRow code sat ws).2.1.length = codeBits code * ws.length / 8 := by
  obtain ⟨e, sc, hf⟩ := formatOf_of_okVector h
  unfold storeRow codeBits
  rw [hf]
  cases sc <;> simp only [length_packRow, List.length_map, length_encBlock]
theorem codeBits_le : ∀ f : BitVec 5, codeBits f.toNat ≤ 128 := by decide
theorem rowBytes_le_of_okVector : ∀ f : BitVec 5, okVector f.toNat = true → rowBytes f.toNat ≤ 128 := by decide

/-! ### The instructions -/

section
variable {s : State} {l : Nat} {g : Guard} {v pair : BitVec 4} {ra rp f : BitVec 5} {lane : BitVec 6} {cvt sat pr : Bool}

/-- Lane i loaded from the values of two rows. -/
def loadLane (es : List Val) (i : Nat) : Word × FFlags := toFp32 (es.getD i (.fin false 0 0))
/-- The two rows of a pair of the tile at a. -/
def pairVals (rd : LeafReader) (a code q : Nat) : List Val :=
  rowVals code ((hdrAt rd a).scales.getD (2 * q) 0) (rowAt rd a code (2 * q)) ++
    rowVals code ((hdrAt rd a).scales.getD (2 * q + 1) 0) (rowAt rd a code (2 * q + 1))
/-- The rows that VSTT stores: scales, bytes and flags. -/
def Leaf.storedPair (lf : Leaf) (v : BitVec 4) (code : Nat) (sat : Bool) : (Byte × List Byte × FFlags) × (Byte × List Byte × FFlags) :=
  (storeRow code sat ((List.range 32).map fun i => (lf.vreg v).lane i),
    storeRow code sat ((List.range 32).map fun i => (lf.vreg v).lane (32 + i)))

theorem exec_vmov_toVector :
    exec (.vmov l g v ra false lane cvt) s = s.issueUnit l g .vector (leafUses (.vmov l g v ra false lane cvt))
      (fun lf => lf.vecOp v (fun _ => if cvt then toFp32 (decInt 32 (lf.reg ra).toNat) else (lf.reg ra, 0)) none) := rfl
theorem exec_vmov_toScalar :
    exec (.vmov l g v ra true lane cvt) s = s.issueUnit l g .vector (leafUses (.vmov l g v ra true lane cvt))
      (fun lf =>
        let x := (lf.vreg v).lane lane.toNat
        let c := if cvt then encInt 32 0 (ofFp32 x) else (x.toNat, 0)
        .scalar ra (BitVec.ofNat 32 c.1) (lf.vreg v).poison (if lane.toNat < lf.vw then c.2 else 0)) := rfl
theorem exec_vld (hf : okUnscaledVec f.toNat = true) :
    exec (.vld l g v ra f) s = s.issueUnit l g .vector (leafUses (.vld l g v ra f))
      (fun lf => .loadFlat v (lineOf (lf.reg ra).toNat) f.toNat) := if_neg (by simp [hf])
theorem exec_vst (hf : okUnscaledVec f.toNat = true) :
    exec (.vst l g v ra f sat) s = s.issueUnit l g .vector (leafUses (.vst l g v ra f sat))
      (fun lf =>
        let r := storeRow f.toNat sat ((List.range 64).map fun i => (lf.vreg v).lane i)
        .store [(lineOf (lf.reg ra).toNat, r.2.1)] false (lineOf (lf.reg ra).toNat) (lf.vreg v).poison r.2.2) :=
  if_neg (by simp [hf])
theorem exec_vldt (hf : okVector f.toNat = true) :
    exec (.vldt l g v ra f rp pr pair) s = s.issueUnit l g .vector (leafUses (.vldt l g v ra f rp pr pair))
      (fun lf => .loadTile v (lineOf (lf.reg ra).toNat) f.toNat (lf.pairOf rp pr pair)) := if_neg (by simp [hf])
theorem exec_vstt (hf : okVector f.toNat = true) :
    exec (.vstt l g v ra f sat rp pr pair) s = s.issueUnit l g .vector (leafUses (.vstt l g v ra f sat rp pr pair))
      (fun lf =>
        let a := lineOf (lf.reg ra).toNat
        let q := lf.pairOf rp pr pair
        let r := lf.storedPair v f.toNat sat
        let rows := (a + 64 + 2 * q * rowBytes f.toNat, r.1.2.1 ++ r.2.2.1)
        .store (if isScaled f.toNat then [rows, (a + 32 + 2 * q, [r.1.1, r.2.1])] else [rows]) true a (lf.vreg v).poison
          (r.1.2.2 ||| r.2.2.2)) := if_neg (by simp [hf])
end

theorem opResult_loadTile (lf : Leaf) (rd : LeafReader) (vd : BitVec 4) (a fi q : Nat) :
    opResult lf rd (.loadTile vd a fi q) = runLoadTile lf rd vd a fi q := rfl
theorem runLoadTile_of_eq {lf : Leaf} {rd : LeafReader} {vd : BitVec 4} {a fi q : Nat} (h : (hdrAt rd a).fmt = fi) :
    runLoadTile lf rd vd a fi q = vecResult lf vd (loadLane (pairVals rd a fi q)) (hdrAt rd a).why a := if_neg (not_not.2 h)
theorem runLoadTile_of_ne {lf : Leaf} {rd : LeafReader} {vd : BitVec 4} {a fi q : Nat} (h : (hdrAt rd a).fmt ≠ fi) :
    runLoadTile lf rd vd a fi q = mismatchVec lf vd (hdrAt rd a) fi a := if_pos h
theorem Leaf.pairOf_le (lf : Leaf) (rp : BitVec 5) (pr : Bool) (pair : BitVec 4) : lf.pairOf rp pr pair ≤ 15 := by
  unfold Leaf.pairOf
  split <;> omega

/-! ### What VSTT stores -/

/-- The writes of VSTT: the rows of pair q, for scaled formats their scales, and the header's poison flag for a poisoned register. -/
theorem mem_vsttWrites {rd : LeafReader} {scaled : Bool} {rows scales w : Nat × List Byte} {a : Nat} {why : Option Byte} :
    w ∈ storeWrites rd (if scaled then [rows, scales] else [rows]) true a why ↔
      w = rows ∨ (scaled = true ∧ w = scales) ∨ (why.isSome = true ∧ w = (a + 1, (rd (a + 1) 1).map (· ||| 1))) := by
  unfold storeWrites
  cases scaled <;> cases why <;> simp
theorem vsttWrites_sublist (rd : LeafReader) (scaled : Bool) (rows scales : Nat × List Byte) (a : Nat) (why : Option Byte) :
    (storeWrites rd (if scaled then [rows, scales] else [rows]) true a why).Sublist
      [rows, scales, (a + 1, (rd (a + 1) 1).map (· ||| 1))] := by
  unfold storeWrites
  cases scaled <;> cases why <;> simp
theorem writesApart_of_offsets {a x y : Nat} {bs cs : List Byte} (h : x + bs.length ≤ y ∨ y + cs.length ≤ x)
    (hx : x + bs.length ≤ 0x40000) (hy : y + cs.length ≤ 0x40000) : writesApart (a + x, bs) (a + y, cs) := by
  intro i hi j hj l e
  dsimp only at hi hj e
  rw [Nat.add_assoc, Nat.add_assoc] at e
  have := leafKey_add_inj (by omega) (by omega) e
  omega

section
variable {s v : State} {l a q rb : Nat} {b0 b1 : Byte} {rows : List Byte} {scaled : Bool} {why : Option Byte} {r : OpResult}

/-- Memory after the writes of VSTT. -/
theorem State.Ran.of_vstt (h : s.Ran v l r)
    (hw : r.writes = storeWrites (s.leafPlain l)
      (if scaled then [(a + 64 + 2 * q * rb, rows), (a + 32 + 2 * q, [b0, b1])] else [(a + 64 + 2 * q * rb, rows)]) true a why)
    (hrows : rows.length = 2 * rb) (hq : q ≤ 15) (hrb : rb ≤ 128) :
    (∀ i, i < 2 * rb → v.memByte (leafKey l (a + 64 + 2 * q * rb + i)) = rows.getD i 0) ∧
    (scaled = true → v.memByte (leafKey l (a + 32 + 2 * q)) = b0 ∧ v.memByte (leafKey l (a + 33 + 2 * q)) = b1) ∧
    v.memByte (leafKey l (a + 1)) = (if why.isSome then s.memByte (leafKey l (a + 1)) ||| 1 else s.memByte (leafKey l (a + 1))) ∧
    (∀ k, (∀ i, i < 2 * rb → k ≠ leafKey l (a + 64 + 2 * q * rb + i)) → k ≠ leafKey l (a + 1) →
      (scaled = true → k ≠ leafKey l (a + 32 + 2 * q) ∧ k ≠ leafKey l (a + 33 + 2 * q)) → v.memByte k = s.memByte k) := by
  have hrow : 2 * q * rb ≤ 30 * 128 := Nat.mul_le_mul (by omega) hrb
  have hmark : (s.leafPlain l (a + 1) 1).map (· ||| 1) = [s.memByte (leafKey l (a + 1)) ||| 1] := rfl
  have hmem (w : Nat × List Byte) : w ∈ r.writes ↔ w = (a + 64 + 2 * q * rb, rows) ∨ (scaled = true ∧ w = (a + 32 + 2 * q, [b0, b1])) ∨
      (why.isSome = true ∧ w = (a + 1, [s.memByte (leafKey l (a + 1)) ||| 1])) := by
    rw [hw, mem_vsttWrites, hmark]
  have hd : r.writes.Pairwise writesApart := by
    rw [hw]
    refine List.Pairwise.sublist (vsttWrites_sublist ..) ?_
    rw [hmark]
    simp only [List.pairwise_cons, List.forall_mem_cons, List.not_mem_nil, false_imp_iff, implies_true, and_true, List.Pairwise.nil]
    rw [Nat.add_assoc, Nat.add_assoc a 32]
    exact ⟨⟨writesApart_of_offsets (by simp; omega) (by omega) (by simp; omega),
      writesApart_of_offsets (by simp; omega) (by omega) (by simp)⟩, writesApart_of_offsets (by simp; omega) (by simp; omega) (by simp)⟩
  have hin {x : Nat} {bs : List Byte} (hw : (x, bs) ∈ r.writes) (hlen : bs.length ≤ 0x40000) (i : Nat) (hi : i < bs.length) :
      v.memByte (leafKey l (x + i)) = bs.getD i 0 := by
    rw [h.memByte]
    exact s.memByte_leafWrites_inside hd hw hlen hi
  have hout (k : Nat) (hrows' : ∀ i, i < 2 * rb → k ≠ leafKey l (a + 64 + 2 * q * rb + i))
      (hpoison : why.isSome = true → k ≠ leafKey l (a + 1))
      (hscales : scaled = true → k ≠ leafKey l (a + 32 + 2 * q) ∧ k ≠ leafKey l (a + 33 + 2 * q)) : v.memByte k = s.memByte k := by
    rw [h.memByte]
    refine s.memByte_leafWrites_outside fun w hw i hi => ?_
    rcases (hmem w).1 hw with rfl | ⟨hs, rfl⟩ | ⟨hp, rfl⟩
    · exact hrows' i (by simpa only [hrows] using hi)
    · obtain ⟨h0, h1⟩ := hscales hs
      rcases (show i = 0 ∨ i = 1 by simp at hi; omega) with rfl | rfl
      · exact h0
      · rwa [show a + 32 + 2 * q + 1 = a + 33 + 2 * q by omega]
    · obtain rfl : i = 0 := by simpa using hi
      exact hpoison hp
  refine ⟨fun i hi => hin ((hmem _).2 (.inl rfl)) (by omega) i (by omega), fun hs => ?_, ?_, fun k hk hp hs => hout k hk (fun _ => hp) hs⟩
  · have hscales := hin ((hmem _).2 (.inr (.inl ⟨hs, rfl⟩))) (by simp)
    exact ⟨hscales 0 (by simp), by rw [show a + 33 + 2 * q = a + 32 + 2 * q + 1 by omega]; exact hscales 1 (by simp)⟩
  · split
    next hp => exact hin ((hmem _).2 (.inr (.inr ⟨hp, rfl⟩))) (by simp) 0 (by simp)
    next hp =>
      have hne {x : Nat} (hx : 1 < x) (hx' : x < 0x40000) : leafKey l (a + 1) ≠ leafKey l (a + x) := fun e => by
        have := leafKey_add_inj (by omega) hx' e
        omega
      refine hout _ (fun i hi => ?_) (fun hp' => absurd hp' hp) fun _ => ⟨?_, ?_⟩
      · rw [show a + 64 + 2 * q * rb + i = a + (64 + 2 * q * rb + i) by omega]
        exact hne (by omega) (by omega)
      · rw [Nat.add_assoc]
        exact hne (by omega) (by omega)
      · rw [Nat.add_assoc]
        exact hne (by omega) (by omega)
end

/-- Settles O14: each move is one result in a register, or one list of writes. -/
theorem vectorMoves : Obligations.VectorMoves := by
  unfold Obligations.VectorMoves
  intro s τ l g v ra rp f pr pair
  refine ⟨fun lane cvt hq => ⟨fun he => ?_, fun he => ?_⟩, fun he hq hf => ?_, fun sat he hq hf => ?_, fun he hq hf => ?_,
    fun sat he hq hf => ?_⟩
  · refine State.runsOn_of_ran rfl exec_vmov_toVector (by decide) he hq fun u hu => ?_
    rw [opResult_vecOp] at hu
    obtain ⟨hlanes, hpoison, -, -, hrest⟩ := hu.of_vecResult
    cases cvt <;> exact ⟨hlanes, hpoison, hrest⟩
  · refine State.runsOn_of_ran rfl exec_vmov_toScalar (by decide) he hq fun u hu => ?_
    obtain ⟨hreg, hrest⟩ := hu.of_scalar
    refine ⟨?_, hrest⟩
    rw [hreg]
    cases cvt with
    | false => simp
    | true => rfl
  · refine State.runsOn_of_ran rfl (exec_vld hf) (by decide) he hq fun u hu => ?_
    obtain ⟨hlanes, hpoison, -, -, hrest⟩ := State.Ran.of_vecResult (f := fun i => loadVal _) hu
    exact ⟨hlanes, hpoison, hrest⟩
  · refine State.runsOn_of_ran rfl (exec_vst hf) (by decide) he hq fun u hu => ?_
    have hvec : okVector f.toNat = true := (Bool.and_eq_true_iff.1 hf).1
    have hbits := codeBits_le f
    refine ⟨hu.leafStored rfl ?_, hu.of_store⟩
    rw [length_storeRow sat _ hvec, List.length_map, List.length_range]
    omega
  · refine State.runsOn_of_ran rfl (exec_vldt hf) (by decide) he hq fun u hu => ⟨fun hfmt => ?_, fun hfmt => ?_⟩
    · rw [opResult_loadTile, runLoadTile_of_eq (a := lineOf _) hfmt] at hu
      obtain ⟨hlanes, hpoison, hconsumed, -, hrest⟩ := hu.of_vecResult
      exact ⟨⟨hlanes, hpoison, hrest⟩, hconsumed⟩
    · rw [opResult_loadTile, runLoadTile_of_ne (a := lineOf _) hfmt] at hu
      obtain ⟨hlanes, hpoison, hconsumed, hfault, hrest⟩ := hu.of_mismatchVec hfmt
      exact ⟨⟨fun i hi => by rw [hlanes i hi, ite_self], hpoison, hrest⟩, hconsumed, hfault⟩
  · refine State.runsOn_of_ran rfl (exec_vstt hf) (by decide) he hq fun u hu => ?_
    have hlen (ws : List Word) (hws : ws.length = 32) : (storeRow f.toNat sat ws).2.1.length = rowBytes f.toNat := by
      rw [length_storeRow sat ws hf, hws]
      unfold rowBytes
      omega
    obtain ⟨hrows, hscales, hmark, hother⟩ := hu.of_vstt rfl
      (by rw [List.length_append]; simp only [Leaf.storedPair]; rw [hlen _ (by simp), hlen _ (by simp)]; omega)
      ((s.leaf l).pairOf_le rp pr pair) (rowBytes_le_of_okVector f hf)
    exact ⟨hrows, hscales, hmark, hother, hu.of_store⟩

end Sys2Proof.Machine
end

section
/-! One EXA contribution (02 R62, R64, R65; 03 R103). -/

namespace Sys2Proof.Machine

/-- The window shift, with the divisor as a power of an integer. -/
theorem floorShift_eq (v sh : Int) :
    floorShift v sh = if 0 ≤ sh then v * 2 ^ sh.toNat else v.fdiv (2 ^ (-sh).toNat) := by
  unfold floorShift
  rw [Nat.cast_pow, Nat.cast_pow]
  rfl
/-- The sum stored is the mathematical sum modulo 2^96. -/
theorem accAdd_mod (a : BitVec 96) (c : Int) : ((accAdd a c).1.toInt - (a.toInt + c)) % 2 ^ 96 = 0 := by
  unfold accAdd
  rw [BitVec.toInt_ofInt, ← Int.emod_eq_emod_iff_emod_sub_eq_zero]
  exact Int.bmod_emod
/-- The overflow flag says that the sum stored is not the mathematical sum (02 R65). -/
theorem accAdd_overflow (a : BitVec 96) (c : Int) : (accAdd a c).2 = decide ((accAdd a c).1.toInt ≠ a.toInt + c) := by
  unfold accAdd
  dsimp only
  rw [BitVec.toInt_ofInt, decide_eq_decide]
  generalize a.toInt + c = t
  unfold Int.bmod
  dsimp only
  split <;> omega

/-- Settles O16: the sum is that of accAdd, and the special bits are joined. -/
theorem exaAccumulation : Obligations.ExaAccumulation := by
  unfold Obligations.ExaAccumulation
  intro e b sh
  dsimp only
  rw [← floorShift_eq]
  refine ⟨accAdd_mod e.a _, ?_, rfl, rfl, rfl⟩
  show (e.ovf || (accAdd e.a _).2) = _
  rw [accAdd_overflow]
  rfl

end Sys2Proof.Machine
end

section
/-! Tile headers and reductions (02 R73, R79; 03 R110-R113): THDR, RED and TOPK. -/

namespace Sys2Proof.Machine

/-! ### THDR -/

theorem length_hdrBytes (h : TileHdr) : (hdrBytes h).length = 64 := by simp [hdrBytes, length_leBytes]
/-- A fresh header: FORMAT, masks and sequence number, every scale 0x7F, all else 0. -/
def freshHdr (fmt : Nat) (rowMask colMask seq : Word) : TileHdr :=
  { fmt := fmt, poison := false, cv := false, reason := 0, rowMask := rowMask, colMask := colMask, seq := seq, check := 0,
    tileRow := 0, tileCol := 0, scales := List.replicate 32 0x7F }
theorem hdrBytes_freshHdr {fmt : Nat} (rowMask colMask seq : Word) (h : fmt < 256) :
    hdrBytes (freshHdr fmt rowMask colMask seq) = leBytes 4 fmt ++ leBytes 4 rowMask.toNat ++ leBytes 4 colMask.toNat ++
      leBytes 4 seq.toNat ++ List.replicate 16 0 ++ List.replicate 32 0x7F := by
  have hfmt : leBytes 4 fmt = [BitVec.ofNat 8 fmt, 0, 0, 0] := by
    simp only [leBytes, Nat.div_eq_of_lt h]
    rfl
  rw [hfmt]
  simp only [hdrBytes, freshHdr, List.append_assoc]
  rfl

section
variable {s : State} {l : Nat} {g : Guard} {vd : BitVec 4} {ra fi rd rn ro rs : BitVec 5} {pm pn : BitVec 3} {fn : BitVec 2}
  {k : BitVec 4} {tile : Bool}

theorem exec_thdr (hf : isReservedCode fi.toNat = false) :
    exec (.thdr l g ra fi rs pm pn) s = s.issueUnit l g .vector (leafUses (.thdr l g ra fi rs pm pn))
      (fun lf => .store [(lineOf (lf.reg ra).toNat, hdrBytes (freshHdr fi.toNat (lf.pred pm) (lf.pred pn) (lf.reg rs)))] false
        (lineOf (lf.reg ra).toNat) none 0) := if_neg (by simp [hf])
theorem exec_red (hf : okVector fi.toNat = true) (hfn : fn.toNat ≤ 2) :
    exec (.red l g vd ra fi fn) s = s.issueUnit l g .reduction (leafUses (.red l g vd ra fi fn))
      (fun lf => .reduce vd (lineOf (lf.reg ra).toNat) fi.toNat fn.toNat) :=
  if_neg (by
    rintro (h | h)
    · simp [hf] at h
    · omega)
theorem exec_topk {e : Elem} (hf : topkFormat fi.toNat = some e) (h1 : 1 ≤ k.toNat) (h8 : k.toNat ≤ 8) :
    exec (.topk l g rd ra fi k rn ro tile) s = s.issueUnit l g .reduction (leafUses (.topk l g rd ra fi k rn ro tile))
      (fun lf => .rank rd (lineOf (lf.reg ra).toNat) fi.toNat k.toNat (Nat.min (lf.reg rn).toNat 1024) (lineOf (lf.reg ro).toNat) tile) :=
  if_neg (by
    rintro (h | h | h)
    · simp [hf] at h
    · omega
    · omega)
end

/-! ### RED -/

theorem getD_map_range {α : Type} (f : Nat → α) (n i : Nat) (d : α) : ((List.range n).map f).getD i d = if i < n then f i else d := by
  rw [List.getD_eq_getElem?_getD, List.getElem?_map]
  split
  next h => rw [List.getElem?_range h]; rfl
  next h => rw [List.getElem?_eq_none (by simpa using h)]; rfl
/-- Lane i of a reduction of the tile at a (03 R112). -/
def redAt (rd : LeafReader) (a fi fn i : Nat) : Word × FFlags :=
  ((List.range 32).map fun r =>
    if maskBit (hdrAt rd a).rowMask r then
      redRow fn (hdrAt rd a).colMask (rowVals fi ((hdrAt rd a).scales.getD r 0) (rowAt rd a fi r))
    else (redIdentity fn, (0 : FFlags))).getD i (redIdentity fn, 0)
theorem redAt_fst (rd : LeafReader) (a fi fn i : Nat) :
    (redAt rd a fi fn i).1 = if i < 32 ∧ maskBit (hdrAt rd a).rowMask i = true then
      (redRow fn (hdrAt rd a).colMask (rowVals fi ((hdrAt rd a).scales.getD i 0) (rowAt rd a fi i))).1 else redIdentity fn := by
  unfold redAt
  rw [getD_map_range]
  by_cases hi : i < 32
  · by_cases hm : maskBit (hdrAt rd a).rowMask i = true <;> simp only [hi, hm, if_true, if_false, true_and, and_self, Bool.false_eq_true]
  · simp only [hi, false_and, if_false]
section
variable {lf : Leaf} {rd : LeafReader} {vd : BitVec 4} {a fi fn : Nat}

theorem opResult_reduce : opResult lf rd (.reduce vd a fi fn) = runReduce lf rd vd a fi fn := rfl
theorem runReduce_of_eq (h : (hdrAt rd a).fmt = fi) :
    runReduce lf rd vd a fi fn = vecResult lf vd (redAt rd a fi fn) (hdrAt rd a).why a := if_neg (not_not.2 h)
theorem runReduce_of_ne (h : (hdrAt rd a).fmt ≠ fi) : runReduce lf rd vd a fi fn = mismatchVec lf vd (hdrAt rd a) fi a := if_pos h
end

/-! ### TOPK -/

theorem length_topkRecords (cs : List ((Val × Nat) × Nat)) : (topkRecords cs).length = 8 * cs.length := by
  unfold topkRecords
  induction cs with
  | nil => rfl
  | cons c cs ih =>
    rw [List.map_cons, List.flatten_cons, List.length_append, ih]
    simp only [List.length_append, length_leBytes, List.length_cons, List.length_nil]
    omega
/-- At most k candidates are kept (02 R79). -/
theorem length_topK_le (k : Nat) (l : List ((Val × Nat) × Nat)) : (topK k l).length ≤ k := by
  have hfold (acc : List ((Val × Nat) × Nat)) (hacc : acc.length ≤ k) :
      (l.foldl (fun acc c => rankInsert k c acc) acc).length ≤ k := by
    induction l generalizing acc with
    | nil => exact hacc
    | cons c l ih => exact ih _ (List.length_take_le _ _)
  exact hfold [] (Nat.zero_le k)

section
variable {s v : State} {l k out a fi n : Nat} {rd : BitVec 5} {cands : List ((Val × Nat) × Nat)} {why : Option Byte} {rdr : LeafReader}
  {lf : Leaf} {e : Elem}

/-- What a TOPK leaves of ranked candidates: their number in rd, and their records from byte out on. -/
def State.ranked (s v : State) (l k out : Nat) (rd : BitVec 5) (best : List ((Val × Nat) × Nat)) : Prop :=
  v.gpr l (s.leaf l).active rd = BitVec.ofNat 32 best.length ∧ best.length ≤ k ∧ s.leafStored v l out (topkRecords best) ∧
    s.ctxFrame v l (some rd) noPred true ∧ s.unitRegsFrame v l none none
theorem State.Ran.of_rankResult (h : s.Ran v l (rankResult (s.leaf l) rd k out cands why a)) (hk : k ≤ 8) :
    s.ranked v l k out rd (topK k cands) := by
  have hlen := length_topK_le k cands
  have hreg : (rankResult (s.leaf l) rd k out cands why a).lf.reg rd = BitVec.ofNat 32 (topK k cands).length := by
    simp only [rankResult, Leaf.reg_addFlags, Leaf.reg_setReg_same]
  refine ⟨(h.gpr rfl rd).trans hreg, hlen, ?_, h.frame (((Leaf.Frame.refl _).setReg _).addFlags _)⟩
  by_cases hbest : topK k cands = []
  · rw [hbest]
    exact State.leafStored_nil (h.memSame (if_pos hbest)) out
  · exact h.leafStored (if_neg hbest) (by rw [length_topkRecords]; omega)
/-- A tile of another format ranks nothing. -/
theorem State.Ran.of_mismatchRank (h : s.Ran v l ⟨[], (s.leaf l).setReg rd 0, some (2, a), some 0x01, a⟩) :
    s.ranked v l k out rd [] ∧ (v.leaf l).poison = (s.leaf l).poison.or (some 0x01) ∧ (s.leaf l).formatFault (v.leaf l) :=
  ⟨⟨(h.gpr rfl rd).trans (Leaf.reg_setReg_same _ _ _), Nat.zero_le k, State.leafStored_nil (h.memSame rfl) out,
    h.frame ((Leaf.Frame.refl _).setReg 0)⟩, h.poison, h.fault 2 a rfl⟩

theorem opResult_rank (tile : Bool) : opResult lf rdr (.rank rd a fi k n out tile) = runRank lf rdr rd a fi k n out tile := rfl
theorem runRank_elements (hf : topkFormat fi = some e) :
    runRank lf rdr rd a fi k n out false = rankResult lf rd k out ((List.range n).map fun i =>
      ((decElem e ((unpackRow (elemBits e) (rdr a (n * elemBits e / 8)) n).getD i 0), i),
        (unpackRow (elemBits e) (rdr a (n * elemBits e / 8)) n).getD i 0)) none a := by
  simp only [runRank, hf, Option.getD_some]
  rfl
theorem runRank_tile_of_eq (hf : topkFormat fi = some e) (h : (hdrAt rdr a).fmt = fi) :
    runRank lf rdr rd a fi k n out true = rankResult lf rd k out
      (tileCands (hdrAt rdr a) e (unpackRow (elemBits e) (rdr (a + 64) (32 * rowBytes fi)) 1024)) (hdrAt rdr a).why a := by
  simp only [runRank, hf, Option.getD_some]
  exact if_neg (not_not.2 h)
theorem runRank_tile_of_ne (h : (hdrAt rdr a).fmt ≠ fi) :
    runRank lf rdr rd a fi k n out true = ⟨[], lf.setReg rd 0, some (2, a), some 0x01, a⟩ := if_pos h
end

/-- Settles O17: each command stores a header, reduces rows into lanes, or ranks candidates. -/
theorem tileHeaderAndReductions : Obligations.TileHeaderAndReductions := by
  unfold Obligations.TileHeaderAndReductions
  intro s τ l g ra fi
  refine ⟨fun rs pm pn he hq hf => ?_, fun vd fn he hq hf hfn => ?_, fun rd rn ro k e hf h1 h8 hq => ⟨fun he => ?_, fun he => ?_⟩⟩
  · refine State.runsOn_of_ran rfl (exec_thdr hf) (by decide) he hq fun v hv => ?_
    rw [← hdrBytes_freshHdr _ _ _ (by omega)]
    have hframe : Leaf.Frame none noPred false none none (s.leaf l) ((s.leaf l).addFlags 0) :=
      { (Leaf.Frame.refl (s.leaf l)).addFlags 0 with flags := fun _ => (Leaf.flags_addFlags _ 0).trans (BitVec.or_zero) }
    exact ⟨hv.leafStored rfl (by rw [length_hdrBytes]; omega), hv.frame hframe⟩
  · refine State.runsOn_of_ran rfl (exec_red hf hfn) (by decide) he hq fun v hv => ?_
    rw [opResult_reduce] at hv
    by_cases hfmt : (hdrAt (s.leafPlain l) (lineOf ((s.leaf l).reg ra).toNat)).fmt = fi.toNat
    · rw [runReduce_of_eq hfmt] at hv
      obtain ⟨hlanes, hpoison, hconsumed, -, hframes⟩ := hv.of_vecResult
      simp only [redAt_fst] at hlanes
      exact ⟨fun _ => ⟨hlanes, hpoison, hconsumed⟩, fun hne => absurd hfmt hne, hframes⟩
    · rw [runReduce_of_ne hfmt] at hv
      obtain ⟨hlanes, hpoison, -, hfault, hframes⟩ := hv.of_mismatchVec hfmt
      exact ⟨fun he => absurd he hfmt, fun _ => ⟨hlanes, hpoison, hfault⟩, hframes⟩
  · refine State.runsOn_of_ran rfl (exec_topk hf h1 h8) (by decide) he hq fun v hv => ?_
    rw [opResult_rank, runRank_elements hf] at hv
    exact hv.of_rankResult h8
  · refine State.runsOn_of_ran rfl (exec_topk hf h1 h8) (by decide) he hq fun v hv => ⟨fun hfmt => ?_, fun hfmt => ?_⟩
    all_goals rw [opResult_rank] at hv
    · rw [runRank_tile_of_eq (a := lineOf _) hf hfmt] at hv
      exact ⟨hv.of_rankResult h8, hv.poison⟩
    · rw [runRank_tile_of_ne (a := lineOf _) hfmt] at hv
      exact hv.of_mismatchRank

end Sys2Proof.Machine
end

section
/-! The matrix unit (02 R62-R69; 03 R103-R108): MMA, ACCOUT and ACCIN. -/

namespace Sys2Proof.Machine

/-! ### A result in an accumulator -/

/-- The result of a command that leaves x in accumulator ac. -/
def accResult (lf : Leaf) (ac : BitVec 2) (x : Acc) (fl : FFlags) (fault : Option (Nat × Nat)) (why : Option Byte) (at0 : Nat) :
    OpResult :=
  ⟨[], (lf.setAcc ac x).addFlags fl, fault, why, at0⟩
section
variable {s v : State} {l : Nat} {ac : BitVec 2} {x : Acc} {why : Option Byte} {at0 : Nat}

theorem State.Ran.of_accResult {fl : FFlags} {fault : Option (Nat × Nat)} (h : s.Ran v l (accResult (s.leaf l) ac x fl fault why at0)) :
    (v.leaf l).acc ac = x ∧ ((v.leaf l).ctxAt (s.leaf l).active).flags = (s.leaf l).ctx.flags ||| fl ∧
      (v.leaf l).poison = (s.leaf l).poison.or why ∧ s.memSame v ∧ s.ctxFrame v l none noPred true ∧
      s.unitRegsFrame v l none (some ac) :=
  ⟨(h.alike.acc ac).trans (Leaf.acc_setAcc_same _ _ _), (h.flags rfl).trans (Leaf.flags_addFlags _ _), h.poison, h.memSame rfl,
    h.frame (((Leaf.Frame.refl _).setAcc x).addFlags fl)⟩
/-- A result in an accumulator that raises no flag and records a fault. -/
theorem State.Ran.of_setAcc {k a : Nat} (h : s.Ran v l ⟨[], (s.leaf l).setAcc ac x, some (k, a), why, at0⟩) :
    (v.leaf l).acc ac = x ∧ (v.leaf l).poison = (s.leaf l).poison.or why ∧
      ((s.leaf l).fault = none → (v.leaf l).fault.map (·.kind) = some k) ∧ s.memSame v ∧ s.ctxFrame v l none noPred true ∧
      s.unitRegsFrame v l none (some ac) :=
  ⟨(h.alike.acc ac).trans (Leaf.acc_setAcc_same _ _ _), h.poison, h.fault k a rfl, h.memSame rfl,
    h.frame ((Leaf.Frame.refl _).setAcc x)⟩
end
theorem Acc.addPoison_eq (a : Acc) (why : Option Byte) : a.addPoison why = { a with poison := a.poison.or why } := by
  unfold Acc.addPoison
  split
  next r h =>
    show a = { a with poison := a.poison.or why }
    rw [h, Option.some_or, ← h]
  next h => rw [h, Option.none_or]

/-! ### MMA -/

theorem lineOf_lineOf (a : Nat) : lineOf (lineOf a) = lineOf a := by
  unfold lineOf
  omega
/-- An operand is read from the line of its address. -/
theorem matOperand_lineOf (rd : LeafReader) (a code : Nat) : matOperand rd (lineOf a) code = matOperand rd a code := by
  simp only [matOperand, hdrAt, rowAt, lineOf_lineOf]

section
variable {lf : Leaf} {rd : LeafReader} {ac : BitVec 2} {a b fa fb : Nat} {init : Bool} {w : Int} {wfl : FFlags}
  {masks : Option (Word × Word)}

/-- The poison of an MMA's operands. -/
def mmaWhy (rd : LeafReader) (a b fa fb : Nat) : Option Byte :=
  firstWhy [(matOperand rd a fa).hdr.whyAs fa, (matOperand rd b fb).hdr.whyAs fb]
/-- The output masks of an MMA: its own, or its operands' row masks (03 R104). -/
def mmaMasks (rd : LeafReader) (a b fa fb : Nat) (masks : Option (Word × Word)) : Word × Word :=
  masks.getD ((matOperand rd a fa).hdr.rowMask, (matOperand rd b fb).hdr.rowMask)
theorem opResult_mma : opResult lf rd (.mma ac a b fa fb init w wfl masks) = runMma lf rd ac a b fa fb init w wfl masks := rfl
/-- The accumulator that an MMA of its operands' formats leaves, and the flags. -/
def mmaOf (lf : Leaf) (rd : LeafReader) (ac : BitVec 2) (a b fa fb : Nat) (init : Bool) (w : Int) (masks : Option (Word × Word)) :
    Acc × FFlags :=
  mmaAcc (lf.acc ac) (matOperand rd a fa) (matOperand rd b fb) (isWide fa) init w (mmaMasks rd a b fa fb masks) lf.mw (mmaWhy rd a b fa fb)
theorem runMma_of_eq (h : (matOperand rd a fa).hdr.fmt = fa ∧ (matOperand rd b fb).hdr.fmt = fb) :
    runMma lf rd ac a b fa fb init w wfl masks =
      accResult lf ac (mmaOf lf rd ac a b fa fb init w masks).1 ((mmaOf lf rd ac a b fa fb init w masks).2 ||| wfl) none
        (mmaWhy rd a b fa fb) (if ((matOperand rd a fa).hdr.whyAs fa).isSome then a else b) :=
  if_neg (by rintro (hx | hy); exacts [hx h.1, hy h.2])
theorem runMma_of_ne (h : ¬((matOperand rd a fa).hdr.fmt = fa ∧ (matOperand rd b fb).hdr.fmt = fb)) :
    runMma lf rd ac a b fa fb init w wfl masks =
      accResult lf ac (mmaMismatch (lf.acc ac) (isWide fa) init w (mmaMasks rd a b fa fb masks) lf.mw (mmaWhy rd a b fa fb))
        (if init then wfl else 0) (some (2, if (matOperand rd a fa).hdr.fmt ≠ fa then a else b))
        (mmaWhy rd a b fa fb) (if ((matOperand rd a fa).hdr.whyAs fa).isSome then a else b) :=
  if_pos (not_and_or.1 h)
theorem mmaMismatch_eq (x : Acc) (canon : Bool) (m : Word × Word) (width : Nat) (why : Option Byte) :
    mmaMismatch x canon init w m width why =
      if init then ⟨canon, w, m.1, m.2 &&& lowOnes width, [], why⟩ else { x with poison := x.poison.or why } := by
  unfold mmaMismatch
  rw [Acc.addPoison_eq]
  rfl
end

/-! ### ACCOUT -/

theorem Acc.length_outRow (a : Acc) {fo : Nat} (sat : Bool) (r : Nat) (h : okExaOut fo = true) :
    (a.outRow fo sat r).2.1.length = rowBytes fo := by
  have hres : formatOf fo ≠ .reserved := by simpa [okExaOut, isReservedCode] using h
  unfold Acc.outRow rowBytes codeBits
  cases hf : formatOf fo with
  | plain e sc => cases sc <;> simp only [length_packRow, length_encBlock, List.length_map, List.length_range] <;> omega
  | acc96 => simp only [length_packRow, List.length_map, List.length_range]
  | reserved => exact absurd hf hres
/-- ACCOUT writes a whole tile (07 R242). -/
theorem Acc.length_outTile (a : Acc) {fo : Nat} (sat : Bool) (seq : Word) (h : okExaOut fo = true) :
    (a.outTile fo sat seq).1.length = tileBytes fo := by
  unfold Acc.outTile tileBytes
  extract_lets ok rows why hdr
  have hrows : (rows.map fun r => r.2.1).flatten.length = 32 * rowBytes fo := by
    have hconst : (rows.map fun r => r.2.1).map List.length = List.replicate 32 (rowBytes fo) := by
      simp only [rows, List.map_map]
      refine List.eq_replicate_iff.2 ⟨by simp, fun n hn => ?_⟩
      obtain ⟨r, -, rfl⟩ := List.mem_map.1 hn
      exact a.length_outRow sat r h
    rw [List.length_flatten, hconst, List.sum_replicate, smul_eq_mul]
  split
  · rw [List.length_append, length_hdrBytes, hrows]
  · rw [List.length_append, length_hdrBytes, List.length_replicate]
theorem tileBytes_le (f : BitVec 5) : tileBytes f.toNat ≤ 0x40000 := by
  have := codeBits_le f
  unfold tileBytes rowBytes
  omega

/-! ### ACCIN -/

section
variable {lf : Leaf} {rd : LeafReader} {ac : BitVec 2} {a fi : Nat} {add : Bool}

theorem opResult_accin : opResult lf rd (.accin ac a fi add) = runAccin lf rd ac a fi add := rfl
/-- The accumulator that ACCIN of the tile at a leaves, and the flags. -/
def accinOf (lf : Leaf) (rd : LeafReader) (ac : BitVec 2) (a fi : Nat) (add : Bool) : Acc × FFlags :=
  accinAcc (lf.acc ac) (hdrAt rd a) (unpackRow (codeBits fi) (rd (a + 64) (32 * rowBytes fi)) 1024) (fi = 0) add lf.mw
theorem runAccin_of_eq (h : (hdrAt rd a).fmt = fi) :
    runAccin lf rd ac a fi add =
      accResult lf ac (accinOf lf rd ac a fi add).1 (accinOf lf rd ac a fi add).2 none (hdrAt rd a).why a := if_neg (not_not.2 h)
theorem runAccin_of_ne (h : (hdrAt rd a).fmt ≠ fi) :
    runAccin lf rd ac a fi add =
      ⟨[], lf.setAcc ac ((lf.acc ac).addPoison ((hdrAt rd a).whyAs fi)), some (2, a), (hdrAt rd a).whyAs fi, a⟩ := if_pos h
end

/-! ### The instructions -/

section
variable {s : State} {l : Nat} {g : Guard} {ac : BitVec 2} {ra rb fa fb rw rs : BitVec 5} {init ms wr sat add : Bool} {pm pn : BitVec 3}
  {wlsb : BitVec 10}

theorem exec_mma (hwf : mmaWf fa fb wr wlsb = true) :
    exec (.mma l g ac ra rb fa fb init ms pm pn wr rw wlsb) s =
      s.issueUnit l g .matrix (leafUses (.mma l g ac ra rb fa fb init ms pm pn wr rw wlsb)) (fun lf =>
        let w := mmaWindow (isScaled fa.toNat || isScaled fb.toNat) wr (lf.reg rw) wlsb
        .mma ac (lineOf (lf.reg ra).toNat) (lineOf (lf.reg rb).toNat) fa.toNat fb.toNat init w.1 w.2
          (if ms then some (lf.pred pm, lf.pred pn) else none)) := if_neg (by simp [hwf])
theorem exec_accout (hf : okExaOut fa.toNat = true) :
    exec (.accout l g ac ra fa sat rs) s = s.issueUnit l g .matrix (leafUses (.accout l g ac ra fa sat rs))
      (fun lf => .accout ac (lineOf (lf.reg ra).toNat) fa.toNat sat (lf.reg rs)) := if_neg (by simp [hf])
theorem exec_accin (hf : fa = 0 ∧ add = false ∨ fa = 30) :
    exec (.accin l g ac ra fa add) s = s.issueUnit l g .matrix (leafUses (.accin l g ac ra fa add))
      (fun lf => .accin ac (lineOf (lf.reg ra).toNat) fa.toNat add) := if_neg fun e => Bool.false_ne_true (Eq.mp e hf)
end

/-- Settles O15: each command leaves one accumulator, or stores one tile. -/
theorem matrixUnit : Obligations.MatrixUnit := by
  unfold Obligations.MatrixUnit
  intro s τ l g ac ra rb fa fb
  refine ⟨fun init ms pm pn wr rw wlsb hwf he hq => ?_, fun sat rs hf he hq => ?_, fun add hf he hq => ?_⟩
  · refine State.runsOn_of_ran rfl (exec_mma hwf) (by decide) he hq fun v hv => ?_
    have hmasks (d : Word × Word) : (if ms then some ((s.leaf l).pred pm, (s.leaf l).pred pn) else none).getD d =
        if ms then ((s.leaf l).pred pm, (s.leaf l).pred pn) else d := by
      cases ms <;> rfl
    rw [opResult_mma] at hv
    by_cases hfmt : (matOperand (s.leafPlain l) ((s.leaf l).reg ra).toNat fa.toNat).hdr.fmt = fa.toNat ∧
        (matOperand (s.leafPlain l) ((s.leaf l).reg rb).toNat fb.toNat).hdr.fmt = fb.toNat
    · rw [runMma_of_eq (by simpa only [matOperand_lineOf] using hfmt)] at hv
      simp only [mmaOf, mmaMasks, mmaWhy, matOperand_lineOf, hmasks] at hv
      obtain ⟨hacc, hflags, hrest⟩ := hv.of_accResult
      exact ⟨fun _ => ⟨hacc, hflags⟩, fun hne => absurd hfmt (not_and_or.2 hne), hrest⟩
    · rw [runMma_of_ne (by simpa only [matOperand_lineOf] using hfmt), mmaMismatch_eq] at hv
      simp only [mmaMasks, mmaWhy, matOperand_lineOf, hmasks] at hv
      obtain ⟨hacc, -, hrest⟩ := hv.of_accResult
      exact ⟨fun he => absurd he hfmt, fun _ => ⟨hacc, hv.fault 2 _ rfl⟩, hrest⟩
  · refine State.runsOn_of_ran rfl (exec_accout hf) (by decide) he hq fun v hv => ?_
    have hlen := (((s.leaf l).acc ac).length_outTile sat ((s.leaf l).reg rs) hf).trans_le (tileBytes_le fa)
    refine ⟨hv.leafStored rfl hlen, (hv.flags rfl).trans (Leaf.flags_addFlags _ _), fun hok => hv.fault 3 _ (if_pos hok),
      hv.frame ((Leaf.Frame.refl _).addFlags _)⟩
  · refine State.runsOn_of_ran rfl (exec_accin hf) (by decide) he hq fun v hv => ?_
    rw [opResult_accin] at hv
    by_cases hfmt : (hdrAt (s.leafPlain l) (lineOf ((s.leaf l).reg ra).toNat)).fmt = fa.toNat
    · rw [runAccin_of_eq hfmt] at hv
      obtain ⟨hacc, hflags, hpoison, hframes⟩ := hv.of_accResult
      have hzero : decide (fa = 0) = decide (fa.toNat = 0) := by simp [BitVec.toNat_eq]
      simp only [hzero]
      exact ⟨fun _ => ⟨hacc, hflags, hpoison⟩, fun hne => absurd hfmt hne, hframes⟩
    · rw [runAccin_of_ne hfmt, Acc.addPoison_eq, TileHdr.whyAs_of_ne hfmt] at hv
      obtain ⟨hacc, hpoison, hfault, hframes⟩ := hv.of_setAcc
      exact ⟨fun he => absurd he hfmt, fun _ => ⟨hacc, hpoison, hfault⟩, hframes⟩

end Sys2Proof.Machine
end

section
/-! The arbiter of a port and the order in which an output link looks at its virtual channels (04 R159, R163). -/

namespace Sys2Proof.Machine

/-! ### The arbiter's winner -/

/-- A requester's distance from the index that has the turn (04 R163). -/
def arbDist (n q i : Nat) : Nat := (i + n - q) % n
/-- The distance is that of the whole numbers. -/
theorem arbDist_eq_emod {n q i : Nat} (hq : q < n) : ((arbDist n q i : Nat) : Int) = ((i : Int) - (q : Nat)) % n := by
  have h : (((i + n - q : Nat)) : Int) = (i : Int) - q + n := by omega
  rw [arbDist, Int.natCast_emod, h, Int.add_emod_right]
/-- The nearer of two requesters, the first where they are as near. -/
def nearer (n q : Nat) (best : Option Nat) (i : Nat) : Option Nat :=
  match best with
  | none => some i
  | some j => if arbDist n q i < arbDist n q j then some i else some j
theorem arbWinner_eq (now n : Nat) (reqs : List Nat) : arbWinner now n reqs = reqs.foldl (nearer n (now / 16 % 65536 % n)) none := rfl
/-- From a requester on, the fold ends at a nearest one of it and the list. -/
theorem foldl_nearer (n q : Nat) (reqs : List Nat) (j : Nat) :
    ∃ w, reqs.foldl (nearer n q) (some j) = some w ∧ w ∈ j :: reqs ∧ ∀ i ∈ j :: reqs, arbDist n q w ≤ arbDist n q i := by
  induction reqs generalizing j with
  | nil => exact ⟨j, rfl, by simp, by simp⟩
  | cons i reqs ih =>
    by_cases hlt : arbDist n q i < arbDist n q j
    · obtain ⟨w, hw, hmem, hmin⟩ := ih i
      have hi := hmin i List.mem_cons_self
      refine ⟨w, by rw [List.foldl_cons, nearer, if_pos hlt, hw], List.mem_cons_of_mem _ hmem, fun k hk => ?_⟩
      rcases List.mem_cons.1 hk with rfl | hk
      · omega
      · exact hmin k hk
    · obtain ⟨w, hw, hmem, hmin⟩ := ih j
      have hj := hmin j List.mem_cons_self
      refine ⟨w, by rw [List.foldl_cons, nearer, if_neg hlt, hw], ?_, fun k hk => ?_⟩
      · rcases List.mem_cons.1 hmem with rfl | hmem
        · exact List.mem_cons_self
        · exact List.mem_cons_of_mem _ (List.mem_cons_of_mem _ hmem)
      · rcases List.mem_cons.1 hk with rfl | hk
        · exact hj
        · rcases List.mem_cons.1 hk with rfl | hk
          · omega
          · exact hmin k (List.mem_cons_of_mem _ hk)
/-- A nearest requester wins. -/
theorem arbWinner_nearest (now n : Nat) {reqs : List Nat} (h : reqs ≠ []) :
    ∃ w, arbWinner now n reqs = some w ∧ w ∈ reqs ∧
      ∀ i ∈ reqs, arbDist n (now / 16 % 65536 % n) w ≤ arbDist n (now / 16 % 65536 % n) i := by
  cases reqs with
  | nil => exact absurd rfl h
  | cons j reqs => exact foldl_nearer n _ reqs j

/-! ### The order of the virtual channels -/

theorem mem_vcOrder (c : Nat) {v : Nat} (h : v < 4) : v ∈ vcOrder c := by
  have hall : ∀ l ∈ [[0, 1, 3, 2], [2, 1, 0, 3], [3, 1, 0, 2], [1, 0, 3, 2]], ∀ v < 4, v ∈ l := by decide
  refine hall _ ?_ v h
  unfold vcOrder
  (repeat' split) <;> simp

/-- Settles O25, by the fold that keeps the nearer of two requesters, and the four cases of a link cycle. -/
theorem linkCyclesAndArbitration : Obligations.LinkCyclesAndArbitration := by
  unfold Obligations.LinkCyclesAndArbitration
  refine ⟨fun now n reqs hlt => ⟨fun h => h ▸ rfl, fun h => ?_⟩,
    fun c => ⟨fun h => ?_, fun h => ?_, fun h => ?_, fun h4 h6 h10 => ?_, fun v hv => mem_vcOrder c hv⟩⟩
  · obtain ⟨w, hw, hmem, hmin⟩ := arbWinner_nearest now n h
    have hq : now / 16 % 65536 % n < n := Nat.mod_lt _ (Nat.zero_lt_of_lt (hlt w hmem))
    refine ⟨w, hw, hmem, fun i hi => ?_⟩
    rw [← arbDist_eq_emod hq, ← arbDist_eq_emod hq]
    exact Int.ofNat_le.2 (hmin i hi)
  · rw [vcOrder, if_pos h]
  · rw [vcOrder, if_neg (by omega), if_pos h]
  · rw [vcOrder, if_neg (by omega), if_neg (by omega), if_pos h]
  · rw [vcOrder, if_neg h4, if_neg h6, if_neg h10]

end Sys2Proof.Machine
end

section
/-! What the scan of the stall sentinel finds (04 R150). -/

namespace Sys2Proof.Machine

section
variable {s : State} {bs : List Nat} {r : StallLog}

/-- The record of the first full destination names one. -/
theorem State.scanFull_some (h : s.scanFull bs = some r) :
    r.cause = 1 ∧ r.branch ∈ bs ∧ r.node < 64 ∧ r.dest < 12 ∧ s.destFull r.branch r.node r.dest r.portl = true := by
  have hmem := List.mem_of_head? h
  simp only [List.mem_flatMap, List.mem_map, List.mem_filter, List.mem_range] at hmem
  obtain ⟨b, hb, node, hnode, d, hd, p, ⟨-, hfull⟩, rfl⟩ := hmem
  exact ⟨rfl, hb, hnode, hd, hfull⟩
/-- Where a destination is full, one is found. -/
theorem State.scanFull_ne_none {b node dest port : Nat} (hb : b ∈ bs) (hnode : node < 64) (hdest : dest < 12)
    (hport : port ∈ destPorts node dest) (hfull : s.destFull b node dest port = true) : s.scanFull bs ≠ none := by
  intro h
  have hmem : s.stallAt 1 0 b node dest port ∈ (bs.flatMap fun b => (List.range 64).flatMap fun node => (List.range 12).flatMap fun d =>
      ((destPorts node d).filter (s.destFull b node d)).map fun p => s.stallAt 1 0 b node d p) := by
    simp only [List.mem_flatMap, List.mem_map, List.mem_filter, List.mem_range]
    exact ⟨b, hb, node, hnode, dest, hdest, port, ⟨hport, hfull⟩, rfl⟩
  rw [List.head?_eq_none_iff.1 h] at hmem
  exact List.not_mem_nil hmem
/-- A record of the search for a waiting unit or leaf has CAUSE 2. -/
theorem State.scanWait_cause (h : s.scanWait bs = some r) : r.cause = 2 := by
  unfold State.scanWait at h
  extract_lets units at h
  cases hunits : units with
  | some x =>
    rw [hunits] at h
    cases h
    have hmem := List.mem_of_head? hunits
    simp only [List.mem_flatMap, List.mem_filterMap, Option.map_eq_some_iff] at hmem
    obtain ⟨b, -, node, -, u, -, d, -, rfl⟩ := hmem
    rfl
  | none =>
    rw [hunits] at h
    have hmem := List.mem_of_head? h
    simp only [List.mem_flatMap, List.mem_filterMap] at hmem
    obtain ⟨b, -, node, -, hr⟩ := hmem
    split at hr
    · cases hr
      rfl
    · cases hr
end

/-- The branches of a circuit, in the order of the scan. -/
def Inst.scanOrder (i : Inst) : List Nat := i.branches.mergeSort (fun a b => decide (a ≤ b))
theorem Inst.mem_scanOrder {i : Inst} {b : Nat} : b ∈ i.scanOrder ↔ b ∈ i.branches := List.mem_mergeSort
theorem State.scan_eq (s : State) (i : Inst) : s.scan i = (s.scanFull i.scanOrder).getD
    ((s.scanWait i.scanOrder).getD ⟨2, 0, i.home, 0, 15, 0, 0, (s.branch i.home).active, s.now⟩) := by
  unfold State.scan Inst.scanOrder
  dsimp only
  generalize s.scanFull _ = full
  cases full <;> rfl
theorem State.scan_of_full {s : State} {i : Inst} {r : StallLog} (h : s.scanFull i.scanOrder = some r) : s.scan i = r := by
  rw [State.scan_eq, h, Option.getD_some]
theorem State.scan_cause_of_none {s : State} {i : Inst} (h : s.scanFull i.scanOrder = none) : (s.scan i).cause = 2 := by
  rw [State.scan_eq, h, Option.getD_none]
  cases hw : s.scanWait i.scanOrder with
  | none => rfl
  | some r => exact State.scanWait_cause hw

/-- Settles O24: the scan answers the first full destination, or else a record of CAUSE 2. -/
theorem sentinelScanFindsFullQueues : Obligations.SentinelScanFindsFullQueues := by
  unfold Obligations.SentinelScanFindsFullQueues
  intro s i
  cases h : s.scanFull i.scanOrder with
  | some r =>
    obtain ⟨hcause, hb, hrest⟩ := State.scanFull_some h
    rw [State.scan_of_full h]
    exact ⟨fun _ => ⟨Inst.mem_scanOrder.1 hb, hrest⟩, fun _ _ _ _ _ _ _ _ _ => hcause⟩
  | none =>
    refine ⟨fun hcause => ?_, fun b hb node dest port hnode hdest hport hfull => ?_⟩
    · rw [State.scan_cause_of_none h] at hcause
      exact absurd hcause (by decide)
    · exact absurd h (State.scanFull_ne_none (Inst.mem_scanOrder.2 hb) hnode hdest hport hfull)

end Sys2Proof.Machine
end

section
/-! Steering units and the stall sentinel (04 R141-R153): the decision of an idle unit, the protocol fault it brings, the firing. -/

namespace Sys2Proof.Machine

/-! ### The decision of an idle unit -/

/-- A unit that no fault has stopped, with no data unit in hand and no token that waits to leave. -/
structure Steer.Idle (u : Steer) : Prop where
  fault : u.fault = 0
  cur : u.cur = none
  pend0 : u.pend0 = []
  pend1 : u.pend1 = []

section
variable {u : Steer} {cfg : SteerSet} {c : Tok} {rest : List Tok}

theorem Steer.discard_of_cur (h : u.cur = none) : u.discard = ⟨u, [], []⟩ := by rw [Steer.discard, h]
theorem Steer.stop_of_fault (h : u.fault = 0) (sub inp : Nat) : u.stop sub inp = ⟨{ u with fault := sub, faultIn := inp }, [], []⟩ := by
  rw [Steer.stop, Steer.halt, if_pos h]
theorem unitHead_beat (b : Beat) (q : List SlotItem) : unitHead (.beat b :: q) = ([], .data, .beat b :: q) := by rw [unitHead]
/-- The next unit of an input, with no token attached, is taken in hand towards the outputs named (04 R141). -/
theorem Steer.route_of_beat {fromB o0 o1 : Bool} {b : Beat} {q : List SlotItem} (hq : (if fromB then u.qb else u.qa) = .beat b :: q)
    (hout : o0 = true ∨ o1 = true) (hA : 0 < cfg.unitA) (hB : 0 < cfg.unitB) (h0 : u.pend0 = []) (h1 : u.pend1 = []) :
    u.route cfg fromB o0 o1 false =
      ⟨{ u with cur := some ⟨fromB, if fromB then cfg.unitB else cfg.unitA, o0, o1, false, false, 0⟩ }, [], []⟩ := by
  obtain ⟨qa, qb, qt, arrA, arrB, cur, pend0, pend1, fault, faultIn⟩ := u
  dsimp only at hq h0 h1
  subst h0 h1
  have hA' : cfg.unitA ≠ 0 := by omega
  have hB' : cfg.unitB ≠ 0 := by omega
  cases fromB with
  | false =>
    obtain rfl : qa = .beat b :: q := hq
    simp [Steer.route, unitHead_beat, Steer.discard, dropBeats, hout, hA']
  | true =>
    obtain rfl : qb = .beat b :: q := hq
    simp [Steer.route, unitHead_beat, Steer.discard, dropBeats, hout, hB']

/-- A control token of another TAG, or a SKIP, stops a unit that reads control tokens (04 R145). -/
theorem Steer.decide_of_tag (hu : u.Idle) (hqt : u.qt = c :: rest) (hk : cfg.kind = 1 ∨ cfg.kind = 2 ∨ cfg.kind = 3 ∨ cfg.kind = 5)
    (htchk : cfg.tchk = true) (htag : tokTag c.word ≠ cfg.ctag) : (u.decide cfg).st = { u with fault := 2, faultIn := 2 } := by
  have h4 : cfg.kind ≠ 4 := by omega
  have h5 : ¬(cfg.kind = 0 ∨ 5 < cfg.kind) := by omega
  simp [Steer.decide, hu.fault, Steer.discard_of_cur hu.cur, hu.cur, hu.pend0, hu.pend1, h4, h5, hqt, htchk, htag,
    Steer.stop_of_fault hu.fault]
theorem Steer.decide_of_skip (hu : u.Idle) (hqt : u.qt = c :: rest) (hk : cfg.kind = 1 ∨ cfg.kind = 2 ∨ cfg.kind = 3 ∨ cfg.kind = 5)
    (htag : cfg.tchk = true → tokTag c.word = cfg.ctag) (hskip : isSkipTok c.word = true) :
    (u.decide cfg).st = { u with fault := 3, faultIn := 2 } := by
  have h4 : cfg.kind ≠ 4 := by omega
  have h5 : ¬(cfg.kind = 0 ∨ 5 < cfg.kind) := by omega
  have ht : ¬(cfg.tchk = true ∧ tokTag c.word ≠ cfg.ctag) := fun h => h.2 (htag h.1)
  simp only [Steer.decide, hu.fault, Steer.discard_of_cur hu.cur, hu.cur, hu.pend0, hu.pend1, h4, h5, hqt, ht, hskip,
    Steer.stop_of_fault hu.fault]
  simp
/-- An ordinary control token lets a MERGE take the unit it selects, and a SPLIT send the next one where it says (04 R141). -/
theorem Steer.decide_of_merge (hu : u.Idle) (hqt : u.qt = c :: rest) (hk : cfg.kind = 1)
    (htag : cfg.tchk = true → tokTag c.word = cfg.ctag) (hskip : isSkipTok c.word = false) (hend : isEndTok c.word = false)
    (hA : 0 < cfg.unitA) (hB : 0 < cfg.unitB) {x y : Beat} {qa qb : List SlotItem} (hqa : u.qa = .beat x :: qa) (hqb : u.qb = .beat y :: qb) :
    u.decide cfg = ⟨{ u with qt := rest, cur := some ⟨c.word.toNat.testBit 0,
      if c.word.toNat.testBit 0 then cfg.unitB else cfg.unitA, true, false, false, false, 0⟩ }, [], [c.src]⟩ := by
  obtain ⟨_, _, _, arrA, arrB, cur, pend0, pend1, fault, faultIn⟩ := u
  obtain ⟨hfault, hcur, h0, h1⟩ := hu
  dsimp only at hfault hcur h0 h1 hqt hqa hqb
  subst hfault hcur h0 h1 hqt hqa hqb
  have ht : ¬(cfg.tchk = true ∧ tokTag c.word ≠ cfg.ctag) := fun h => h.2 (htag h.1)
  have hroute := fun bit : Bool => Steer.route_of_beat (u := ⟨.beat x :: qa, .beat y :: qb, rest, arrA, arrB, none, [], [], 0, faultIn⟩)
    (cfg := cfg) (fromB := bit) (o0 := true) (o1 := false) (b := if bit then y else x) (q := if bit then qb else qa)
    (by cases bit <;> rfl) (.inl rfl) hA hB rfl rfl
  cases hbit : c.word.toNat.testBit 0 <;>
    simp [Steer.decide, Steer.discard, hk, ht, hskip, hend, unitHead_beat, hbit, hroute, -Nat.testBit_zero]
theorem Steer.decide_of_split (hu : u.Idle) (hqt : u.qt = c :: rest) (hk : cfg.kind = 2)
    (htag : cfg.tchk = true → tokTag c.word = cfg.ctag) (hskip : isSkipTok c.word = false) (hend : isEndTok c.word = false)
    (hA : 0 < cfg.unitA) (hB : 0 < cfg.unitB) {x : Beat} {qa : List SlotItem} (hqa : u.qa = .beat x :: qa) :
    u.decide cfg = ⟨{ u with qt := rest, cur := some ⟨false, cfg.unitA, !c.word.toNat.testBit 0, c.word.toNat.testBit 0, false, false, 0⟩ },
      [], [c.src]⟩ := by
  obtain ⟨_, qb, _, arrA, arrB, cur, pend0, pend1, fault, faultIn⟩ := u
  obtain ⟨hfault, hcur, h0, h1⟩ := hu
  dsimp only at hfault hcur h0 h1 hqt hqa
  subst hfault hcur h0 h1 hqt hqa
  have ht : ¬(cfg.tchk = true ∧ tokTag c.word ≠ cfg.ctag) := fun h => h.2 (htag h.1)
  have hroute := fun bit : Bool => Steer.route_of_beat (u := ⟨.beat x :: qa, qb, rest, arrA, arrB, none, [], [], 0, faultIn⟩)
    (cfg := cfg) (fromB := false) (o0 := !bit) (o1 := bit) (b := x) (q := qa) rfl (by cases bit <;> simp) hA hB rfl rfl
  simp [Steer.decide, Steer.discard, hk, ht, hskip, hend, unitHead_beat, hroute]
end

/-! ### Protocol faults -/

section
variable {s t : State} {b node unit : Nat}

theorem Branch.mem_faulted {x : Branch} {f : Nat × Nat × Nat × Nat} :
    f ∈ x.faulted ↔ ∃ k < 128, (tget Steer.empty x.steers k).fault ≠ 0 ∧
      f = (k / 2, k % 2, (tget Steer.empty x.steers k).fault, (tget Steer.empty x.steers k).faultIn) := by
  simp only [Branch.faulted, List.mem_filterMap, List.mem_range]
  refine exists_congr fun k => and_congr_right fun _ => ?_
  split <;> simp_all [eq_comm]
/-- A branch on which no unit is stopped that was not stopped before. -/
theorem State.protocolFault_of_subset {before : Branch} (h : ∀ f ∈ (s.branch b).faulted, f ∈ before.faulted) :
    s.protocolFault before b = s := by
  have hnone : (s.branch b).faulted.find? (fun f => !before.faulted.contains f) = none := by
    simpa using h
  rw [State.protocolFault, hnone]
theorem State.protocolFault_of_steers {before : Branch} (h : (s.branch b).steers = before.steers) : s.protocolFault before b = s :=
  State.protocolFault_of_subset fun f hf => by rwa [Branch.faulted, ← h]
/-- The circuit of a branch is read off the passes and the placed circuits. -/
theorem State.circuitInst_congr (h : t.sv = s.sv) : t.circuitInst b = s.circuitInst b := by
  unfold State.circuitInst State.runningInst State.passOn State.inst
  rw [h]

/-- A branch after the decision u of one of its steering units. -/
def Branch.withSteer (x : Branch) (node unit : Nat) (u : Steer) : Branch :=
  { x with steers := tset Steer.empty x.steers (node * 2 + unit) u }
theorem Branch.steer_withSteer (x : Branch) (node unit : Nat) (u : Steer) : (x.withSteer node unit u).steer node unit = u :=
  tget_tset_same _ _ _
/-- Another unit that is stopped after the decision was stopped before it. -/
theorem Branch.mem_faulted_of_withSteer {x : Branch} {u : Steer} {f : Nat × Nat × Nat × Nat} (hunit : unit < 2)
    (hf : f ∈ (x.withSteer node unit u).faulted) : f ∈ x.faulted ∨ u.fault ≠ 0 ∧ f = (node, unit, u.fault, u.faultIn) := by
  obtain ⟨k, hk, hfault, rfl⟩ := Branch.mem_faulted.1 hf
  by_cases hkey : k = node * 2 + unit
  · subst hkey
    rw [show tget Steer.empty (x.withSteer node unit u).steers (node * 2 + unit) = u from tget_tset_same _ _ _] at hfault ⊢
    exact .inr ⟨hfault, by rw [show (node * 2 + unit) / 2 = node by omega, show (node * 2 + unit) % 2 = unit by omega]⟩
  · rw [show tget Steer.empty (x.withSteer node unit u).steers k = tget Steer.empty x.steers k from tget_tset_other _ hkey] at hfault ⊢
    exact .inl (Branch.mem_faulted.2 ⟨k, hk, hfault, rfl⟩)
/-- Where the decision stops the unit, it is the one that is newly stopped. -/
theorem Branch.find?_faulted_withSteer {x : Branch} {u : Steer} (hnode : node < 64) (hunit : unit < 2) (hfault : u.fault ≠ 0)
    (hbefore : (x.steer node unit).fault = 0) :
    (x.withSteer node unit u).faulted.find? (fun f => !x.faulted.contains f) = some (node, unit, u.fault, u.faultIn) := by
  have hmem : (node, unit, u.fault, u.faultIn) ∈ (x.withSteer node unit u).faulted := by
    refine Branch.mem_faulted.2 ⟨node * 2 + unit, by omega, ?_⟩
    rw [show tget Steer.empty (x.withSteer node unit u).steers (node * 2 + unit) = u from tget_tset_same _ _ _,
      show (node * 2 + unit) / 2 = node by omega, show (node * 2 + unit) % 2 = unit by omega]
    exact ⟨hfault, rfl⟩
  have hnew : (node, unit, u.fault, u.faultIn) ∉ x.faulted := by
    intro h
    obtain ⟨k, -, hk, he⟩ := Branch.mem_faulted.1 h
    simp only [Prod.mk.injEq] at he
    obtain ⟨rfl, rfl, -⟩ := he
    rw [Branch.steer, show k / 2 * 2 + k % 2 = k by omega] at hbefore
    exact hk hbefore
  cases hfind : (x.withSteer node unit u).faulted.find? (fun f => !x.faulted.contains f) with
  | none => simpa [hnew] using List.find?_eq_none.1 hfind _ hmem
  | some f =>
    have hf : f ∉ x.faulted := by simpa using List.find?_some hfind
    rcases Branch.mem_faulted_of_withSteer hunit (List.mem_of_find?_eq_some hfind) with h | ⟨-, rfl⟩
    · exact absurd h hf
    · rfl
end

/-! ### STEERING_DECISION -/

section
variable {s : State} {t b node unit : Nat}

/-- The decision of a unit of a branch as it stands. -/
def Branch.decision (x : Branch) (node unit : Nat) : SteerStep := (x.steer node unit).decide (x.steerSet x.active node unit)
/-- The part after a unit's decision and the credits it frees, before the action of a protocol fault. -/
def State.steered (s : State) (b node unit : Nat) : State :=
  let d := (s.branch b).decision node unit
  ((s.modSteer b node unit (fun _ => d.st)).freeCredits b d.beats true).freeCredits b d.toks false
/-- What freed credits leave as it was. -/
theorem State.freeCredits_frame {β : Type} {g : State → β} (h : ∀ s src beat, g (s.freeCredit b src beat) = g s) (s : State)
    (srcs : List Nat) (beat : Bool) : g (s.freeCredits b srcs beat) = g s :=
  State.foldl_frame (fun s src => h s src beat) srcs s
theorem State.steered_frame {β : Type} {g : State → β} (h : ∀ s src beat, g (s.freeCredit b src beat) = g s) (s : State) :
    g (s.steered b node unit) = g (s.modSteer b node unit fun _ => ((s.branch b).decision node unit).st) :=
  (State.freeCredits_frame h _ _ _).trans (State.freeCredits_frame h _ _ _)
theorem State.steers_steered (s : State) (b node unit : Nat) :
    ((s.steered b node unit).branch b).steers = ((s.branch b).withSteer node unit ((s.branch b).decision node unit).st).steers := by
  refine (State.steered_frame (g := fun s => (s.branch b).steers) (fun s src beat => ?_) s).trans ?_
  · rw [State.freeCredit, State.branch_modBranch_same]
  · rw [State.modSteer, State.branch_modBranch_same]
    rfl
theorem State.steer_steered (s : State) (b node unit : Nat) :
    ((s.steered b node unit).branch b).steer node unit = ((s.branch b).decision node unit).st := by
  rw [Branch.steer, State.steers_steered]
  exact Branch.steer_withSteer _ _ _ _
theorem State.lanes_steered (s : State) (b node unit : Nat) : ((s.steered b node unit).branch b).lanes = (s.branch b).lanes := by
  refine (State.steered_frame (g := fun s => (s.branch b).lanes) (fun s src beat => ?_) s).trans ?_
  · rw [State.freeCredit, State.branch_modBranch_same]
  · rw [State.modSteer, State.branch_modBranch_same]
theorem State.leaves_steered (s : State) (b node unit : Nat) : (s.steered b node unit).leaves = s.leaves :=
  State.steered_frame (g := State.leaves) (fun _ _ _ => rfl) s
theorem State.sv_steered (s : State) (b node unit : Nat) : (s.steered b node unit).sv = s.sv :=
  State.steered_frame (g := State.sv) (fun _ _ _ => rfl) s
theorem State.faulted_steered (s : State) (b node unit : Nat) : ((s.steered b node unit).branch b).faulted =
    ((s.branch b).withSteer node unit ((s.branch b).decision node unit).st).faulted := by
  rw [Branch.faulted, State.steers_steered]
  rfl

theorem exec_steeringDecision (hb : b < s.nBranches) (hrun : s.branchRuns b = true) (hnode : node < 64) (hunit : unit < 2) :
    exec (.steeringDecision t b node unit) s = .next (((s.at t).steered b node unit).protocolFault (s.branch b) b) := by
  have hgo : ¬((s.at t).branchRuns b = false ∨ 64 ≤ node ∨ 2 ≤ unit) := by
    rw [show (s.at t).branchRuns b = s.branchRuns b from rfl, hrun]
    simp [hnode, hunit]
  exact (if_neg (Nat.not_le.2 hb)).trans (if_neg hgo)
/-- A decision that stops no unit is all that happens. -/
theorem State.protocolFault_steered_of_ok (hunit : unit < 2) (h : ((s.branch b).decision node unit).st.fault = 0) :
    (s.steered b node unit).protocolFault (s.branch b) b = s.steered b node unit := by
  refine State.protocolFault_of_subset fun f hf => ?_
  rw [State.faulted_steered] at hf
  exact (Branch.mem_faulted_of_withSteer hunit hf).resolve_right fun hnew => hnew.1 h
/-- One that stops its unit fires the sentinel of the branch's circuit. -/
theorem State.protocolFault_steered_of_fault (hnode : node < 64) (hunit : unit < 2) {i : Inst}
    (h : ((s.branch b).decision node unit).st.fault ≠ 0) (hbefore : ((s.branch b).steer node unit).fault = 0)
    (hi : s.circuitInst b = some i) :
    (s.steered b node unit).protocolFault (s.branch b) b = (s.steered b node unit).fireSentinel i
      ((s.steered b node unit).stallAt 3 ((s.branch b).decision node unit).st.fault b node
        (5 + 3 * unit + ((s.branch b).decision node unit).st.faultIn) 0) := by
  rw [State.protocolFault, State.faulted_steered, Branch.find?_faulted_withSteer hnode hunit h hbefore,
    State.circuitInst_congr (State.sv_steered s b node unit), hi]
end

/-! ### SENTINEL_FIRE -/

section
variable {s : State} {t b : Nat} {p : Pass} {i : Inst}

theorem exec_sentinelFire (hb : b < s.nBranches) (hp : (s.at t).passOn b = some p) (hi : (s.at t).runningInst b = some i) :
    exec (.sentinelFire t b) s =
      if i.home ≠ b ∨ (s.branch b).sentEn = false ∨ (s.branch b).frozen = true ∨ p.members = [] ∨ (s.at t).sentinelHeld i p = true ∨
          (s.branch b).sentIdle < Nat.max 1024 (s.branch b).sentLimit then .next (s.at t)
      else .next ((s.at t).fireSentinel i ((s.at t).scan i)) := by
  refine (if_neg (Nat.not_le.2 hb)).trans ?_
  dsimp only
  rw [hp, hi]
  rfl
end

/-- Settles O23: the cases of an idle unit's decision, the one unit a decision can stop, and the sentinel's conditions. -/
theorem steeringAndSentinels : Obligations.SteeringAndSentinels := by
  unfold Obligations.SteeringAndSentinels
  refine ⟨fun u cfg c rest hfault hcur h0 h1 hqt => ?_, fun s t b hb => ⟨fun node unit hrun hnode hunit => ?_, ?_⟩⟩
  · have hu : u.Idle := ⟨hfault, hcur, h0, h1⟩
    exact ⟨fun hk => ⟨u.decide_of_tag hu hqt hk, u.decide_of_skip hu hqt hk⟩, fun htag hskip hend hA hB x y qa qb hqa hqb =>
      ⟨fun hk => u.decide_of_merge hu hqt hk htag hskip hend hA hB hqa hqb,
        fun hk => u.decide_of_split hu hqt hk htag hskip hend hA hB hqa⟩⟩
  · refine ⟨fun hok => ?_, fun i hstop hbefore hi => ?_⟩
    · exact ⟨_, (exec_steeringDecision hb hrun hnode hunit).trans
        (congrArg _ (State.protocolFault_steered_of_ok (s := s.at t) hunit hok)), State.steer_steered _ _ _ _,
        State.leaves_steered _ _ _ _, State.lanes_steered _ _ _ _⟩
    · exact ⟨_, _, (exec_steeringDecision hb hrun hnode hunit).trans
        (congrArg _ (State.protocolFault_steered_of_fault (s := s.at t) hnode hunit hstop hbefore hi)), rfl, rfl, rfl, rfl,
        State.steer_steered _ _ _ _⟩
  · intro p i hp hi hhome hmembers hfrozen hheld
    refine ⟨fun hen hlimit => ?_, fun hno => ?_⟩
    · rw [exec_sentinelFire hb hp hi, if_neg]
      simp [hhome, hen, hfrozen, hmembers, hheld, Nat.not_lt.2 hlimit]
    · rw [exec_sentinelFire hb hp hi, if_pos]
      exact hno.elim (fun h => .inr (.inl h)) fun h => .inr (.inr (.inr (.inr (.inr h))))

end Sys2Proof.Machine
end

section
/-! What an action outside the slot tables leaves of the slot counters (04 R124): the firing of a sentinel, the end of requests, the start
of passes and a handover change many things of a branch, but never its slot counter. As for `State.fixed`, every update is shown once to
leave the counters as they were, in the model's order. -/

namespace Sys2Proof.Machine

/-- The slot counters of a table of branches. -/
def slotCtrsOf (t : Tab Branch) : Nat → Nat := fun b => (tget Branch.empty t b).slotCtr
/-- The slot counter of every branch. -/
def State.slotCtrs (s : State) : Nat → Nat := slotCtrsOf s.branches
theorem State.slotCtrs_apply (s : State) (b : Nat) : s.slotCtrs b = (s.branch b).slotCtr := rfl
@[simp] theorem slotCtrsOf_branches (s : State) : slotCtrsOf s.branches = s.slotCtrs := rfl
@[simp] theorem State.slotCtrs_mk (part now free mem leaves branches csr sv tiers pw mg db ur cnt page out poisonLog packets nextPacket pending) :
    (State.mk part now free mem leaves branches csr sv tiers pw mg db ur cnt page out poisonLog packets nextPacket pending).slotCtrs =
      slotCtrsOf branches := rfl
@[simp] theorem State.slotCtrs_ite (c : Prop) [Decidable c] (s t : State) :
    (if c then s else t).slotCtrs = if c then s.slotCtrs else t.slotCtrs := apply_ite State.slotCtrs c s t
@[simp] theorem Branch.slotCtr_ite (c : Prop) [Decidable c] (x y : Branch) : (if c then x else y).slotCtr = if c then x.slotCtr else y.slotCtr :=
  apply_ite Branch.slotCtr c x y
@[simp] theorem State.each_slotCtrs {α : Type} (s : State) (l : List α) (f : State → α → State) (h : ∀ s a, (f s a).slotCtrs = s.slotCtrs) :
    (s.each l f).slotCtrs = s.slotCtrs := State.each_frame h l s
@[simp] theorem State.foldl_slotCtrs {α : Type} (s : State) (l : List α) (f : State → α → State) (h : ∀ s a, (f s a).slotCtrs = s.slotCtrs) :
    (l.foldl f s).slotCtrs = s.slotCtrs := State.each_frame h l s

section
variable (s : State)

/-! ### Shared operations -/

@[simp] theorem State.tick_slotCtrs : s.tick.slotCtrs = s.slotCtrs := by simp [State.tick]
@[simp] theorem State.memSet_slotCtrs (k v) : (s.memSet k v).slotCtrs = s.slotCtrs := by simp [State.memSet]
@[simp] theorem State.memWrite_slotCtrs (k bs) : (s.memWrite k bs).slotCtrs = s.slotCtrs := by simp [State.memWrite]
@[simp] theorem State.putLeaf_slotCtrs (l lf) : (s.putLeaf l lf).slotCtrs = s.slotCtrs := by simp [State.putLeaf]
@[simp] theorem State.modLeaf_slotCtrs (l f) : (s.modLeaf l f).slotCtrs = s.slotCtrs := by simp [State.modLeaf]
/-- A change of a branch that keeps its slot counter. -/
@[simp] theorem State.modBranch_slotCtrs (b f) (h : ∀ x, (f x).slotCtr = x.slotCtr) : (s.modBranch b f).slotCtrs = s.slotCtrs := by
  funext k
  by_cases hk : k = b
  · rw [hk, State.slotCtrs_apply, State.branch_modBranch_same, h, State.slotCtrs_apply]
  · rw [State.slotCtrs_apply, State.branch_modBranch_other _ _ _ _ hk, State.slotCtrs_apply]
@[simp] theorem State.modBranches_slotCtrs (bs f) (h : ∀ x, (f x).slotCtr = x.slotCtr) : (s.modBranches bs f).slotCtrs = s.slotCtrs := by
  simp [State.modBranches, h]
@[simp] theorem State.modLeavesOf_slotCtrs (b f) : (s.modLeavesOf b f).slotCtrs = s.slotCtrs := by simp [State.modLeavesOf]
@[simp] theorem State.reportPoison_slotCtrs (b mover index reason req addr) :
    (s.reportPoison b mover index reason req addr).slotCtrs = s.slotCtrs := by
  simp [State.reportPoison]
@[simp] theorem State.putReg_slotCtrs (off v) : (s.putReg off v).slotCtrs = s.slotCtrs := by simp [State.putReg]
@[simp] theorem State.wf_slotCtrs (off hi lo x) : (s.wf off hi lo x).slotCtrs = s.slotCtrs := by simp [State.wf]
@[simp] theorem State.wbit_slotCtrs (off i b) : (s.wbit off i b).slotCtrs = s.slotCtrs := by simp [State.wbit]
@[simp] theorem State.bump_slotCtrs (off hi lo x) : (s.bump off hi lo x).slotCtrs = s.slotCtrs := by simp [State.bump]
@[simp] theorem State.count_slotCtrs (o x) : (s.count o x).slotCtrs = s.slotCtrs := by simp [State.count]
@[simp] theorem State.emit_slotCtrs (o) : (s.emit o).slotCtrs = s.slotCtrs := by simp [State.emit]
@[simp] theorem State.modSv_slotCtrs (f) : (s.modSv f).slotCtrs = s.slotCtrs := by simp [State.modSv]
@[simp] theorem State.modDb_slotCtrs (f) : (s.modDb f).slotCtrs = s.slotCtrs := by simp [State.modDb]
@[simp] theorem State.modUr_slotCtrs (f) : (s.modUr f).slotCtrs = s.slotCtrs := by simp [State.modUr]

/-! ### Trace records, transactions and the freeze -/

@[simp] theorem State.traceRec_slotCtrs (type time payload) : (s.traceRec type time payload).slotCtrs = s.slotCtrs := by
  obtain ⟨_, _, h, -⟩ := s.traceRec_only type time payload
  rw [h]
  rfl
@[simp] theorem State.traceStand_slotCtrs (sd type payload) : (s.traceStand sd type payload).slotCtrs = s.slotCtrs := by simp [State.traceStand]
@[simp] theorem State.event_slotCtrs (source index value addr) : (s.event source index value addr).slotCtrs = s.slotCtrs := by
  simp [State.event]
@[simp] theorem State.eventOf_slotCtrs (sd source index value addr) : (s.eventOf sd source index value addr).slotCtrs = s.slotCtrs := by
  unfold State.eventOf
  split <;> simp
@[simp] theorem State.queueTx_slotCtrs (n tx) : (s.queueTx n tx).slotCtrs = s.slotCtrs := by simp [State.queueTx, State.modLink]
@[simp] theorem State.flowSend_slotCtrs (n tx) : (s.flowSend n tx).slotCtrs = s.slotCtrs := by
  unfold State.flowSend
  split <;> simp
@[simp] theorem State.sendTx_slotCtrs (tx) : (s.sendTx tx).1.slotCtrs = s.slotCtrs := by
  unfold State.sendTx
  (repeat' split) <;> simp
@[simp] theorem State.launch_slotCtrs (tx p) : (s.launch tx p).1.slotCtrs = s.slotCtrs := by
  unfold State.launch
  dsimp only
  (repeat' split) <;> simp
@[simp] theorem State.freeze_slotCtrs (cause drive peers) : (s.freeze cause drive peers).slotCtrs = s.slotCtrs := by simp [State.freeze]
@[simp] theorem State.trigger_slotCtrs (bit) : (s.trigger bit).slotCtrs = s.slotCtrs := by simp [State.trigger]

/-! ### Leaves -/

@[simp] theorem State.leafWrite_slotCtrs (l a bs) : (s.leafWrite l a bs).slotCtrs = s.slotCtrs := by
  induction bs generalizing s a with
  | nil => rfl
  | cons _ _ ih => simp [State.leafWrite, ih]
@[simp] theorem State.leafFault_slotCtrs (l kind pc laddr) : (s.leafFault l kind pc laddr).slotCtrs = s.slotCtrs := by
  simp [State.leafFault]
@[simp] theorem State.consume_slotCtrs (l why pc laddr) : (s.consume l why pc laddr).slotCtrs = s.slotCtrs := by
  unfold State.consume
  (repeat' split) <;> simp
@[simp] theorem State.handoverCheck_slotCtrs (l n) : (s.handoverCheck l n).slotCtrs = s.slotCtrs := by simp [State.handoverCheck]
@[simp] theorem State.leafSwitch_slotCtrs (l) : (s.leafSwitch l).slotCtrs = s.slotCtrs := by simp [State.leafSwitch]
@[simp] theorem State.noteSeen_slotCtrs (l u a n) : (s.noteSeen l u a n).slotCtrs = s.slotCtrs := by simp [State.noteSeen]
@[simp] theorem State.leafStore_slotCtrs (l u ws) : (s.leafStore l u ws).slotCtrs = s.slotCtrs := by
  induction ws generalizing s with
  | nil => rfl
  | cons _ _ ih => simp [State.leafStore, ih]
@[simp] theorem State.runOp_slotCtrs (l c bad) : (s.runOp l c bad).slotCtrs = s.slotCtrs := by
  unfold State.runOp
  dsimp only
  split <;> simp
@[simp] theorem State.runVectorHead_slotCtrs (l) : (s.runVectorHead l).slotCtrs = s.slotCtrs := by
  unfold State.runVectorHead
  split <;> simp
@[simp] theorem State.leafAbort_slotCtrs (l) : (s.leafAbort l).slotCtrs = s.slotCtrs := by simp [State.leafAbort]
@[simp] theorem State.leafSwitchReq_slotCtrs (l) : (s.leafSwitchReq l).slotCtrs = s.slotCtrs := by simp [State.leafSwitchReq]

/-! ### Credits, lanes and handover -/

@[simp] theorem State.modCredit_slotCtrs (b src f) : (s.modCredit b src f).slotCtrs = s.slotCtrs := by simp [State.modCredit]
@[simp] theorem State.modLane_slotCtrs (b key f) : (s.modLane b key f).slotCtrs = s.slotCtrs := by simp [State.modLane]
@[simp] theorem State.useCredit_slotCtrs (b src tok) : (s.useCredit b src tok).slotCtrs = s.slotCtrs := by simp [State.useCredit]
@[simp] theorem State.inletPump_slotCtrs (b key fuel) : (s.inletPump b key fuel).slotCtrs = s.slotCtrs := by
  induction fuel generalizing s with
  | zero => rfl
  | succ fuel ih =>
    unfold State.inletPump
    dsimp only
    (repeat' split) <;> simp [ih]
@[simp] theorem State.modMover_slotCtrs (b m f) : (s.modMover b m f).slotCtrs = s.slotCtrs := by simp [State.modMover, Branch.putMover]
@[simp] theorem State.moved_slotCtrs (b) : (s.moved b).slotCtrs = s.slotCtrs := by simp [State.moved]
@[simp] theorem State.reach_slotCtrs (b n) : (s.reach b n).slotCtrs = s.slotCtrs := by simp [State.reach]
@[simp] theorem State.takeLimit_slotCtrs (b) : (s.takeLimit b).slotCtrs = s.slotCtrs := by simp [State.takeLimit]
@[simp] theorem State.handOver_slotCtrs (b n) : (s.handOver b n).slotCtrs = s.slotCtrs := by simp [State.handOver, Branch.clearCircuits]
@[simp] theorem State.handoverStep_slotCtrs (b) : (s.handoverStep b).slotCtrs = s.slotCtrs := by simp [State.handoverStep]

/-! ### The end of requests -/

@[simp] theorem State.modRes_slotCtrs (sd f) : (s.modRes sd f).slotCtrs = s.slotCtrs := by simp [State.modRes]
@[simp] theorem State.pfVector_slotCtrs (v) : (s.pfVector v).slotCtrs = s.slotCtrs := by simp [State.pfVector]
@[simp] theorem State.alertEdge_slotCtrs : s.alertEdge.slotCtrs = s.slotCtrs := by simp [State.alertEdge]
@[simp] theorem State.vecMessage_slotCtrs (sd v) : (s.vecMessage sd v).slotCtrs = s.slotCtrs := by simp [State.vecMessage]
@[simp] theorem State.setVector_slotCtrs (sd v) : (s.setVector sd v).slotCtrs = s.slotCtrs := by simp [State.setVector]
@[simp] theorem State.noteOutside_slotCtrs (space off n) : (s.noteOutside space off n).slotCtrs = s.slotCtrs := by simp [State.noteOutside]
@[simp] theorem State.store_slotCtrs (space off bs) : (s.store space off bs).slotCtrs = s.slotCtrs := by simp [State.store]
@[simp] theorem State.dropReq_slotCtrs (id) : (s.dropReq id).slotCtrs = s.slotCtrs := by simp [State.dropReq]
@[simp] theorem State.modPass_slotCtrs (p f) : (s.modPass p f).slotCtrs = s.slotCtrs := by simp [State.modPass]
@[simp] theorem State.dropPass_slotCtrs (p) : (s.dropPass p).slotCtrs = s.slotCtrs := by simp [State.dropPass]
@[simp] theorem State.addBucket_slotCtrs (sd d) : (s.addBucket sd d).slotCtrs = s.slotCtrs := by simp [State.addBucket]
@[simp] theorem State.addCharged_slotCtrs (sd uj) : (s.addCharged sd uj).slotCtrs = s.slotCtrs := by simp [State.addCharged]
@[simp] theorem State.sendRecord_slotCtrs (r cr result) : (s.sendRecord r cr result).slotCtrs = s.slotCtrs := by
  unfold State.sendRecord
  dsimp only
  (repeat' split) <;> simp
@[simp] theorem State.settle_slotCtrs (r share) : (s.settle r share).slotCtrs = s.slotCtrs := by simp [State.settle]
@[simp] theorem State.undefine_slotCtrs (r) : (s.undefine r).slotCtrs = s.slotCtrs := by simp [State.undefine]
@[simp] theorem State.finish_slotCtrs (r st accepted share result flr) :
    (s.finish r st accepted share result flr).slotCtrs = s.slotCtrs := by
  simp [State.finish]
@[simp] theorem State.useObjs_slotCtrs (p) : (s.useObjs p).slotCtrs = s.slotCtrs := by simp [State.useObjs]
@[simp] theorem State.ringTokens_slotCtrs (b m) : (s.ringTokens b m).slotCtrs = s.slotCtrs := by simp [State.ringTokens]
@[simp] theorem State.abandonIn_slotCtrs (bs p) : (s.abandonIn bs p).slotCtrs = s.slotCtrs := by simp [State.abandonIn]
@[simp] theorem State.modSeq_slotCtrs (sd id f) : (s.modSeq sd id f).slotCtrs = s.slotCtrs := by simp [State.modSeq]
@[simp] theorem State.freeSeq_slotCtrs (sd id) : (s.freeSeq sd id).slotCtrs = s.slotCtrs := by simp [State.freeSeq]
@[simp] theorem State.markSpare_slotCtrs (sd id len) : (s.markSpare sd id len).slotCtrs = s.slotCtrs := by simp [State.markSpare]
@[simp] theorem State.leavePass_slotCtrs (id) : (s.leavePass id).slotCtrs = s.slotCtrs := by simp [State.leavePass]
@[simp] theorem State.retireOld_slotCtrs : s.retireOld.slotCtrs = s.slotCtrs := by simp [State.retireOld]
@[simp] theorem State.settleSeq_slotCtrs (r status) : (s.settleSeq r status).slotCtrs = s.slotCtrs := by simp [State.settleSeq]
@[simp] theorem State.unpinned_slotCtrs (s0 : State) : (s0.unpinned s).slotCtrs = s.slotCtrs := by simp [State.unpinned]
@[simp] theorem State.endOne_slotCtrs (r0 st result flr) : (s.endOne r0 st result flr).slotCtrs = s.slotCtrs := by simp [State.endOne]
@[simp] theorem State.endReq_slotCtrs (r status result flr) : (s.endReq r status result flr).slotCtrs = s.slotCtrs := by
  unfold State.endReq
  extract_lets s1
  split
  · exact State.endOne_slotCtrs ..
  · exact (State.each_slotCtrs _ _ _ fun s id => by split <;> simp).trans (State.endOne_slotCtrs ..)
@[simp] theorem State.runReleases_slotCtrs : s.runReleases.slotCtrs = s.slotCtrs := by simp [State.runReleases]
@[simp] theorem State.adminEnd_slotCtrs (id status body) : (s.adminEnd id status body).slotCtrs = s.slotCtrs := by
  unfold State.adminEnd
  (repeat' split) <;> simp
@[simp] theorem State.releaseLoad_slotCtrs (l) : (s.releaseLoad l).slotCtrs = s.slotCtrs := by simp [State.releaseLoad]
@[simp] theorem State.runEvictions_slotCtrs : s.runEvictions.slotCtrs = s.slotCtrs := by
  refine State.each_slotCtrs _ _ _ fun s l => ?_
  split
  · rfl
  · split <;> simp
@[simp] theorem State.afterEnds_slotCtrs : s.afterEnds.slotCtrs = s.slotCtrs := by simp [State.afterEnds]
@[simp] theorem State.abortBranches_slotCtrs (bs) : (s.abortBranches bs).slotCtrs = s.slotCtrs := by simp [State.abortBranches]

/-! ### The start of passes -/

@[simp] theorem State.scratchWrite_slotCtrs (b off bs) : (s.scratchWrite b off bs).slotCtrs = s.slotCtrs := by simp [State.scratchWrite]
@[simp] theorem State.bindShapes_slotCtrs (p b n x) : (s.bindShapes p b n x).slotCtrs = s.slotCtrs := by simp [State.bindShapes]
@[simp] theorem State.clearDoorbells_slotCtrs (i c rt) : (s.clearDoorbells i c rt).slotCtrs = s.slotCtrs := by simp [State.clearDoorbells]
@[simp] theorem State.openCrossings_slotCtrs (i n) : (s.openCrossings i n).slotCtrs = s.slotCtrs := by simp [State.openCrossings]
@[simp] theorem State.toContext_slotCtrs (b n) : (s.toContext b n).slotCtrs = s.slotCtrs := by simp [State.toContext]
@[simp] theorem State.sendInlets_slotCtrs (p i n) : (s.sendInlets p i n).slotCtrs = s.slotCtrs := by simp [State.sendInlets]
@[simp] theorem State.wake_slotCtrs (bs) : (s.wake bs).slotCtrs = s.slotCtrs := by simp [State.wake]
@[simp] theorem State.beginStage_slotCtrs (p i l c n) : (s.beginStage p i l c n).slotCtrs = s.slotCtrs := by simp [State.beginStage]
@[simp] theorem State.runStage_slotCtrs (pid) : (s.runStage pid).slotCtrs = s.slotCtrs := by
  unfold State.runStage
  dsimp only
  (repeat' split) <;> simp
@[simp] theorem State.resumeStages_slotCtrs : s.resumeStages.slotCtrs = s.slotCtrs := by simp [State.resumeStages]

/-! ### The reset of a circuit -/

@[simp] theorem State.clearRings_slotCtrs (i) : (s.clearRings i).slotCtrs = s.slotCtrs := by simp [State.clearRings]
@[simp] theorem State.abandonForks_slotCtrs (p) : (s.abandonForks p).slotCtrs = s.slotCtrs := by simp [State.abandonForks, State.forkStatus]
@[simp] theorem Branch.emptied_slotCtr (x : Branch) : x.emptied.slotCtr = x.slotCtr := by simp [Branch.emptied]
@[simp] theorem State.emptyBranches_slotCtrs (bs) : (s.emptyBranches bs).slotCtrs = s.slotCtrs := by simp [State.emptyBranches]
@[simp] theorem State.resetInst_slotCtrs (i) : (s.resetInst i).slotCtrs = s.slotCtrs := by
  unfold State.resetInst
  extract_lets s1 run s2 s3 s4
  have h2 : s2.slotCtrs = s.slotCtrs :=
    (State.each_slotCtrs _ _ _ fun s id => by split <;> simp).trans (by simp [s1])
  simp [s4, s3, h2]
@[simp] theorem State.fireSentinel_slotCtrs (i r) : (s.fireSentinel i r).slotCtrs = s.slotCtrs := by simp [State.fireSentinel]
@[simp] theorem State.protocolFault_slotCtrs (before b) : (s.protocolFault before b).slotCtrs = s.slotCtrs := by
  unfold State.protocolFault
  split <;> simp
end

end Sys2Proof.Machine
end

section
/-! One cycle of a branch's slot plane (04 R124-R135): SLOT_TRANSFER with a single entry in the slot, CREDIT_RETURN and
CROSSING_LANE_ARRIVAL. -/

namespace Sys2Proof.Machine

/-! ### What the movement of a beat leaves as it was -/

/-- The slot set, the handover, the slot tables and the steering units of a branch. -/
def Branch.plane (x : Branch) : Nat × Bool × Tab (BitVec 16) × Tab Steer := (x.active, x.handover, x.slots, x.steers)
theorem Branch.plane_eq {x y : Branch} (h : y.plane = x.plane) :
    y.active = x.active ∧ y.handover = x.handover ∧ y.slots = x.slots ∧ y.steers = x.steers := by
  simpa [Branch.plane] using h
/-- The commands and ports of a leaf. -/
def Leaf.streams (lf : Leaf) : List UnitCmd × Tab InPort × Tab OutPort := (lf.queue, lf.inPorts, lf.outPorts)
theorem Leaf.streams_eq {x y : Leaf} (h : y.streams = x.streams) :
    y.queue = x.queue ∧ y.inPorts = x.inPorts ∧ y.outPorts = x.outPorts := by
  simpa [Leaf.streams] using h

section
variable {s t : State} {b : Nat}

/-- A view of a branch that a change keeps, whichever branch changes. -/
theorem State.branch_modBranch_view {α : Type} {g : Branch → α} {f : Branch → Branch} (h : ∀ x, g (f x) = g x) (s : State) (a b : Nat) :
    g ((s.modBranch a f).branch b) = g (s.branch b) := by
  by_cases hb : b = a
  · rw [hb, State.branch_modBranch_same, h]
  · rw [State.branch_modBranch_other _ _ _ _ hb]
theorem State.leaf_modLeaf_view {α : Type} {g : Leaf → α} {f : Leaf → Leaf} (h : ∀ x, g (f x) = g x) (s : State) (a l : Nat) :
    g ((s.modLeaf a f).leaf l) = g (s.leaf l) := by
  by_cases hl : l = a
  · rw [hl, State.leaf_modLeaf_same, h]
  · rw [State.leaf_modLeaf_other _ _ _ _ hl]
/-- Movement clears a sentinel's count and does nothing else. -/
theorem State.moved_view {α : Type} {g : Branch → α} (h : ∀ x : Branch, g { x with sentIdle := 0 } = g x) (s : State) (a b : Nat) :
    g ((s.moved a).branch b) = g (s.branch b) := by
  unfold State.moved
  split
  · exact State.branch_modBranch_view (f := fun x => { x with sentIdle := 0 }) h s _ b
  · rfl
@[simp] theorem State.moved_leaves (s : State) (a : Nat) : (s.moved a).leaves = s.leaves := by
  unfold State.moved
  split <;> rfl
theorem State.leaf_congr (h : t.leaves = s.leaves) (l : Nat) : t.leaf l = s.leaf l := by rw [State.leaf, h, State.leaf]

/-- The part when a branch's cycle has been counted and the links carry nothing yet in its slot. -/
def State.cycled (s : State) (b : Nat) : State := ((s.modBranch b (fun x => { x with linkCycle := x.linkCycle + 1 })).countCycle b).sentinelCount b
def State.slotBegun (s : State) (b : Nat) : State := (s.cycled b).modBranch b (fun x => x.clearSlot (s.branch b).slotCtr)

theorem State.sentinelCount_view {α : Type} {g : Branch → α} (h : ∀ (x : Branch) (hold : Bool) (n : Nat), g { x with sentHold := hold, sentIdle := n } = g x)
    (s : State) (a b : Nat) : g ((s.sentinelCount a).branch b) = g (s.branch b) := by
  unfold State.sentinelCount
  split
  · split
    · rfl
    · split <;> exact State.branch_modBranch_view (fun x => h x _ _) s _ b
  · rfl
theorem State.sentinelCount_only (s : State) (a : Nat) : s.sentinelCount a = { s with branches := (s.sentinelCount a).branches } := by
  unfold State.sentinelCount
  (repeat' split) <;> rfl
/-- A change of some leaves that keeps a view of each. -/
theorem State.foldl_modLeaf_only {α : Type} {g : Leaf → α} {f : Leaf → Leaf} (h : ∀ x, g (f x) = g x) (ls : List Nat) (s : State) :
    ∃ t, ls.foldl (fun s l => s.modLeaf l f) s = { s with leaves := t } ∧ ∀ l, g (tget Leaf.empty t l) = g (s.leaf l) := by
  induction ls generalizing s with
  | nil => exact ⟨s.leaves, rfl, fun _ => rfl⟩
  | cons a ls ih =>
    obtain ⟨t, ht, hview⟩ := ih (s.modLeaf a f)
    exact ⟨t, ht, fun l => (hview l).trans (State.leaf_modLeaf_view h s a l)⟩
/-- The count of a cycle changes the leaves' cycle counts and the telemetry alone. -/
theorem State.countCycle_only (s : State) (a : Nat) :
    ∃ t cnt, s.countCycle a = { s with leaves := t, cnt := cnt } ∧ ∀ l, (tget Leaf.empty t l).streams = (s.leaf l).streams := by
  obtain ⟨t, ht, hview⟩ := State.foldl_modLeaf_only (g := Leaf.streams) (f := Leaf.countCycle) (fun _ => rfl) (branchLeaves a) s
  unfold State.countCycle State.modLeavesOf
  rw [ht]
  exact ⟨t, _, rfl, hview⟩
theorem State.cycled_view {α : Type} {g : Branch → α}
    (h : ∀ (x : Branch) (hold : Bool) (n : Nat), g { x with sentHold := hold, sentIdle := n } = g x)
    (h' : ∀ x : Branch, g { x with linkCycle := x.linkCycle + 1 } = g x) (s : State) (b : Nat) :
    g ((s.cycled b).branch b) = g (s.branch b) := by
  refine (State.sentinelCount_view h _ b b).trans ?_
  obtain ⟨ls, cnt, hcount, -⟩ := (s.modBranch b fun x => { x with linkCycle := x.linkCycle + 1 }).countCycle_only b
  rw [hcount]
  exact State.branch_modBranch_view (f := fun x => { x with linkCycle := x.linkCycle + 1 }) h' s b b
theorem State.streams_cycled (s : State) (b l : Nat) : ((s.cycled b).leaf l).streams = (s.leaf l).streams := by
  obtain ⟨ls, cnt, hcount, hview⟩ := (s.modBranch b fun x => { x with linkCycle := x.linkCycle + 1 }).countCycle_only b
  rw [State.cycled, hcount, State.sentinelCount_only]
  exact hview l
theorem State.part_cycled (s : State) (b : Nat) : (s.cycled b).part = s.part := by
  obtain ⟨ls, cnt, hcount, -⟩ := (s.modBranch b fun x => { x with linkCycle := x.linkCycle + 1 }).countCycle_only b
  rw [State.cycled, hcount, State.sentinelCount_only]
  rfl

theorem State.plane_slotBegun (s : State) (b : Nat) : ((s.slotBegun b).branch b).plane = (s.branch b).plane := by
  rw [State.slotBegun, State.branch_modBranch_same]
  exact State.cycled_view (g := Branch.plane) (fun _ _ _ => rfl) (fun _ => rfl) s b
theorem State.credits_slotBegun (s : State) (b : Nat) : ((s.slotBegun b).branch b).credits = (s.branch b).credits := by
  rw [State.slotBegun, State.branch_modBranch_same]
  exact State.cycled_view (g := Branch.credits) (fun _ _ _ => rfl) (fun _ => rfl) s b
theorem State.streams_slotBegun (s : State) (b l : Nat) : ((s.slotBegun b).leaf l).streams = (s.leaf l).streams :=
  State.streams_cycled s b l
theorem State.part_slotBegun (s : State) (b : Nat) : (s.slotBegun b).part = s.part := State.part_cycled s b
theorem tget_filter_keys {α : Type} {d : α} (p : Nat → Bool) (t : Tab α) {k : Nat} (h : p k = true) :
    tget d (t.filter fun e => p e.1) k = tget d t k := by
  induction t with
  | nil => rfl
  | cons e t ih =>
    obtain ⟨i, v⟩ := e
    by_cases hk : k = i
    · subst hk
      simp [h, tget]
    · cases hi : p i <;> simp [hi, tget, hk, ih]
/-- What the links carried in another slot is still there. -/
theorem State.wire_slotBegun (s : State) (b : Nat) {slot node side : Nat} (hnode : node < 64) (hside : side < 4)
    (hslot : slot ≠ (s.branch b).slotCtr) :
    tget Wire.empty ((s.slotBegun b).branch b).wires (wireKey slot node side) = tget Wire.empty (s.branch b).wires (wireKey slot node side) := by
  have hkey : wireKey slot node side / 256 = slot := by
    unfold wireKey
    omega
  rw [State.slotBegun, State.branch_modBranch_same, Branch.clearSlot]
  refine (tget_filter_keys (fun k => decide (k / 256 ≠ (s.branch b).slotCtr)) _ (by simpa [hkey] using hslot)).trans ?_
  exact State.cycled_view (g := fun x => tget Wire.empty x.wires (wireKey slot node side)) (fun _ _ _ => rfl) (fun _ => rfl) s b
end

/-! ### Links and credits -/

section
variable (s : State) (b k : Nat)

theorem State.wire_modWire_same (f : Wire → Wire) :
    tget Wire.empty ((s.modWire b k f).branch b).wires k = f (tget Wire.empty (s.branch b).wires k) := by
  rw [State.modWire, State.branch_modBranch_same]
  exact tget_tset_same _ _ _
theorem State.plane_modWire (f : Wire → Wire) : ((s.modWire b k f).branch b).plane = (s.branch b).plane := by
  rw [State.modWire, State.branch_modBranch_same]
  rfl
theorem State.credits_modWire (f : Wire → Wire) : ((s.modWire b k f).branch b).credits = (s.branch b).credits := by
  rw [State.modWire, State.branch_modBranch_same]
theorem State.credit_modCredit_same (f : Credit → Credit) :
    tget Credit.empty ((s.modCredit b k f).branch b).credits k = f (tget Credit.empty (s.branch b).credits k) := by
  rw [State.modCredit, State.branch_modBranch_same]
  exact tget_tset_same _ _ _
theorem State.plane_modCredit (f : Credit → Credit) : ((s.modCredit b k f).branch b).plane = (s.branch b).plane := by
  rw [State.modCredit, State.branch_modBranch_same]
  rfl
end

/-! ### One entry of a slot table -/

section
variable {s s1 : State} {starts : Bool} {b node dest slot side sport lane n' : Nat} {e : BitVec 16}

theorem nodeNeighbour_lt (hnode : node < 64) (h : nodeNeighbour node side = some n') : n' < 64 := by
  unfold nodeNeighbour at h
  split_ifs at h <;> cases h <;> omega
theorem oppSide_lt (side : Nat) : oppSide side < 4 := Nat.mod_lt _ (by decide)

/-- The beat that a neighbour sent two slots before is taken from its link (04 R126). -/
theorem State.takeBeat_of_wire {bt : Beat} (hside : side < 4) (hn : nodeNeighbour node side = some n')
    (hw : (tget Wire.empty (s.branch b).wires (wireKey ((slot + 30) % 32) n' (oppSide side))).beat = some bt) :
    s.takeBeat starts b node dest slot (side + 1) sport lane =
      some (bt, s.modWire b (wireKey ((slot + 30) % 32) n' (oppSide side)) (fun w => { w with beat := none })) := by
  have hsrc : 1 ≤ side + 1 ∧ side + 1 ≤ 4 := by omega
  simp only [State.takeBeat, if_pos hsrc, Nat.add_sub_cancel, hn, hw, Option.map_some]
/-- The oldest beat of a leaf's output port leaves it where the source holds a credit (04 R130). -/
theorem State.takeBeat_of_port {tb : Nat} {bs : List Byte} {rest : List (Nat × List Byte)}
    (hport : ((s.leaf (b * 64 + node)).outPort sport).beats = (tb, bs) :: rest)
    (htok : tb ≤ ((s.leaf (b * 64 + node)).outPort sport).leftTokens) (hcred : s.hasCredit b (srcKey node 5 sport) node dest slot false = true) :
    s.takeBeat true b node dest slot 5 sport lane = some (⟨srcKey node 5 sport, bs⟩,
      ((s.modLeaf (b * 64 + node) (fun lf => lf.setOut sport { (s.leaf (b * 64 + node)).outPort sport with
        beats := rest, leftBeats := ((s.leaf (b * 64 + node)).outPort sport).leftBeats + 1 })).useCredit b (srcKey node 5 sport) false).pump
          (b * 64 + node)) := by
  have hsrc : ¬(1 ≤ 5 ∧ 5 ≤ 4) := by omega
  have hgo : ¬(true = false ∨ s.hasCredit b (srcKey node 5 sport) node dest slot false = false) := by simp [hcred]
  simp only [State.takeBeat, if_neg hsrc, if_neg hgo, hport, if_pos htok]
  rfl
theorem State.takeTok_zero (s : State) (starts : Bool) (b node dest slot sport lane : Nat) :
    s.takeTok starts b node dest slot 0 sport lane = none := rfl
theorem State.moveEntry_of_zero (h : (s.branch b).entry (s.branch b).active node dest slot = 0) : s.moveEntry starts b node slot dest = s :=
  if_pos h
/-- An entry that takes a beat and no token. -/
theorem State.moveEntry_of_beat {bt : Beat} (he : (s.branch b).entry (s.branch b).active node dest slot = e) (hne : e ≠ 0)
    (htok : entTsrc e = 0) (h : s.takeBeat starts b node dest slot (entDsrc e) (entSport e) (entLane e) = some (bt, s1)) :
    s.moveEntry starts b node slot dest = s1.deliver b node dest slot (entDport e) (entLane e) (.beat bt) := by
  subst he
  rw [State.moveEntry, if_neg hne, h, htok]
  dsimp only
  rw [State.takeTok_zero]
/-- A beat for a leaf with no command in its queues stays in the port's FIFO. -/
theorem State.deliver_leaf (s : State) (b node slot dport lane : Nat) (y : Beat) (hq : (s.leaf (b * 64 + node)).queue = []) :
    s.deliver b node 4 slot dport lane (.beat y) =
      ((s.modBranch b (fun x => { x with beats := sat32 (x.beats + 1) })).moved b).modLeaf (b * 64 + node)
        (fun lf => lf.setIn dport { lf.inPort dport with beats := (lf.inPort dport).beats ++ [y] }) := by
  rw [State.deliver, if_neg (by decide), if_pos rfl]
  dsimp only
  refine State.pump_of_empty ?_
  rw [State.leaf_modLeaf_same]
  exact (congrArg Leaf.queue (State.leaf_congr (State.moved_leaves _ _) _)).trans hq
theorem State.deliver_link (s : State) (slot dport lane : Nat) (y : Beat) (hdest : dest < 4) (hn : nodeNeighbour node dest = some n') :
    s.deliver b node dest slot dport lane (.beat y) = s.modWire b (wireKey slot node dest) (fun w => { w with beat := some y }) := by
  rw [State.deliver, if_pos hdest, hn]
end

/-! ### Credits -/

section
variable {s t : State} {b : Nat}

theorem Branch.takes_congr {x y : Branch} (h : y.slots = x.slots) : y.takes = x.takes := by
  funext set node side slot tok
  simp only [Branch.takes, Branch.entry, h]
theorem Branch.traceDest_congr {x y : Branch} (h : y.slots = x.slots) (set : Nat) (tok : Bool) (fuel node dest slot : Nat) :
    y.traceDest set tok fuel node dest slot = x.traceDest set tok fuel node dest slot := by
  induction fuel generalizing node dest slot with
  | zero => rfl
  | succ fuel ih => simp only [Branch.traceDest, Branch.takes_congr h, ih]
theorem State.branchNeighbour_congr (h : t.part = s.part) (b side : Nat) : t.branchNeighbour b side = s.branchNeighbour b side := by
  unfold State.branchNeighbour State.branchXY State.branchAt State.planeX State.planeY State.dieCols State.dieRows
  rw [h]
/-- A source's credit is read off the part, the slot tables and the credits of the branch. -/
theorem State.hasCredit_congr (hpart : t.part = s.part) (hplane : (t.branch b).plane = (s.branch b).plane)
    (hcred : (t.branch b).credits = (s.branch b).credits) (src node dest slot : Nat) (tok : Bool) :
    t.hasCredit b src node dest slot tok = s.hasCredit b src node dest slot tok := by
  obtain ⟨hactive, -, hslots, -⟩ := Branch.plane_eq hplane
  have hdepth (d : Nat) : t.destDepth b d = s.destDepth b d := by
    rw [State.destDepth, State.dieBoundary, State.branchNeighbour_congr hpart]
    rfl
  simp only [State.hasCredit, hdepth, Branch.traceDest_congr hslots, hactive, hcred]
end

/-! ### A slot with one entry -/

/-- A fold in which every element but one does nothing, before that one and after it. -/
theorem foldl_of_single {σ α : Type} {f : σ → α → σ} {l : List α} {a : α} {s s' : σ} (hl : l.Nodup) (ha : a ∈ l) (hstep : f s a = s')
    (h : ∀ x ∈ l, x ≠ a → f s x = s) (h' : ∀ x ∈ l, x ≠ a → f s' x = s') : l.foldl f s = s' := by
  have hskip : ∀ (l : List α) (s : σ), (∀ x ∈ l, f s x = s) → l.foldl f s = s := by
    intro l s hs
    induction l with
    | nil => rfl
    | cons x l ih => rw [List.foldl_cons, hs x List.mem_cons_self, ih fun y hy => hs y (List.mem_cons_of_mem _ hy)]
  obtain ⟨l1, l2, rfl⟩ := List.mem_iff_append.1 ha
  have hnot := List.nodup_middle.1 hl
  rw [List.nodup_cons, List.mem_append, not_or] at hnot
  rw [List.foldl_append, List.foldl_cons, hskip l1 s, hstep, hskip l2 s']
  · exact fun x hx => h' x (List.mem_append_right _ (List.mem_cons_of_mem _ hx)) fun e => hnot.1.2 (e ▸ hx)
  · exact fun x hx => h x (List.mem_append_left _ hx) fun e => hnot.1.1 (e ▸ hx)

/-- In a slot, the nodes of a branch have one entry, e of a node's destination. -/
def Branch.oneEntry (x : Branch) (slot node dest : Nat) (e : BitVec 16) : Prop :=
  ∀ n d, n < 64 → d < 12 → x.entry x.active n d slot = if n = node ∧ d = dest then e else 0

section
variable {s v : State} {t b node dest slot : Nat} {starts : Bool} {e : BitVec 16}

theorem Branch.oneEntry_congr {x y : Branch} (h : y.plane = x.plane) (hx : x.oneEntry slot node dest e) : y.oneEntry slot node dest e := by
  obtain ⟨hactive, -, hslots, -⟩ := Branch.plane_eq h
  intro n d hn hd
  rw [← hx n d hn hd, Branch.entry, Branch.entry, hactive, hslots]
/-- Where one entry moves something, the slot's movement is that entry's. -/
theorem State.foldl_moveEntry_of_one (hnode : node < 64) (hdest : dest < 12) (hone : (s.branch b).oneEntry slot node dest e)
    (hmove : s.moveEntry starts b node slot dest = v) (hplane : (v.branch b).plane = (s.branch b).plane) :
    (List.range 64).foldl (fun s n => (List.range 12).foldl (fun s d => s.moveEntry starts b n slot d) s) s = v := by
  have hidle : ∀ (u : State), (u.branch b).oneEntry slot node dest e → ∀ n < 64, ∀ d < 12, ¬(n = node ∧ d = dest) →
      u.moveEntry starts b n slot d = u :=
    fun u hu n hn d hd hne => State.moveEntry_of_zero ((hu n d hn hd).trans (if_neg hne))
  have hv := Branch.oneEntry_congr hplane hone
  have hrow : ∀ (u : State), (u.branch b).oneEntry slot node dest e → ∀ n ∈ List.range 64, n ≠ node →
      (List.range 12).foldl (fun s d => s.moveEntry starts b n slot d) u = u := by
    intro u hu n hn hne
    refine foldl_of_single (a := 0) List.nodup_range (by decide) ?_ ?_ ?_
    · exact hidle u hu n (List.mem_range.1 hn) 0 (by decide) fun h => hne h.1
    all_goals exact fun d hd _ => hidle u hu n (List.mem_range.1 hn) d (List.mem_range.1 hd) fun h => hne h.1
  refine foldl_of_single List.nodup_range (List.mem_range.2 hnode) ?_ (hrow s hone) (hrow v hv)
  refine foldl_of_single List.nodup_range (List.mem_range.2 hdest) hmove ?_ ?_
  · exact fun d hd hne => hidle s hone node hnode d (List.mem_range.1 hd) fun h => hne h.2
  · exact fun d hd hne => hidle v hv node hnode d (List.mem_range.1 hd) fun h => hne h.2

/-! ### SLOT_TRANSFER -/

/-- The part after a cycle of a branch, before the action of a protocol fault. -/
def State.slotMoved (s : State) (b : Nat) : State :=
  let s2 := s.cycled b
  let s3 := (s2.runSlotOf b).handoverStep b
  if (s2.branch b).handover = true ∧ (s3.branch b).handover = false then s3.resumeStages else s3

theorem exec_slotTransfer (hb : b < s.nBranches) (hrun : s.branchRuns b = true) (hfrozen : s.frozen = false) :
    exec (.slotTransfer t b) s = .next (((s.at t).slotMoved b).protocolFault (s.branch b) b) := by
  have hgo : ¬((s.at t).frozen = true ∨ (s.at t).branchRuns b = false) := by
    rw [State.at_frozen, hfrozen, show (s.at t).branchRuns b = s.branchRuns b from rfl, hrun]
    simp
  exact (if_neg (Nat.not_le.2 hb)).trans (if_neg hgo)
theorem State.slotCtr_cycled (s : State) (b : Nat) : ((s.cycled b).branch b).slotCtr = (s.branch b).slotCtr :=
  State.cycled_view (g := Branch.slotCtr) (fun _ _ _ => rfl) (fun _ => rfl) s b
theorem State.slotCtr_slotMoved (s : State) (b : Nat) : ((s.slotMoved b).branch b).slotCtr = ((s.branch b).slotCtr + 1) % 32 := by
  have hrun : ((s.cycled b).runSlotOf b).slotCtrs b = ((s.branch b).slotCtr + 1) % 32 := by
    rw [State.slotCtrs_apply, State.runSlotOf, State.branch_modBranch_same, State.slotCtr_cycled]
  rw [← State.slotCtrs_apply, ← hrun, State.slotMoved]
  simp
/-- A slot with one entry, on a branch without a handover, moves what the entry moves. -/
theorem exec_slotTransfer_of_one (hb : b < s.nBranches) (hrun : s.branchRuns b = true) (hfrozen : s.frozen = false)
    (hhand : (s.branch b).handover = false) (hnode : node < 64) (hdest : dest < 12)
    (hone : (s.branch b).oneEntry (s.branch b).slotCtr node dest e)
    (hmove : ((s.at t).slotBegun b).moveEntry true b node (s.branch b).slotCtr dest = v)
    (hplane : (v.branch b).plane = (((s.at t).slotBegun b).branch b).plane) :
    exec (.slotTransfer t b) s = .next (v.modBranch b (fun x => { x with slotCtr := ((s.branch b).slotCtr + 1) % 32 })) := by
  have hplane0 := State.plane_slotBegun (s.at t) b
  obtain ⟨-, hhandv, -, hsteers⟩ := Branch.plane_eq (hplane.trans hplane0)
  have hhandc : (((s.at t).cycled b).branch b).handover = false :=
    (State.cycled_view (g := Branch.handover) (fun _ _ _ => rfl) (fun _ => rfl) (s.at t) b).trans hhand
  have hslot : ((s.at t).cycled b).runSlotOf b = v.modBranch b (fun x => { x with slotCtr := ((s.branch b).slotCtr + 1) % 32 }) := by
    have hfold := State.foldl_moveEntry_of_one hnode hdest (Branch.oneEntry_congr hplane0 hone) hmove hplane
    unfold State.runSlotOf
    rw [State.slotCtr_cycled, hhandc]
    exact congrArg (fun u => State.modBranch u b _) hfold
  have hdone : ((v.modBranch b (fun x => { x with slotCtr := ((s.branch b).slotCtr + 1) % 32 })).branch b).handover = false := by
    rw [State.branch_modBranch_same]
    exact hhandv.trans hhand
  rw [exec_slotTransfer hb hrun hfrozen, State.slotMoved, hslot, State.handoverStep, if_pos hdone, hhandc, if_neg (by simp), State.protocolFault_of_steers]
  rw [State.branch_modBranch_same]
  exact hsteers
end

section
variable {s : State} {t b node dest n' k side : Nat} {e : BitVec 16}

/-- An entry that copies a link input to a leaf's input port: the beat sent two slots before becomes the port's last. -/
theorem State.moveEntry_in {bt : Beat} (he : (s.branch b).entry (s.branch b).active node 4 k = e) (hne : e ≠ 0) (htok : entTsrc e = 0)
    (hq : (s.leaf (b * 64 + node)).queue = []) (hsrc : entDsrc e = side + 1) (hside : side < 4) (hn : nodeNeighbour node side = some n')
    (hw : (tget Wire.empty (s.branch b).wires (wireKey ((k + 30) % 32) n' (oppSide side))).beat = some bt) :
    ∃ v, s.moveEntry true b node k 4 = v ∧ (v.branch b).plane = (s.branch b).plane ∧
      ((v.leaf (b * 64 + node)).inPort (entDport e)).beats = ((s.leaf (b * 64 + node)).inPort (entDport e)).beats ++ [bt] := by
  have htake := State.takeBeat_of_wire (s := s) (starts := true) (node := node) (dest := 4) (sport := entSport e) (lane := entLane e) hside hn hw
  rw [← hsrc] at htake
  refine ⟨_, State.moveEntry_of_beat he hne htok htake, ?_⟩
  rw [State.deliver_leaf _ _ _ _ _ _ _ (by exact hq)]
  constructor
  · rw [State.modLeaf_branch]
    refine (State.moved_view (g := Branch.plane) (fun _ => rfl) _ b b).trans ?_
    rw [State.branch_modBranch_same]
    exact State.plane_modWire _ _ _ _
  · rw [State.leaf_modLeaf_same, State.leaf_congr (State.moved_leaves _ _)]
    exact congrArg InPort.beats (tget_tset_same _ _ _)
/-- An entry that sends a leaf's output port to a link: the port's oldest beat leaves it, and the credit is spent. -/
theorem State.moveEntry_out {tb : Nat} {bs : List Byte} {rest : List (Nat × List Byte)}
    (he : (s.branch b).entry (s.branch b).active node dest k = e) (hne : e ≠ 0) (htok : entTsrc e = 0)
    (hq : (s.leaf (b * 64 + node)).queue = []) (hdest : dest < 4) (hn : nodeNeighbour node dest = some n') (hsrc : entDsrc e = 5)
    (hport : ((s.leaf (b * 64 + node)).outPort (entSport e)).beats = (tb, bs) :: rest)
    (hleft : tb ≤ ((s.leaf (b * 64 + node)).outPort (entSport e)).leftTokens)
    (hcred : s.hasCredit b (srcKey node 5 (entSport e)) node dest k false = true) :
    ∃ v, s.moveEntry true b node k dest = v ∧ (v.branch b).plane = (s.branch b).plane ∧
      ((v.leaf (b * 64 + node)).outPort (entSport e)).beats = rest ∧
      (tget Wire.empty (v.branch b).wires (wireKey k node dest)).beat = some ⟨srcKey node 5 (entSport e), bs⟩ ∧
      (tget Credit.empty (v.branch b).credits (srcKey node 5 (entSport e))).usedB =
        (tget Credit.empty (s.branch b).credits (srcKey node 5 (entSport e))).usedB + 1 := by
  have htake := State.takeBeat_of_port (lane := entLane e) hport hleft hcred
  rw [State.pump_of_empty] at htake
  · refine ⟨_, State.moveEntry_of_beat he hne htok (by rw [hsrc]; exact htake), ?_⟩
    rw [State.deliver_link _ _ _ _ _ hdest hn, State.wire_modWire_same, State.plane_modWire, State.credits_modWire, State.useCredit,
      State.plane_modCredit, State.credit_modCredit_same]
    refine ⟨rfl, ?_, rfl, rfl⟩
    rw [State.modWire, State.modBranch_leaf, State.modCredit, State.modBranch_leaf, State.leaf_modLeaf_same]
    exact congrArg OutPort.beats (tget_tset_same _ _ _)
  · rw [State.useCredit, State.modCredit, State.modBranch_leaf, State.leaf_modLeaf_same]
    exact hq

theorem exec_slotTransfer_in {bt : Beat} (hb : b < s.nBranches) (hrun : s.branchRuns b = true) (hfrozen : s.frozen = false)
    (hhand : (s.branch b).handover = false) (hnode : node < 64)
    (hone : (s.branch b).oneEntry (s.branch b).slotCtr node 4 e) (hne : e ≠ 0) (htok : entTsrc e = 0)
    (hq : (s.leaf (b * 64 + node)).queue = []) (hsrc : entDsrc e = side + 1) (hside : side < 4) (hn : nodeNeighbour node side = some n')
    (hw : (tget Wire.empty (s.branch b).wires (wireKey (((s.branch b).slotCtr + 30) % 32) n' (oppSide side))).beat = some bt) :
    ∃ s', exec (.slotTransfer t b) s = .next s' ∧ ((s'.leaf (b * 64 + node)).inPort (entDport e)).beats =
      ((s.leaf (b * 64 + node)).inPort (entDport e)).beats ++ [bt] := by
  obtain ⟨huq, hin, -⟩ := Leaf.streams_eq (State.streams_slotBegun (s.at t) b (b * 64 + node))
  have hwire := State.wire_slotBegun (s.at t) b (slot := ((s.branch b).slotCtr + 30) % 32) (nodeNeighbour_lt hnode hn) (oppSide_lt side)
    (by rw [State.at_branch]; omega)
  have hone' := Branch.oneEntry_congr (State.plane_slotBegun (s.at t) b) hone
  obtain ⟨v, hv, hplane, hbeats⟩ := State.moveEntry_in ((hone' node 4 hnode (by decide)).trans (if_pos ⟨rfl, rfl⟩)) hne htok (huq.trans hq)
    hsrc hside hn ((congrArg Wire.beat hwire).trans hw)
  refine ⟨_, exec_slotTransfer_of_one hb hrun hfrozen hhand hnode (by decide) hone hv hplane, ?_⟩
  rw [State.modBranch_leaf, hbeats, Leaf.inPort, hin]
  rfl
theorem exec_slotTransfer_out {tb : Nat} {bs : List Byte} {rest : List (Nat × List Byte)} (hb : b < s.nBranches)
    (hrun : s.branchRuns b = true) (hfrozen : s.frozen = false) (hhand : (s.branch b).handover = false) (hnode : node < 64)
    (hone : (s.branch b).oneEntry (s.branch b).slotCtr node dest e) (hne : e ≠ 0) (htok : entTsrc e = 0)
    (hq : (s.leaf (b * 64 + node)).queue = []) (hdest : dest < 4) (hn : nodeNeighbour node dest = some n') (hsrc : entDsrc e = 5)
    (hport : ((s.leaf (b * 64 + node)).outPort (entSport e)).beats = (tb, bs) :: rest)
    (hleft : tb ≤ ((s.leaf (b * 64 + node)).outPort (entSport e)).leftTokens)
    (hcred : s.hasCredit b (srcKey node 5 (entSport e)) node dest (s.branch b).slotCtr false = true) :
    ∃ s', exec (.slotTransfer t b) s = .next s' ∧ ((s'.leaf (b * 64 + node)).outPort (entSport e)).beats = rest ∧
      (tget Wire.empty (s'.branch b).wires (wireKey (s.branch b).slotCtr node dest)).beat = some ⟨srcKey node 5 (entSport e), bs⟩ ∧
      (tget Credit.empty (s'.branch b).credits (srcKey node 5 (entSport e))).usedB =
        (tget Credit.empty (s.branch b).credits (srcKey node 5 (entSport e))).usedB + 1 := by
  have hplane := State.plane_slotBegun (s.at t) b
  have hcredits := State.credits_slotBegun (s.at t) b
  obtain ⟨huq, -, hout⟩ := Leaf.streams_eq (State.streams_slotBegun (s.at t) b (b * 64 + node))
  have houtPort : (((s.at t).slotBegun b).leaf (b * 64 + node)).outPort (entSport e) = (s.leaf (b * 64 + node)).outPort (entSport e) := by
    rw [Leaf.outPort, hout]
    rfl
  have hone' := Branch.oneEntry_congr hplane hone
  obtain ⟨v, hv, hplane', hbeats, hwire, hused⟩ := State.moveEntry_out ((hone' node dest hnode (by omega)).trans (if_pos ⟨rfl, rfl⟩))
    hne htok (huq.trans hq) hdest hn hsrc (houtPort ▸ hport) (houtPort ▸ hleft)
    ((State.hasCredit_congr (State.part_slotBegun _ b) hplane hcredits _ _ _ _ _).trans hcred)
  refine ⟨_, exec_slotTransfer_of_one hb hrun hfrozen hhand hnode (by omega) hone hv hplane', ?_⟩
  rw [State.modBranch_leaf, State.branch_modBranch_same]
  refine ⟨hbeats, hwire, hused.trans ?_⟩
  rw [hcredits]
  rfl

/-! ### CREDIT_RETURN and CROSSING_LANE_ARRIVAL -/

theorem State.inletPump_of_empty {key : Nat} (h : tget [] (s.branch b).inlets key = []) (n : Nat) : s.inletPump b key n = s := by
  cases n with
  | zero => rfl
  | succ n => rw [State.inletPump, h]
/-- A source gets its freed entries back; where it is an inlet unit with nothing to send, that is all. -/
theorem exec_creditReturn {src : Nat} (hb : b < s.nBranches) (hfrozen : s.frozen = false)
    (hinlet : src < inletSrc 0 ∨ tget [] (s.branch b).inlets (src - inletSrc 0) = []) :
    exec (.creditReturn t b src) s =
      .next ((s.at t).modCredit b src (fun c => ⟨c.usedB - c.freedB, c.usedT - c.freedT, 0, 0⟩)) := by
  have hgo : ¬(s.at t).frozen = true := by rw [State.at_frozen, hfrozen]; simp
  refine (if_neg (Nat.not_le.2 hb)).trans ((if_neg hgo).trans (congrArg _ ?_))
  split
  · refine State.inletPump_of_empty ?_ 48
    rw [State.modCredit, State.branch_modBranch_same]
    exact hinlet.resolve_left (by omega)
  · rfl
/-- The oldest item in flight into a lane becomes its last readable one. -/
theorem exec_crossingLaneArrival {key : Nat} {it : SlotItem} {rest : List SlotItem} (hb : b < s.nBranches) (hfrozen : s.frozen = false)
    (hflight : (tget Lane.empty (s.branch b).lanes key).flight = it :: rest) :
    ∃ s', exec (.crossingLaneArrival t b key) s = .next s' ∧
      tget Lane.empty (s'.branch b).lanes key = ⟨rest, (tget Lane.empty (s.branch b).lanes key).ready ++ [it]⟩ ∧ s'.leaves = s.leaves := by
  have hgo : ¬(s.at t).frozen = true := by rw [State.at_frozen, hfrozen]; simp
  let ln : Lane := ⟨rest, (tget Lane.empty (s.branch b).lanes key).ready ++ [it]⟩
  let s2 := ((s.at t).modBranch b (fun x => { x with lanes := tset Lane.empty x.lanes key ln })).moved b
  have hlane : tget Lane.empty (s2.branch b).lanes key = ln := by
    refine (State.moved_view (g := fun x => tget Lane.empty x.lanes key) (fun _ => rfl) _ b b).trans ?_
    rw [State.branch_modBranch_same]
    exact tget_tset_same _ _ _
  have hexec : exec (.crossingLaneArrival t b key) s = .next s2 ∨
      exec (.crossingLaneArrival t b key) s = .next (s2.modBranch b (fun x => { x with beats := sat32 (x.beats + 1) })) := by
    refine (em (∃ y, it = .tok y)).imp (fun hit => ?_) (fun hit => ?_)
    all_goals
      refine (if_neg (Nat.not_le.2 hb)).trans ((if_neg hgo).trans ?_)
      dsimp only
      rw [State.at_branch, hflight]
    · obtain ⟨y, rfl⟩ := hit
      rfl
    · cases it with
      | tok y => exact absurd ⟨y, rfl⟩ hit
      | beat y => rfl
  obtain hexec | hexec := hexec
  · exact ⟨_, hexec, hlane, State.moved_leaves _ b⟩
  · refine ⟨_, hexec, ?_, State.moved_leaves _ b⟩
    rw [State.branch_modBranch_same]
    exact hlane
end

/-- Settles O22: the slot counter stays until the cycle's end moves it on, and a slot with one entry moves what that entry moves. -/
theorem slotPlaneCommands : Obligations.SlotPlaneCommands := by
  unfold Obligations.SlotPlaneCommands
  intro s t b
  refine ⟨fun hb hrun hfrozen => ⟨⟨_, exec_slotTransfer hb hrun hfrozen, ?_⟩, ?_⟩, fun src hb hfrozen hinlet => ?_,
    fun key it rest hb hfrozen hflight => exec_crossingLaneArrival hb hfrozen hflight,
    fun hb src => ⟨if_pos hb, if_pos hb, if_pos hb⟩⟩
  · rw [← State.slotCtrs_apply, State.protocolFault_slotCtrs]
    exact State.slotCtr_slotMoved (s.at t) b
  · intro node dest e hnode hhand _ hdest hone hne htok hq
    refine ⟨fun side n' bt h4 hsrc hside hn hw => ?_, fun n' tb bs rest h4 hn hsrc hport hleft hcred => ?_⟩
    · subst h4
      exact exec_slotTransfer_in hb hrun hfrozen hhand hnode hone hne htok hq hsrc hside hn hw
    · exact exec_slotTransfer_out hb hrun hfrozen hhand hnode hone hne htok hq h4 hn hsrc hport hleft hcred
  · refine ⟨_, exec_creditReturn hb hfrozen hinlet, State.credit_modCredit_same _ _ _ _, fun k hk => ?_, fun b' hb' => State.branch_modBranch_other _ _ _ _ hb', rfl⟩
    rw [State.modCredit, State.branch_modBranch_same]
    exact tget_tset_other _ hk

end Sys2Proof.Machine
end

section
/-! The packet plane (04 R154-R163, 03 R115, R116): what LINK_CYCLE_VC_SELECT, PACKET_ARBITRATION and PACKET_ARRIVAL do. -/

namespace Sys2Proof.Machine

/-! ### Packets at their routers -/

/-- Hop i of packet n. -/
def hopAt (ps : List Packet) (n i : Nat) : Option Hop := (ps[n]?).bind (·.hops[i]?)

section
variable {ps : List Packet} {n i k j router vc : Nat} {f : Hop → Hop} {a : AtRouter} {h : Hop}

theorem hopAt_eq_some : hopAt ps n i = some h ↔ ∃ p, ps[n]? = some p ∧ p.hops[i]? = some h := Option.bind_eq_some_iff
theorem getElem?_modHop_other (hk : k ≠ n) : (modHop n i f ps)[k]? = ps[k]? := by
  unfold modHop
  split
  · rfl
  · split
    · rfl
    · exact List.getElem?_set_ne (Ne.symm hk)
theorem modHop_of_hopAt {p : Packet} (hp : ps[n]? = some p) (hh : p.hops[i]? = some h) :
    (modHop n i f ps)[n]? = some { p with hops := p.hops.set i (f h) } := by
  have hn : n < ps.length := (List.getElem?_eq_some_iff.1 hp).1
  simp only [modHop, hp, hh]
  exact List.getElem?_set_self hn
theorem hopAt_modHop_same (hh : hopAt ps n i = some h) : hopAt (modHop n i f ps) n i = some (f h) := by
  obtain ⟨p, hp, hi⟩ := hopAt_eq_some.1 hh
  exact hopAt_eq_some.2 ⟨_, modHop_of_hopAt hp hi, List.getElem?_set_self (List.getElem?_eq_some_iff.1 hi).1⟩
theorem hopAt_modHop_other (hj : j ≠ i) : hopAt (modHop n i f ps) n j = hopAt ps n j := by
  cases hp : ps[n]? with
  | none => simp only [modHop, hp]
  | some p =>
    cases hi : p.hops[i]? with
    | none => simp only [modHop, hp, hi]
    | some h =>
      rw [hopAt, modHop_of_hopAt hp hi, hopAt, hp]
      exact List.getElem?_set_ne (Ne.symm hj)

theorem hopAt_of_mem_packetsAt (h : a ∈ packetsAt ps router vc) : hopAt ps a.n a.i = some a.h := by
  obtain ⟨⟨p, n⟩, hp, hx⟩ := List.mem_flatMap.1 h
  dsimp only at hx
  split at hx
  · obtain ⟨⟨y, i⟩, hy, hsome⟩ := List.mem_filterMap.1 hx
    dsimp only at hsome
    split at hsome
    · cases hsome
      exact hopAt_eq_some.2 ⟨p, List.mk_mem_zipIdx_iff_getElem?.1 hp, List.mk_mem_zipIdx_iff_getElem?.1 hy⟩
    · cases hsome
  · cases hx
theorem hopAt_of_holderOf {out : Nat} (h : holderOf ps router out vc = some a) : hopAt ps a.n a.i = some a.h :=
  hopAt_of_mem_packetsAt (List.mem_of_find?_eq_some h)
theorem hopAt_of_mem_waitingFor {out : Nat} (h : a ∈ waitingFor ps router out vc) : hopAt ps a.n a.i = some a.h := by
  obtain ⟨inp, -, hx⟩ := List.mem_filterMap.1 h
  split at hx
  next b hb =>
    split at hx
    · cases hx
      exact hopAt_of_mem_packetsAt (List.mem_filter.1 (minBy_mem hb).1).1
    · cases hx
  · cases hx
end

/-! ### LINK_CYCLE_VC_SELECT and PACKET_ARBITRATION -/

section
variable {s : State} {t leaf out v : Nat} {a : AtRouter}

/-- A flit leaves for the next hop: at its own hop one more is sent, and no other packet changes. -/
theorem State.flitLeaves_packets (hh : hopAt s.packets a.n a.i = some a.h) :
    hopAt (s.flitLeaves a).packets a.n a.i = some { a.h with sent := a.h.sent + 1, holds := decide (a.h.sent + 1 < a.p.flits) } ∧
      ∀ k, k ≠ a.n → (s.flitLeaves a).packets[k]? = s.packets[k]? := by
  unfold State.flitLeaves
  dsimp only
  split
  · exact ⟨(hopAt_modHop_other (Nat.ne_of_lt (Nat.lt_succ_self _))).trans (hopAt_modHop_same hh),
      fun k hk => (getElem?_modHop_other hk).trans (getElem?_modHop_other hk)⟩
  · exact ⟨hopAt_modHop_same hh, fun k hk => getElem?_modHop_other hk⟩
theorem State.flitLeaves_leaves (s : State) (a : AtRouter) : (s.flitLeaves a).leaves = s.leaves := by
  unfold State.flitLeaves
  dsimp only
  split <;> rfl

/-- The holder of an output on a virtual channel can send a flit. -/
def sendsOn (ps : List Packet) (leaf out : Nat) (full : BitVec 4) (v : Nat) : Bool := (holderOf ps leaf out v).any (·.canSend ps full)
theorem exec_linkCycleVcSelect {full : BitVec 4} (hfrozen : s.frozen = false) (hleaf : leaf < s.nLeaves) (hout : out < 7)
    (hcycle : tget 0 (s.branch (leaf / 64)).outCycle (leaf % 64 * 8 + out) ≠ (s.branch (leaf / 64)).linkCycle + 1)
    (hv : (vcOrder (s.branch (leaf / 64)).linkCycle).find? (sendsOn s.packets leaf out full) = some v)
    (ha : holderOf s.packets leaf out v = some a) :
    exec (.linkCycleVcSelect t leaf out full) s = .next (((s.at t).flitLeaves a).modBranch (leaf / 64) (fun x => { x with
      outCycle := tset 0 x.outCycle (leaf % 64 * 8 + out) ((s.branch (leaf / 64)).linkCycle + 1) })) := by
  have hgo : ¬((s.at t).frozen = true ∨ 7 ≤ out ∨
      tget 0 ((s.at t).branch (leaf / 64)).outCycle (leaf % 64 * 8 + out) = ((s.at t).branch (leaf / 64)).linkCycle + 1) := by
    rw [State.at_frozen, hfrozen, State.at_branch]
    rintro (h | h | h)
    · cases h
    · omega
    · exact hcycle h
  refine (if_neg (Nat.not_le.2 hleaf)).trans ((if_neg hgo).trans ?_)
  rw [State.at_branch, State.at_packets, List.find?_congr (p₂ := sendsOn s.packets leaf out full) fun v _ => ?_, hv]
  · dsimp only
    rw [ha]
  · unfold sendsOn
    cases holderOf s.packets leaf out v <;> rfl
theorem exec_packetArbitration {vc w : Nat} {bad : Bool} (hfrozen : s.frozen = false) (hleaf : leaf < s.nLeaves) (hout : out < 7)
    (hfree : holderOf s.packets leaf out vc = none)
    (hw : arbWinner (s.at t).now (routerPorts leaf) ((waitingFor s.packets leaf out vc).map (·.h.inp)) = some w)
    (ha : (waitingFor s.packets leaf out vc).find? (fun a => a.h.inp == w) = some a) :
    exec (.packetArbitration t leaf (out, vc) bad) s =
      .next ((s.at t).modPackets (modHop a.n a.i (fun h => { h with holds := true }))) := by
  have hgo : ¬(s.at t).frozen = true := by rw [State.at_frozen, hfrozen]; simp
  have hport : out ≠ 7 ∧ out ≠ 8 := by omega
  refine (if_neg (Nat.not_le.2 hleaf)).trans ((if_neg hgo).trans ((if_neg hport.1).trans ((if_neg hport.2).trans ?_)))
  rw [State.arbitrate, State.at_packets, hfree, if_neg (by simp)]
  dsimp only
  rw [hw]
  dsimp only
  rw [ha]

/-- The first virtual channel of the cycle's order that can send sends one flit of its holder. -/
theorem linkCycleVcSelect_sends {full : BitVec 4} (hfrozen : s.frozen = false) (hleaf : leaf < s.nLeaves) (hout : out < 7)
    (hcycle : tget 0 (s.branch (leaf / 64)).outCycle (leaf % 64 * 8 + out) ≠ (s.branch (leaf / 64)).linkCycle + 1)
    (hv : (vcOrder (s.branch (leaf / 64)).linkCycle).find? (sendsOn s.packets leaf out full) = some v)
    (ha : holderOf s.packets leaf out v = some a) :
      ∃ s' p h, exec (.linkCycleVcSelect t leaf out full) s = .next s' ∧ s'.packets[a.n]? = some p ∧ p.hops[a.i]? = some h ∧
        h.sent = a.h.sent + 1 ∧ h.holds = decide (a.h.sent + 1 < a.p.flits) ∧
        (∀ k, k ≠ a.n → s'.packets[k]? = s.packets[k]?) ∧
        tget 0 (s'.branch (leaf / 64)).outCycle (leaf % 64 * 8 + out) = (s.branch (leaf / 64)).linkCycle + 1 ∧ s'.leaves = s.leaves := by
  obtain ⟨hhop, hothers⟩ := State.flitLeaves_packets (s := s.at t) (hopAt_of_holderOf ha)
  obtain ⟨p, hp, hh⟩ := hopAt_eq_some.1 hhop
  refine ⟨_, p, _, exec_linkCycleVcSelect hfrozen hleaf hout hcycle hv ha, hp, hh, rfl, rfl, hothers, ?_,
    State.flitLeaves_leaves (s.at t) a⟩
  rw [State.branch_modBranch_same]
  dsimp only
  rw [tget_tset_same]
/-- The packet on the arbiter's winning input comes to hold the output. -/
theorem packetArbitration_grants {vc w : Nat} {bad : Bool} (hfrozen : s.frozen = false) (hleaf : leaf < s.nLeaves) (hout : out < 7)
    (hfree : holderOf s.packets leaf out vc = none)
    (hw : arbWinner (s.at t).now (routerPorts leaf) ((waitingFor s.packets leaf out vc).map (·.h.inp)) = some w)
    (ha : (waitingFor s.packets leaf out vc).find? (fun a => a.h.inp == w) = some a) :
      ∃ s' p h, exec (.packetArbitration t leaf (out, vc) bad) s = .next s' ∧ s'.packets[a.n]? = some p ∧ p.hops[a.i]? = some h ∧
        h.holds = true ∧ (∀ k, k ≠ a.n → s'.packets[k]? = s.packets[k]?) ∧ s'.leaves = s.leaves := by
  obtain ⟨p, hp, hh⟩ := hopAt_eq_some.1 (hopAt_modHop_same (f := fun h => { h with holds := true })
    (hopAt_of_mem_waitingFor (List.mem_of_find?_eq_some ha)))
  exact ⟨_, p, _, exec_packetArbitration hfrozen hleaf hout hfree hw ha, hp, hh, rfl, fun k hk => getElem?_modHop_other hk, rfl⟩
end

/-! ### What the end of an access leaves as it was -/

section
variable (s : State)

@[simp] theorem State.sendPacket_stores (vc : Nat) (src dst : Place) (isResp : Bool) (flits acc : Nat) :
    (s.sendPacket vc src dst isResp flits acc).stores = s.stores := rfl
@[simp] theorem State.poisonRange_mem (space off n why : Nat) : (s.poisonRange space off n why).mem = s.mem := by
  unfold State.poisonRange
  split
  · rfl
  · exact State.each_frame (g := State.mem) (f := fun s i => s.poisonSector _ _) (fun _ _ => rfl) _ _
@[simp] theorem State.accStore_mem (a : Access) (bs : List Byte) : (s.accStore a bs).mem = tsetAll 0 s.mem (memKey a.space a.off) bs := by
  unfold State.accStore
  dsimp only
  split <;> exact s.store_mem a.space a.off bs
@[simp] theorem State.answer_mem (id : Nat) : (s.answer id).mem = s.mem := by
  unfold State.answer
  split
  · rfl
  · exact State.each_frame (g := State.mem) (f := fun s i => s.sendPacket _ _ _ _ _ _) (fun _ _ => rfl) _ _
@[simp] theorem State.spoilAcc_mem (id : Nat) (bad : Bool) : (s.spoilAcc id bad).mem = s.mem := by
  unfold State.spoilAcc
  split <;> rfl

@[simp] theorem State.moved_mem (b : Nat) : (s.moved b).mem = s.mem := by
  unfold State.moved
  split <;> rfl
@[simp] theorem State.moved_tiers (b : Nat) : (s.moved b).tiers = s.tiers := by
  unfold State.moved
  split <;> rfl
theorem State.leafFault_tiers (l kind pc a : Nat) : (s.leafFault l kind pc a).tiers = s.tiers := by
  obtain ⟨-, -, htiers⟩ := State.stores_eq (State.eventOf_stores ..)
  exact htiers
theorem State.consume_tiers (l : Nat) (why : Option Byte) (pc a : Nat) : (s.consume l why pc a).tiers = s.tiers := by
  unfold State.consume
  cases why with
  | none => rfl
  | some r =>
    dsimp only
    split
    · exact s.leafFault_tiers l 4 pc a
    · obtain ⟨-, -, htiers⟩ := State.stores_eq (s := (s.leafFault l 4 pc a).modLeaf l fun lf => { lf with poison := some r })
        (t := (((s.leafFault l 4 pc a).modLeaf l fun lf => { lf with poison := some r }).reportPoison (l / 64) 0 (l % 64) r none 0).trigger
          3) (by simp)
      exact htiers.trans (s.leafFault_tiers l 4 pc a)
theorem State.noteSeen_mem_tiers (l : Nat) (u : Option LeafUnit) (a n : Nat) :
    (s.noteSeen l u a n).mem = s.mem ∧ (s.noteSeen l u a n).tiers = s.tiers := by
  unfold State.noteSeen
  split <;> exact ⟨rfl, rfl⟩
theorem State.leafWrite_tiers (l a : Nat) (bs : List Byte) : (s.leafWrite l a bs).tiers = s.tiers := by
  induction bs generalizing s a with
  | nil => rfl
  | cons b bs ih => exact ih _ _
/-- One write of a unit to leaf memory. -/
theorem State.leafStore_one (l : Nat) (u : LeafUnit) (a : Nat) (bs : List Byte) :
    s.leafStore l u [(a, bs)] = (s.noteSeen l (some u) a bs.length).leafWrite l a bs := rfl
theorem State.leafStored_leafStore (l : Nat) (u : LeafUnit) (a : Nat) {bs : List Byte} (hlen : bs.length ≤ 0x40000) :
    s.leafStored (s.leafStore l u [(a, bs)]) l a bs := by
  obtain ⟨hmem, -⟩ := s.noteSeen_mem_tiers l (some u) a bs.length
  rw [State.leafStore_one]
  refine ⟨fun i hi => State.memByte_leafWrite_inside _ hlen hi, fun k hk => (State.memByte_leafWrite_outside _ hk).trans ?_⟩
  rw [State.memByte, hmem, State.memByte]
theorem State.leafStore_one_tiers (l : Nat) (u : LeafUnit) (a : Nat) (bs : List Byte) : (s.leafStore l u [(a, bs)]).tiers = s.tiers := by
  rw [State.leafStore_one, State.leafWrite_tiers]
  exact (s.noteSeen_mem_tiers l (some u) a bs.length).2
end

/-! ### The last response of a leaf's access -/

/-- The command of access id has its response. -/
def Leaf.answered (lf : Leaf) (id : Nat) : Leaf := { lf with
  queue := mapIf (fun c => c.unit == .packet && c.upto == id) (fun c => { c with left := 0, op := .access id none }) lf.queue }
/-- What the response does to the leaf that waits: the fault of an error, or the data, or the register of an atomic. -/
def State.takes (s : State) (a : Access) (l ladr rd pc : Nat) : State :=
  if a.err ≠ 0 then
    let s1 := s.leafFault l 1 pc ladr
    if a.kind = 2 then s1.modLeaf l (fun lf => lf.setReg (BitVec.ofNat 5 rd) 0) else s1
  else
    let s1 := if a.kind = 0 then s.leafStore l .packet [(ladr, a.data)]
      else if a.kind = 2 then s.modLeaf l (fun lf => lf.setReg (BitVec.ofNat 5 rd) (BitVec.ofNat 32 (leNat a.data))) else s
    if a.poison ≠ 0 ∧ a.kind ≠ 1 then s1.consume l (some a.poison) pc ladr else s1

section
variable {s t : State} {a : Access} {l ladr rd pc : Nat} {c : UnitCmd}

theorem State.finishLeaf_of_waiting (hc : (s.leaf l).queue.find? (fun c => c.unit == .packet && c.upto == a.id) = some c) :
    s.finishLeaf a l ladr rd = ((s.moved (l / 64)).modLeaf l (fun lf => lf.answered a.id)).takes a l ladr rd c.pc := by
  have hleaf : (s.moved (l / 64)).leaf l = s.leaf l := State.leaf_congr (State.moved_leaves _ _) l
  unfold State.finishLeaf
  dsimp only
  rw [hleaf, hc]
  rfl
theorem State.takes_tiers (s : State) (a : Access) (l ladr rd pc : Nat) : (s.takes a l ladr rd pc).tiers = s.tiers := by
  unfold State.takes
  split
  · dsimp only
    split
    · exact s.leafFault_tiers l 1 pc ladr
    · exact s.leafFault_tiers l 1 pc ladr
  · have hput : (if a.kind = 0 then s.leafStore l .packet [(ladr, a.data)]
        else if a.kind = 2 then s.modLeaf l (fun lf => lf.setReg (BitVec.ofNat 5 rd) (BitVec.ofNat 32 (leNat a.data))) else s).tiers =
          s.tiers := by
      split
      · exact s.leafStore_one_tiers ..
      · split <;> rfl
    dsimp only
    split
    · exact (State.consume_tiers ..).trans hput
    · exact hput

/-- From s to t leaf l became x but for its fault and its poison; other leaves and memory stayed. -/
theorem State.changesLeaf.consumeIf {x : Leaf} (h : s.changesLeaf t l x) (p : Prop) [Decidable p] (why : Option Byte) (pc a : Nat) :
    ∃ y, s.changesLeaf (if p then t.consume l why pc a else t) l y ∧ y.ctxs = x.ctxs ∧ y.active = x.active := by
  split
  · obtain ⟨f, hf⟩ := h.consume why pc a
    exact ⟨_, hf, rfl, rfl⟩
  · exact ⟨x, h, rfl, rfl⟩
theorem State.changesLeaf.memSame {x : Leaf} (h : s.changesLeaf t l x) : s.memSame t := fun k => by
  rw [State.memByte, h.2.2, State.memByte]
/-- A register of the active context that a leaf's change has set. -/
theorem State.changesLeaf.gpr {x : Leaf} (h : s.changesLeaf t l x) (r : BitVec 5) : t.gpr l x.active r = x.reg r := by
  rw [State.gpr, h.1]
  rfl
theorem State.changesLeaf_refl (s : State) (l : Nat) : s.changesLeaf s l (s.leaf l) := ⟨rfl, fun _ _ => rfl, rfl⟩

theorem State.changesLeaf.takes_of_err {x : Leaf} (h : s.changesLeaf t l x) (herr : a.err ≠ 0) :
    ∃ f : LeafFault, f.kind = 1 ∧ s.changesLeaf (t.takes a l ladr rd pc) l
      (if a.kind = 2 then (x.noteFault f).setReg (BitVec.ofNat 5 rd) 0 else x.noteFault f) := by
  obtain ⟨f, hkind, hfault, -⟩ := h.leafFault 1 pc ladr
  refine ⟨f, hkind, ?_⟩
  rw [State.takes, if_pos herr]
  split
  · exact hfault.modLeaf _
  · exact hfault
theorem State.takes_of_put (herr : a.err = 0) (hkind : a.kind = 1) : t.takes a l ladr rd pc = t := by
  simp [State.takes, herr, hkind]
theorem State.changesLeaf.takes_of_atom {x : Leaf} (h : s.changesLeaf t l x) (herr : a.err = 0) (hkind : a.kind = 2) :
    ∃ y, s.changesLeaf (t.takes a l ladr rd pc) l y ∧
      y.ctxs = (x.setReg (BitVec.ofNat 5 rd) (BitVec.ofNat 32 (leNat a.data))).ctxs ∧ y.active = x.active := by
  rw [State.takes, if_neg (not_not.2 herr), if_neg (show a.kind ≠ 0 by omega), if_pos hkind]
  exact (h.modLeaf fun lf => lf.setReg (BitVec.ofNat 5 rd) (BitVec.ofNat 32 (leNat a.data))).consumeIf _ _ _ _
theorem State.takes_mem_of_get (herr : a.err = 0) (hkind : a.kind = 0) :
    (t.takes a l ladr rd pc).mem = (t.leafStore l .packet [(ladr, a.data)]).mem := by
  rw [State.takes, if_neg (not_not.2 herr), if_pos hkind]
  obtain ⟨y, ⟨-, -, hmem⟩, -⟩ := (State.changesLeaf_refl (t.leafStore l .packet [(ladr, a.data)]) l).consumeIf
    (a.poison ≠ 0 ∧ a.kind ≠ 1) (some a.poison) pc ladr
  exact hmem

section
variable {id : Nat} (h : s.changesLeaf t l ((s.leaf l).answered id))
include h

theorem State.takes_get (herr : a.err = 0) (hkind : a.kind = 0) (hlen : a.data.length ≤ 4096) :
    s.leafStored (t.takes a l ladr rd pc) l ladr a.data := by
  obtain ⟨hin, hout⟩ := t.leafStored_leafStore l .packet ladr (bs := a.data) (by omega)
  have hbyte (k : Nat) : (t.takes a l ladr rd pc).memByte k = (t.leafStore l .packet [(ladr, a.data)]).memByte k :=
    congrArg (fun m => tget 0 m k) (State.takes_mem_of_get herr hkind)
  exact ⟨fun i hi => (hbyte _).trans (hin i hi), fun k hk => (hbyte k).trans ((hout k hk).trans (h.memSame k))⟩
theorem State.takes_put (herr : a.err = 0) (hkind : a.kind = 1) :
    s.memSame (t.takes a l ladr rd pc) ∧ ((t.takes a l ladr rd pc).leaf l).ctxs = (s.leaf l).ctxs := by
  rw [State.takes_of_put herr hkind]
  refine ⟨h.memSame, ?_⟩
  rw [h.1]
  rfl
theorem State.takes_atom (herr : a.err = 0) (hkind : a.kind = 2) :
    s.memSame (t.takes a l ladr rd pc) ∧
      (t.takes a l ladr rd pc).gpr l (s.leaf l).active (BitVec.ofNat 5 rd) = BitVec.ofNat 32 (leNat a.data) := by
  obtain ⟨y, hy, hctxs, -⟩ := h.takes_of_atom (ladr := ladr) (rd := rd) (pc := pc) herr hkind
  refine ⟨hy.memSame, ?_⟩
  rw [State.gpr, hy.1, Leaf.ctxAt, hctxs]
  exact Leaf.reg_setReg_same ((s.leaf l).answered id) _ _
theorem State.takes_error (herr : a.err ≠ 0) :
    s.memSame (t.takes a l ladr rd pc) ∧
      ((s.leaf l).fault = none → ((t.takes a l ladr rd pc).leaf l).fault.map (·.kind) = some 1) ∧
      (a.kind = 2 → (t.takes a l ladr rd pc).gpr l (s.leaf l).active (BitVec.ofNat 5 rd) = 0) := by
  obtain ⟨f, hkind, hy⟩ := h.takes_of_err (ladr := ladr) (rd := rd) (pc := pc) herr
  refine ⟨hy.memSame, fun hnone => ?_, fun hatom => ?_⟩
  · have hfault : (((s.leaf l).answered id).noteFault f).fault = some f := Leaf.fault_noteFault f hnone
    rw [hy.1]
    split
    · exact (congrArg (Option.map (·.kind)) hfault).trans (congrArg some hkind)
    · exact (congrArg (Option.map (·.kind)) hfault).trans (congrArg some hkind)
  · rw [if_pos hatom] at hy
    have hactive : (((s.leaf l).answered id).noteFault f).active = (s.leaf l).active := by
      rw [Leaf.noteFault_eq]
      rfl
    rw [← hactive]
    exact (hy.gpr _).trans (Leaf.reg_setReg_same _ _ _)
end

/-- Access id is under way no longer. -/
def State.gone (s : State) (id : Nat) : State := s.modTiers (fun x => { x with accesses := x.accesses.filter (fun y => y.id != id) })
/-- The last response of a leaf's access: the access is gone, and the leaf takes what came. -/
theorem State.responseArrived_leaf (hret : a.toReturn ≤ 1) (hserves : a.serves = .leaf l ladr rd)
    (hc : (s.leaf l).queue.find? (fun c => c.unit == .packet && c.upto == a.id) = some c) :
    ∃ u, s.responseArrived a = u.takes a l ladr rd c.pc ∧ s.changesLeaf u l ((s.leaf l).answered a.id) ∧
      u.tiers.accesses = s.tiers.accesses.filter (fun y => y.id != a.id) := by
  have hleaves := State.moved_leaves s (l / 64)
  have hresp : s.responseArrived a = ((s.moved (l / 64)).gone a.id).finishLeaf a l ladr rd := by
    unfold State.responseArrived
    rw [hserves, if_neg (Nat.not_lt.2 hret)]
    unfold State.finishAccess
    rw [hserves]
    rfl
  have hgone : s.changesLeaf ((s.moved (l / 64)).gone a.id) l (s.leaf l) :=
    (State.changesLeaf_refl s l).of_eq (s.moved_mem (l / 64)) hleaves
  rw [State.finishLeaf_of_waiting (by rw [hgone.1]; exact hc)] at hresp
  refine ⟨_, hresp, (hgone.of_eq (State.moved_mem _ _) (State.moved_leaves _ _)).modLeaf _, ?_⟩
  rw [State.modLeaf_tiers, State.moved_tiers, State.gone, State.modTiers_tiers, State.moved_tiers]

end

/-! ### The last request of an access -/

section
variable {s : State} {a : Access} {bad : Bool}

/-- The last request of a write to leaf memory: its bytes stand there. -/
theorem State.requestArrived_leafMemory (hreq : a.toArrive ≤ 1) (hhit : a.hit = false) (hpid : a.pid = s.ownPid) (hspace : a.space = 2)
    (hoff : a.off % 2 ^ 25 < 2 ^ 24) (hkind : a.kind = 1) : (s.requestArrived a bad).mem = tsetAll 0 s.mem (memKey 2 a.off) a.data := by
  have hserve (u : State) (h : u.mem = s.mem) :
      (u.serveAccess { a with toArrive := 0 } []).mem = tsetAll 0 s.mem (memKey 2 a.off) a.data := by
    simp [State.serveAccess, hhit, hkind, hspace, h]
  have harrive : (s.modAcc a.id fun y => { y with toArrive := y.toArrive - 1 }).accessArrived { a with toArrive := 0 } =
      (s.modAcc a.id fun y => { y with toArrive := y.toArrive - 1 }).serveAccess { a with toArrive := 0 } [] := by
    have hown : ¬a.pid ≠ (s.modAcc a.id fun y => { y with toArrive := y.toArrive - 1 }).ownPid := not_not.2 hpid
    unfold State.accessArrived
    dsimp only
    rw [hhit, if_neg (by simp), if_neg hown, if_pos hspace, if_pos hoff]
  unfold State.requestArrived
  dsimp only
  rw [if_neg (Nat.not_lt.2 hreq), if_pos ⟨hspace, hpid, hoff⟩, State.spoilAcc_mem, harrive]
  exact hserve _ rfl
/-- The last request of an access to a near stack or a warm channel that runs: it waits at its controller. -/
theorem State.requestArrived_tier (hreq : a.toArrive ≤ 1) (hhit : a.hit = false) (hpid : a.pid = s.ownPid) (hspace : a.space ≤ 1)
    (hok : s.localOk a.space a.off a.len = none) (ha : a ∈ s.tiers.accesses) :
    (∃ a' ∈ (s.requestArrived a bad).tiers.accesses, a'.id = a.id ∧ a'.entered = some s.now) ∧ (s.requestArrived a bad).mem = s.mem := by
  have hok' : (s.modAcc a.id fun y => { y with toArrive := y.toArrive - 1 }).localOk a.space a.off a.len = none := hok
  have hown : ¬a.pid ≠ (s.modAcc a.id fun y => { y with toArrive := y.toArrive - 1 }).ownPid := not_not.2 hpid
  have harrive : ∃ idx, s.requestArrived a bad = (s.modAcc a.id fun y => { y with toArrive := y.toArrive - 1 }).modAcc a.id
      fun y => { y with entered := some s.now, inIdx := idx } := by
    unfold State.requestArrived
    dsimp only
    rw [if_neg (Nat.not_lt.2 hreq), if_neg (by omega)]
    unfold State.accessArrived
    dsimp only
    rw [hhit, if_neg (by simp), if_neg hown, if_neg (by omega), if_neg (by omega), hok', if_neg (by simp)]
    exact ⟨_, rfl⟩
  obtain ⟨idx, harrive⟩ := harrive
  rw [harrive]
  refine ⟨⟨_, mem_mapIf.2 ⟨_, mem_mapIf.2 ⟨a, ha, rfl⟩, rfl⟩, ?_⟩, rfl⟩
  simp
end

/-! ### PACKET_ARRIVAL -/

section
variable {s : State} {t id : Nat} {bad : Bool} {p : Packet} {a : Access}

/-- The part when a packet has reached its end and is gone. -/
def State.received (s : State) (t id : Nat) : State := (s.at t).modPackets (fun l => l.filter (fun q => q.id != id))
theorem exec_packetArrival_of_not_through (hfrozen : s.frozen = false) (hp : s.packets.find? (fun p => p.id == id) = some p)
    (h : p.through = false) : exec (.packetArrival t (id, bad)) s = .next (s.at t) := by
  refine (if_neg (by rw [State.at_frozen, hfrozen]; simp)).trans ?_
  rw [State.at_packets, hp]
  exact if_pos (.inl h)
theorem exec_packetArrival_of_through (hfrozen : s.frozen = false) (hp : s.packets.find? (fun p => p.id == id) = some p)
    (h : p.through = true) (hfirst : s.packets.any (fun q => decide (q.id < p.id) && q.src == p.src && q.dst == p.dst && q.vc == p.vc) = false)
    (ha : s.tiers.accesses.find? (fun a => a.id == p.acc) = some a) :
    exec (.packetArrival t (id, bad)) s =
      .next (if p.isResp then (s.received t id).responseArrived a else (s.received t id).requestArrived a bad) := by
  refine (if_neg (by rw [State.at_frozen, hfrozen]; simp)).trans ?_
  rw [State.at_packets, hp]
  refine (if_neg (by simp [h, hfirst])).trans ?_
  unfold State.modPackets
  dsimp only
  rw [State.at_tiers, ha]
  rfl
end

/-- Settles O26: a flit moves its own packet's hop alone, the arbiter's packet comes to hold the output, and the last packet of an access
does what the access is for. -/
theorem packetPlaneCommands : Obligations.PacketPlaneCommands := by
  unfold Obligations.PacketPlaneCommands
  intro s t hfrozen
  refine ⟨fun leaf out v full a hleaf hout hcycle hv ha => ?_,
    fun leaf out vc w a bad hleaf hout hfree hw ha => packetArbitration_grants hfrozen hleaf hout hfree hw ha, fun id bad p hp => ?_⟩
  · refine linkCycleVcSelect_sends hfrozen hleaf hout hcycle ((List.find?_congr fun v _ => ?_).trans hv) ha
    unfold sendsOn
    cases holderOf s.packets leaf out v <;> rfl
  refine ⟨exec_packetArrival_of_not_through hfrozen hp, fun a hthrough hfirst ha => ⟨fun hreq harr hhit hpid => ?_, ?_⟩⟩
  · have hexec := exec_packetArrival_of_through (t := t) (bad := bad) hfrozen hp hthrough hfirst ha
    rw [hreq] at hexec
    refine ⟨fun hspace hoff hkind => ⟨_, hexec, State.requestArrived_leafMemory harr hhit hpid hspace hoff hkind⟩,
      fun hspace hok => ?_⟩
    obtain ⟨⟨a', hmem', hid, hentered⟩, hmem⟩ := State.requestArrived_tier (s := s.received t id) (bad := bad) harr hhit hpid hspace hok
      (List.mem_of_find?_eq_some ha)
    exact ⟨_, a', hexec, hmem', hid, hentered, fun k => congrArg (fun m => tget 0 m k) hmem⟩
  · intro l ladr rd c hresp hret hserves hc
    have hexec := exec_packetArrival_of_through (t := t) (bad := bad) hfrozen hp hthrough hfirst ha
    obtain ⟨u, hu, hchange, hgone⟩ := State.responseArrived_leaf (s := s.received t id) hret hserves hc
    rw [hresp, if_pos rfl, hu] at hexec
    refine ⟨_, hexec, ?_, ?_, ?_, ?_, ?_⟩
    · intro y hy
      rw [State.takes_tiers, hgone] at hy
      simpa using (List.mem_filter.1 hy).2
    · exact fun herr hkind hlen => State.takes_get hchange herr hkind hlen
    · exact fun herr hkind => State.takes_put hchange herr hkind
    · exact fun herr hkind _ => State.takes_atom hchange herr hkind
    · exact fun herr => State.takes_error hchange herr

end Sys2Proof.Machine
end

section
/-! The load command of a branch and its queue of configuration loads (05 R187, R192; log entry 27). -/

namespace Sys2Proof.Machine

/-! ### Lists and leaves -/

/-- The first element that meets a test, where the elements before it are named. -/
theorem findIdx_append_cons {α : Type} {p : α → Bool} {pre : List α} {c : α} (post : List α) (hpre : ∀ x ∈ pre, p x = false)
    (hc : p c = true) (i : Nat) : findIdx p (pre ++ c :: post) i = some (i + pre.length, c) := by
  induction pre generalizing i with
  | nil => simp [findIdx, hc]
  | cons a pre ih =>
    obtain ⟨ha, hpre⟩ := List.forall_mem_cons.1 hpre
    simp only [List.cons_append, findIdx, ha, ih hpre, List.length_cons]
    simp only [Bool.false_eq_true, if_false, Nat.add_comm, Nat.add_left_comm]
theorem State.leaf_each_modLeaf {ls : List Nat} {f : Nat → Leaf → Leaf} (s : State) {l : Nat} (hnodup : ls.Nodup) (hl : l ∈ ls) :
    (s.each ls fun s l => s.modLeaf l (f l)).leaf l = f l (s.leaf l) := by
  induction ls generalizing s with
  | nil => cases hl
  | cons a ls ih =>
    obtain ⟨ha, hnodup⟩ := List.nodup_cons.1 hnodup
    rw [State.each_cons]
    rcases List.mem_cons.1 hl with rfl | hl
    · have hrest : ∀ s : State, (s.each ls fun s l => s.modLeaf l (f l)).leaf l = s.leaf l := fun s =>
        State.each_keeps (P := fun t => t.leaf l = s.leaf l) rfl fun t k hk ht =>
          (State.leaf_modLeaf_other t k l _ (ne_of_mem_of_not_mem hk ha).symm).trans ht
      rw [hrest, State.leaf_modLeaf_same]
    · rw [ih _ hnodup hl, State.leaf_modLeaf_other _ _ _ _ (ne_of_mem_of_not_mem hl ha)]
theorem nodup_branchLeaves (b : Nat) : (branchLeaves b).Nodup :=
  List.nodup_range.map fun _ _ h => Nat.add_left_cancel h
theorem mem_branchLeaves {b j : Nat} (h : j < 64) : b * 64 + j ∈ branchLeaves b :=
  List.mem_map.2 ⟨j, List.mem_range.2 h, rfl⟩

/-- Every leaf of branch b takes the change that f names for it. -/
def State.updLeaves (s : State) (b : Nat) (f : Nat → Leaf → Leaf) : State := s.each (branchLeaves b) fun s l => s.modLeaf l (f l)

section
variable (s : State) (b : Nat) (f : Nat → Leaf → Leaf)

theorem State.updLeaves_frame {β : Type} {g : State → β} (hg : ∀ s l f, g (State.modLeaf s l f) = g s) : g (s.updLeaves b f) = g s :=
  State.each_frame (f := fun s l => s.modLeaf l (f l)) (fun s l => hg s l (f l)) (branchLeaves b) s
@[simp] theorem State.updLeaves_sv : (s.updLeaves b f).sv = s.sv := s.updLeaves_frame b f fun _ _ _ => rfl
@[simp] theorem State.updLeaves_mem : (s.updLeaves b f).mem = s.mem := s.updLeaves_frame b f fun _ _ _ => rfl
@[simp] theorem State.updLeaves_csr : (s.updLeaves b f).csr = s.csr := s.updLeaves_frame b f fun _ _ _ => rfl
@[simp] theorem State.updLeaves_branch (c : Nat) : (s.updLeaves b f).branch c = s.branch c :=
  s.updLeaves_frame b f (g := fun s => s.branch c) fun _ _ _ => rfl
theorem State.leaf_updLeaves {j : Nat} (hj : j < 64) : (s.updLeaves b f).leaf (b * 64 + j) = f (b * 64 + j) (s.leaf (b * 64 + j)) :=
  s.leaf_each_modLeaf (nodup_branchLeaves b) (mem_branchLeaves hj)
end

/-! ### The load command -/

section
variable {s t : State} {b k : Nat} {q : CfgLoad}

/-- The load command of branch b goes out for load q, whose section is in seed-bank slot k. -/
def State.loadCommand (s : State) (b : Nat) (q : CfgLoad) (k : Nat) : State :=
  ((s.updLeaves b fun _ lf => lf.dropCtx q.ctx).modBranch b fun y => { y with
    ctxs := tset BrcCtx.empty y.ctxs q.ctx BrcCtx.empty, loadSlot := k, loadCtx := q.ctx }).modSv fun v =>
      { v with cfgLoads := mapIf (fun c => c.branch == b && c.ctx == q.ctx && !c.fill) (fun c => { c with begun := true }) v.cfgLoads }
/-- A leaf of branch b runs. -/
def State.leavesRun (s : State) (b : Nat) : Bool := (branchLeaves b).any fun l => (s.leaf l).mode == .run || (s.leaf l).mode == .stall

theorem State.beginLoads_one (s : State) (b : Nat) : s.beginLoads [b] = s.beginCtxLoad b := rfl
theorem State.beginCtxLoad_of_none (hq : s.sv.cfgLoads.find? (fun q => q.branch == b && !q.fill) = none) : s.beginCtxLoad b = s := by
  rw [State.beginCtxLoad, hq]
/-- A load into the active context waits until no leaf runs. -/
theorem State.beginCtxLoad_of_busy (hq : s.sv.cfgLoads.find? (fun q => q.branch == b && !q.fill) = some q)
    (hactive : (s.branch b).active = q.ctx) (hrun : s.leavesRun b = true) : s.beginCtxLoad b = s := by
  rw [State.beginCtxLoad, hq]
  exact if_pos (.inr ⟨hactive, hrun⟩)
theorem State.beginCtxLoad_of_free (hq : s.sv.cfgLoads.find? (fun q => q.branch == b && !q.fill) = some q) (hbegun : q.begun = false)
    (hactive : (s.branch b).active ≠ q.ctx) (hk : s.seedOf b q.load q.cfg q.rel = some k) : s.beginCtxLoad b = s.loadCommand b q k := by
  rw [State.beginCtxLoad, hq]
  dsimp only
  rw [hk, if_neg (by simp [hbegun, hactive])]
  rfl
theorem State.beginCtxLoad_cases (s : State) (b : Nat) : s.beginCtxLoad b = s ∨ ∃ q k, s.beginCtxLoad b = s.loadCommand b q k := by
  rw [State.beginCtxLoad]
  split
  · exact .inl rfl
  · split
    · exact .inl rfl
    · split
      · exact .inl rfl
      · exact .inr ⟨_, _, rfl⟩

theorem State.branch_loadCommand (s : State) (b : Nat) (q : CfgLoad) (k : Nat) : (s.loadCommand b q k).branch b =
    { s.branch b with ctxs := tset BrcCtx.empty (s.branch b).ctxs q.ctx BrcCtx.empty, loadSlot := k, loadCtx := q.ctx } := by
  rw [State.loadCommand, State.modSv_branch, State.branch_modBranch_same, State.updLeaves_branch]
theorem Leaf.ctxAt_dropCtx (lf : Leaf) (n : Nat) : ((lf.dropCtx n).ctxAt n).valid = false := by
  have hctxs : (lf.dropCtx n).ctxs = tmod Ctx.empty lf.ctxs n fun c => { c with valid := false } := by
    unfold Leaf.dropCtx
    dsimp only
    split <;> rfl
  rw [Leaf.ctxAt, hctxs, tmod, tget_tset_same]
theorem State.leaf_loadCommand {j : Nat} (hj : j < 64) : (((s.loadCommand b q k).leaf (b * 64 + j)).ctxAt q.ctx).valid = false := by
  rw [State.loadCommand, State.modSv_leaf, State.modBranch_leaf, State.leaf_updLeaves _ _ _ hj, Leaf.ctxAt_dropCtx]

/-- What a load command of branch b may not change from s to t; the loads of the queue stay but for those that begin. -/
structure State.Commanded (s t : State) (b : Nat) : Prop where
  mem : t.mem = s.mem
  csr : t.csr = s.csr
  passes : t.sv.passes = s.sv.passes
  seeds : (t.branch b).seeds = (s.branch b).seeds
  loads : (t.branch b).loads = (s.branch b).loads
  loadErr : (t.branch b).loadErr = (s.branch b).loadErr
  queue : ∃ p, t.sv.cfgLoads = mapIf p (fun c => { c with begun := true }) s.sv.cfgLoads

theorem State.Commanded.refl (s : State) (b : Nat) : s.Commanded s b :=
  ⟨rfl, rfl, rfl, rfl, rfl, rfl, fun _ => false, by simp [mapIf]⟩
theorem State.loadCommand_commanded (s : State) (b : Nat) (q : CfgLoad) (k : Nat) : s.Commanded (s.loadCommand b q k) b := by
  have hbranch := s.branch_loadCommand b q k
  refine ⟨by simp [State.loadCommand], by simp [State.loadCommand], by simp [State.loadCommand], by rw [hbranch], by rw [hbranch],
    by rw [hbranch], fun c => c.branch == b && c.ctx == q.ctx && !c.fill, by simp [State.loadCommand]⟩
theorem State.beginCtxLoad_commanded (s : State) (b : Nat) : s.Commanded (s.beginCtxLoad b) b := by
  rcases s.beginCtxLoad_cases b with h | ⟨q, k, h⟩ <;> rw [h]
  · exact .refl s b
  · exact s.loadCommand_commanded b q k
theorem State.Commanded.length_queue (h : s.Commanded t b) : t.sv.cfgLoads.length = s.sv.cfgLoads.length := by
  obtain ⟨p, hp⟩ := h.queue
  rw [hp, length_mapIf]
theorem State.Commanded.mem_queue (h : s.Commanded t b) (hq : q ∈ s.sv.cfgLoads) :
    ∃ q' ∈ t.sv.cfgLoads, q' = q ∨ q' = { q with begun := true } := by
  obtain ⟨p, hp⟩ := h.queue
  rw [hp]
  refine ⟨_, mem_mapIf.2 ⟨q, hq, rfl⟩, ?_⟩
  split
  · exact .inr rfl
  · exact .inl rfl
theorem State.Commanded.frozen (h : s.Commanded t b) : t.frozen = s.frozen := by
  unfold State.frozen State.rf State.reg
  rw [h.csr]
end

/-! ### The next load of the queue -/

section
variable {s : State} {b : Nat} {p : CfgLoad → Bool} {f : CfgLoad → Option CfgLoad} {c : CfgLoad}

/-- The state with another queue of configuration loads. -/
def State.setCfgLoads (s : State) (q : List CfgLoad) : State := s.modSv fun v => { v with cfgLoads := q }
/-- The first load of the branch that meets the test is replaced or dropped, and then the next load command may go out. -/
theorem State.nextCfg_of_find (f : CfgLoad → Option CfgLoad) (h : s.sv.cfgLoads.find? (fun c => c.branch == b && p c) = some c) :
    ∃ pre post, s.sv.cfgLoads = pre ++ c :: post ∧ (∀ x ∈ pre, (x.branch == b && p x) = false) ∧
      s.nextCfg b p f = (s.setCfgLoads (pre ++ (f c).toList ++ post)).beginCtxLoad b := by
  obtain ⟨hc, pre, post, hqueue, hpre⟩ := List.find?_eq_some_iff_append.1 h
  have hpre : ∀ x ∈ pre, (x.branch == b && p x) = false := fun x hx => by simpa only [Bool.not_eq_true'] using hpre x hx
  refine ⟨pre, post, hqueue, hpre, ?_⟩
  rw [State.nextCfg, hqueue, findIdx_append_cons post hpre hc]
  have htake : (pre ++ c :: post).take (0 + pre.length) = pre := by simp
  have hdrop : (pre ++ c :: post).drop (0 + pre.length + 1) = post := by simp
  dsimp only
  simp only [State.modSv, hqueue, htake, hdrop]
  cases f c <;> rfl
end

end Sys2Proof.Machine
end

section
/-! SEED_BANK_FILL and CONTEXT_LOAD (05 R191-R194, 06 R233; log entry 27): what a fill and a load leave. -/

namespace Sys2Proof.Machine

variable {s : State} {t b k : Nat} {c : CfgLoad} {o : PoolObj}

/-! ### SEED_BANK_FILL -/

/-- The section of a load and its directory entry stand in seed-bank slot k; img is the image. -/
def State.writeSlot (s : State) (b k : Nat) (c : CfgLoad) (img : List Byte) : State :=
  let x := brSect img c.cfg c.rel
  ((s.memWrite (memKey 4 (seedAddr b k)) x).memWrite (memKey 4 (b * 0x400000 + k * 32))
    (dirBytes (imgId img) c.cfg c.rel x.length (crc32c x))).modBranch b fun y =>
      { y with seeds := tset SeedSlot.empty y.seeds k ⟨true, c.load, c.cfg, c.rel, x.length, crc32c x, s.now⟩, loads := sat32 (y.loads + 1) }
@[simp] theorem State.writeSlot_sv (img : List Byte) : (s.writeSlot b k c img).sv = s.sv := by
  rw [State.writeSlot, State.modBranch_sv, State.memWrite_sv, State.memWrite_sv]
@[simp] theorem State.writeSlot_csr (img : List Byte) : (s.writeSlot b k c img).csr = s.csr := by
  rw [State.writeSlot, State.modBranch_csr, State.memWrite_csr, State.memWrite_csr]
theorem State.branch_writeSlot (img : List Byte) : (s.writeSlot b k c img).branch b = { s.branch b with
    seeds := tset SeedSlot.empty (s.branch b).seeds k
      ⟨true, c.load, c.cfg, c.rel, (brSect img c.cfg c.rel).length, crc32c (brSect img c.cfg c.rel), s.now⟩
    loads := sat32 ((s.branch b).loads + 1) } := by
  rw [State.writeSlot, State.branch_modBranch_same, State.memWrite_branch, State.memWrite_branch]
/-- What a fill that has ended leaves of its load: the load of its context, or nothing. -/
def CfgLoad.filled (c : CfgLoad) (now : Nat) : Option CfgLoad := if c.ctx < 8 then some { c with fill := false, fin := now + 8000 } else none

section
variable (hfrozen : s.frozen = false) (hc : s.sv.cfgLoads.find? (fun c => c.branch == b && c.fill) = some c)
  (ho : (s.at t).imageObj c.load = some o)
include hfrozen hc ho

theorem exec_seedBankFill_of_slot (hver : o.state = .verified) (hk : (s.at t).pickSeed b = some k) :
    exec (.seedBankFill t b) s = .next (((s.at t).writeSlot b k c ((s.at t).objRead o 0 o.size)).nextCfg b (·.fill)
      fun c => c.filled (s.at t).now) := by
  refine (if_neg (by rw [State.at_frozen, hfrozen]; simp)).trans ?_
  dsimp only
  rw [State.at_sv, hc]
  dsimp only
  rw [ho]
  dsimp only
  rw [if_neg (by simp [hver]), hk]
  rfl
theorem exec_seedBankFill_of_noSlot (hver : o.state = .verified) (hk : (s.at t).pickSeed b = none) :
    exec (.seedBankFill t b) s = .next ((s.at t).nextCfg b (·.fill) fun c => if c.ctx < 8 then some c else none) := by
  refine (if_neg (by rw [State.at_frozen, hfrozen]; simp)).trans ?_
  dsimp only
  rw [State.at_sv, hc]
  dsimp only
  rw [ho]
  dsimp only
  rw [if_neg (by simp [hver]), hk]
theorem exec_seedBankFill_of_unverified (hver : o.state ≠ .verified) (hfetch : ∀ f ∈ s.sv.fetches, f.obj ≠ o.id) :
    exec (.seedBankFill t b) s = .next ((s.at t).queueFetch o.id o.size) := by
  refine (if_neg (by rw [State.at_frozen, hfrozen]; simp)).trans ?_
  dsimp only
  rw [State.at_sv, hc]
  dsimp only
  rw [ho]
  dsimp only
  rw [if_pos hver, State.fetchImage, ho]
  exact congrArg _ (if_neg (by simpa [hver] using hfetch))
end

/-- A queue whose first waiting load is dropped is one shorter. -/
theorem State.length_nextCfg_of_drop {p : CfgLoad → Bool} {f : CfgLoad → Option CfgLoad}
    (hc : s.sv.cfgLoads.find? (fun c => c.branch == b && p c) = some c) (hf : f c = none) :
    (s.nextCfg b p f).sv.cfgLoads.length + 1 = s.sv.cfgLoads.length := by
  obtain ⟨pre, post, hqueue, -, hnext⟩ := State.nextCfg_of_find f hc
  rw [hnext, (State.beginCtxLoad_commanded _ b).length_queue, hqueue, hf]
  simp [State.setCfgLoads]
  omega
/-- What the move to the next load of branch b leaves as it was. -/
theorem State.nextCfg_frame {p : CfgLoad → Bool} {f : CfgLoad → Option CfgLoad}
    (hc : s.sv.cfgLoads.find? (fun c => c.branch == b && p c) = some c) :
    (s.nextCfg b p f).mem = s.mem ∧ (s.nextCfg b p f).csr = s.csr ∧ ((s.nextCfg b p f).branch b).seeds = (s.branch b).seeds ∧
      ((s.nextCfg b p f).branch b).loads = (s.branch b).loads ∧ (s.nextCfg b p f).sv.passes = s.sv.passes := by
  obtain ⟨pre, post, -, -, hnext⟩ := State.nextCfg_of_find f hc
  have h := State.beginCtxLoad_commanded (s.setCfgLoads (pre ++ (f c).toList ++ post)) b
  rw [hnext]
  exact ⟨h.mem, h.csr, h.seeds, h.loads, h.passes⟩
/-- The load that takes the place of the first one stands in the queue, but for its begin. -/
theorem State.mem_nextCfg {p : CfgLoad → Bool} {f : CfgLoad → Option CfgLoad} {d : CfgLoad}
    (hc : s.sv.cfgLoads.find? (fun c => c.branch == b && p c) = some c) (hf : f c = some d) :
    ∃ d' ∈ (s.nextCfg b p f).sv.cfgLoads, d' = d ∨ d' = { d with begun := true } := by
  obtain ⟨pre, post, -, -, hnext⟩ := State.nextCfg_of_find f hc
  rw [hnext]
  exact (State.beginCtxLoad_commanded _ b).mem_queue (by simp [State.setCfgLoads, hf])

/-- A fill that has ended leaves section and directory entry in its slot, counts itself and becomes a load of its context. -/
theorem State.nextCfg_writeSlot {img : List Byte} {s' : State} (hc : s.sv.cfgLoads.find? (fun c => c.branch == b && c.fill) = some c)
    (hs' : (s.writeSlot b k c img).nextCfg b (·.fill) (fun c => c.filled s.now) = s') :
    s'.mem = ((s.memWrite (memKey 4 (seedAddr b k)) (brSect img c.cfg c.rel)).memWrite (memKey 4 (b * 0x400000 + k * 32))
        (dirBytes (imgId img) c.cfg c.rel (brSect img c.cfg c.rel).length (crc32c (brSect img c.cfg c.rel)))).mem ∧
      tget SeedSlot.empty (s'.branch b).seeds k =
        ⟨true, c.load, c.cfg, c.rel, (brSect img c.cfg c.rel).length, crc32c (brSect img c.cfg c.rel), s.now⟩ ∧
      (s'.branch b).loads = sat32 ((s.branch b).loads + 1) ∧ s'.csr = s.csr ∧
      (8 ≤ c.ctx → s'.sv.cfgLoads.length + 1 = s.sv.cfgLoads.length) ∧
      (c.ctx < 8 → ∃ c' ∈ s'.sv.cfgLoads, c'.branch = b ∧ c'.fill = false ∧ c'.load = c.load ∧ c'.cfg = c.cfg ∧ c'.ctx = c.ctx) := by
  have hbranch : c.branch = b := by
    simpa using (Bool.and_eq_true_iff.1 (List.find?_some (p := fun c : CfgLoad => c.branch == b && c.fill) hc)).1
  rw [← State.writeSlot_sv (b := b) (k := k) (c := c) img] at hc
  obtain ⟨hmem, hcsr, hseeds, hloads, -⟩ := State.nextCfg_frame (f := fun c => c.filled s.now) hc
  rw [hs'] at hmem hcsr hseeds hloads
  rw [hmem, hcsr, hseeds, hloads]
  refine ⟨?_, ?_, ?_, State.writeSlot_csr img, fun hctx => ?_, fun hctx => ?_⟩
  · rw [State.writeSlot, State.modBranch_mem]
  · rw [State.branch_writeSlot, tget_tset_same]
  · rw [State.branch_writeSlot]
  · rw [← hs', State.length_nextCfg_of_drop hc (if_neg (Nat.not_lt.2 hctx)), State.writeSlot_sv]
  · obtain ⟨d, hd, hdc⟩ := State.mem_nextCfg (f := fun c => c.filled s.now) hc (if_pos hctx)
    rw [hs'] at hd
    refine ⟨d, hd, ?_⟩
    rcases hdc with rfl | rfl <;> exact ⟨hbranch, rfl, rfl, rfl, rfl⟩

/-! ### CONTEXT_LOAD -/

/-- The section that a load reads, with the upsets that the read found. -/
def upset (flips : List (Nat × Byte)) (x : List Byte) : List Byte := flips.foldl (fun l f => l.modify f.1 fun v => v ^^^ f.2) x
/-- The leaves and the slot set of branch b take section x of slot k into context n; ok where its CRC matched. -/
def State.takeSection (s : State) (b n : Nat) (x : List Byte) (k : Nat) (ok : Bool) : State :=
  (s.updLeaves b fun l lf => lf.loadCtx n (l % 64) x k ok).modBranch b fun y => y.loadSlots n x
/-- The context of a load that is taken, and the scratch split: a load takes the split of its section where no other context is valid. -/
def CfgLoad.context (c : CfgLoad) (img : List Byte) : BrcCtx :=
  ⟨true, c.pin, c.cfg, imgId img % 2 ^ 32, c.load, c.rel, 0, cfgSentLimit img c.cfg, false⟩
def Branch.splitOf (y : Branch) (n : Nat) (x : List Byte) : Nat :=
  if (List.range 8).all (fun m => m == n || !(tget BrcCtx.empty y.ctxs m).valid) then fieldLE x 3 1 else y.scratch
/-- A branch with context n loaded from slot k. -/
def Branch.contextTaken (y : Branch) (n k split now : Nat) (x : BrcCtx) : Branch := ({ y with
  ctxs := tset BrcCtx.empty y.ctxs n x
  seeds := tmod SeedSlot.empty y.seeds k fun q => { q with lastUse := now }
  scratch := split, loads := sat32 (y.loads + 1), cache := if split = y.scratch then y.cache else [] }).cacheKept
/-- A branch whose load into context n did not match: ERR is set, slot and context are empty. -/
def Branch.contextRefused (y : Branch) (n k : Nat) : Branch := { y with
  loadErr := true, ctxs := tset BrcCtx.empty y.ctxs n BrcCtx.empty, seeds := tset SeedSlot.empty y.seeds k SeedSlot.empty }
/-- Branch b takes, or refuses, section x of slot k for load c; a refused slot has no directory entry any more. -/
def State.takeContext (s : State) (b k : Nat) (c : CfgLoad) (x : List Byte) : State :=
  (s.takeSection b c.ctx x k true).modBranch b
    (·.contextTaken c.ctx k ((s.branch b).splitOf c.ctx x) s.now (c.context (s.image c.load)))
def State.refuseContext (s : State) (b k : Nat) (c : CfgLoad) (x : List Byte) : State :=
  ((s.takeSection b c.ctx x k false).modBranch b (·.contextRefused c.ctx k)).memSet (memKey 4 (b * 0x400000 + k * 32 + 11)) 0
/-- A load that is to be filled and loaded again. -/
def CfgLoad.again (c : CfgLoad) (s : State) : CfgLoad :=
  { c with fill := true, begun := false, fin := s.now + 48000 + s.imageTerm c.load }

/-- The load that failed takes its place in the queue again. -/
def State.loadAgain (s : State) (b : Nat) : State := s.nextCfg b (fun c => !c.fill) fun c => some (c.again s)

@[simp] theorem Branch.ctxs_cacheKept (y : Branch) : y.cacheKept.ctxs = y.ctxs := by
  unfold Branch.cacheKept
  dsimp only
  split <;> rfl
@[simp] theorem Branch.loadErr_cacheKept (y : Branch) : y.cacheKept.loadErr = y.loadErr := by
  unfold Branch.cacheKept
  dsimp only
  split <;> rfl
theorem Branch.loadErr_contextTaken (y : Branch) (n k split now : Nat) (x : BrcCtx) :
    (y.contextTaken n k split now x).loadErr = y.loadErr := by rw [Branch.contextTaken, Branch.loadErr_cacheKept]
theorem Branch.loadErr_loadSlots (y : Branch) (n : Nat) (x : List Byte) : (y.loadSlots n x).loadErr = y.loadErr := by
  rw [Branch.loadSlots]

section
variable {flips : List (Nat × Byte)} {x : List Byte} {n : Nat} {ok : Bool}

@[simp] theorem State.takeSection_sv : (s.takeSection b n x k ok).sv = s.sv := by
  rw [State.takeSection, State.modBranch_sv, State.updLeaves_sv]
@[simp] theorem State.takeSection_mem : (s.takeSection b n x k ok).mem = s.mem := by
  rw [State.takeSection, State.modBranch_mem, State.updLeaves_mem]
@[simp] theorem State.takeSection_csr : (s.takeSection b n x k ok).csr = s.csr := by
  rw [State.takeSection, State.modBranch_csr, State.updLeaves_csr]
theorem State.branch_takeSection : (s.takeSection b n x k ok).branch b = (s.branch b).loadSlots n x := by
  rw [State.takeSection, State.branch_modBranch_same, State.updLeaves_branch]
theorem State.ctxAt_takeSection {j : Nat} (hj : j < 64) : (((s.takeSection b n x k true).leaf (b * 64 + j)).ctxAt n).valid = true ∧
    (((s.takeSection b n x k true).leaf (b * 64 + j)).ctxAt n).cfg = k := by
  rw [State.takeSection, State.modBranch_leaf, State.leaf_updLeaves _ _ _ hj, Leaf.ctxAt, Leaf.loadCtx]
  dsimp only
  rw [tget_tset_same]
  exact ⟨rfl, rfl⟩

theorem State.branch_takeContext : (s.takeContext b k c x).branch b =
    ((s.branch b).loadSlots c.ctx x).contextTaken c.ctx k ((s.branch b).splitOf c.ctx x) s.now (c.context (s.image c.load)) := by
  rw [State.takeContext, State.branch_modBranch_same, State.branch_takeSection]
@[simp] theorem State.takeContext_sv : (s.takeContext b k c x).sv = s.sv := by
  rw [State.takeContext, State.modBranch_sv, State.takeSection_sv]
@[simp] theorem State.takeContext_mem : (s.takeContext b k c x).mem = s.mem := by
  rw [State.takeContext, State.modBranch_mem, State.takeSection_mem]
@[simp] theorem State.takeContext_csr : (s.takeContext b k c x).csr = s.csr := by
  rw [State.takeContext, State.modBranch_csr, State.takeSection_csr]
theorem State.branch_refuseContext : (s.refuseContext b k c x).branch b = ((s.branch b).loadSlots c.ctx x).contextRefused c.ctx k := by
  rw [State.refuseContext, State.memSet_branch, State.branch_modBranch_same, State.branch_takeSection]
@[simp] theorem State.refuseContext_sv : (s.refuseContext b k c x).sv = s.sv := by
  rw [State.refuseContext, State.memSet_sv, State.modBranch_sv, State.takeSection_sv]
@[simp] theorem State.refuseContext_csr : (s.refuseContext b k c x).csr = s.csr := by
  rw [State.refuseContext, State.memSet_csr, State.modBranch_csr, State.takeSection_csr]

/-- A load that waits for the leaves of its active context changes nothing. -/
theorem exec_contextLoad_of_busy (hfrozen : s.frozen = false) (hc : s.sv.cfgLoads.find? (fun c => c.branch == b && !c.fill) = some c)
    (hbegun : c.begun = false) (hk : s.seedOf b c.load c.cfg c.rel = some k) (hactive : (s.branch b).active = c.ctx)
    (hrun : s.leavesRun b = true) : exec (.contextLoad t b flips) s = .next (s.at t) := by
  have hbegin : (s.at t).beginLoads (if (s.at t).frozen then [] else [b]) = s.at t := by
    rw [State.at_frozen, hfrozen]
    exact State.beginCtxLoad_of_busy (s := s.at t) hc hactive hrun
  have hk : (s.at t).seedOf b c.load c.cfg c.rel = some k := hk
  show execContextLoad t b flips s = _
  unfold execContextLoad
  dsimp only
  rw [hbegin, if_neg (by rw [State.at_frozen, hfrozen]; simp), State.at_sv, hc]
  dsimp only
  rw [hk]
  exact if_pos hbegun
/-- A load that has begun reads its slot with the upsets: where the CRC matches, the context is taken, else slot and context are refused. -/
theorem exec_contextLoad_of_begun {u : State} (hu : (s.at t).beginLoads [b] = u) (hfrozen : u.frozen = false)
    (hc : u.sv.cfgLoads.find? (fun c => c.branch == b && !c.fill) = some c) (hbegun : c.begun = true)
    (hk : u.seedOf b c.load c.cfg c.rel = some k)
    (hx : x = upset flips (u.memRead (memKey 4 (seedAddr b k)) (tget SeedSlot.empty (u.branch b).seeds k).size)) :
    exec (.contextLoad t b flips) s = .next (if crc32c x = (tget SeedSlot.empty (u.branch b).seeds k).crc then
        ((u.takeContext b k c x).nextCfg b (fun c => !c.fill) fun _ => none).resumeStages
      else (u.refuseContext b k c x).loadAgain b) := by
  have hbegin : (s.at t).beginLoads (if (s.at t).frozen then [] else [b]) = u := by
    cases hat : (s.at t).frozen
    · exact hu
    · rw [← hu, State.beginLoads_one, ((s.at t).beginCtxLoad_commanded b).frozen, hat] at hfrozen
      cases hfrozen
  rw [upset] at hx
  show execContextLoad t b flips s = _
  unfold execContextLoad
  dsimp only
  rw [hbegin, if_neg (by simp [hfrozen]), hc]
  dsimp only
  rw [hk]
  dsimp only
  rw [if_neg (by simp [hbegun]), ← hx]
  by_cases hcrc : crc32c x = (tget SeedSlot.empty (u.branch b).seeds k).crc
  · rw [if_pos hcrc, beq_iff_eq.2 hcrc]
    rfl
  · rw [if_neg hcrc, beq_eq_false_iff_ne.2 hcrc]
    rfl
end

/-! ### The two ends of a context load -/

/-- Where a branch has one load only, no load command follows its end. -/
theorem State.nextCfg_of_only {f : CfgLoad → Option CfgLoad} (honly : s.sv.cfgLoads.filter (fun c => c.branch == b && !c.fill) = [c])
    (hf : ∀ d ∈ f c, d.fill = true) : ∃ pre post, s.sv.cfgLoads = pre ++ c :: post ∧
      s.nextCfg b (fun c => !c.fill) f = s.setCfgLoads (pre ++ (f c).toList ++ post) := by
  have hfind : s.sv.cfgLoads.find? (fun c => c.branch == b && !c.fill) = some c := by rw [← List.head?_filter, honly]; rfl
  obtain ⟨pre, post, hqueue, hpre, hnext⟩ := State.nextCfg_of_find f hfind
  refine ⟨pre, post, hqueue, ?_⟩
  have hc : (c.branch == b && !c.fill) = true := List.find?_some (p := fun c : CfgLoad => c.branch == b && !c.fill) hfind
  have hpost : post.filter (fun c => c.branch == b && !c.fill) = [] := by
    have hnone : pre.filter (fun c => c.branch == b && !c.fill) = [] := List.filter_eq_nil_iff.2 fun x hx => by simp [hpre x hx]
    rw [hqueue, List.filter_append, hnone, List.filter_cons, if_pos hc] at honly
    simpa using honly
  rw [hnext]
  refine State.beginCtxLoad_of_none (List.find?_eq_none.2 fun x hx => ?_)
  rcases List.mem_append.1 hx with hx | hx
  · rcases List.mem_append.1 hx with hx | hx
    · simp [hpre x hx]
    · simp [hf x (Option.mem_toList.1 hx)]
  · simpa using List.filter_eq_nil_iff.1 hpost x hx

section
variable {x : List Byte} {s' : State} (honly : s.sv.cfgLoads.filter (fun c => c.branch == b && !c.fill) = [c])
include honly

/-- The context is refused: ERR is set, slot and context are empty, and the load is filled again. -/
theorem State.loadAgain_refused (hs' : (s.refuseContext b k c x).loadAgain b = s') : (s'.branch b).loadErr = true ∧
    (tget BrcCtx.empty (s'.branch b).ctxs c.ctx).valid = false ∧ tget SeedSlot.empty (s'.branch b).seeds k = SeedSlot.empty ∧
    s'.csr = s.csr ∧ ∃ c' ∈ s'.sv.cfgLoads, c'.branch = c.branch ∧ c'.fill = true ∧ c'.load = c.load ∧ c'.cfg = c.cfg := by
  rw [← State.refuseContext_sv (s := s) (b := b) (k := k) (c := c) (x := x)] at honly
  obtain ⟨pre, post, -, hnext⟩ := State.nextCfg_of_only (f := fun d => some (d.again (s.refuseContext b k c x))) honly
    fun d hd => by cases hd; rfl
  have hs' : s' = (s.refuseContext b k c x).setCfgLoads (pre ++ [c.again (s.refuseContext b k c x)] ++ post) := hs'.symm.trans hnext
  have hbranch : s'.branch b = ((s.branch b).loadSlots c.ctx x).contextRefused c.ctx k := by
    rw [hs', State.setCfgLoads, State.modSv_branch, State.branch_refuseContext]
  rw [hbranch]
  refine ⟨rfl, ?_, ?_, ?_, c.again (s.refuseContext b k c x), ?_, rfl, rfl, rfl, rfl⟩
  · rw [Branch.contextRefused, tget_tset_same]
    rfl
  · rw [Branch.contextRefused, tget_tset_same]
  · rw [hs', State.setCfgLoads, State.modSv_csr, State.refuseContext_csr]
  · rw [hs', State.setCfgLoads, State.modSv_sv]
    simp
/-- The context is taken: it is valid on the branch and its leaves, and the load leaves the queue. -/
theorem State.nextCfg_taken (hpasses : s.sv.passes = [])
    (hs' : ((s.takeContext b k c x).nextCfg b (fun c => !c.fill) fun _ => none).resumeStages = s') :
    (tget BrcCtx.empty (s'.branch b).ctxs c.ctx).valid = true ∧ (tget BrcCtx.empty (s'.branch b).ctxs c.ctx).cfg = c.cfg ∧
      (∀ j < 64, ((s'.leaf (b * 64 + j)).ctxAt c.ctx).valid = true ∧ ((s'.leaf (b * 64 + j)).ctxAt c.ctx).cfg = k) ∧
      (s'.branch b).loadErr = (s.branch b).loadErr ∧ s'.sv.cfgLoads.length + 1 = s.sv.cfgLoads.length ∧ s'.mem = s.mem ∧
      s'.csr = s.csr := by
  rw [← State.takeContext_sv (s := s) (b := b) (k := k) (c := c) (x := x)] at honly
  obtain ⟨pre, post, hqueue, hnext⟩ := State.nextCfg_of_only (f := fun _ => none) honly fun d hd => by cases hd
  have hs' : s' = (s.takeContext b k c x).setCfgLoads (pre ++ post) := by
    rw [← hs', hnext, State.resumeStages, State.setCfgLoads, State.modSv_sv, State.takeContext_sv, hpasses]
    simp [State.each, State.setCfgLoads]
  have hbranch : s'.branch b = ((s.branch b).loadSlots c.ctx x).contextTaken c.ctx k ((s.branch b).splitOf c.ctx x) s.now
      (c.context (s.image c.load)) := by
    rw [hs', State.setCfgLoads, State.modSv_branch, State.branch_takeContext]
  have hctx : tget BrcCtx.empty (s'.branch b).ctxs c.ctx = c.context (s.image c.load) := by
    rw [hbranch, Branch.contextTaken, Branch.ctxs_cacheKept, tget_tset_same]
  rw [hctx]
  refine ⟨rfl, rfl, fun j hj => ?_, ?_, ?_, ?_, ?_⟩
  · rw [hs', State.setCfgLoads, State.modSv_leaf, State.takeContext, State.modBranch_leaf]
    exact State.ctxAt_takeSection hj
  · rw [hbranch, Branch.loadErr_contextTaken, Branch.loadErr_loadSlots]
  · rw [← State.takeContext_sv (s := s) (b := b) (k := k) (c := c) (x := x), hqueue, hs', State.setCfgLoads, State.modSv_sv]
    simp only [List.length_append, List.length_cons]
    omega
  · rw [hs', State.setCfgLoads, State.modSv_mem, State.takeContext_mem]
  · rw [hs', State.setCfgLoads, State.modSv_csr, State.takeContext_csr]
end

end Sys2Proof.Machine
end

section
/-! MANIFEST_VERIFIED, PRELOAD_RUN and IMAGE_RELEASE (05 R190, 08 R271, R277, 11 R390, R391). -/

namespace Sys2Proof.Machine

variable {s s2 : State} {t id : Nat} {l : Load} {imf maf : List Nat} {m h : List Byte}

/-! ### MANIFEST_VERIFIED -/

theorem State.load_at (s : State) (t id : Nat) : (s.at t).load id = s.load id := rfl
theorem exec_manifestVerified_of_frozen (hfrozen : s.frozen = true) : exec (.manifestVerified t id imf maf) s = .next (s.at t) := by
  show execManifestVerified t id imf maf s = _
  unfold execManifestVerified
  cases hl : s.load id with
  | none => simp [State.load_at, hl]
  | some l => simp [State.load_at, hl, hfrozen]
theorem exec_manifestVerified_of_phase (hl : s.load id = some l) (hphase : l.phase ≠ .manifest) :
    exec (.manifestVerified t id imf maf) s = .next (s.at t) := by
  show execManifestVerified t id imf maf s = _
  simp [execManifestVerified, State.load_at, hl, hphase]

section
variable (hl : s.load id = some l) (hfrozen : s.frozen = false) (hphase : l.phase = .manifest)
include hl hfrozen hphase

theorem exec_manifestVerified_of_short (hrole : l.role = 2)
    (hshort : fieldLE l.rxManifest 16 4 = 0 ∨ l.rxManifest.length < fieldLE l.rxManifest 16 4) :
    exec (.manifestVerified t id imf maf) s = .next (s.at t) := by
  show execManifestVerified t id imf maf s = _
  simp [execManifestVerified, State.load_at, hl, hphase, hfrozen, hrole, hshort]

variable (himage : l.image ≠ [])
include himage

theorem exec_manifestVerified_of_received (hrole : l.role = 2) (hsome : fieldLE l.rxManifest 16 4 ≠ 0)
    (hlen : fieldLE l.rxManifest 16 4 ≤ l.rxManifest.length) : exec (.manifestVerified t id imf maf) s =
      .next ((s.at t).takeManifest { l with rxManifest := [] } (l.rxManifest.take (fieldLE l.rxManifest 16 4))) := by
  have hshort : ¬l.rxManifest.length < fieldLE l.rxManifest 16 4 := Nat.not_lt.2 hlen
  show execManifestVerified t id imf maf s = _
  simp [execManifestVerified, State.load_at, hl, hphase, hfrozen, himage, hrole, hsome, hshort]
theorem exec_manifestVerified_of_none (hrole : l.role ≠ 2) (hid : imgManifestId l.image = 0) :
    exec (.manifestVerified t id imf maf) s = .next ((s.at t).takeManifest l []) := by
  show execManifestVerified t id imf maf s = _
  simp [execManifestVerified, State.load_at, hl, hphase, hfrozen, himage, hrole, hid]

variable (hrole : l.role ≠ 2) (hid : imgManifestId l.image ≠ 0) (hhead : (s.at t).volGet l.stand l.volume l.block 64 = .bytes h)
include hrole hid hhead

theorem exec_manifestVerified_of_read
    (hread : (s.at t).rootRead l.stand l.volume l.block (fieldLE h 16 4) maf = (s2, .bytes m)) :
    exec (.manifestVerified t id imf maf) s = .next (s2.takeManifest l m) := by
  show execManifestVerified t id imf maf s = _
  simp [execManifestVerified, State.load_at, hl, hphase, hfrozen, himage, hrole, hid, hhead, hread]
/-- A codeword lost in the read ends the load with TIER_ERROR. -/
theorem exec_manifestVerified_of_lost
    (hread : (s.at t).rootRead l.stand l.volume l.block (fieldLE h 16 4) maf = (s2, .lost)) :
    exec (.manifestVerified t id imf maf) s = .next (s2.endLoad l 0x30) := by
  show execManifestVerified t id imf maf s = _
  simp [execManifestVerified, State.load_at, hl, hphase, hfrozen, himage, hrole, hid, hhead, hread]
end

/-- A manifest that does not fit its image ends the load with REFUSED_CONFIG. -/
theorem State.takeManifest_of_bad (hsome : imgManifestId l.image ≠ 0 → manifestOk s.sv.imageKeys l.image m = false)
    (hnone : imgManifestId l.image = 0 → imageManifestOk l [] = false) : s.takeManifest l m = s.endLoad l 0x14 := by
  by_cases hid : imgManifestId l.image = 0
  · simp [State.takeManifest, hid, hnone hid]
  · simp [State.takeManifest, hid, hsome hid]

/-! ### PRELOAD_RUN -/

section
variable (hl : s.load id = some l) (hfrozen : s.frozen = false) (hpin : pinEntries l.image ≠ [])
  (hphase : l.phase = .loading ∨ l.phase = .ready) (hserving : (s.at t).serving = true)
  (hnear : l.manifest = [] ∨ (s.at t).missing l = []) (hready : (s.at t).pinReady l = true)
include hl hfrozen hpin hphase hserving hnear hready

theorem exec_preloadRun_of_first (hfirst : l.preloaded = false) : exec (.preloadRun t id) s =
    .next ((((s.at t).pinInsts l).foldl (fun s i => s.placePreloads l i) (s.at t)).modLoad id fun x => { x with preloaded := true }) := by
  show execPreloadRun t id s = _
  rcases hphase with hp | hp <;> rcases hnear with hn | hn <;>
    simp [execPreloadRun, State.load_at, hl, hfrozen, hpin, hp, hserving, hn, hready, hfirst]
theorem exec_preloadRun_of_moving (hfirst : l.preloaded = true) (hdone : (s.at t).preloadsDone l = false) :
    exec (.preloadRun t id) s = .next (s.at t) := by
  show execPreloadRun t id s = _
  rcases hphase with hp | hp <;> rcases hnear with hn | hn <;>
    simp [execPreloadRun, State.load_at, hl, hfrozen, hpin, hp, hserving, hn, hready, hfirst, hdone]
omit hphase in
/-- Once the preloads have ended the load is bound, unless its Express commitment breaks the power limit. -/
theorem exec_preloadRun_of_ended (hfirst : l.preloaded = true) (hdone : (s.at t).preloadsDone l = true) (hload : l.phase = .loading)
    (hbound : l.bound = false) (hs2 : ((s.at t).pinInsts l).foldl State.clearRings (s.at t) = s2) : exec (.preloadRun t id) s =
      if (pinEntries l.image).any (fun e => entClasses l.image e == 1) = true ∧
        s2.powerFits (s2.bindExpress l) [(s2.now, s2.now + 1)] = false
      then .next (s2.endLoad l 0x12).settleLoads else .next (s2.bindExpress l).settleLoads := by
  subst hs2
  show execPreloadRun t id s = _
  rcases hnear with hn | hn <;>
    simp [execPreloadRun, State.load_at, hl, hfrozen, hpin, hload, hserving, hn, hready, hfirst, hdone, hbound]
end

/-! ### IMAGE_RELEASE -/

/-- A released load is held no more. -/
theorem State.load_releaseLoad (s : State) (l : Load) : (s.releaseLoad l).load l.id = none := by
  rw [State.load, State.releaseLoad]
  simp
theorem State.runEvictions_of_only (hloads : s.sv.loads = [l]) (hphase : l.phase = .evicting) (hreqs : s.sv.requests = []) :
    s.runEvictions = match l.evictMsg with
      | some m => (s.releaseLoad l).adminEnd m 0 []
      | none => s.releaseLoad l := by
  rw [State.runEvictions, hloads, List.filter_cons, if_pos (by rw [hphase]; rfl), List.filter_nil, State.each_cons, State.each_nil, hreqs]
  rfl
theorem exec_imageRelease_of_evicting (hl : s.load id = some l) (hfrozen : s.frozen = false) (hphase : l.phase = .evicting) :
    exec (.imageRelease t id) s = .next (s.at t).runEvictions := by
  show execImageRelease t id s = _
  simp [execImageRelease, State.load_at, hl, hfrozen, hphase]
theorem exec_imageRelease_of_phase (hl : s.load id = some l) (hphase : l.phase ≠ .evicting) :
    exec (.imageRelease t id) s = .next (s.at t) := by
  show execImageRelease t id s = _
  simp [execImageRelease, State.load_at, hl, hphase]

/-! ### A frozen part -/

section
variable (hfrozen : s.frozen = true) (b : Nat)
include hfrozen

theorem exec_seedBankFill_of_frozen : exec (.seedBankFill t b) s = .next (s.at t) := if_pos (by rw [State.at_frozen, hfrozen])
theorem exec_contextLoad_of_frozen (flips : List (Nat × Byte)) : exec (.contextLoad t b flips) s = .next (s.at t) := by
  show execContextLoad t b flips s = _
  simp [execContextLoad, hfrozen, State.beginLoads, State.each]
theorem exec_preloadRun_of_frozen : exec (.preloadRun t id) s = .next (s.at t) := if_pos (by rw [State.at_frozen, hfrozen])
theorem exec_imageRelease_of_frozen : exec (.imageRelease t id) s = .next (s.at t) := if_pos (by rw [State.at_frozen, hfrozen])
end

end Sys2Proof.Machine
end

section
/-! Loads and seed banks: O52, assembled from the sections above. -/

namespace Sys2Proof.Machine

theorem State.Commanded.memRead {s u : State} {b : Nat} (h : s.Commanded u b) (k n : Nat) : u.memRead k n = s.memRead k n := by
  unfold State.memRead
  rw [h.mem]

section
variable {s : State} {t b k : Nat} {c : CfgLoad} {x : List Byte} {flips : List (Nat × Byte)}

/-- The two ends of a context load of the one load that a branch waits for. -/
theorem exec_contextLoad_of_only {u : State} (hu : (s.at t).beginLoads [b] = u) (hfrozen : s.frozen = false)
    (honly : u.sv.cfgLoads.filter (fun c => c.branch == b && !c.fill) = [c]) (hbegun : c.begun = true)
    (hk : u.seedOf b c.load c.cfg c.rel = some k)
    (hx : x = upset flips (s.memRead (memKey 4 (seedAddr b k)) (tget SeedSlot.empty (u.branch b).seeds k).size)) :
    exec (.contextLoad t b flips) s = .next (if crc32c x = (tget SeedSlot.empty (u.branch b).seeds k).crc then
        ((u.takeContext b k c x).nextCfg b (fun c => !c.fill) fun _ => none).resumeStages
      else (u.refuseContext b k c x).loadAgain b) := by
  have hcommanded : (s.at t).Commanded u b := hu ▸ (s.at t).beginCtxLoad_commanded b
  have hc : u.sv.cfgLoads.find? (fun c => c.branch == b && !c.fill) = some c := by rw [← List.head?_filter, honly, List.head?_cons]
  refine exec_contextLoad_of_begun hu (hcommanded.frozen.trans hfrozen) hc hbegun hk ?_
  rw [hx, hcommanded.memRead, State.at_memRead]
end

/-- Settles O52, clause by clause: a frozen part; a fill that ends, that waits for its image, or that finds no slot; the end of a
context load that matches and of one that does not; its load command; the manifest; preload, binding and release. -/
theorem loadsAndSeedBanks : Obligations.LoadsAndSeedBanks := by
  unfold Obligations.LoadsAndSeedBanks
  intro s t b id flips imf maf s1
  refine ⟨fun hfrozen => ?frozen, fun c k o hfrozen hc ho hver hk => ?fill,
    fun c o hfrozen hc ho => ⟨fun hver hfetch => ?fetch, fun hver hk hctx => ?noSlot⟩,
    fun c k => ?load, fun c k hfrozen hc hbegun hk => ⟨fun hactive hrun => ?waits, fun hactive => ?command⟩,
    fun l hl hphase => exec_manifestVerified_of_phase hl hphase,
    fun l s2 hl hfrozen hphase himage => ⟨⟨?short, ?received⟩, ?none, ?read, ?lost⟩,
    fun l m hsome hnone => State.takeManifest_of_bad hsome hnone,
    fun l hl hfrozen hpin hphase hserving hnear hready => ⟨?first, ?ended, ?moving⟩,
    fun l hl hfrozen hphase hloads hreqs => ⟨?evicted, ?gone⟩, fun l hl hphase => exec_imageRelease_of_phase hl hphase⟩
  case frozen =>
    exact ⟨exec_seedBankFill_of_frozen hfrozen b, exec_contextLoad_of_frozen hfrozen b flips, exec_preloadRun_of_frozen hfrozen,
      exec_imageRelease_of_frozen hfrozen, exec_manifestVerified_of_frozen hfrozen⟩
  case fill =>
    exact ⟨_, exec_seedBankFill_of_slot hfrozen hc ho hver hk, State.nextCfg_writeSlot (s := s1) hc rfl⟩
  case fetch =>
    exact ⟨_, exec_seedBankFill_of_unverified hfrozen hc ho hver hfetch, by simp [State.queueFetch], rfl, rfl⟩
  case noSlot =>
    have hdrop : (if c.ctx < 8 then some c else none) = none := if_neg (Nat.not_lt.2 hctx)
    obtain ⟨hmem, -⟩ := State.nextCfg_frame (s := s1) (f := fun c => if c.ctx < 8 then some c else none) hc
    exact ⟨_, exec_seedBankFill_of_noSlot hfrozen hc ho hver hk, State.length_nextCfg_of_drop (s := s1) hc hdrop, hmem⟩
  case load =>
    intro s2 hfrozen honly hbegun hk q x
    have hcommanded : s1.Commanded s2 b := s1.beginCtxLoad_commanded b
    have hexec := exec_contextLoad_of_only (s := s) (t := t) (u := s2) (x := x) rfl hfrozen honly hbegun hk rfl
    refine ⟨fun hcrc => ?_, fun hcrc hpasses => ?_⟩
    · rw [if_neg hcrc] at hexec
      obtain ⟨herr, hctx, hslot, hcsr, c', hmem, hb, hrest⟩ := State.loadAgain_refused (x := x) (k := k) honly rfl
      have hbranch : c.branch = b := by
        have := List.mem_filter.1 (honly ▸ List.mem_singleton.2 (rfl : c = c))
        simpa using (Bool.and_eq_true_iff.1 this.2).1
      exact ⟨_, hexec, herr, hctx, hslot, hcsr.trans hcommanded.csr, c', hmem, hb.trans hbranch, hrest⟩
    · rw [if_pos hcrc] at hexec
      obtain ⟨hvalid, hcfg, hleaves, herr, hlength, hmem, hcsr⟩ :=
        State.nextCfg_taken (x := x) (k := k) honly (hcommanded.passes.trans hpasses) rfl
      exact ⟨_, hexec, hvalid, hcfg, hleaves, herr.trans hcommanded.loadErr, hlength.trans hcommanded.length_queue,
        hmem.trans hcommanded.mem, hcsr.trans hcommanded.csr⟩
  case waits => exact exec_contextLoad_of_busy hfrozen hc hbegun hk hactive hrun
  case command =>
    rw [State.beginLoads_one, State.beginCtxLoad_of_free (s := s1) hc hbegun hactive hk]
    refine ⟨?_, by rw [State.branch_loadCommand], fun j hj => State.leaf_loadCommand hj⟩
    rw [State.branch_loadCommand, tget_tset_same]
    rfl
  case short => exact fun hrole hshort => exec_manifestVerified_of_short hl hfrozen hphase hrole hshort
  case received => exact fun hrole hsome hlen => exec_manifestVerified_of_received hl hfrozen hphase himage hrole hsome hlen
  case none => exact fun hrole hid => exec_manifestVerified_of_none hl hfrozen hphase himage hrole hid
  case read => exact fun h m hrole hid hhead hread => exec_manifestVerified_of_read hl hfrozen hphase himage hrole hid hhead hread
  case lost => exact fun h hrole hid hhead hread => exec_manifestVerified_of_lost hl hfrozen hphase himage hrole hid hhead hread
  case first => exact exec_preloadRun_of_first hl hfrozen hpin hphase hserving hnear hready
  case ended =>
    intro hfirst hdone hload hbound s2 express
    have hexec := exec_preloadRun_of_ended (s2 := s2) hl hfrozen hpin hserving hnear hready hfirst hdone hload hbound rfl
    refine ⟨fun hfits => hexec.trans (if_neg ?_), fun hexpress hfits => hexec.trans (if_pos ⟨hexpress, hfits⟩)⟩
    rintro ⟨hexpress, hno⟩
    rcases hfits with h | h
    · exact Bool.false_ne_true (h.symm.trans hexpress)
    · exact Bool.false_ne_true (hno.symm.trans h)
  case moving => exact exec_preloadRun_of_moving hl hfrozen hpin hphase hserving hnear hready
  case evicted =>
    exact (exec_imageRelease_of_evicting hl hfrozen hphase).trans (congrArg _ (State.runEvictions_of_only (s := s1) hloads hphase hreqs))
  case gone =>
    have hid : l.id = id := by simpa using List.find?_some hl
    rw [← hid]
    exact s1.load_releaseLoad l

end Sys2Proof.Machine
end

section
/-! What the end of requests leaves of the serving state (10 R338, R352, 11 R382-R386, 05 R190): records, vectors and transactions leave it as it
was, and nothing adds a request or a pass. -/

namespace Sys2Proof.Machine

/-! ### Updates that leave the serving state alone -/

@[simp] theorem State.sv_ite (c : Prop) [Decidable c] (s t : State) : (if c then s else t).sv = if c then s.sv else t.sv :=
  apply_ite State.sv c s t
theorem State.onlySends.sv {s t : State} (h : s.onlySends t) : t.sv = s.sv := by
  obtain ⟨_, _, rfl⟩ := h
  rfl

section
variable (s : State)

@[simp] theorem State.traceRec_sv (type time payload) : (s.traceRec type time payload).sv = s.sv := by
  obtain ⟨_, _, h, -⟩ := s.traceRec_only type time payload
  rw [h]
@[simp] theorem State.traceStand_sv (sd type payload) : (s.traceStand sd type payload).sv = s.sv := by simp [State.traceStand]
@[simp] theorem State.alertEdge_sv : s.alertEdge.sv = s.sv := s.onlySends_alertEdge.sv
@[simp] theorem State.vecMessage_sv (sd v) : (s.vecMessage sd v).sv = s.sv := (s.onlySends_vecMessage sd v).sv
@[simp] theorem State.setVector_sv (sd v) : (s.setVector sd v).sv = s.sv := by simp [State.setVector]
@[simp] theorem State.queueTx_sv (n tx) : (s.queueTx n tx).sv = s.sv := by simp [State.queueTx, State.modLink]
@[simp] theorem State.flowSend_sv (n tx) : (s.flowSend n tx).sv = s.sv := by
  unfold State.flowSend
  split <;> simp
@[simp] theorem State.sendTx_sv (tx) : (s.sendTx tx).1.sv = s.sv := by
  unfold State.sendTx
  (repeat' split) <;> simp
@[simp] theorem State.launch_sv (tx p) : (s.launch tx p).1.sv = s.sv := by
  unfold State.launch
  dsimp only
  (repeat' split) <;> simp
@[simp] theorem State.addBucket_sv (sd d) : (s.addBucket sd d).sv = s.sv := by simp [State.addBucket]
@[simp] theorem State.addCharged_sv (sd uj) : (s.addCharged sd uj).sv = s.sv := by simp [State.addCharged]
@[simp] theorem State.settle_sv (r share) : (s.settle r share).sv = s.sv := by simp [State.settle]
@[simp] theorem State.sendRecord_sv (r cr result) : (s.sendRecord r cr result).sv = s.sv := by
  unfold State.sendRecord
  dsimp only
  (repeat' split) <;> simp
@[simp] theorem State.undefine_sv (r) : (s.undefine r).sv = s.sv := by rw [State.undefine_only]
end

/-! ### Updates that add no request and no pass -/

/-- The numbers of the requests, and of the passes, that the part holds. -/
def State.reqIds (s : State) : List Nat := s.sv.requests.map (·.id)
def State.passIds (s : State) : List Nat := s.sv.passes.map (·.id)
theorem State.req_eq_none {s : State} {id : Nat} : s.req id = none ↔ id ∉ s.reqIds := by
  simp [State.req, State.reqIds]
theorem State.pass_eq_none {s : State} {id : Nat} : s.pass id = none ↔ id ∉ s.passIds := by
  simp [State.pass, State.passIds]
/-- Every request and every pass of t has the number of one of s. -/
structure State.addsNone (s t : State) : Prop where
  reqs : t.reqIds ⊆ s.reqIds
  passes : t.passIds ⊆ s.passIds

section
variable {s t u : State}

theorem State.addsNone.refl (s : State) : s.addsNone s := ⟨List.Subset.refl _, List.Subset.refl _⟩
theorem State.addsNone.trans (h : s.addsNone t) (h' : t.addsNone u) : s.addsNone u :=
  ⟨List.Subset.trans h'.reqs h.reqs, List.Subset.trans h'.passes h.passes⟩
theorem State.addsNone.of_eq (hreq : t.sv.requests = s.sv.requests) (hpass : t.sv.passes = s.sv.passes) : s.addsNone t := by
  refine ⟨?_, ?_⟩
  · rw [State.reqIds, hreq]
    exact List.Subset.refl _
  · rw [State.passIds, hpass]
    exact List.Subset.refl _
theorem State.addsNone.of_sv (h : t.sv = s.sv) : s.addsNone t := .of_eq (by rw [h]) (by rw [h])
theorem State.addsNone.ite {c : Prop} [Decidable c] (h : s.addsNone t) (h' : s.addsNone u) : s.addsNone (if c then t else u) := by
  split
  · exact h
  · exact h'
theorem State.addsNone.each {α : Type} {l : List α} {f : State → α → State} (h : s.addsNone t) (hf : ∀ t a, State.addsNone t (f t a)) :
    s.addsNone (t.each l f) := State.each_keeps h fun t a _ ht => ht.trans (hf t a)
theorem State.addsNone.req (h : s.addsNone t) {id : Nat} (hid : s.req id = none) : t.req id = none :=
  State.req_eq_none.2 fun hmem => State.req_eq_none.1 hid (h.reqs hmem)
theorem State.addsNone.pass (h : s.addsNone t) {id : Nat} (hid : s.pass id = none) : t.pass id = none :=
  State.pass_eq_none.2 fun hmem => State.pass_eq_none.1 hid (h.passes hmem)
end

section
variable (s : State)

theorem State.addsNone_dropReq (id : Nat) : s.addsNone (s.dropReq id) :=
  ⟨List.map_subset _ (List.filter_subset_self _), List.Subset.refl _⟩
theorem State.req_dropReq (id : Nat) : (s.dropReq id).req id = none := by simp [State.req, State.dropReq]
theorem State.pass_dropPass (id : Nat) : (s.dropPass id).pass id = none := by simp [State.pass, State.dropPass]
theorem State.addsNone_leavePass (id : Nat) : s.addsNone (s.leavePass id) := by
  refine ⟨List.Subset.refl _, fun k hk => ?_⟩
  simp only [State.passIds, State.leavePass, State.modSv_sv, List.mem_map, List.mem_filter] at hk ⊢
  obtain ⟨p, ⟨⟨q, hq, rfl⟩, -⟩, rfl⟩ := hk
  exact ⟨q, hq, rfl⟩
theorem State.addsNone_freeSeq (sd id : Nat) : s.addsNone (s.freeSeq sd id) := .of_eq rfl rfl
theorem State.addsNone_settleSeq (r : Request) (status : Nat) : s.addsNone (s.settleSeq r status) := by
  unfold State.settleSeq
  dsimp only
  (repeat' split) <;> exact .of_eq rfl rfl
/-- The record of a request, its vectors and its energy leave the passes and the other requests as they were. -/
theorem State.addsNone_finish (r : Request) (st accepted share : Nat) (result : List Byte) (flr : Bool) :
    (s.dropReq r.id).addsNone (s.finish r st accepted share result flr) := by
  unfold State.finish
  extract_lets status acc cr s0 s1 s2 s3 s4
  have h1 : s1.sv = (s.dropReq r.id).sv := by
    have h0 : s0.sv = s.sv := by simp [s0]
    simp [s1, State.dropReq, h0]
  have h3 : s3.sv = s1.sv := by simp [s2, s3]
  have h4 : s3.addsNone s4 := .ite (.of_eq (by simp [State.modRes]) (by simp [State.modRes])) (.refl s3)
  refine ((State.addsNone.of_sv (h3.trans h1)).trans h4).trans (.of_sv ?_)
  simp
@[simp] theorem State.id_withPoison (r : Request) : (s.withPoison r).id = r.id := by
  unfold State.withPoison
  split
  · rfl
  · dsimp only
    split <;> rfl
theorem State.addsNone_endOne (r : Request) (st : Nat) (result : List Byte) (flr : Bool) :
    (s.dropReq r.id).addsNone (s.endOne r st result flr) := by
  unfold State.endOne
  extract_lets q status
  have hq : q.id = r.id := s.id_withPoison r
  have hfinish := s.addsNone_finish q st (acceptedOf q) (s.shareOf q) result flr
  rw [hq] at hfinish
  exact (((hfinish.trans (State.addsNone_leavePass _ _)).trans (State.addsNone_settleSeq _ _ _)).trans (.of_eq rfl rfl)).trans (.of_eq rfl rfl)
theorem State.addsNone_endReq (r : Request) (status : Nat) (result : List Byte) (flr : Bool) :
    (s.dropReq r.id).addsNone (s.endReq r status result flr) := by
  unfold State.endReq
  dsimp only
  refine .ite (s.addsNone_endOne r status result flr) ((s.addsNone_endOne r status result flr).each fun t id => ?_)
  split
  next q _ => exact (t.addsNone_dropReq q.id).trans (t.addsNone_endOne q 0x20 [] flr)
  · exact .refl t
theorem State.addsNone_adminEnd (id status : Nat) (body : List Byte) : s.addsNone (s.adminEnd id status body) := by
  unfold State.adminEnd
  split
  · exact .refl s
  · refine .of_eq ?_ ?_ <;> (dsimp only; (repeat' split) <;> simp)
theorem State.addsNone_runReleases : s.addsNone s.runReleases :=
  (State.addsNone.refl s).each fun t r => by
    dsimp only
    exact .ite (.refl t) (((t.addsNone_freeSeq _ _).trans (State.addsNone_dropReq _ _)).trans (State.addsNone_endReq _ _ _ _ _))
@[simp] theorem State.modLeavesOf_sv (b : Nat) (f : Leaf → Leaf) : (s.modLeavesOf b f).sv = s.sv :=
  State.foldl_frame (g := State.sv) (f := fun s l => s.modLeaf l f) (fun _ _ => rfl) (branchLeaves b) s
theorem State.releaseLoad_held (l : Load) : (s.releaseLoad l).sv.requests = s.sv.requests ∧ (s.releaseLoad l).sv.passes = s.sv.passes := by
  unfold State.releaseLoad
  extract_lets bs mine man last gone s1 s2
  have h1 : s1.sv = s.sv := by
    refine State.each_frame (g := State.sv) ?_ bs s
    exact fun _ _ => rfl
  have h2 : s2.sv = s1.sv := by
    refine State.each_frame (g := State.sv) ?_ bs s1
    exact fun t b => t.modLeavesOf_sv b _
  rw [State.modSv_sv, h2, h1]
  exact ⟨rfl, rfl⟩
theorem State.addsNone_runEvictions : s.addsNone s.runEvictions :=
  (State.addsNone.refl s).each fun t l => by
    have hrelease : t.addsNone (t.releaseLoad l) := .of_eq (t.releaseLoad_held l).1 (t.releaseLoad_held l).2
    split
    · exact .refl t
    · split
      · exact hrelease.trans (State.addsNone_adminEnd _ _ _ _)
      · exact hrelease
theorem State.addsNone_afterEnds : s.addsNone s.afterEnds := s.addsNone_runReleases.trans (State.addsNone_runEvictions _)
end

end Sys2Proof.Machine
end

section
/-! PASS_DISPATCH, BULK_PASS_DISPATCH, EXPRESS_PASS_DISPATCH and PASS_COMPLETE (10 R346, R347, R349, R350, 11 R381; log entries 5, 34). -/

namespace Sys2Proof.Machine

variable {s : State} {t inst : Nat} {i : Inst} {p : Pass}

/-! ### PASS_DISPATCH -/

section
variable (hrun : s.runningOn inst = none) (hp : (s.planOf inst).find? (fun p => !p.dispatched) = some p) (hready : s.maxReady p ≤ s.now)
  (hserving : s.serving = true)
include hrun hp hready hserving

/-- The first planned pass of an idle server dispatches as it stands, unless it is a Deadline pass. -/
theorem State.dispatchNext_of_other (hcls : p.cls ≠ 1) (hpass : s.pass p.id = some p) : s.dispatchNext inst = s.dispatch p := by
  unfold State.dispatchNext
  rw [hrun, hp]
  dsimp only
  rw [if_pos ⟨hready, hserving⟩]
  cases p.inst.bind s.inst with
  | none => simp only [hpass]
  | some i => simp only [if_neg hcls, hpass]
/-- A Deadline pass dispatches with the Bulk requests that fit. -/
theorem State.dispatchNext_of_deadline {q : Pass} (hcls : p.cls = 1) (hi : p.inst.bind s.inst = some i)
    (hq : (s.fillBulk p i).pass p.id = some q) : s.dispatchNext inst = (s.fillBulk p i).dispatch q := by
  unfold State.dispatchNext
  rw [hrun, hp]
  dsimp only
  rw [if_pos ⟨hready, hserving⟩, hi]
  dsimp only
  rw [if_pos hcls, hq]
end

theorem exec_passDispatch_inst (hfrozen : s.frozen = false) :
    exec (.passDispatch t (.inst inst)) s = .next ((s.at t).dispatchNext inst) :=
  if_neg (by rw [State.at_frozen, hfrozen]; simp)
theorem exec_passDispatch_ship {sd : Nat} (hfrozen : s.frozen = false) (hserving : (s.at t).serving = true) :
    exec (.passDispatch t (.ship sd)) s = .next ((s.at t).dispatchShip sd) := by
  refine (if_neg (by rw [State.at_frozen, hfrozen]; simp)).trans ?_
  rw [if_pos hserving]

/-- What the start of a ship leaves of the passes: the ship is dispatched. -/
theorem State.passes_dispatchShip {sd : Nat} (hnone : (s.shipPlan sd).find? (·.dispatched) = none)
    (hp : (s.shipPlan sd).find? (fun p => !p.dispatched) = some p) : (s.dispatchShip sd).sv.passes =
      mapIf (fun q => q.id == p.id) (fun q => { q with dispatched := true, dispatchTime := s.now }) s.sv.passes := by
  have hslots : ∀ (s : State) (ids : List Nat) (k : Nat), (s.assignSlots ids k).sv.passes = s.sv.passes := fun s ids k =>
    State.each_frame (g := fun s => s.sv.passes)
      (f := fun s (x : Nat × Nat) => s.modReq x.1 fun r => { r with slot := k + x.2, phase := .running }) (fun _ _ => rfl) ids.zipIdx s
  have hfetch : ∀ (s : State) (r : Request) (src : Nat), (s.fetchKv r src).sv.passes = s.sv.passes := by
    intro s r src
    unfold State.fetchKv
    dsimp only
    split <;> next h =>
      have hlaunch := congrArg (fun x : State × Option Nat => x.1.sv.passes) h
      rw [State.launch_sv] at hlaunch
      exact hlaunch.symm
  unfold State.dispatchShip
  rw [hnone, hp]
  dsimp only
  split
  · split
    · exact hslots _ _ _
    · exact (hfetch _ _ _).trans (hslots _ _ _)
  · exact hslots _ _ _
theorem State.shipPass_dispatchShip {sd : Nat} (hnone : (s.shipPlan sd).find? (·.dispatched) = none)
    (hp : (s.shipPlan sd).find? (fun p => !p.dispatched) = some p) : ((s.dispatchShip sd).shipPass sd).map (·.id) = some p.id := by
  have hmine : p ∈ s.sv.passes ∧ (p.inst == none && p.stand == sd) = true := List.mem_filter.1 (List.mem_of_find?_eq_some hp)
  have hidle : ∀ q ∈ s.sv.passes, (q.inst == none && q.stand == sd) = true → q.dispatched = false := fun q hq hmine => by
    simpa using List.find?_eq_none.1 hnone q (List.mem_filter.2 ⟨hq, hmine⟩)
  rw [State.shipPass, State.passes_dispatchShip hnone hp]
  cases hfind : (mapIf (fun q => q.id == p.id) (fun q => { q with dispatched := true, dispatchTime := s.now }) s.sv.passes).find?
      (fun p => p.inst == none && p.stand == sd && p.dispatched) with
  | none =>
    have := List.find?_eq_none.1 hfind _ (mem_mapIf.2 ⟨p, hmine.1, rfl⟩)
    simp only [BEq.rfl, if_true, Bool.and_true] at this
    exact absurd hmine.2 this
  | some x =>
    obtain ⟨q, hq, rfl⟩ := mem_mapIf.1 (List.mem_of_find?_eq_some hfind)
    have htest := List.find?_some hfind
    by_cases hid : (q.id == p.id) = true
    · rw [if_pos hid]
      exact congrArg some (beq_iff_eq.1 hid)
    · rw [if_neg hid] at htest
      obtain ⟨hq', hdis⟩ := Bool.and_eq_true_iff.1 htest
      rw [hidle q hq hq'] at hdis
      cases hdis

/-! ### BULK_PASS_DISPATCH and EXPRESS_PASS_DISPATCH -/

/-- The members that a Bulk pass takes of the waiting requests r :: rs, and the pass that BULK_PASS_DISPATCH plans for them. -/
def State.bulkMembers (s : State) (i : Inst) (r : Request) (rs : List Request) : List Request :=
  (r :: rs.filter (fun q => q.bucket == r.bucket)).take (entSlots (s.image i.load) i.entry)
def State.bulkPass (s : State) (inst : Nat) (i : Inst) (r : Request) (rs : List Request) : Pass :=
  let row := latLookup (s.image i.load) i.entry 1 s.level r.bucket (s.bulkMembers i r rs).length
  ⟨s.fresh.1, ((s.load i.load).map (·.stand)).getD 0, some inst, 2, r.bucket, (s.bulkMembers i r rs).map (·.id), s.now, row.getD 0,
    s.now + row.getD 0, row.isNone, false, 0, 0, false, 0, 0⟩
/-- The pass that EXPRESS_PASS_DISPATCH plans for the waiting requests rs. -/
def State.expressPass (s : State) (inst : Nat) (i : Inst) (rs : List Request) : Pass :=
  let img := s.image i.load
  let ms := rs.take (entSlots img i.entry)
  let bound := (ms.map fun r => (latLookup img i.entry 0 s.level r.bucket ms.length).getD 0).foldl Nat.max 0
  ⟨s.fresh.1, ((s.load i.load).map (·.stand)).getD 0, some inst, 0, 0, ms.map (·.id), s.now, bound, s.now + bound, false, false, 0, 0,
    false, 0, 0⟩
/-- The state with one more pass. -/
def State.addPass (s : State) (p : Pass) : State := s.modSv fun v => { v with passes := v.passes ++ [p] }

section
variable (hfrozen : s.frozen = false) (hi : (s.at t).inst inst = some i)
include hfrozen hi

theorem exec_bulkPassDispatch_of_plan (hplan : (s.at t).planOf inst ≠ []) :
    exec (.bulkPassDispatch t inst) s = .next ((s.at t).dispatchNext inst) := by
  obtain ⟨q, qs, hplan⟩ := List.exists_cons_of_ne_nil hplan
  refine (if_neg (by rw [State.at_frozen, hfrozen]; simp)).trans ?_
  rw [hi]
  dsimp only
  rw [hplan]
theorem exec_bulkPassDispatch_of_none (hplan : (s.at t).planOf inst = []) (hwait : (s.at t).bulkWaiting i none = []) :
    exec (.bulkPassDispatch t inst) s = .next (s.at t) := by
  refine (if_neg (by rw [State.at_frozen, hfrozen]; simp)).trans ?_
  rw [hi]
  dsimp only
  rw [hplan, hwait]
/-- A Bulk pass starts with the oldest waiting request first. -/
theorem exec_bulkPassDispatch_of_waiting {r : Request} {rs : List Request} (hserving : (s.at t).serving = true)
    (hplan : (s.at t).planOf inst = []) (hwait : (s.at t).bulkWaiting i none = r :: rs)
    (hslots : 0 < entSlots ((s.at t).image i.load) i.entry) :
    ∃ (s2 : State) (q : Pass), exec (.bulkPassDispatch t inst) s = .next (s2.dispatch q) ∧ q.cls = 2 ∧ q.inst = some inst ∧
      q.bucket = r.bucket ∧ q.members.head? = some r.id ∧ q.members.length ≤ entSlots ((s.at t).image i.load) i.entry ∧
      q ∈ s2.sv.passes := by
  have hmembers (ms : List Request) (u : State) : (u.each ms fun s m => s.modReq m.id fun x => { x with inst := inst }).sv.passes = u.sv.passes :=
    State.each_frame (g := fun s => s.sv.passes) (f := fun s m => s.modReq m.id fun x => { x with inst := inst }) (fun _ _ => rfl) ms u
  refine ⟨((s.at t).fresh.2.addPass ((s.at t).bulkPass inst i r rs)).each ((s.at t).bulkMembers i r rs) fun s m =>
    s.modReq m.id fun x => { x with inst := inst }, (s.at t).bulkPass inst i r rs, ?hexec, rfl, rfl, rfl, ?_, ?_, ?_⟩
  case hexec =>
    refine (if_neg (by rw [State.at_frozen, hfrozen]; simp)).trans ?_
    rw [hi]
    dsimp only
    rw [hplan, hwait]
    exact if_pos hserving
  · obtain ⟨n, hn⟩ := Nat.exists_eq_succ_of_ne_zero (Nat.ne_of_gt hslots)
    rw [State.bulkPass, State.bulkMembers, hn]
    rfl
  · rw [State.bulkPass, State.bulkMembers, List.length_map]
    exact List.length_take_le _ _
  · rw [hmembers]
    exact List.mem_append_right _ (List.mem_singleton.2 rfl)
theorem exec_expressPassDispatch_of_none (hrun : (s.at t).runningOn inst = none) (hwait : (s.at t).xQueue inst = []) :
    exec (.expressPassDispatch t inst) s = .next (s.at t) := by
  refine (if_neg (by rw [State.at_frozen, hfrozen]; simp)).trans ?_
  rw [hi, hrun]
  dsimp only
  rw [hwait]
/-- An Express pass starts with the waiting requests in their order. -/
theorem exec_expressPassDispatch_of_waiting {r : Request} {rs : List Request} (hserving : (s.at t).serving = true)
    (hrun : (s.at t).runningOn inst = none) (hwait : (s.at t).xQueue inst = r :: rs) :
    ∃ (s2 : State) (q : Pass), exec (.expressPassDispatch t inst) s = .next (s2.dispatch q) ∧ q.cls = 0 ∧ q.inst = some inst ∧
      q.members = ((r :: rs).take (entSlots ((s.at t).image i.load) i.entry)).map (·.id) ∧ q ∈ s2.sv.passes := by
  refine ⟨(s.at t).fresh.2.addPass ((s.at t).expressPass inst i (r :: rs)), (s.at t).expressPass inst i (r :: rs), ?hexec, rfl, rfl, rfl,
    List.mem_append_right _ (List.mem_singleton.2 rfl)⟩
  refine (if_neg (by rw [State.at_frozen, hfrozen]; simp)).trans ?_
  rw [hi, hrun]
  dsimp only
  rw [hwait]
  exact if_pos hserving

/-! ### PASS_COMPLETE -/

section
variable (hp : ((s.at t).planOf inst).find? (fun p => p.dispatched && p.inst == some inst) = some p) (hstarted : p.started = true)
include hp hstarted

theorem exec_passComplete_of_running (hdone : (s.at t).stageDone i = false) : exec (.passComplete t inst) s = .next (s.at t) := by
  refine (if_neg (by rw [State.at_frozen, hfrozen]; simp)).trans ?_
  rw [hi]
  dsimp only
  rw [hp]
  dsimp only
  rw [if_neg (by simp [hstarted]), hdone]
  rfl
/-- The configuration has ended: the next one starts, or the pass ends. -/
theorem exec_passComplete_of_done (hdone : (s.at t).stageDone i = true) (hout : (s.at t).outletsDone i = true)
    (hgroups : (s.at t).groupsDone p i = true) : exec (.passComplete t inst) s =
      if p.stage + 1 < (entCfgs ((s.at t).image i.load) i.entry).length then
        .next (((((s.at t).clearRings i).dropRouting p).modPass p.id (fun q => { q with stage := q.stage + 1, started := false })).runStage p.id)
      else .next ((s.at t).endPass p i) := by
  refine (if_neg (by rw [State.at_frozen, hfrozen]; simp)).trans ?_
  rw [hi]
  dsimp only
  rw [hp]
  dsimp only
  rw [if_neg (by simp [hstarted]), hdone, hout, hgroups]
  rfl
end
end

/-- A pass that has ended is held no more. -/
theorem State.pass_endPass (s : State) (p : Pass) (i : Inst) : (s.endPass p i).pass p.id = none := by
  unfold State.endPass
  refine (State.addsNone_afterEnds _).pass ?_
  rw [State.pass, State.modBranches_frame (g := State.sv) fun _ _ _ => rfl]
  exact State.pass_dropPass _ _

end Sys2Proof.Machine
end

section
/-! DEADLINE_GUARD, EXPRESS_CREDIT_REFILL and KV_SHIP_COMPLETE (10 R349, R352, 11 R381-R383; log entry 35). -/

namespace Sys2Proof.Machine

variable {s u : State} {t id sd c : Nat} {r : Request}

/-! ### DEADLINE_GUARD -/

theorem exec_deadlineGuard_of_due (hfrozen : s.frozen = false) (hr : (s.at t).req id = some r) (hlive : r.live = true)
    (hdue : r.deadline ≤ (s.at t).now + guardNs) : exec (.deadlineGuard t id) s =
      .next ((s.at t).endReq r (if r.fault ≠ 0 then r.fault else 0x5F) [] false).afterEnds := by
  refine (if_neg (by rw [State.at_frozen, hfrozen]; simp)).trans ?_
  rw [hr]
  exact if_pos ⟨hlive, hdue⟩
theorem exec_deadlineGuard_of_early (hfrozen : s.frozen = false) (hr : (s.at t).req id = some r)
    (hearly : (s.at t).now + guardNs < r.deadline) : exec (.deadlineGuard t id) s = .next (s.at t) := by
  refine (if_neg (by rw [State.at_frozen, hfrozen]; simp)).trans ?_
  rw [hr]
  exact if_neg fun h => Nat.not_le.2 hearly h.2
/-- A request that has ended is held no more. -/
theorem State.req_endReq_afterEnds (s : State) (r : Request) (status : Nat) (result : List Byte) (flr : Bool) :
    ((s.endReq r status result flr).afterEnds).req r.id = none :=
  ((s.addsNone_endReq r status result flr).trans (State.addsNone_afterEnds _)).req (s.req_dropReq r.id)

/-! ### The credits of a contract -/

theorem find?_tput {α : Type} (l : Tab α) (k : Nat) (v : α) : (tput l k v).find? (fun x => x.1 == k) = some (k, v) := by
  induction l with
  | nil => simp [tput]
  | cons e l ih =>
    obtain ⟨j, w⟩ := e
    unfold tput
    split
    · simp
    · split
      · simp
      next hne => rw [List.find?_cons_of_neg (by simpa using Ne.symm hne), ih]
theorem tput_tput {α : Type} (l : Tab α) (k : Nat) (v w : α) : tput (tput l k v) k w = tput l k w := by
  induction l with
  | nil => simp [tput]
  | cons e l ih =>
    obtain ⟨j, x⟩ := e
    by_cases hlt : k < j
    · simp [tput, hlt]
    · by_cases heq : k = j
      · simp [tput, heq]
      · simp [tput, hlt, heq, ih]
theorem State.credits_table_setCredits (s : State) (sd c v : Nat) :
    (s.setCredits sd c v).sv.credits = tput s.sv.credits (sd * 8 + c) ⟨v, s.now + 1⟩ :=
  if_neg (by simp)
/-- From s to t the time, the stored credits and the burst of contract c of stand sd stay. -/
structure State.keepsContract (s t : State) (sd c : Nat) : Prop where
  now : t.now = s.now
  table : t.sv.credits = s.sv.credits
  burst : t.xBurst sd c = s.xBurst sd c

section
variable {s t u : State} {sd c : Nat}

theorem State.keepsContract.trans (h : s.keepsContract t sd c) (h' : t.keepsContract u sd c) : s.keepsContract u sd c :=
  ⟨h'.now.trans h.now, h'.table.trans h.table, h'.burst.trans h.burst⟩
theorem State.onlySends.keepsContract (h : s.onlySends t) : s.keepsContract t sd c := by
  obtain ⟨_, _, rfl⟩ := h
  exact ⟨rfl, rfl, rfl⟩
/-- The credits just stored are those a contract has, up to its burst. -/
theorem State.keepsContract.credits_of_stored {v : Nat} (h : (s.setCredits sd c v).keepsContract u sd c)
    (hv : v ≤ s.xBurst sd c * 1000000000) : u.credits sd c = v := by
  have hburst : u.xBurst sd c = s.xBurst sd c := h.burst
  have hnow : u.now = s.now := h.now
  unfold State.credits
  rw [h.table, State.credits_table_setCredits, find?_tput]
  dsimp only
  rw [hnow, hburst, Nat.sub_self, Nat.mul_zero, Nat.add_zero]
  exact Nat.min_eq_right hv
end
theorem State.credits_le_burst (s : State) (sd c : Nat) : s.credits sd c ≤ s.xBurst sd c * 1000000000 := by
  unfold State.credits
  split
  · exact Nat.le_refl _
  · exact Nat.min_le_left _ _
theorem State.credits_setCredits (s : State) (sd c : Nat) :
    (s.setCredits sd c (s.credits sd c)).credits sd c = s.credits sd c :=
  State.keepsContract.credits_of_stored ⟨rfl, rfl, rfl⟩ (s.credits_le_burst sd c)
/-- What EXPRESS_CREDIT_REFILL leaves: the contract's credits, stored as of now. -/
def State.storeCredits (s : State) (sd c : Nat) : State := s.setCredits sd c (s.credits sd c)
theorem State.at_eq_self {s : State} {t : Nat} (h : t % 2 ^ 64 ≤ s.now) : s.at t = s :=
  congrArg (fun n => { s with now := n }) (Nat.max_eq_left h)
theorem State.at_storeCredits (s : State) (t sd c : Nat) : ((s.at t).storeCredits sd c).at t = (s.at t).storeCredits sd c :=
  State.at_eq_self (Nat.le_max_right s.now (t % 2 ^ 64))
/-- Credits stored a second time at the same time are the same. -/
theorem State.storeCredits_storeCredits (s : State) (sd c : Nat) : (s.storeCredits sd c).storeCredits sd c = s.storeCredits sd c := by
  have hsame : (s.storeCredits sd c).credits sd c = s.credits sd c := s.credits_setCredits sd c
  have htable : ((s.storeCredits sd c).storeCredits sd c).sv.credits = (s.storeCredits sd c).sv.credits := by
    rw [State.storeCredits, hsame, State.credits_table_setCredits, State.storeCredits, State.credits_table_setCredits]
    exact tput_tput _ _ _ _
  exact congrArg (fun l => (s.storeCredits sd c).modSv fun v => { v with credits := l }) htable
theorem exec_expressCreditRefill (s : State) (t sd c : Nat) : exec (.expressCreditRefill t sd c) s = .next ((s.at t).storeCredits sd c) := rfl
/-- A second refill at the same time changes nothing. -/
theorem exec_expressCreditRefill_again (s : State) (t sd c : Nat) :
    exec (.expressCreditRefill t sd c) ((s.at t).storeCredits sd c) = .next ((s.at t).storeCredits sd c) := by
  rw [exec_expressCreditRefill, State.at_storeCredits, State.storeCredits_storeCredits]

/-! ### KV_SHIP_COMPLETE -/

section
variable (hfrozen : s.frozen = false) (hr : (s.at t).shipRunning sd = some r) (hfault : r.fault = 0)
include hfrozen hr hfault

/-- A ship from another part ends once its last page has arrived. -/
theorem exec_kvShipComplete_of_remote (hsrc : fieldLE r.desc 32 8 / 2 ^ 48 ≠ (s.at t).ownPid)
    (hstage : ((s.at t).shipPass sd).map (·.stage) = some 1) :
    exec (.kvShipComplete t sd) s = .next ((s.at t).endReq r 0 [] false).afterEnds := by
  refine (if_neg (by rw [State.at_frozen, hfrozen]; simp)).trans ?_
  rw [hr]
  dsimp only
  rw [if_neg (not_not.2 hfault), if_neg hsrc, hstage]
  rfl
/-- A ship from a record of this part ends with its pages copied. -/
theorem exec_kvShipComplete_of_local {q d : Seq} (hsrc : fieldLE r.desc 32 8 / 2 ^ 48 = (s.at t).ownPid)
    (hq : (s.at t).seq (fld (fieldLE r.desc 32 8) 45 40) (fieldLE r.desc 32 8 % 2 ^ 32) = some q) (hd : (s.at t).seq sd r.seqId = some d)
    (hok : shipSourceOk q r.inLen d.geometry = true) : exec (.kvShipComplete t sd) s =
      .next (((s.at t).copyPages q.stand q.id sd r.seqId r.inLen d.geometry).endReq r 0 [] false).afterEnds := by
  refine (if_neg (by rw [State.at_frozen, hfrozen]; simp)).trans ?_
  rw [hr]
  dsimp only
  rw [if_neg (not_not.2 hfault), if_pos hsrc, hq, hd]
  exact if_pos hok
end

end Sys2Proof.Machine
end

section
/-! INLET_FRAME of a bound inlet: a sound frame within its contract becomes a waiting request (10 R349, 11 R391, R392; log entries 5, 35). -/

namespace Sys2Proof.Machine

theorem mem_mapIf_of_pos {α : Type} {p : α → Bool} {f : α → α} {l : List α} {x : α} (hx : x ∈ l) (hp : p x = true) :
    f x ∈ mapIf p f l := mem_mapIf.2 ⟨x, hx, (if_pos hp).symm⟩

/-! ### What a contract's credits depend on -/

section
variable (s : State) (sd c : Nat)

/-- A contract register holds its burst above the pending bits, where the two lie on one offset. -/
theorem State.keepsContract_wbit (o v : Nat) (b : Bool) (hv : v < 32) : s.keepsContract (s.wbit o v b) sd c := by
  refine ⟨rfl, rfl, ?_⟩
  by_cases ho : Reg.stdXcon sd c = o
  · subst ho
    exact rf_wf_field s _ v v _ 47 32 (Nat.le_refl v) (by decide) (.inr hv)
  · exact rf_wf_other s _ _ _ _ _ _ _ ho
theorem State.keepsContract_setVector (sd' v : Nat) (hv : v < 32) : s.keepsContract (s.setVector sd' v) sd c := by
  have hbit := s.keepsContract_wbit sd c (Reg.stdIrqPend sd') v true hv
  unfold State.setVector
  split
  · exact ⟨rfl, rfl, rfl⟩
  · dsimp only
    split
    · exact hbit
    · exact hbit.trans ((State.onlySends_vecMessage _ sd' v).trans (State.onlySends_alertEdge _)).keepsContract
theorem State.keepsContract_addBucket (d : Int) : s.keepsContract (s.addBucket sd d) sd c := by
  have hne : Reg.stdXcon sd c ≠ Reg.nrgBucket sd := by
    unfold Reg.stdXcon Reg.nrgBucket
    omega
  have hput : s.keepsContract (s.putReg (Reg.nrgBucket sd) (unsigned64 (s.bucket sd + d))) sd c :=
    ⟨rfl, rfl, congrArg (fun v => fld v 47 32) (reg_putReg_other _ _ _ _ hne)⟩
  unfold State.addBucket
  dsimp only
  split
  · exact hput.trans (State.keepsContract_setVector _ sd c sd 15 (by decide))
  · exact hput
theorem State.keepsContract_traceStand (sd' type : Nat) (payload : List Byte) : s.keepsContract (s.traceStand sd' type payload) sd c := by
  have hne (o : Nat) (ho : o < 0x10000) : Reg.stdXcon sd c ≠ o := by
    unfold Reg.stdXcon
    omega
  unfold State.traceStand
  split
  · obtain ⟨_, _, h, -, -, hreg⟩ := s.traceRec_only type s.now payload
    refine ⟨by rw [h], by rw [h], congrArg (fun v => fld v 47 32) (hreg _ (hne _ ?_) (hne _ ?_) (hne _ ?_))⟩ <;> decide
  · exact ⟨rfl, rfl, rfl⟩
theorem State.decided_eq (r : Request) : ∃ hi lo x, s.decided r = s.wf Reg.admDecMax hi lo x := by
  unfold State.decided
  dsimp only
  split <;> exact ⟨_, _, _, rfl⟩
theorem State.keepsContract_decided (r : Request) : s.keepsContract (s.decided r) sd c := by
  have hne : Reg.stdXcon sd c ≠ Reg.admDecMax := by
    unfold Reg.stdXcon Reg.admDecMax
    omega
  obtain ⟨hi, lo, x, h⟩ := s.decided_eq r
  rw [h]
  exact ⟨rfl, rfl, rf_wf_other s _ _ _ _ _ _ _ hne⟩
theorem State.keepsContract_accept (r : Request) (f : Request → Request) : s.keepsContract (s.accept r f) sd c := by
  unfold State.accept
  dsimp only
  refine State.keepsContract.trans ?_ (State.keepsContract_traceStand _ sd c _ _ _)
  exact ⟨rfl, rfl, rfl⟩
end

/-! ### An Express request within its contract -/

section
variable {s : State} {r : Request} {l : Load} {i : Inst} {c : Nat}

/-- An Express request as its acceptance leaves it. -/
def State.expressReq (s : State) (r : Request) (l : Load) (i : Inst) (c : Nat) (q : Request) : Request :=
  let uj := (nrgLookup l.image r.entry s.level r.bucket 1).getD 0
  { q with inst := i.id, load := l.id, entry := r.entry, bucket := r.bucket, contract := c, debit := s.debitOf uj, uj := uj, ready := s.now,
           graft := r.graft }
/-- Within its contract a request without a graft is accepted, for one credit. -/
theorem State.decideExpress_of_contract (hreload : (s.res r.stand).reload = false) (hcredits : 1000000000 ≤ s.credits r.stand c)
    (hlate : (s.xLatency r.stand c l.image r.entry s.level : Int) ≤ (r.deadline : Int) - r.arrival) (hgraft : r.graft = none) :
    ∃ (v : Nat) (d : Int), v + 1000000000 = s.credits r.stand c ∧
      s.decideExpress r l i c = ((s.setCredits r.stand c v).accept r (s.expressReq r l i c)).addBucket r.stand d := by
  have htake : (s.takeGraft r).1 = s := by simp [State.takeGraft, hgraft]
  refine ⟨s.credits r.stand c - 1000000000, -(s.debitOf ((nrgLookup l.image r.entry s.level r.bucket 1).getD 0) : Int),
    Nat.sub_add_cancel hcredits, ?_⟩
  unfold State.decideExpress
  rw [if_neg (by simp [hreload]), if_neg (Nat.not_lt.2 hcredits), if_neg (Int.not_lt.2 hlate), htake]
  rfl
theorem State.requests_accept (s : State) (r : Request) (f : Request → Request) : (s.accept r f).sv.requests =
    mapIf (fun q => q.id == r.id) (fun q => { f q with phase := .waiting }) s.sv.requests := by
  simp [State.accept, State.modRes, State.modReq]
@[simp] theorem State.decided_sv (s : State) (r : Request) : (s.decided r).sv = s.sv := by
  obtain ⟨hi, lo, x, h⟩ := s.decided_eq r
  rw [h, State.wf_sv]
end

/-! ### The frame -/

section
variable {s : State} {t num k : Nat} {f : List Byte} {n : Inlet} {i : Inst} {l : Load}

/-- Frame f is sound at inlet num, which is n and leads to i of the bound load l, with bucket k. -/
structure State.frameSound (s : State) (num k : Nat) (f : List Byte) (n : Inlet) (i : Inst) (l : Load) : Prop where
  inlet : s.sv.inlets.find? (fun n => n.num == num) = some n
  inst : s.inst n.inst = some i
  load : s.load i.load = some l
  bound : l.bound = true
  check : fieldLE f 28 4 = recCheck (fieldLE f 0 4) (f.take 28)
  flags : fieldLE f 6 2 = 0
  reserved : fieldLE f 24 4 = 0
  size : fieldLE f 4 2 = declSize (declRec l.image n.decl) fun k => fieldLE f (16 + 2 * k) 2
  limit : fieldLE f 4 2 ≤ 4064
  payload : (f.drop 32).length = fieldLE f 4 2
  shapes : (List.range 4).all (fun k => decide (fieldLE f (16 + 2 * k) 2 ≤ shapeMax (entShape l.image i.entry) k) &&
    (shapeUsed (entShape l.image i.entry) k || fieldLE f (16 + 2 * k) 2 == 0)) = true
  bucket : bucketOf (entShape l.image i.entry) (fun k => fieldLE f (16 + 2 * k) 2) = some k

/-- The deadline of a frame: its own, or that of the contract. -/
def State.frameDeadline (s : State) (f : List Byte) (n : Inlet) (i : Inst) (l : Load) : Nat :=
  if fieldLE f 8 8 = 0 then s.now + s.xLatency n.stand n.contract l.image i.entry s.level else fieldLE f 8 8
/-- The undecided request that a frame makes. -/
def State.frameReq (s : State) (num : Nat) (f : List Byte) (n : Inlet) (i : Inst) (l : Load) : Request :=
  ⟨s.sv.nextId, n.stand, 8, num, n.contract, frameDesc f (s.frameDeadline f n i l) (l.cfgBase + i.entry), f.drop 32, s.now,
    s.frameDeadline f n i l, .undecided, l.id, i.entry, i.id, 0, s.now, 0, 0, 0, 0, 0, 0, 0, 0, 0, none, 0, false, []⟩
/-- The state with the request of a frame, before its decision. -/
def State.frameTaken (s : State) (k : Nat) (r : Request) : State :=
  (s.fresh.2.modSv fun v => { v with requests := v.requests ++ [r] }).modReq r.id fun q => { q with bucket := k }

theorem State.inletFrame_of_sound (h : s.frameSound num k f n i l) : s.inletFrame num f =
    ((s.frameTaken k (s.frameReq num f n i l)).decideExpress { s.frameReq num f n i l with bucket := k } l i n.contract).decided
      (s.frameReq num f n i l) := by
  unfold State.inletFrame
  rw [h.inlet]
  dsimp only
  rw [h.inst]
  dsimp only
  rw [h.load]
  dsimp only
  have hsize : ¬(fieldLE f 4 2 ≠ declSize (declRec l.image n.decl) (fun k => fieldLE f (16 + 2 * k) 2) ∨ 4064 < fieldLE f 4 2 ∨
      (f.drop 32).length ≠ fieldLE f 4 2 ∨
      (List.range 4).all (fun k => decide (fieldLE f (16 + 2 * k) 2 ≤ shapeMax (entShape l.image i.entry) k) &&
        (shapeUsed (entShape l.image i.entry) k || fieldLE f (16 + 2 * k) 2 == 0)) = false) := by
    rintro (hne | hlt | hne | hbad)
    · exact hne h.size
    · exact Nat.not_lt.2 h.limit hlt
    · exact hne h.payload
    · exact Bool.false_ne_true (hbad.symm.trans h.shapes)
  rw [if_neg (by simp [h.bound]), if_neg (not_not.2 h.check), if_neg (by simp [h.flags, h.reserved]), if_neg hsize, h.bucket]
  rfl

/-- What the acceptance of a frame leaves: its waiting request, and one credit less. -/
theorem State.accepted_inletFrame (h : s.frameSound num k f n i l) (hreload : (s.res n.stand).reload = false)
    (hcredits : 1000000000 ≤ s.credits n.stand n.contract)
    (hlate : fieldLE f 8 8 = 0 ∨ (s.xLatency n.stand n.contract l.image i.entry s.level : Int) ≤ (fieldLE f 8 8 : Int) - s.now) :
    ∃ q ∈ (s.inletFrame num f).sv.requests, q.id = s.sv.nextId ∧ q.phase = .waiting ∧ q.inst = i.id ∧ q.inlet = num ∧
      q.payload = f.drop 32 ∧ q.bucket = k ∧
      (s.inletFrame num f).credits n.stand n.contract = s.credits n.stand n.contract - 1000000000 := by
  let r := s.frameReq num f n i l
  let u := s.frameTaken k r
  have hintime : (u.xLatency n.stand n.contract l.image i.entry u.level : Int) ≤ (s.frameDeadline f n i l : Int) - s.now := by
    show (s.xLatency n.stand n.contract l.image i.entry s.level : Int) ≤ _
    unfold State.frameDeadline
    split
    · omega
    next hne => exact hlate.resolve_left hne
  obtain ⟨v, d, hv, hdecide⟩ := State.decideExpress_of_contract (s := u) (r := { r with bucket := k }) (l := l) (i := i) (c := n.contract)
    hreload hcredits hintime rfl
  have hframe : s.inletFrame num f = (((u.setCredits n.stand n.contract v).accept
      { r with bucket := k } (u.expressReq { r with bucket := k } l i n.contract)).addBucket n.stand d).decided r :=
    (State.inletFrame_of_sound h).trans (congrArg (fun s => State.decided s r) hdecide)
  have hkeeps : (u.setCredits n.stand n.contract v).keepsContract (s.inletFrame num f)
      n.stand n.contract := by
    rw [hframe]
    exact ((State.keepsContract_accept _ _ _ _ _).trans (State.keepsContract_addBucket _ _ _ _)).trans (State.keepsContract_decided _ _ _ _)
  have hrequests : (s.inletFrame num f).sv.requests = mapIf (fun q => q.id == r.id)
      (fun q => { u.expressReq { r with bucket := k } l i n.contract q with phase := .waiting }) u.sv.requests := by
    rw [hframe, State.decided_sv, State.addBucket_sv, State.requests_accept]
    rfl
  have hmem : { r with bucket := k } ∈ u.sv.requests :=
    mem_mapIf_of_pos (List.mem_append_right _ (List.mem_singleton.2 rfl)) (beq_self_eq_true r.id)
  rw [hrequests]
  refine ⟨_, mem_mapIf_of_pos hmem (beq_self_eq_true r.id), rfl, rfl, rfl, rfl, rfl, rfl, ?_⟩
  have hv : v + 1000000000 = s.credits n.stand n.contract := hv
  rw [hkeeps.credits_of_stored ((Nat.le.intro hv).trans (s.credits_le_burst n.stand n.contract)), ← hv, Nat.add_sub_cancel]
end

end Sys2Proof.Machine
end

section
/-! OUTLET_FRAME_SEND (05 R190, 11 R395; log entry 35), and O32, assembled from the sections above. -/

namespace Sys2Proof.Machine

/-! ### OUTLET_FRAME_SEND -/

section
variable {s : State} {t inst : Nat} {i : Inst} {o : Nat × Nat × (Nat × Nat × Nat)} {beats : List Beat} {tok : Tok} {rest : List SlotItem}

/-- The lane of an outlet's circuit, and what waits in it: the beats before the first token, the token, and what follows. -/
def outletLane (o : Nat × Nat × (Nat × Nat × Nat)) : Nat := barkKey o.2.2.1 o.2.2.2.1 o.2.2.2.2
def State.outletWaits (s : State) (o : Nat × Nat × (Nat × Nat × Nat)) : Option (List Beat × Tok × List SlotItem) :=
  untilTok (tget Lane.empty (s.branch o.2.1).lanes (outletLane o)).ready
/-- The outlet's lane without what the outlet unit takes, whose queue entries are free again. -/
def State.takeOutlet (s : State) (o : Nat × Nat × (Nat × Nat × Nat)) (beats : List Beat) (tok : Tok) (rest : List SlotItem) : State :=
  ((s.modLane o.2.1 (outletLane o) fun x => { x with ready := rest }).freeCredits o.2.1 (beats.map (·.src)) true).freeCredit o.2.1 tok.src false

variable (hfrozen : s.frozen = false) (hi : (s.at t).inst inst = some i)
include hfrozen hi

theorem exec_outletFrameSend_of_none
    (hnone : ∀ o ∈ (s.at t).outletsOf i ((s.at t).branch i.home).active, (s.at t).outletWaits o = none) :
    exec (.outletFrameSend t inst) s = .next (s.at t) := by
  have hfind : ((s.at t).outletsOf i ((s.at t).branch i.home).active).findSome? (fun o =>
      ((s.at t).outletWaits o).map fun x => (o.1, o.2.1, outletLane o, x)) = none :=
    List.findSome?_eq_none_iff.2 fun o ho => by rw [hnone o ho, Option.map_none]
  refine (if_neg (by rw [State.at_frozen, hfrozen]; simp)).trans ?_
  rw [hi]
  dsimp only
  unfold State.outletWaits outletLane at hfind
  rw [hfind]

variable {more : List (Nat × Nat × (Nat × Nat × Nat))} (houts : (s.at t).outletsOf i ((s.at t).branch i.home).active = o :: more)
  (hwaits : (s.at t).outletWaits o = some (beats, tok, rest))
include houts hwaits

/-- The first outlet's END token frees its queue entries. -/
theorem exec_outletFrameSend_of_end (hend : isEndTok tok.word = true) :
    exec (.outletFrameSend t inst) s = .next ((s.at t).takeOutlet o beats tok rest) := by
  unfold State.outletWaits outletLane at hwaits
  refine (if_neg (by rw [State.at_frozen, hfrozen]; simp)).trans ?_
  rw [hi]
  dsimp only
  rw [houts, List.findSome?_cons, hwaits]
  exact if_pos hend
/-- The first outlet's slot token, with as many beats as its result has, ends the request of its slot with that result. -/
theorem exec_outletFrameSend_of_slot {p : Pass} {r : Request} (hend : isEndTok tok.word = false)
    (hp : ((s.at t).takeOutlet o beats tok rest).runningOn inst = some p)
    (hr : ((s.at t).takeOutlet o beats tok rest).slotReq p (tokValue tok.word) = some r)
    (hsize : beats.length = cdiv (declSize (declRec (((s.at t).takeOutlet o beats tok rest).image i.load) o.1) r.shape) 64) :
    exec (.outletFrameSend t inst) s = .next ((((s.at t).takeOutlet o beats tok rest).endReq
      (((s.at t).takeOutlet o beats tok rest).asEnded i r) (((s.at t).takeOutlet o beats tok rest).asEnded i r).endStatus
      ((beats.flatMap (·.data)).take (declSize (declRec (((s.at t).takeOutlet o beats tok rest).image i.load) o.1) r.shape))
      false).afterEnds) := by
  unfold State.outletWaits outletLane at hwaits
  refine (if_neg (by rw [State.at_frozen, hfrozen]; simp)).trans ?_
  rw [hi]
  dsimp only
  rw [houts, List.findSome?_cons, hwaits]
  refine (if_neg (by rw [hend]; simp)).trans ?_
  unfold State.takeOutlet outletLane at hp hr hsize
  rw [hp, Option.bind_some, hr]
  exact if_neg (not_not.2 hsize)
end

/-! ### INLET_FRAME -/

theorem exec_inletFrame_of_serving {s : State} {t num : Nat} {f : List Byte} (hfrozen : s.frozen = false) (hserving : (s.at t).serving = true) :
    exec (.inletFrame t num f) s = .next ((s.at t).inletFrame num f) :=
  (if_neg (by rw [State.at_frozen, hfrozen]; simp)).trans (if_pos hserving)

/-! ### O32 -/

/-- Settles O32, clause by clause: the dispatch of a planned pass, of a ship, of Bulk and of Express requests, and PASS_COMPLETE; then the
deadline guard, credits, ships, and the frames of inlets and outlets. -/
theorem passesTimersAndFrames : Obligations.PassesTimersAndFrames := by
  unfold Obligations.PassesTimersAndFrames
  refine ⟨fun s t inst i p => ?passes, fun s t => ?timers⟩
  case passes =>
    intro s1 hserving hfrozen hi
    have hfrozen : s.frozen = false := hfrozen
    refine ⟨fun hidle hplan hready => ⟨fun hcls hpass => ?other, fun i' q hcls hi' hq => ?deadline⟩, fun sd hidle hplan => ?ship,
      fun hplan hwait => exec_bulkPassDispatch_of_none hfrozen hi hplan hwait,
      fun r rs hplan hwait hslots => exec_bulkPassDispatch_of_waiting hfrozen hi hserving hplan hwait hslots,
      fun hidle hwait => exec_expressPassDispatch_of_none hfrozen hi hidle hwait,
      fun r rs hidle hwait => exec_expressPassDispatch_of_waiting hfrozen hi hserving hidle hwait,
      fun hrunning hstarted => ⟨fun hdone hout hgroups => ⟨fun hlast => ⟨?ends, s1.pass_endPass p i⟩, fun hnext => ?next⟩,
        fun hdone => exec_passComplete_of_running hfrozen hi hrunning hstarted hdone⟩⟩
    case other =>
      rw [exec_passDispatch_inst hfrozen, State.dispatchNext_of_other hidle hplan hready hserving hcls hpass]
    case deadline =>
      have hnext := State.dispatchNext_of_deadline hidle hplan hready hserving hcls hi' hq
      have hsome : s1.planOf inst ≠ [] := fun hnil => by
        rw [hnil] at hplan
        cases hplan
      exact ⟨(exec_passDispatch_inst hfrozen).trans (congrArg _ hnext),
        (exec_bulkPassDispatch_of_plan hfrozen hi hsome).trans (congrArg _ hnext)⟩
    case ship => exact ⟨_, exec_passDispatch_ship hfrozen hserving, State.shipPass_dispatchShip hidle hplan⟩
    case ends =>
      rw [exec_passComplete_of_done hfrozen hi hrunning hstarted hdone hout hgroups]
      exact if_neg (Nat.not_lt.2 hlast)
    case next =>
      rw [exec_passComplete_of_done hfrozen hi hrunning hstarted hdone hout hgroups]
      exact if_pos hnext
  case timers =>
    intro s1 hfrozen
    have hfrozen : s.frozen = false := hfrozen
    refine ⟨fun id r hr => ⟨fun hlive hdue => ?due, fun hearly => exec_deadlineGuard_of_early hfrozen hr hearly⟩,
      fun sd c => ?credits, fun sd r hr hfault => ⟨fun hsrc hstage => exec_kvShipComplete_of_remote hfrozen hr hfault hsrc hstage,
        fun q d hsrc hq hd hok => exec_kvShipComplete_of_local hfrozen hr hfault hsrc hq hd hok⟩,
      fun num k f n i l => ?inlet, fun inst i hi => ⟨fun hnone => exec_outletFrameSend_of_none hfrozen hi hnone, ?outlet⟩⟩
    case due =>
      have hid : r.id = id := by simpa using List.find?_some hr
      exact ⟨exec_deadlineGuard_of_due hfrozen hr hlive hdue, hid ▸ s1.req_endReq_afterEnds r _ [] false⟩
    case credits =>
      exact ⟨_, exec_expressCreditRefill s t sd c, s1.credits_setCredits sd c, rfl, rfl, exec_expressCreditRefill_again s t sd c⟩
    case inlet =>
      intro hserving hn hi hl hbound sh shape late hcheck hflags hreserved hsize hlimit hpayload hshapes hbucket hreload hcredits hlate
      have hsound : s1.frameSound num k f n i l :=
        ⟨hn, hi, hl, hbound, hcheck, hflags, hreserved, hsize, hlimit, hpayload, hshapes, hbucket⟩
      obtain ⟨q, hq, hid, hphase, hinst, hinlet, hbytes, hbucket, hspent⟩ := State.accepted_inletFrame hsound hreload hcredits hlate
      exact ⟨_, q, exec_inletFrame_of_serving hfrozen hserving, hq, hid, hphase, hinst, hinlet, hbytes, hbucket, hspent⟩
    case outlet =>
      exact fun o more beats tok rest houts hwaits => ⟨exec_outletFrameSend_of_end hfrozen hi houts hwaits,
        fun p r hend hp hr hsize => exec_outletFrameSend_of_slot hfrozen hi houts hwaits hend hp hr hsize⟩

end Sys2Proof.Machine
end
